-- ==== Sys2Proof/Word.lean ====
section
/-!
DEFINITION. The word types of the machine: the widths the spec names (00 R8, 01 R9, R11).
-/
namespace Sys2Proof

/-- One byte of memory. -/
abbrev Byte := BitVec 8

/-- A lane element word, 32 bits per lane (01 R11). -/
abbrev Word32 := BitVec 32

/-- A scalar register, an address or a system register (01 R11, R14). -/
abbrev Word64 := BitVec 64

/-- A mask register: one bit per lane of the team (01 R11). -/
abbrev MaskWord := BitVec 1024

end Sys2Proof
end

