-- ==== Sys2Proof/Syntax.lean ====
section
/-!
DEFINITION. The instructions of the Nybulan V9: scalar words (01 R18 to R23), lane words and pairs (01 R26 to R34),
and the steps of the machine's other agents that the opcode table lists as rows of their own.
-/
namespace Sys2Proof

/-- A scalar register number (01 R11). -/
abbrev XReg := BitVec 5

/-- Fields of a single lane word of the integer, float and format classes (01 R26, R30). -/
structure LArith where
  vd : BitVec 7
  va : BitVec 7
  vb : BitVec 7
  vc : BitVec 7
  mask : BitVec 4
  fmt : BitVec 5
  rnd : BitVec 3
  sat : Bool
  na : Bool
  nb : Bool
  nc : Bool
  bsel : BitVec 2
  imm : Bool
  spc : Bool
  imm32 : Word32
  deriving DecidableEq, Repr

/-- Fields of a lane word of the mask class (01 R32). -/
structure LMask where
  vd : BitVec 7
  va : BitVec 7
  vb : BitVec 7
  vc : BitVec 7
  mask : BitVec 4
  fmt : BitVec 5
  cnd : BitVec 4
  imm : Bool
  spc : Bool
  imm32 : Word32
  deriving DecidableEq, Repr

/-- Fields of a lane word of the cross-lane class (01 R32). -/
structure LCross where
  vd : BitVec 7
  va : BitVec 7
  vb : BitVec 7
  vc : BitVec 7
  mask : BitVec 4
  fmt : BitVec 5
  rop : BitVec 4
  exc : Bool
  vk : BitVec 2
  bsel : BitVec 2
  imm : Bool
  spc : Bool
  imm32 : Word32
  deriving DecidableEq, Repr

/-- Fields of a lane word of the memory class (01 R33). -/
structure LMem where
  vd : BitVec 7
  va : BitVec 7
  vb : BitVec 7
  vc : BitVec 7
  mask : BitVec 4
  fmt : BitVec 5
  scope : BitVec 3
  cov : Bool
  col : BitVec 3
  hint : BitVec 2
  aop : BitVec 4
  imm32 : Word32
  deriving DecidableEq, Repr

/-- Fields of a lane word of the matrix and Cascade class (01 R33). -/
structure LMat where
  vd : BitVec 7
  va : BitVec 7
  vb : BitVec 7
  vc : BitVec 7
  mask : BitVec 4
  fmt : BitVec 5
  rnd : BitVec 3
  sat : Bool
  cop : BitVec 2
  bsel : BitVec 2
  imm32 : Word32
  deriving DecidableEq, Repr

/-- Fields of a lane word of the control class (01 R33): the mask field alone is not checked. -/
structure LCtl where
  mask : BitVec 4
  deriving DecidableEq, Repr

/-- One half of a pair (01 R27). -/
structure Half where
  op7 : BitVec 7
  vd : BitVec 7
  va : BitVec 7
  vb : BitVec 7
  vc : BitVec 7
  mask : BitVec 4
  fmt : BitVec 5
  mod3 : BitVec 3
  deriving DecidableEq, Repr

/-- What a patrol scrub, or a consumer of data, finds (22 R372, R388). -/
inductive ScrubFinding where
  /-- nothing -/
  | clean
  /-- a correctable error at an address: in cluster cache or cluster buffer `loc` (below 48), in HBM stack `loc - 48`, or in none of
  them (255), and in what belongs to a context, where that is known (22 R372, R374) -/
  | corrected (addr loc : Nat) (ctx : Option Nat)
  /-- an uncorrectable error in a clean line of a cluster cache: the line is dropped -/
  | cleanLine (cluster line : Nat)
  /-- an uncorrectable error in the line of a home slice that is the `n`th in its order of use, in a way -/
  | homeLine (slice way n : Nat)
  /-- an uncorrectable error in a dirty cluster-cache line, that of the `n`th sector written there, in a way -/
  | dirtyLine (cluster way n : Nat)
  /-- an uncorrectable error in the `n`th entry of a Weir buffer and its spill area -/
  | weirEntry (cluster n : Nat)
  /-- an uncorrectable error of an ordinary HBM sector, by log position -/
  | hbmSector (pos : Nat)
  /-- an uncorrectable error of a compute row sector, by address -/
  | rowSector (cra : Nat)
  /-- an uncorrectable error of a Basin word -/
  | basinWord (core bank row word : Nat)
  /-- an uncorrectable error of a register page table entry -/
  | pageEntry (team reg : Nat)
  /-- an uncorrectable error of a team's scalar registers, program counters, masks, lane queue or engines -/
  | teamState (team : Nat)
  /-- an uncorrectable error of the sequencer or the lock bits, or of the window table: the cause of R379 -/
  | structureState (cause : Nat)
  deriving DecidableEq, Repr

/-- The choices of the boot firmware (26 R418). -/
structure BootSetup where
  ixPoolBase : Nat
  ixPoolFrames : Nat
  spillBase : Nat
  saveBase : Nat
  saveFrames : Nat
  errBase : Nat
  /-- cores whose scan at boot passes, one bit each (26 R418 step 4) -/
  lcmap : BitVec 192
  deriving DecidableEq, Repr

/-- A mailbox export: the window, the snapshot's handle, the host window that takes the view, and the session's tenant (25 R415). -/
structure ExportArgs where
  win : Nat
  handle : Nat
  hostWin : Nat
  session : Option Nat
  deriving DecidableEq, Repr

/-- A takeover: the lost device, the contexts that take each replica window, and whether the device owner's session sent it
(25 R416). -/
structure TakeoverArgs where
  lost : Nat
  owners : List (Nat × Nat)
  owner : Bool
  deriving DecidableEq, Repr

/-- What a configuration command changes (24 R403, R404). -/
inductive MailChange where
  | window (id : Nat) (desc : BitVec 512)
  | context (id : Nat) (desc : BitVec 512)
  | counter (id : Nat) (entry : Word64) (value : Word64)
  | peer (win : Nat) (entry : BitVec 128)
  | ring (tenant queue base slots : Nat)
  | route (rtid : Nat) (ports : BitVec 16)
  | rtid (id : BitVec 12)
  | hostMaps (rd wr : BitVec 256)
  | hdmBase (base : Nat)
  | key (slot : Nat)
  | arm (rtid : Nat)
  /-- create or remove a tenant -/
  | tenant (id : Nat) (on : Bool)
  /-- reinstate a snapshot of a window of a terminated context (22 R377) -/
  | reinstate (win handle : Nat)
  deriving DecidableEq, Repr

/-- A mailbox command: the session it came in (none, a tenant's, or the device owner's), its change and its bytes (24 R404). -/
structure MailCmd where
  /-- 0 no session, 1 the device owner's, 2 + t tenant t's -/
  session : Nat
  change : MailChange
  bytes : List Byte
  deriving DecidableEq, Repr

/-- The way of a held notice: from a home slice to a cluster (02 R63 step 4). -/
structure NoticeRoute where
  slice : Nat
  cluster : Nat
  deriving DecidableEq, Repr

/-- A data burst at a Roszer port: its head fields and its sectors (24 R401). -/
structure ReplicaBurst where
  port : Nat
  dst : Nat
  src : Nat
  win : Nat
  rel : Nat
  poison : Nat
  checks : List Nat
  data : List (BitVec 256)
  deriving DecidableEq, Repr

/-- The RTIDs that a head flit names: the device it is for, and the one it comes from (24 R401). A spare that has taken over sends in the
name of the lost device (25 R416). -/
structure FlitEnds where
  dst : Nat
  src : Nat
  deriving DecidableEq, Repr

/-- The instructions: one constructor per row of the opcode table. -/
inductive Instr where
  /-- ADD Writes xa + xb modulo 2^64 to xd. (R295) -/
  | add (d : XReg) (a : XReg) (b : XReg)
  /-- SUB Writes xa - xb modulo 2^64 to xd. (R295) -/
  | sub (d : XReg) (a : XReg) (b : XReg)
  /-- MUL Writes the low 64 bits of xa x xb to xd. (R295) -/
  | mul (d : XReg) (a : XReg) (b : XReg)
  /-- MULH Writes the high 64 bits of the signed 128-bit product to xd. (R295) -/
  | mulh (d : XReg) (a : XReg) (b : XReg)
  /-- MULHU Writes the high 64 bits of the unsigned 128-bit product to xd. (R295) -/
  | mulhu (d : XReg) (a : XReg) (b : XReg)
  /-- DIV Writes the signed quotient rounded toward zero to xd, with defined results for b = 0 and overflow. (R295) -/
  | div (d : XReg) (a : XReg) (b : XReg)
  /-- DIVU Writes the unsigned quotient to xd, giving all ones for b = 0. (R295) -/
  | divu (d : XReg) (a : XReg) (b : XReg)
  /-- REM Writes the signed remainder to xd, with its sign following a. (R295) -/
  | rem (d : XReg) (a : XReg) (b : XReg)
  /-- REMU Writes the unsigned remainder to xd. (R295) -/
  | remu (d : XReg) (a : XReg) (b : XReg)
  /-- AND Writes xa AND xb to xd. (R295) -/
  | and (d : XReg) (a : XReg) (b : XReg)
  /-- OR Writes xa OR xb to xd. (R295) -/
  | or (d : XReg) (a : XReg) (b : XReg)
  /-- XOR Writes xa XOR xb to xd. (R295) -/
  | xor (d : XReg) (a : XReg) (b : XReg)
  /-- ANDN Writes xa AND NOT xb to xd. (R295) -/
  | andn (d : XReg) (a : XReg) (b : XReg)
  /-- SHL Shifts xa left by xb mod 64 places into xd. (R295) -/
  | shl (d : XReg) (a : XReg) (b : XReg)
  /-- SHR Shifts xa right logically by xb mod 64 places into xd. (R295) -/
  | shr (d : XReg) (a : XReg) (b : XReg)
  /-- SAR Shifts xa right arithmetically by xb mod 64 places into xd. (R295) -/
  | sar (d : XReg) (a : XReg) (b : XReg)
  /-- ROTR Rotates xa right by xb mod 64 places into xd. (R295) -/
  | rotr (d : XReg) (a : XReg) (b : XReg)
  /-- MIN Writes the signed minimum of xa and xb to xd. (R295) -/
  | min (d : XReg) (a : XReg) (b : XReg)
  /-- MAX Writes the signed maximum of xa and xb to xd. (R295) -/
  | max (d : XReg) (a : XReg) (b : XReg)
  /-- MINU Writes the unsigned minimum of xa and xb to xd. (R295) -/
  | minu (d : XReg) (a : XReg) (b : XReg)
  /-- MAXU Writes the unsigned maximum of xa and xb to xd. (R295) -/
  | maxu (d : XReg) (a : XReg) (b : XReg)
  /-- SLT Writes 1 to xd when xa < xb signed, else 0. (R295) -/
  | slt (d : XReg) (a : XReg) (b : XReg)
  /-- SLTU Writes 1 to xd when xa < xb unsigned, else 0. (R295) -/
  | sltu (d : XReg) (a : XReg) (b : XReg)
  /-- SEQ Writes 1 to xd when xa equals xb, else 0. (R295) -/
  | seq (d : XReg) (a : XReg) (b : XReg)
  /-- CLZ Writes the count of leading zeros of xa to xd. (R295) -/
  | clz (d : XReg) (a : XReg)
  /-- CTZ Writes the count of trailing zeros of xa to xd. (R295) -/
  | ctz (d : XReg) (a : XReg)
  /-- POPC Writes the count of set bits of xa to xd. (R295) -/
  | popc (d : XReg) (a : XReg)
  /-- ADDI Writes xa plus the sign-extended imm16 to xd. (R296) -/
  | addi (d : XReg) (a : XReg) (i : BitVec 16)
  /-- ANDI Writes xa AND the zero-extended imm16 to xd. (R296) -/
  | andi (d : XReg) (a : XReg) (i : BitVec 16)
  /-- ORI Writes xa OR the zero-extended imm16 to xd. (R296) -/
  | ori (d : XReg) (a : XReg) (i : BitVec 16)
  /-- XORI Writes xa XOR the zero-extended imm16 to xd. (R296) -/
  | xori (d : XReg) (a : XReg) (i : BitVec 16)
  /-- SHLI Shifts xa left by imm16[5:0] places into xd. (R296) -/
  | shli (d : XReg) (a : XReg) (s : BitVec 6)
  /-- SHRI Shifts xa right logically by imm16[5:0] places into xd. (R296) -/
  | shri (d : XReg) (a : XReg) (s : BitVec 6)
  /-- SARI Shifts xa right arithmetically by imm16[5:0] places into xd. (R296) -/
  | sari (d : XReg) (a : XReg) (s : BitVec 6)
  /-- SLTI Writes 1 to xd when xa is below the sign-extended immediate, signed. (R296) -/
  | slti (d : XReg) (a : XReg) (i : BitVec 16)
  /-- SLTUI Writes 1 to xd when xa is below the sign-extended immediate, compared unsigned. (R296) -/
  | sltui (d : XReg) (a : XReg) (i : BitVec 16)
  /-- LUI Writes SignExtend64(imm21) x 2^16 to xd. (R296) -/
  | lui (d : XReg) (i : BitVec 21)
  /-- APC Writes the PC of the word plus SignExtend64(imm21) x 2^16 to xd. (R296) -/
  | apc (d : XReg) (i : BitVec 21)
  /-- LD_B Loads one byte at xa + imm16, sign-extended, into xd. (R131) -/
  | ldB (d : XReg) (a : XReg) (i : BitVec 16)
  /-- LD_H Loads two bytes at xa + imm16, sign-extended, into xd. (R131) -/
  | ldH (d : XReg) (a : XReg) (i : BitVec 16)
  /-- LD_W Loads four bytes at xa + imm16, sign-extended, into xd. (R131) -/
  | ldW (d : XReg) (a : XReg) (i : BitVec 16)
  /-- LD_D Loads eight bytes at xa + imm16 into xd. (R131) -/
  | ldD (d : XReg) (a : XReg) (i : BitVec 16)
  /-- LDU_B Loads one byte at xa + imm16, zero-extended, into xd. (R131) -/
  | lduB (d : XReg) (a : XReg) (i : BitVec 16)
  /-- LDU_H Loads two bytes at xa + imm16, zero-extended, into xd. (R131) -/
  | lduH (d : XReg) (a : XReg) (i : BitVec 16)
  /-- LDU_W Loads four bytes at xa + imm16, zero-extended, into xd. (R131) -/
  | lduW (d : XReg) (a : XReg) (i : BitVec 16)
  /-- ST_B Stores the low byte of the rd register at xa + imm16 with the default colour. (R131) -/
  | stB (s : XReg) (a : XReg) (i : BitVec 16)
  /-- ST_H Stores the low two bytes of the rd register at xa + imm16. (R131) -/
  | stH (s : XReg) (a : XReg) (i : BitVec 16)
  /-- ST_W Stores the low four bytes of the rd register at xa + imm16. (R131) -/
  | stW (s : XReg) (a : XReg) (i : BitVec 16)
  /-- ST_D Stores the eight bytes of the rd register at xa + imm16. (R131) -/
  | stD (s : XReg) (a : XReg) (i : BitVec 16)
  /-- AMO Sends an atomic read-modify-write of the word at xa to its home slice and returns the old value in xd. (R132) -/
  | amo (d : XReg) (a : XReg) (b : XReg) (c : BitVec 3) (z : BitVec 2) (o : BitVec 4)
  /-- CAS Atomically compares the word at xa with xd, writes xb on equality and returns the old value in xd. (R133) -/
  | cas (d : XReg) (a : XReg) (b : XReg) (c : BitVec 3) (z : BitVec 2)
  /-- BEQ Branches by off16 words when xa equals xb. (R297) -/
  | beq (a : XReg) (b : XReg) (o : BitVec 16)
  /-- BNE Branches by off16 words when xa differs from xb. (R297) -/
  | bne (a : XReg) (b : XReg) (o : BitVec 16)
  /-- BLT Branches when xa < xb signed. (R297) -/
  | blt (a : XReg) (b : XReg) (o : BitVec 16)
  /-- BGE Branches when xa >= xb signed. (R297) -/
  | bge (a : XReg) (b : XReg) (o : BitVec 16)
  /-- BLTU Branches when xa < xb unsigned. (R297) -/
  | bltu (a : XReg) (b : XReg) (o : BitVec 16)
  /-- BGEU Branches when xa >= xb unsigned. (R297) -/
  | bgeu (a : XReg) (b : XReg) (o : BitVec 16)
  /-- JMP Jumps by off26 words. (R297) -/
  | jmp (o : BitVec 26)
  /-- CALL Writes PC + 4 to x30 and jumps by off26 words. (R297) -/
  | call (o : BitVec 26)
  /-- RET Sets the PC to x30, trapping PCALIGN when x30 is misaligned. (R297) -/
  | ret
  /-- JTAB Branches through a bounded jump table, checking bound and landing pad. (R299) -/
  | jtab (i : BitVec 5) (t : XReg)
  /-- LPAD Marks a jump-table landing label and otherwise does nothing. (R300) -/
  | lpad (l : BitVec 21)
  /-- LRUN Enqueues a block of lane words and samples the scalar values it uses. (R301) -/
  | lrun (c : BitVec 5) (i : BitVec 21)
  /-- LWAIT Stalls the scalar stream until at most n lane blocks are outstanding. (R302) -/
  | lwait (n : BitVec 16)
  /-- MRD Reads two mask words or the summary word of a mask register into xd. (R304) -/
  | mrd (d : XReg) (n : BitVec 5) (k : BitVec 5)
  /-- MWR Writes two mask words of a mask register from xa and updates its summary. (R304) -/
  | mwr (n : BitVec 5) (a : XReg) (k : BitVec 5)
  /-- REL Drains and releases the task's stores of the named colours at the given scope. (R159) -/
  | rel (s : BitVec 3) (m : BitVec 8)
  /-- ACQ Drains and acquires at the given scope. (R160) -/
  | acq (s : BitVec 3)
  /-- FENCE Drains and waits for appends, compute-row and host stores or loads of the named colours. (R161) -/
  | fence (k : BitVec 3) (m : BitVec 8)
  /-- TLWAIT Stalls until a timeline counter reaches the value in xa. (R162) -/
  | tlwait (a : XReg) (n : BitVec 3)
  /-- TLREAD Reads a timeline counter into xd. (R162) -/
  | tlread (d : XReg) (n : BitVec 3)
  /-- RCOPY Starts a global-to-local Runnel copy described by a stream pattern record. (R181) -/
  | rcopy (d : XReg) (a : XReg) (p : BitVec 1) (n : BitVec 3)
  /-- RFEED Starts a Runnel operation feeding a streaming FIFO. (R181) -/
  | rfeed (d : XReg) (a : XReg) (p : BitVec 1) (n : BitVec 3)
  /-- RSPILL Starts a Runnel operation writing Basin data to global memory. (R181) -/
  | rspill (d : XReg) (a : XReg) (p : BitVec 1) (n : BitVec 3)
  /-- EVPOP Removes the team's oldest completion record into xd and xd+1. (R187) -/
  | evpop (d : XReg)
  /-- EVWAIT Stalls until the team has a completion record. (R188) -/
  | evwait
  /-- MXLOOP Checks a matrix loop descriptor and posts the loop to the cluster's matrix sequencer. (R279) -/
  | mxloop (d : XReg) (a : XReg)
  /-- WSET Marks a run of Basin banks as a stationary region. (R268) -/
  | wset (n : BitVec 3) (a : XReg) (b : XReg) (c : BitVec 2)
  /-- WFREE Frees a stationary region once its loops have completed. (R269) -/
  | wfree (n : BitVec 3)
  /-- FREEZE Ends a template's prologue, publishes, freezes its image and spreads it to its children. (R312) -/
  | freeze (k : BitVec 2)
  /-- BAR Arrives at a team, cluster or placement barrier with release and acquire. (R320) -/
  | bar (i : BitVec 4) (s : BitVec 2)
  /-- QPUT Releases and appends a 64-byte entry to the team's outgoing stage queue. (R323) -/
  | qput (d : XReg) (a : XReg) (b : BitVec 1)
  /-- QGET Takes the oldest entry of the incoming stage queue, stores it and acquires. (R323) -/
  | qget (d : XReg) (a : XReg) (b : BitVec 1)
  /-- YIELD Keeps the team Ready but issues nothing for it for 16 cycles. (R324) -/
  | yield
  /-- EXIT Ends the task after draining, waiting for engines and releasing at system scope. (R325) -/
  | exit (s : BitVec 16)
  /-- TRAP Takes the fatal path with code TRAP. (R366) -/
  | trap (c : BitVec 16)
  /-- SVC Enters privileged service code through the context's service table. (R363) -/
  | svc (n : BitVec 16)
  /-- SGET Copies a system register into xd. (R305) -/
  | sget (d : XReg) (n : BitVec 11)
  /-- SSET Copies xa into a writable system register. (R305) -/
  | sset (a : XReg) (n : BitVec 11)
  /-- ERET Returns from service code, or ends the trap hook and continues the fatal path. (R364) -/
  | eret
  /-- BRK Halts the team for debug when DBGEN is set, otherwise traps BRK. (R366) -/
  | brk (c : BitVec 16)
  /-- SNAP Takes a snapshot of a window at a new PSN and returns its handle. (R410) -/
  | snap (d : XReg) (a : XReg)
  /-- ROLL Reinstates a window's snapshot as one publication. (R411) -/
  | roll (a : XReg) (b : XReg)
  /-- NOP Does nothing for one issue cycle. (R300) -/
  | nop
  /-- LANE_PAIR two halves on both lane pipes (R36) -/
  | lanePair (a b : Half)
  /-- VADD Adds lane integer elements. (R230) -/
  | vadd (f : LArith)
  /-- VSUB Subtracts lane integer elements. (R230) -/
  | vsub (f : LArith)
  /-- VMUL Multiplies lane integer elements. (R230) -/
  | vmul (f : LArith)
  /-- VMULH Writes the high half of the signed 32x32 product. (R230) -/
  | vmulh (f : LArith)
  /-- VMULHU Writes the high half of the unsigned 32x32 product. (R230) -/
  | vmulhu (f : LArith)
  /-- VMAD Computes a x b + c per integer element. (R230) -/
  | vmad (f : LArith)
  /-- VMIN Signed integer minimum per element. (R230) -/
  | vmin (f : LArith)
  /-- VMAX Signed integer maximum per element. (R230) -/
  | vmax (f : LArith)
  /-- VMINU Unsigned integer minimum per element. (R230) -/
  | vminu (f : LArith)
  /-- VMAXU Unsigned integer maximum per element. (R230) -/
  | vmaxu (f : LArith)
  /-- VAND Bitwise AND per lane. (R230) -/
  | vand (f : LArith)
  /-- VOR Bitwise OR per lane. (R230) -/
  | vor (f : LArith)
  /-- VXOR Bitwise XOR per lane. (R230) -/
  | vxor (f : LArith)
  /-- VANDN Bitwise a AND NOT b per lane. (R230) -/
  | vandn (f : LArith)
  /-- VSHL Shifts lane elements left. (R230) -/
  | vshl (f : LArith)
  /-- VSHR Shifts lane elements right logically. (R230) -/
  | vshr (f : LArith)
  /-- VSAR Shifts lane elements right arithmetically. (R230) -/
  | vsar (f : LArith)
  /-- VROTR Rotates lane elements right. (R230) -/
  | vrotr (f : LArith)
  /-- VCLZ Counts leading zeros per element. (R230) -/
  | vclz (f : LArith)
  /-- VPOPC Counts set bits per element. (R230) -/
  | vpopc (f : LArith)
  /-- VBREV Reverses bits per element. (R230) -/
  | vbrev (f : LArith)
  /-- VABS Integer absolute value per element. (R230) -/
  | vabs (f : LArith)
  /-- VADDSAT Unsigned saturating add per element. (R230) -/
  | vaddsat (f : LArith)
  /-- VSUBSAT Unsigned saturating subtract per element. (R230) -/
  | vsubsat (f : LArith)
  /-- VBFX Extracts a bit field per lane. (R231) -/
  | vbfx (f : LArith)
  /-- VBFI Inserts a bit field per lane. (R231) -/
  | vbfi (f : LArith)
  /-- VSEL Selects b or c per element by a. (R230) -/
  | vsel (f : LArith)
  /-- VMOV Moves a register, immediate or special operand into lanes. (R230) -/
  | vmov (f : LArith)
  /-- VDOT4 Forms a packed integer dot product plus accumulator per lane. (R232) -/
  | vdot4 (f : LArith)
  /-- VRQZ Requantises an INT32 value to INT8 or INT4 per lane. (R233) -/
  | vrqz (f : LArith)
  /-- VFADD Floating-point add per element. (R234) -/
  | vfadd (f : LArith)
  /-- VFSUB Floating-point subtract per element. (R234) -/
  | vfsub (f : LArith)
  /-- VFMUL Floating-point multiply per element. (R234) -/
  | vfmul (f : LArith)
  /-- VFMA Fused multiply-add per element with one rounding. (R234) -/
  | vfma (f : LArith)
  /-- VFMIN Floating-point minimum per element. (R234) -/
  | vfmin (f : LArith)
  /-- VFMAX Floating-point maximum per element. (R234) -/
  | vfmax (f : LArith)
  /-- VFABS Clears the sign of each float element. (R234) -/
  | vfabs (f : LArith)
  /-- VFNEG Inverts the sign of each float element. (R234) -/
  | vfneg (f : LArith)
  /-- VFRND Rounds each float element to an integral value. (R234) -/
  | vfrnd (f : LArith)
  /-- VFCLASS Writes the class mask of each float element. (R234) -/
  | vfclass (f : LArith)
  /-- VNADD Adds packed narrow float elements. (R235) -/
  | vnadd (f : LArith)
  /-- VNMUL Multiplies packed narrow float elements. (R235) -/
  | vnmul (f : LArith)
  /-- VNFMA Fused multiply-add on packed narrow float elements. (R235) -/
  | vnfma (f : LArith)
  /-- VNMAX Maximum of packed narrow float elements. (R235) -/
  | vnmax (f : LArith)
  /-- VNMIN Minimum of packed narrow float elements. (R235) -/
  | vnmin (f : LArith)
  /-- VFDIV Correctly rounded division per element. (R236) -/
  | vfdiv (f : LArith)
  /-- VFSQRT Correctly rounded square root per element. (R236) -/
  | vfsqrt (f : LArith)
  /-- VRCP Correctly rounded reciprocal per element. (R236) -/
  | vrcp (f : LArith)
  /-- VRSQ Correctly rounded reciprocal square root per element. (R236) -/
  | vrsq (f : LArith)
  /-- VEXP2 Correctly rounded 2^a per element. (R236) -/
  | vexp2 (f : LArith)
  /-- VLOG2 Correctly rounded log2 per element. (R236) -/
  | vlog2 (f : LArith)
  /-- VSIN Correctly rounded sin(pi x a) per element. (R236) -/
  | vsin (f : LArith)
  /-- VCOS Correctly rounded cos(pi x a) per element. (R236) -/
  | vcos (f : LArith)
  /-- VTANH Correctly rounded tanh per element. (R236) -/
  | vtanh (f : LArith)
  /-- VCVT Converts one element per lane between formats. (R238) -/
  | vcvt (f : LArith)
  /-- VCVTD Converts one element per lane with ordered dither. (R239) -/
  | vcvtd (f : LArith)
  /-- VCVTNF Converts between FP32 and a number-format register's format. (R240) -/
  | vcvtnf (f : LArith)
  /-- VPACK Packs elements from a run of registers into one register. (R241) -/
  | vpack (f : LArith)
  /-- VUNPACK Unpacks the elements of one register into a run of registers. (R241) -/
  | vunpack (f : LArith)
  /-- VBSC Computes block scale pairs from FP32 values. (R243) -/
  | vbsc (f : LArith)
  /-- VBQ Quantises FP32 values into a block-scaled register. (R244) -/
  | vbq (f : LArith)
  /-- VBDQ Dequantises a block-scaled register into FP32 values. (R245) -/
  | vbdq (f : LArith)
  /-- VCMP Writes a mask from an integer comparison. (R251) -/
  | vcmp (f : LMask)
  /-- VFCMP Writes a mask from a float comparison. (R251) -/
  | vfcmp (f : LMask)
  /-- VMLOG Combines two masks by a truth table. (R252) -/
  | vmlog (f : LMask)
  /-- VMPOP Counts the active set lanes of a mask. (R253) -/
  | vmpop (f : LMask)
  /-- VMFIRST Finds the lowest active set lane of a mask. (R253) -/
  | vmfirst (f : LMask)
  /-- VIF Saves m0 and narrows it by a condition mask. (R254) -/
  | vif (f : LMask)
  /-- VELSE Switches m0 to the else lanes of the saved mask. (R254) -/
  | velse (f : LMask)
  /-- VENDIF Restores m0 from the save mask. (R254) -/
  | vendif (f : LMask)
  /-- VBREAK Removes leaving lanes from m0 and the save masks above. (R254) -/
  | vbreak (f : LMask)
  /-- VSHFL Delivers each reader the value of an indexed source lane. (R258) -/
  | vshfl (f : LCross)
  /-- VBCAST Broadcasts one lane's value to all readers. (R258) -/
  | vbcast (f : LCross)
  /-- VROT Rotates values across lanes by k. (R258) -/
  | vrot (f : LCross)
  /-- VVOTE Votes a predicate across active lanes. (R260) -/
  | vvote (f : LCross)
  /-- VRED Reduces integer values across active lanes. (R262) -/
  | vred (f : LCross)
  /-- VFRED Reduces float values across active lanes in a fixed order. (R262) -/
  | vfred (f : LCross)
  /-- VSCAN Computes an integer prefix scan across lanes. (R263) -/
  | vscan (f : LCross)
  /-- VFSCAN Computes a float prefix scan across lanes. (R263) -/
  | vfscan (f : LCross)
  /-- VMATCH Writes per lane the mask of lanes in its lane word holding the same value. (R261) -/
  | vmatch (f : LCross)
  /-- VCOMPACT Compacts active lanes' values into the low live lanes. (R259) -/
  | vcompact (f : LCross)
  /-- VEXPAND Expands low live lanes' values into the active lanes. (R259) -/
  | vexpand (f : LCross)
  /-- VLD Gathers lane values from memory. (R138) -/
  | vld (f : LMem)
  /-- VST Scatters lane values to memory. (R138) -/
  | vst (f : LMem)
  /-- VLDP Loads from the team's private slice. (R140) -/
  | vldp (f : LMem)
  /-- VSTP Stores to the team's private slice. (R140) -/
  | vstp (f : LMem)
  /-- VLDB Loads from the core's Basin by Basin address. (R141) -/
  | vldb (f : LMem)
  /-- VSTB Stores to the core's Basin by Basin address. (R141) -/
  | vstb (f : LMem)
  /-- VLDROW Reads a whole aligned row at a single PSN. (R147) -/
  | vldrow (f : LMem)
  /-- VTST Stores into the template image of the team's level. (R142) -/
  | vtst (f : LMem)
  /-- VPREF Prefetches sectors into the cluster cache and IXB. (R143) -/
  | vpref (f : LMem)
  /-- VATOM Performs one atomic per active lane at the home slices. (R144) -/
  | vatom (f : LMem)
  /-- VCAS Performs one compare-and-swap per active lane. (R145) -/
  | vcas (f : LMem)
  /-- VROWATOM Updates a whole aligned row as one atomic operation. (R148) -/
  | vrowatom (f : LMem)
  /-- VWST Writes weights into the team's own stationary region. (R270) -/
  | vwst (f : LMat)
  /-- VQPUT Appends lane elements to a streaming FIFO. (R275) -/
  | vqput (f : LMat)
  /-- VADR Drains accumulator tile elements into lanes with conversion. (R273) -/
  | vadr (f : LMat)
  /-- VACLR Allocates, clears or frees an accumulator tile. (R272) -/
  | vaclr (f : LMat)
  /-- VNRRED Reduces compute-row elements across banks through the Cascade tree. (R87) -/
  | vnrred (f : LMat)
  /-- VNRLD Loads compute-row words into lanes. (R87) -/
  | vnrld (f : LMat)
  /-- VNRST Stores lane words into compute rows. (R87) -/
  | vnrst (f : LMat)
  /-- VNRCLONE Copies, zeroes or sets whole compute rows in the banks. (R87) -/
  | vnrclone (f : LMat)
  /-- VNOP Lane word that does nothing. (R34) -/
  | vnop (f : LCtl)
  /-- VEND Ends a lane block. (R10) -/
  | vend (f : LCtl)
  /-- LANE_BLOCK_START The next queued lane block starts when it reaches the head of the lane queue. (R301) -/
  | laneBlockStart (team : Nat)
  /-- LOAD_DATA_RETURN A scalar load's data returns and is written to its register. (R131) -/
  | loadDataReturn (team op : Nat)
  /-- HOME_SLICE_ATOMIC An atomic arrives at its home slice and executes there in arrival order. (R95) -/
  | homeSliceAtomic (slice : Nat)
  /-- ATOMIC_OLD_VALUE_RETURN An atomic's old value returns to the issuer and its IXB entry for the granule is dropped. (R134) -/
  | atomicOldValueReturn (team op : Nat)
  /-- ATOMIC_COLLECTION_CLOSE A home slice's atomic-result collection closes 16 cycles after opening and becomes a publication. (R65) -/
  | atomicCollectionClose (slice : Nat)
  /-- PSN_SHARE_ARRIVAL A home slice receives its share or empty notice of a PSN and prepares it in order. (R63) -/
  | psnShareArrival (psn slice : Nat)
  /-- PSN_COMMIT The sequencer commits a prepared PSN and broadcasts the commit; slices apply their shares. (R63) -/
  | psnCommit 
  /-- HELD_NOTICE A held notice reaches an IXB and marks the granule's entry Held. (R68) -/
  | heldNotice (psn : Nat) (route : NoticeRoute)
  /-- COMMIT_NOTICE A commit notice reaches an IXB and marks the granule's entry Superseded. (R68) -/
  | commitNotice (psn cluster : Nat)
  /-- SEGMENT_SEAL_TIMEOUT A segment is sealed 50 us after its first append. (R51) -/
  | segmentSealTimeout (log : Nat)
  /-- SKIMMER_COMPACT A Skimmer compacts sealed unpinned segments of its stack and frees them once acknowledged. (R73) -/
  | skimmerCompact (seg : Nat)
  /-- RETIRE_NOTICE A Skimmer's retire notice makes an IXB drop entries pointing into the segment and acknowledge. (R73) -/
  | retireNotice (seg cluster : Nat)
  /-- APPEND_RESUME Stalled appends resume, oldest first, once free segments exceed the threshold. (R72) -/
  | appendResume 
  /-- SPACEALARM Raised when no segment has been freed for 1 ms while appends stall. (R72) -/
  | spacealarm 
  /-- SPILL_WAIT_END A team stopped by a full spill area re-enters the dispatcher once 4,096 spill entries are free. (R62) -/
  | spillWaitEnd (team : Nat)
  /-- STALECNT_FLUSH A cluster adds its stale-read counts to each window's STALECNT at least every 4,096 cycles. (R70) -/
  | stalecntFlush (cluster : Nat)
  /-- BASIN_STALL_TIMEOUT A team stalled on a register copy fault for 4,096 cycles is swapped out as Basin exhaustion. (R102) -/
  | basinStallTimeout (team : Nat)
  /-- TEAM_REDISPATCH A swapped-out team re-enters the dispatcher once its core has the banks or its fault is serviced. (R102) -/
  | teamRedispatch (team : Nat)
  /-- TEAM_RESTORE A team is restored to a core, reloading its image and version and acquiring at device scope. (R357) -/
  | teamRestore (team : Nat)
  /-- WAIT_SATISFIED A Waiting team whose condition holds becomes Ready within 4 cycles. (R310) -/
  | waitSatisfied (team : Nat)
  /-- BARRIER_GENERATION_COMPLETE A barrier generation completes when every participant has arrived or ended. (R321) -/
  | barrierGenerationComplete (team : Nat)
  /-- YIELD_END A yielding team competes again after its 16 cycles as the youngest of its priority. (R324) -/
  | yieldEnd (team : Nat)
  /-- TEAM_PROMOTION A team ready for 64 consecutive cycles without issuing is promoted. (R338) -/
  | teamPromotion (team : Nat) (lane : Bool)
  /-- RUNNEL_START A Runnel operation's engine starts once earlier writing lane words have retired. (R182) -/
  | runnelStart (op : Nat)
  /-- RUNNEL_END A Runnel operation ends and advances its timeline counter. (R183) -/
  | runnelEnd (op : Nat)
  /-- COMPLETION_RECORD_POST A completion record is posted to the core's event queue when there is room. (R186) -/
  | completionRecordPost (core : Nat)
  /-- MXLOOP_GRANT The matrix sequencer grants a reserved loop by its ranking. (R285) -/
  | mxloopGrant (cluster : Nat)
  /-- MATRIX_STEP A matrix step starts when its predecessor has ended and its bank is free. (R282) -/
  | matrixStep (loop row : Nat)
  /-- MATRIX_UPDATE_LAND A step's sums land in the tile 8 cycles after it ends; the loop completes at its last update. (R282) -/
  | matrixUpdateLand (loop row : Nat)
  /-- CASCADE_COMPLETE A Cascade command completes at every bank it names and advances tl7. (R89) -/
  | cascadeComplete (team num : Nat)
  /-- SEAL_OBSERVED The line monitor observes a sealed launch slot and copies it. (R328) -/
  | sealObserved (tenant queue : Nat)
  /-- LAUNCH_PARSE A copied launch record is checked and moves to Waiting, Refused or Completing. (R333) -/
  | launchParse (launch : Nat)
  /-- DEPENDENCE_SATISFIED A waiting launch becomes Ready when its dependences are satisfied. (R332) -/
  | dependenceSatisfied (launch : Nat)
  /-- LAUNCH_PLACE The dispatcher places a Ready launch in a rectangle and starts its stage templates. (R335) -/
  | launchPlace (launch : Nat)
  /-- INSTANCE_STAMP A qualifying core receives the lowest unstamped instance of its stage. (R337) -/
  | instanceStamp (launch core : Nat)
  /-- TEMPLATE_SPREAD_COPY A template image copy to a core completes and its children may start. (R313) -/
  | templateSpreadCopy (image core : Nat)
  /-- STAGE_REBALANCE Every 8,192 cycles cores are moved between stages by stage-queue fill. (R337) -/
  | stageRebalance (launch : Nat)
  /-- SLICE_EXPIRY A launch's slice timer reaches its slice and the launch is pre-empted. (R339) -/
  | sliceExpiry (launch : Nat)
  /-- LAUNCH_RESTORE A swapped launch is restored into a candidate rectangle of the same shape. (R339) -/
  | launchRestore (launch : Nat)
  /-- LAUNCH_COMPLETE A launch completes, writes its summary and advances its completion counter. (R334) -/
  | launchComplete (launch : Nat)
  /-- PATROL_SCRUB A patrol scrub reads every way of one set each 64 cycles. (R388) -/
  | patrolScrub (find : ScrubFinding)
  /-- SLICE_PAUSE_END A home slice's 2,000-cycle pause after an owner-known error ends and it prepares PSNs again. (R389) -/
  | slicePauseEnd (slice : Nat)
  /-- DIE_LINK_LOSS Die-to-die link lost for more than 1 ms causes a warm reset. (R379) -/
  | dieLinkLoss 
  /-- TCF_WATCHDOG The Trusted Control Firmware watchdog expires and causes a warm reset. (R379) -/
  | tcfWatchdog 
  /-- COLD_RESET Power-on reset runs boot, HBM training, table setup, core scan and enable. (R418) -/
  | coldReset (boot : BootSetup)
  /-- JUNCTION_TEMPERATURE A junction temperature reading changes the throttle level or trips a warm reset. (R421) -/
  | junctionTemperature (degrees : Nat)
  /-- POWER_CAP_EXCEEDED Power above PCAP for 10 ms raises the throttle level by one. (R421) -/
  | powerCapExceeded (watts : Nat)
  /-- COOLANT_FLOW_LOW Coolant flow below minimum holds throttle level 3 until it returns. (R422) -/
  | coolantFlowLow (low : Bool)
  /-- REFRESH_WINDOW A refresh window starts, clearing activation counts and listed-row tables. (R77) -/
  | refreshWindow (compute : Bool)
  /-- AGE_CAP_EXPIRY The oldest queued request exceeds the age cap and blocks younger row hits. (R76) -/
  | ageCapExpiry (channel : Nat)
  /-- SCAN_INTERVAL The scan interval expires and each in-service core is scanned when idle. (R387) -/
  | scanInterval 
  /-- SCAN_COMPLETE A core scan finishes and its signature passes or clears the core from LCMAP. (R387) -/
  | scanComplete (core : Nat) (pass : Bool) (sig : Word64)
  /-- PAIRED_TWIN_TIMEOUT A paired copy waiting over 2^20 cycles for its twin counts as a mismatch. (R384) -/
  | pairedTwinTimeout (team : Nat)
  /-- PAIRED_ATOMIC_TIMEOUT A home slice refuses a paired atomic whose twin does not arrive within 65,536 cycles. (R385) -/
  | pairedAtomicTimeout (slice : Nat)
  /-- CXL_MEM_READ A host CXL.mem read of logged memory returns the newest committed data or poison. (R395) -/
  | cxlMemRead (hpa : Nat)
  /-- CXL_MEM_WRITE A host CXL.mem write is checked, merged and joined to the open batch. (R395) -/
  | cxlMemWrite (hpa : Nat) (data : BitVec 512) (be : BitVec 64) (poison : Bool)
  /-- HOST_BATCH_CLOSE A host write batch closes 64 cycles after its last write and is published. (R396) -/
  | hostBatchClose 
  /-- MSIX_UNMASK The host unmasks a vector and one pending message is sent. (R397) -/
  | msixUnmask (fn vec : Nat)
  /-- XLINV_VA_RANGE Invalidation KIND 0 drops a context's TLB leaves in a VA range and its walk-cache entries. (R125) -/
  | xlinvVaRange 
  /-- XLINV_CONTEXT Invalidation KIND 1 drops all translations of a context. (R125) -/
  | xlinvContext 
  /-- XLINV_WINDOW Invalidation KIND 2 drops every leaf naming a window and its attribute entries. (R125) -/
  | xlinvWindow 
  /-- XLINV_ALL Invalidation KIND 3 drops everything. (R125) -/
  | xlinvAll 
  /-- XLINV_COMPLETE An invalidation command completes and DONE advances. (R125) -/
  | xlinvComplete 
  /-- RESUME_CONTINUE A RESUME write with KILL 0 re-enters a NOTPRESENT team into the dispatcher. (R356) -/
  | resumeContinue (tenant ctx seq : Nat)
  /-- RESUME_KILL A RESUME write with KILL 1 ends the NOTPRESENT team by the fatal path. (R356) -/
  | resumeKill (tenant ctx seq : Nat)
  /-- DEVCTL_ENABLE Setting DEVCTL.ENABLE starts the line monitors. (R418) -/
  | devctlEnable (on : Bool)
  /-- DEVCTL_WARMREQ Writing DEVCTL.WARMREQ starts a warm reset with cause 6. (R419) -/
  | devctlWarmreq 
  /-- DBG_HALT DBGCTL command 1 halts a team slot at its next boundary. (R369) -/
  | dbgHalt (core slot : Nat)
  /-- DBG_RESUME DBGCTL command 2 resumes a halted team. (R369) -/
  | dbgResume (core slot : Nat)
  /-- DBG_STEP DBGCTL command 3 steps one scalar word and one lane pass, then halts. (R369) -/
  | dbgStep (core slot : Nat)
  /-- REGISTER_WRITE A write to a management or comparator register with no row of its own. (R419) -/
  | registerWrite (off : Nat) (value : Word64)
  /-- SNAPFREE Mailbox command releasing a snapshot. (R412) -/
  | snapfree (win handle session : Nat)
  /-- EXPORT Mailbox command writing a snapshot's view to a host window. (R415) -/
  | exportWindow (args : ExportArgs)
  /-- TAKEOVER Mailbox command making a hot spare take over a lost device's RTID. (R416) -/
  | takeover (args : TakeoverArgs)
  /-- MAILBOX_COMMAND A mailbox configuration command applied inside an SPDM session. (R404) -/
  | mailboxCommand (cmd : MailCmd)
  /-- SPDM_MEASUREMENT Answers an SPDM measurement request with a signed report. (R406) -/
  | spdmMeasurement (nonce : Nat)
  /-- SPDM_CHALLENGE Answers an SPDM challenge request with a signed report. (R406) -/
  | spdmChallenge (nonce : Nat)
  /-- SPDM_CERTIFICATE Returns the vendor certificate chain for the identity key. (R406) -/
  | spdmCertificate (slot : Nat)
  /-- SPILLWAY_SHIP The Spillway ships published sectors of a source window from sealed segments. (R413) -/
  | spillwayShip (win : Nat)
  /-- SPILLWAY_CUT The Spillway sends a cut at least every 8,192 cycles while sectors remain unshipped. (R413) -/
  | spillwayCut (win : Nat)
  /-- REPLICA_SEGMENT_DATA A KIND 1 burst arrives and its sectors are checked and appended to the replica. (R402) -/
  | replicaSegmentData (burst : ReplicaBurst)
  /-- REPLICA_CUT A replica receives a cut, publishes sectors since the last cut and echoes it. (R414) -/
  | replicaCut (port : Nat) (ends : FlitEnds) (win psn : Nat)
  /-- CUT_ECHO A source receives a cut echo and sets SHIPPSN. (R414) -/
  | cutEcho (port : Nat) (ends : FlitEnds) (win psn : Nat)
  /-- TAKEOVER_FLIT A KIND 3 takeover head repoints the route for an armed RTID. (R416) -/
  | takeoverFlit (port : Nat) (ends : FlitEnds)
  /-- HOST_WINDOW_STORE_ACK The host acknowledges a posted device store to a host window, letting a waiting fence.st, fence.all or rel.sys complete. (R172) -/
  | hostWindowStoreAck (store : Nat)
  /-- COMPUTE_ROW_STORE_AT_BANK An ordinary store to a compute-row window reaches its bank through the home slice, completing any fence or release that waits for it. (R82) -/
  | computeRowStoreAtBank (store : Nat)
  /-- SAVEFULL While a swap-out waits for room in the save pool, the device raises SAVEFULL on vector 1 of physical function 0, at most once per 1 ms. (R360) -/
  | savefull 
  deriving DecidableEq, Repr

end Sys2Proof
end

