-- ==== Sys2Proof/WellFormed.lean ====
section
/-!
DEFINITION. The values a field may hold: everything that the decode of a word checks beside the place of its
fields (01 R20 to R37, 06 R136, R137, 11 R230 to R246, 12 R249 to R257, 13 R290, 03 R86).
-/
namespace Sys2Proof

/-- Scope and size of a scalar atomic (01 R22). -/
def wfAtom (c : BitVec 3) (z : BitVec 2) : Bool := decide ((c.toNat = 4 ∨ c.toNat = 5) ∧ z.toNat ≤ 1)

/-- What a lane arithmetic opcode admits (11 R230 to R246). -/
structure ArithRow where
  fmts : List Nat
  va : Bool
  vb : Bool
  vc : Bool
  na : Bool
  nb : Bool
  nc : Bool
  sat : Bool
  rnd : Bool
  dth : Bool
  /-- BSEL may reach this value -/
  bsel : Nat
  /-- vb may be an immediate or a special operand -/
  second : Bool
  deriving DecidableEq, Repr

/-- Formats of one or two integer elements. -/
def fmtInt : List Nat := [0x00, 0x01]
/-- Formats of the float instructions (11 R234). -/
def fmtFloat : List Nat := [0x02, 0x03, 0x04, 0x05]
def fmtNf : List Nat := [0x18, 0x19, 0x1A, 0x1B]
/-- Formats of the narrow instructions (11 R235). -/
def fmtNarrow : List Nat := [0x0C, 0x0D, 0x0E, 0x0F, 0x10, 0x18, 0x19, 0x1A, 0x1B]
/-- Formats of the conversions (11 R238). -/
def fmtConvert : List Nat :=
  [0x00, 0x02, 0x03, 0x04, 0x06, 0x07, 0x08, 0x09, 0x0A, 0x0B, 0x0C, 0x0D, 0x0E, 0x0F, 0x10]
/-- Formats of packing (11 R241). -/
def fmtPack : List Nat :=
  [0x03, 0x04, 0x06, 0x07, 0x08, 0x09, 0x0A, 0x0B, 0x0C, 0x0D, 0x0E, 0x0F, 0x10, 0x18, 0x19, 0x1A, 0x1B]
/-- Formats of the block-scale instructions (11 R242). -/
def fmtBlock : List Nat := [0x11, 0x12, 0x13, 0x14, 0x15, 0x16, 0x17, 0x18, 0x19, 0x1A, 0x1B]
/-- The 24 matrix operand formats (01 R29). -/
def fmtMatrix : List Nat :=
  [0x03, 0x04, 0x06, 0x07, 0x08, 0x09, 0x0A, 0x0B, 0x0C, 0x0D, 0x0E, 0x0F, 0x10, 0x11, 0x12, 0x13, 0x14, 0x15,
   0x16, 0x17, 0x18, 0x19, 0x1A, 0x1B]

/-- The row of a lane arithmetic opcode. -/
def arithRow (op : Nat) : Option ArithRow :=
  match op with
  --            formats          va    vb    vc    NA    NB    NC    SAT   RND   DTH  BSEL second
  | 0x000 => some ⟨fmtInt, true, true, false, true, true, false, true, false, false, 0, true⟩
  | 0x001 => some ⟨fmtInt, true, true, false, true, true, false, true, false, false, 0, true⟩
  | 0x002 => some ⟨fmtInt, true, true, false, true, true, false, true, false, false, 0, true⟩
  | 0x003 => some ⟨[0x00], true, true, false, true, true, false, false, false, false, 0, true⟩
  | 0x004 => some ⟨[0x00], true, true, false, false, false, false, false, false, false, 0, true⟩
  | 0x005 => some ⟨fmtInt, true, true, true, true, true, true, true, false, false, 0, true⟩
  | 0x006 => some ⟨fmtInt, true, true, false, true, true, false, false, false, false, 0, true⟩
  | 0x007 => some ⟨fmtInt, true, true, false, true, true, false, false, false, false, 0, true⟩
  | 0x008 => some ⟨fmtInt, true, true, false, false, false, false, false, false, false, 0, true⟩
  | 0x009 => some ⟨fmtInt, true, true, false, false, false, false, false, false, false, 0, true⟩
  | 0x00A => some ⟨[0x00], true, true, false, false, false, false, false, false, false, 0, true⟩
  | 0x00B => some ⟨[0x00], true, true, false, false, false, false, false, false, false, 0, true⟩
  | 0x00C => some ⟨[0x00], true, true, false, false, false, false, false, false, false, 0, true⟩
  | 0x00D => some ⟨[0x00], true, true, false, false, false, false, false, false, false, 0, true⟩
  | 0x00E => some ⟨fmtInt, true, true, false, false, false, false, true, false, false, 0, true⟩
  | 0x00F => some ⟨fmtInt, true, true, false, false, false, false, false, false, false, 0, true⟩
  | 0x010 => some ⟨fmtInt, true, true, false, false, false, false, false, false, false, 0, true⟩
  | 0x011 => some ⟨fmtInt, true, true, false, false, false, false, false, false, false, 0, true⟩
  | 0x012 => some ⟨fmtInt, true, false, false, false, false, false, false, false, false, 0, false⟩
  | 0x013 => some ⟨fmtInt, true, false, false, false, false, false, false, false, false, 0, false⟩
  | 0x014 => some ⟨fmtInt, true, false, false, false, false, false, false, false, false, 0, false⟩
  | 0x015 => some ⟨fmtInt, true, false, false, false, false, false, true, false, false, 0, false⟩
  | 0x016 => some ⟨fmtInt, true, true, false, false, false, false, false, false, false, 0, true⟩
  | 0x017 => some ⟨fmtInt, true, true, false, false, false, false, false, false, false, 0, true⟩
  | 0x018 => some ⟨[0x00], true, true, false, false, false, false, false, false, false, 1, true⟩
  | 0x019 => some ⟨[0x00], true, true, true, false, false, false, false, false, false, 0, true⟩
  | 0x01A => some ⟨fmtInt, true, true, true, false, false, false, false, false, false, 0, true⟩
  | 0x01B => some ⟨[0x00], false, true, false, false, false, false, false, false, false, 0, true⟩
  | 0x01C => some ⟨[0x07, 0x08, 0x09, 0x0A], true, true, true, false, false, false, true, false, false, 0, false⟩
  | 0x01D => some ⟨[0x07, 0x09], true, true, true, false, false, false, false, false, false, 0, false⟩
  | 0x040 => some ⟨fmtFloat, true, true, false, true, true, false, true, true, false, 0, true⟩
  | 0x041 => some ⟨fmtFloat, true, true, false, true, true, false, true, true, false, 0, true⟩
  | 0x042 => some ⟨fmtFloat, true, true, false, true, true, false, true, true, false, 0, true⟩
  | 0x043 => some ⟨fmtFloat, true, true, true, true, true, true, true, true, false, 0, true⟩
  | 0x044 => some ⟨fmtFloat, true, true, false, true, true, false, false, false, false, 0, true⟩
  | 0x045 => some ⟨fmtFloat, true, true, false, true, true, false, false, false, false, 0, true⟩
  | 0x046 => some ⟨fmtFloat, true, false, false, false, false, false, false, false, false, 0, false⟩
  | 0x047 => some ⟨fmtFloat, true, false, false, false, false, false, false, false, false, 0, false⟩
  | 0x048 => some ⟨fmtFloat, true, false, false, false, false, false, false, true, false, 0, false⟩
  | 0x049 => some ⟨fmtFloat, true, false, false, false, false, false, false, false, false, 0, false⟩
  | 0x04A => some ⟨fmtNarrow, true, true, false, true, true, false, true, true, true, 0, true⟩
  | 0x04B => some ⟨fmtNarrow, true, true, false, true, true, false, true, true, true, 0, true⟩
  | 0x04C => some ⟨fmtNarrow, true, true, true, true, true, true, true, true, true, 0, true⟩
  | 0x04D => some ⟨fmtNarrow, true, true, false, true, true, false, false, false, false, 0, true⟩
  | 0x04E => some ⟨fmtNarrow, true, true, false, true, true, false, false, false, false, 0, true⟩
  | 0x050 => some ⟨fmtFloat, true, true, false, true, true, false, true, true, false, 0, true⟩
  | 0x051 => some ⟨fmtFloat, true, false, false, true, false, false, true, true, false, 0, false⟩
  | 0x052 => some ⟨fmtFloat, true, false, false, true, false, false, true, true, false, 0, false⟩
  | 0x053 => some ⟨fmtFloat, true, false, false, true, false, false, true, true, false, 0, false⟩
  | 0x054 => some ⟨fmtFloat, true, false, false, true, false, false, true, true, false, 0, false⟩
  | 0x055 => some ⟨fmtFloat, true, false, false, true, false, false, true, true, false, 0, false⟩
  | 0x056 => some ⟨fmtFloat, true, false, false, true, false, false, true, true, false, 0, false⟩
  | 0x057 => some ⟨fmtFloat, true, false, false, true, false, false, true, true, false, 0, false⟩
  | 0x058 => some ⟨fmtFloat, true, false, false, true, false, false, true, true, false, 0, false⟩
  | 0x080 => some ⟨0x01 :: 0x05 :: fmtConvert, true, false, false, false, false, false, true, true, false, 0, false⟩
  | 0x081 => some ⟨fmtConvert, true, false, false, false, false, false, true, false, false, 0, false⟩
  | 0x082 => some ⟨fmtNf, true, false, false, false, false, false, true, true, true, 1, false⟩
  | 0x083 => some ⟨fmtPack, true, false, false, false, false, false, false, false, false, 0, false⟩
  | 0x084 => some ⟨fmtPack, true, false, false, false, false, false, false, false, false, 0, false⟩
  | 0x085 => some ⟨fmtBlock, true, false, false, false, false, false, false, false, false, 1, false⟩
  | 0x086 => some ⟨fmtBlock, true, true, false, false, false, false, true, true, true, 1, false⟩
  | 0x087 => some ⟨fmtBlock, true, true, false, false, false, false, true, true, false, 1, false⟩
  | _ => none

/-- A field that a bit admits, or zero. -/
def only (ok : Bool) (b : Bool) : Bool := ok || !b

/-- The immediate and special forms of the second operand (01 R31, R13). -/
def wfSecond (second usesVb imm spc : Bool) (vb : BitVec 7) (imm32free : Bool) (imm32 : Word32) : Bool :=
  only second imm && only second spc && !(imm && spc)
    && (usesVb && !imm || vb == 0)
    && (!spc || decide (vb.toNat ≤ 10))
    && (imm || imm32free || imm32 == 0)

/-- Elements per lane of a packed format whose width is fixed (10 R209). -/
def fixedElems (fmt : Nat) : Option Nat :=
  match fmt with
  | 0x03 => some 2 | 0x04 => some 2 | 0x0B => some 2
  | 0x06 => some 16
  | 0x07 => some 8 | 0x08 => some 8 | 0x0C => some 8
  | 0x0D => some 5 | 0x0E => some 5
  | 0x09 => some 4 | 0x0A => some 4 | 0x0F => some 4 | 0x10 => some 4
  | _ => none

/-- The checks of one instruction's own description (11 R233, R238 to R241). -/
def arithExtra (op : Nat) (f : LArith) : Bool :=
  match op with
  | 0x01D => decide (f.imm32.toNat < 32)
  | 0x080 =>
    decide ((f.imm32.toNat = 0x01 ∧ f.fmt.toNat = 0x05) ∨ (f.imm32.toNat = 0x05 ∧ f.fmt.toNat = 0x01)
      ∨ (f.imm32.toNat ∈ fmtConvert ∧ f.fmt.toNat ∈ fmtConvert))
  | 0x081 => decide (f.imm32.toNat ∈ [0x02, 0x03, 0x04] ∧ f.fmt.toNat ∈ fmtConvert ∧ f.fmt.toNat ≠ 0x00 ∧ f.fmt.toNat ≠ 0x02)
  | 0x082 => !(f.bsel == 1 && f.rnd == 5)
  | 0x083 => match fixedElems f.fmt.toNat with | some e => decide (f.va.toNat + e ≤ 128) | none => true
  | 0x084 => match fixedElems f.fmt.toNat with | some e => decide (f.vd.toNat + e ≤ 128) | none => true
  | _ => true

/-- The ILLOP checks of a single word of the integer, float and format classes (01 R37 step 1). -/
def wfArith (op : Nat) (f : LArith) : Bool :=
  match arithRow op with
  | none => false
  | some r =>
    decide (f.fmt.toNat ∈ r.fmts)
      && (r.va || f.va == 0) && (r.vc || f.vc == 0)
      && only r.na f.na && only r.nb f.nb && only r.nc f.nc && only r.sat f.sat
      && (if r.rnd then decide (f.rnd.toNat ≤ 4) || (r.dth && f.rnd == 5) else f.rnd == 0)
      && decide (f.bsel.toNat ≤ r.bsel)
      && wfSecond r.second r.vb f.imm f.spc f.vb (decide (op = 0x01D ∨ op = 0x080 ∨ op = 0x081)) f.imm32
      && arithExtra op f

/-- A mask number in a register field (01 R28). -/
def isM (v : BitVec 7) : Bool := decide (v.toNat ≤ 15)

/-- The ILLOP checks of the mask class (12 R249, R250). -/
def wfMask (op : Nat) (f : LMask) : Bool :=
  let noSecond := !f.imm && !f.spc && f.imm32 == 0
  match op with
  | 0x0A0 => isM f.vd && f.vc == 0 && f.fmt == 0 && decide (f.cnd.toNat ≤ 9)
      && wfSecond true true f.imm f.spc f.vb false f.imm32
  | 0x0A1 => isM f.vd && f.vc == 0 && decide (f.fmt.toNat ∈ [0x02, 0x03, 0x04]) && decide (f.cnd.toNat ≤ 7)
      && wfSecond true true f.imm f.spc f.vb false f.imm32
  | 0x0A2 => isM f.vd && isM f.va && isM f.vb && f.vc == 0 && f.fmt == 0 && noSecond && f.mask == 0
  | 0x0A3 => isM f.va && f.vb == 0 && f.vc == 0 && f.fmt == 0 && f.cnd == 0 && noSecond
  | 0x0A4 => isM f.va && f.vb == 0 && f.vc == 0 && f.fmt == 0 && f.cnd == 0 && noSecond
  | 0x0A5 => isM f.vd && f.vd != 0 && isM f.va && f.vb == 0 && f.vc == 0 && f.fmt == 0 && f.cnd == 0 && noSecond
      && f.mask == 0
  | 0x0A6 => isM f.vd && f.vd != 0 && f.va == 0 && f.vb == 0 && f.vc == 0 && f.fmt == 0 && f.cnd == 0 && noSecond
      && f.mask == 0
  | 0x0A7 => isM f.vd && f.vd != 0 && f.va == 0 && f.vb == 0 && f.vc == 0 && f.fmt == 0 && f.cnd == 0 && noSecond
      && f.mask == 0
  | 0x0A8 => isM f.vd && f.vd != 0 && isM f.va && f.vb == 0 && f.vc == 0 && f.fmt == 0 && f.cnd == 0 && noSecond
      && f.mask == 0
  | _ => false

/-- An even register where the format is 64-bit (01 R12). -/
def pairOk (fmt : BitVec 5) (v : BitVec 7) : Bool := fmt != 0x1C || decide (v.toNat % 2 = 0)

/-- The ILLOP checks of the cross-lane class (12 R256, R257). -/
def wfCross (op : Nat) (f : LCross) : Bool :=
  let plain := f.rop == 0 && !f.exc && f.vk == 0
  let move := decide (f.fmt.toNat ∈ [0x00, 0x1C]) && plain && pairOk f.fmt f.vd && pairOk f.fmt f.va && pairOk f.fmt f.vc
  let noSecond := !f.imm && !f.spc
  f.bsel == 0 && (match op with
  | 0x0C0 => move && !f.imm && (!f.spc || decide (f.vb.toNat ≤ 10))
      && decide (f.imm32.toNat < 32) && (decide (f.imm32.toNat < 16) || f.imm32 == 16)
  | 0x0C1 => move && noSecond && f.vb == 0 && decide (f.imm32.toNat < 1024)
  | 0x0C2 => move && noSecond && f.vb == 0 && decide (f.imm32.toNat < 1024)
  | 0x0C3 => f.fmt == 0 && f.rop == 0 && !f.exc && noSecond && f.vb == 0 && f.vc == 0 && f.imm32 == 0
  | 0x0C4 => decide (f.fmt.toNat ∈ fmtInt) && decide (f.rop.toNat ≤ 7) && !f.exc && f.vk == 0 && noSecond && f.vb == 0
      && f.vc == 0 && f.imm32 == 0
  | 0x0C5 => decide (f.fmt.toNat ∈ fmtFloat) && decide (8 ≤ f.rop.toNat ∧ f.rop.toNat ≤ 10) && !f.exc && f.vk == 0
      && noSecond && f.vb == 0 && f.vc == 0 && f.imm32 == 0
  | 0x0C6 => decide (f.fmt.toNat ∈ fmtInt) && decide (f.rop.toNat ≤ 7) && f.vk == 0 && noSecond && f.vb == 0
      && f.vc == 0 && f.imm32 == 0
  | 0x0C7 => decide (f.fmt.toNat ∈ fmtFloat) && decide (8 ≤ f.rop.toNat ∧ f.rop.toNat ≤ 10) && f.vk == 0
      && noSecond && f.vb == 0 && f.vc == 0 && f.imm32 == 0
  | 0x0C8 => f.fmt == 0 && plain && noSecond && f.vb == 0 && f.vc == 0 && f.imm32 == 0
  | 0x0C9 => move && noSecond && f.vb == 0 && f.imm32 == 0
  | 0x0CA => move && noSecond && f.vb == 0 && f.vc == 0 && f.imm32 == 0
  | _ => false)

/-- Format codes of whole bytes (06 R128). -/
def fmtWholeByte : List Nat := [0x00, 0x01, 0x02, 0x03, 0x04, 0x05, 0x09, 0x0A, 0x0B, 0x0F, 0x10, 0x1C]
/-- Format codes of the gather and scatter (06 R128). -/
def fmtMem : List Nat := [0x06, 0x07, 0x08, 0x0C, 0x0D, 0x0E] ++ fmtWholeByte

/-- The formats an atomic operation of the lane stream accepts (06 R144). -/
def atomFmts (aop : Nat) : List Nat :=
  if aop ≤ 7 then [0x00, 0x1C]
  else if aop = 8 then [0x00, 0x02, 0x05, 0x1C]
  else if aop ≤ 11 then [0x02]
  else if aop = 12 then [0x05]
  else []

def evenReg (v : BitVec 7) : Bool := decide (v.toNat % 2 = 0)

/-- Row lengths in lane words (06 R136). -/
def rowLens : List Nat := [1, 2, 4, 8, 16]

/-- The ILLOP checks of the memory class (06 R136, R137). -/
def wfMem (op : Nat) (f : LMem) : Bool :=
  let noCol := !f.cov && f.col == 0
  match op with
  | 0x0E0 => decide (f.fmt.toNat ∈ fmtMem) && pairOk f.fmt f.vd && evenReg f.va && f.vb == 0 && f.vc == 0
      && f.scope == 0 && noCol && f.aop == 0
  | 0x0E1 => decide (f.fmt.toNat ∈ fmtMem) && f.vd == 0 && evenReg f.va && pairOk f.fmt f.vb && f.vc == 0
      && f.scope == 0 && f.aop == 0
  | 0x0E2 => decide (f.fmt.toNat ∈ fmtWholeByte) && pairOk f.fmt f.vd && f.vb == 0 && f.vc == 0
      && f.scope == 0 && noCol && f.hint == 0 && f.aop == 0
  | 0x0E3 => decide (f.fmt.toNat ∈ fmtWholeByte) && f.vd == 0 && pairOk f.fmt f.vb && f.vc == 0
      && f.scope == 0 && noCol && f.hint == 0 && f.aop == 0
  | 0x0E4 => decide (f.fmt.toNat ∈ fmtWholeByte) && pairOk f.fmt f.vd && f.vb == 0 && f.vc == 0
      && f.scope == 0 && noCol && f.hint == 0 && f.aop == 0
  | 0x0E5 => decide (f.fmt.toNat ∈ fmtWholeByte) && f.vd == 0 && pairOk f.fmt f.vb && f.vc == 0
      && f.scope == 0 && noCol && f.hint == 0 && f.aop == 0
  | 0x0E6 => decide (f.fmt.toNat ∈ [0x00, 0x02, 0x05]) && decide (f.va.toNat < 32) && f.vb == 0
      && decide (f.vc.toNat ∈ rowLens) && f.scope == 6 && noCol && f.aop == 0
  | 0x0E7 => decide (f.fmt.toNat ∈ fmtMem) && f.vd == 0 && evenReg f.va && pairOk f.fmt f.vb && f.vc == 0
      && f.scope == 0 && noCol && f.hint == 0 && f.aop == 0
  | 0x0E8 => f.fmt == 0 && f.vd == 0 && evenReg f.va && f.vb == 0 && f.vc == 0
      && f.scope == 0 && noCol && decide (f.hint.toNat ≤ 2) && f.aop == 0
  | 0x0E9 => decide (f.fmt.toNat ∈ atomFmts f.aop.toNat) && pairOk f.fmt f.vd && evenReg f.va && pairOk f.fmt f.vb
      && f.vc == 0 && decide (f.scope.toNat = 4 ∨ f.scope.toNat = 5) && noCol && f.hint == 0
  | 0x0EA => decide (f.fmt.toNat ∈ [0x00, 0x1C]) && pairOk f.fmt f.vd && evenReg f.va && pairOk f.fmt f.vb
      && pairOk f.fmt f.vc && decide (f.scope.toNat = 4 ∨ f.scope.toNat = 5) && noCol && f.hint == 0 && f.aop == 0
  | 0x0EB => f.vd == 0 && decide (f.va.toNat < 32) && decide (f.vc.toNat ∈ rowLens) && f.scope == 6 && noCol
      && f.hint == 0
      && decide ((f.fmt.toNat = 0x05 ∧ f.aop.toNat ≤ 1) ∨ (f.fmt.toNat = 0x02 ∧ f.aop.toNat = 2))
  | _ => false

/-- Formats a drain accepts (13 R273). -/
def fmtDrain : List Nat := [0x00, 0x02, 0x03, 0x04, 0x0C, 0x0D, 0x0E, 0x0F, 0x10, 0x18, 0x19, 0x1A, 0x1B]

/-- The ILLOP checks of the matrix and Cascade class (13 R290, R272, R273, 03 R86). -/
def wfMat (op : Nat) (f : LMat) : Bool :=
  let plain := f.rnd == 0 && !f.sat && f.bsel == 0
  match op with
  | 0x100 => decide (f.vd.toNat < 8) && f.vb == 0 && f.vc == 0 && f.fmt == 0 && plain && f.cop == 0
  | 0x101 => decide (f.vd.toNat < 4) && f.vb == 0 && f.vc == 0 && decide (f.fmt.toNat ∈ 0x00 :: fmtMatrix) && plain
      && f.cop == 0 && f.imm32 == 0
  | 0x102 => decide (f.va.toNat < 16) && f.vb == 0 && f.vc == 0 && decide (f.fmt.toNat ∈ fmtDrain) && f.bsel == 0
      && f.cop == 0
      && (if f.fmt == 0 then f.rnd == 0 && !f.sat
          else if f.fmt == 2 then decide (f.rnd.toNat ≤ 4) else decide (f.rnd.toNat ≤ 5))
  | 0x103 => decide (f.vd.toNat < 16) && f.va == 0 && f.vb == 0 && f.vc == 0 && decide (f.fmt.toNat ∈ [0x00, 0x02])
      && plain && f.cop == 0 && decide (f.imm32.toNat / 2 ^ 6 % 2 ^ 10 = 0) && (f.imm32 != 0 || f.fmt == 0)
  | 0x110 => decide (f.va.toNat < 32) && f.vb == 0 && f.vc == 0 && f.rnd == 0 && f.bsel == 0
      && decide (f.fmt.toNat ∈ [0x00, 0x02]) && decide (f.cop.toNat ≤ 2)
      && (f.cop != 2 || (f.fmt == 2 && evenReg f.vd)) && (!f.sat || (f.cop == 0 && f.fmt == 0))
  | 0x111 => decide (f.va.toNat < 32) && f.vb == 0 && f.vc == 0 && plain && f.cop == 0 && decide (f.fmt.toNat ∈ [0x00, 0x02])
  | 0x112 => decide (f.va.toNat < 32) && f.vd == 0 && f.vc == 0 && plain && f.cop == 0 && decide (f.fmt.toNat ∈ [0x00, 0x02])
  | 0x113 => decide (f.vd.toNat < 32) && decide (f.va.toNat < 32) && f.vb == 0 && f.vc == 0 && plain && f.fmt == 0
      && f.imm32 == 0 && decide (f.cop.toNat ≤ 2) && (f.cop == 0 || f.va == 0)
  | _ => false

/-- A half as the single form it behaves as: its other fields are zero (01 R27, 11 R228). -/
def Half.toArith (h : Half) : LArith :=
  let float := decide (0x40 ≤ h.op7.toNat)
  { vd := h.vd, va := h.va, vb := h.vb, vc := h.vc, mask := h.mask, fmt := h.fmt
    rnd := if float then h.mod3 else BitVec.ofNat 3 (h.mod3.toNat % 4)
    sat := !float && decide (4 ≤ h.mod3.toNat)
    na := false, nb := false, nc := false, bsel := 0, imm := false, spc := false, imm32 := 0 }

/-- The ILLOP checks of a half (01 R37 step 1): an op7 that names a transcendental is left to ILLPAIR (01 R35). -/
def halfLegal (h : Half) : Bool := wfArith h.op7.toNat h.toArith

/-- The registers a half reads in its used source fields. -/
def Half.sources (h : Half) : List (BitVec 7) :=
  match arithRow h.op7.toNat with
  | none => []
  | some r => (if r.va then [h.va] else []) ++ (if r.vb then [h.vb] else []) ++ (if r.vc then [h.vc] else [])

/-- Distinct members of a list. -/
def distinct (l : List (BitVec 7)) : List (BitVec 7) :=
  l.foldl (fun acc x => if acc.contains x then acc else acc ++ [x]) []

/-- The conditions of a pair (01 R35). -/
def pairLegal (a b : Half) : Bool :=
  decide (a.op7.toNat < 0x50) && decide (b.op7.toNat < 0x50)
    && decide (a.vd.toNat % 2 ≠ b.vd.toNat % 2)
    && decide ((distinct (a.sources ++ b.sources)).length ≤ 4)
    && !b.sources.contains a.vd

/-- Every field of the instruction holds a value the spec assigns (01 R20 to R37). -/
def wellFormed : Instr → Bool
  | .add _ _ _ => true
  | .sub _ _ _ => true
  | .mul _ _ _ => true
  | .mulh _ _ _ => true
  | .mulhu _ _ _ => true
  | .div _ _ _ => true
  | .divu _ _ _ => true
  | .rem _ _ _ => true
  | .remu _ _ _ => true
  | .and _ _ _ => true
  | .or _ _ _ => true
  | .xor _ _ _ => true
  | .andn _ _ _ => true
  | .shl _ _ _ => true
  | .shr _ _ _ => true
  | .sar _ _ _ => true
  | .rotr _ _ _ => true
  | .min _ _ _ => true
  | .max _ _ _ => true
  | .minu _ _ _ => true
  | .maxu _ _ _ => true
  | .slt _ _ _ => true
  | .sltu _ _ _ => true
  | .seq _ _ _ => true
  | .clz _ _ => true
  | .ctz _ _ => true
  | .popc _ _ => true
  | .addi _ _ _ => true
  | .andi _ _ _ => true
  | .ori _ _ _ => true
  | .xori _ _ _ => true
  | .shli _ _ _ => true
  | .shri _ _ _ => true
  | .sari _ _ _ => true
  | .slti _ _ _ => true
  | .sltui _ _ _ => true
  | .lui _ _ => true
  | .apc _ _ => true
  | .ldB _ _ _ => true
  | .ldH _ _ _ => true
  | .ldW _ _ _ => true
  | .ldD _ _ _ => true
  | .lduB _ _ _ => true
  | .lduH _ _ _ => true
  | .lduW _ _ _ => true
  | .stB _ _ _ => true
  | .stH _ _ _ => true
  | .stW _ _ _ => true
  | .stD _ _ _ => true
  | .amo _ _ _ c z o => wfAtom c z && decide (o.toNat ≤ 8)
  | .cas _ _ _ c z => wfAtom c z
  | .beq _ _ _ => true
  | .bne _ _ _ => true
  | .blt _ _ _ => true
  | .bge _ _ _ => true
  | .bltu _ _ _ => true
  | .bgeu _ _ _ => true
  | .jmp _ => true
  | .call _ => true
  | .ret => true
  | .jtab _ _ => true
  | .lpad _ => true
  | .lrun _ _ => true
  | .lwait _ => true
  | .mrd _ n k => decide (n.toNat ≤ 15) && decide (k.toNat ≤ 16)
  | .mwr n _ k => decide (n.toNat ≤ 15) && decide (k.toNat ≤ 15)
  | .rel s m => decide (1 ≤ s.toNat ∧ s.toNat ≤ 5) && decide (m.toNat ≠ 0)
  | .acq s => decide (1 ≤ s.toNat ∧ s.toNat ≤ 5)
  | .fence k m => decide (k.toNat ≤ 2) && decide (m.toNat ≠ 0)
  | .tlwait _ _ => true
  | .tlread _ _ => true
  | .rcopy _ _ _ n => decide (n.toNat ≤ 5)
  | .rfeed _ _ _ n => decide (n.toNat ≤ 5)
  | .rspill _ _ _ n => decide (n.toNat ≤ 5)
  | .evpop d => decide (d.toNat % 2 = 0 ∧ d.toNat ≤ 28)
  | .evwait => true
  | .mxloop _ a => decide (a.toNat % 4 = 0 ∧ 4 ≤ a.toNat ∧ a.toNat ≤ 24)
  | .wset _ _ _ c => decide (c.toNat ≤ 2)
  | .wfree _ => true
  | .freeze k => decide (k.toNat ≤ 2)
  | .bar _ s => decide (s.toNat ≤ 2)
  | .qput _ _ _ => true
  | .qget _ _ _ => true
  | .yield => true
  | .exit _ => true
  | .trap _ => true
  | .svc _ => true
  | .sget _ _ => true
  | .sset _ _ => true
  | .eret => true
  | .brk _ => true
  | .snap _ _ => true
  | .roll _ _ => true
  | .nop => true
  | .lanePair a b => halfLegal a && halfLegal b && pairLegal a b
  | .vadd f => wfArith 0x000 f
  | .vsub f => wfArith 0x001 f
  | .vmul f => wfArith 0x002 f
  | .vmulh f => wfArith 0x003 f
  | .vmulhu f => wfArith 0x004 f
  | .vmad f => wfArith 0x005 f
  | .vmin f => wfArith 0x006 f
  | .vmax f => wfArith 0x007 f
  | .vminu f => wfArith 0x008 f
  | .vmaxu f => wfArith 0x009 f
  | .vand f => wfArith 0x00A f
  | .vor f => wfArith 0x00B f
  | .vxor f => wfArith 0x00C f
  | .vandn f => wfArith 0x00D f
  | .vshl f => wfArith 0x00E f
  | .vshr f => wfArith 0x00F f
  | .vsar f => wfArith 0x010 f
  | .vrotr f => wfArith 0x011 f
  | .vclz f => wfArith 0x012 f
  | .vpopc f => wfArith 0x013 f
  | .vbrev f => wfArith 0x014 f
  | .vabs f => wfArith 0x015 f
  | .vaddsat f => wfArith 0x016 f
  | .vsubsat f => wfArith 0x017 f
  | .vbfx f => wfArith 0x018 f
  | .vbfi f => wfArith 0x019 f
  | .vsel f => wfArith 0x01A f
  | .vmov f => wfArith 0x01B f
  | .vdot4 f => wfArith 0x01C f
  | .vrqz f => wfArith 0x01D f
  | .vfadd f => wfArith 0x040 f
  | .vfsub f => wfArith 0x041 f
  | .vfmul f => wfArith 0x042 f
  | .vfma f => wfArith 0x043 f
  | .vfmin f => wfArith 0x044 f
  | .vfmax f => wfArith 0x045 f
  | .vfabs f => wfArith 0x046 f
  | .vfneg f => wfArith 0x047 f
  | .vfrnd f => wfArith 0x048 f
  | .vfclass f => wfArith 0x049 f
  | .vnadd f => wfArith 0x04A f
  | .vnmul f => wfArith 0x04B f
  | .vnfma f => wfArith 0x04C f
  | .vnmax f => wfArith 0x04D f
  | .vnmin f => wfArith 0x04E f
  | .vfdiv f => wfArith 0x050 f
  | .vfsqrt f => wfArith 0x051 f
  | .vrcp f => wfArith 0x052 f
  | .vrsq f => wfArith 0x053 f
  | .vexp2 f => wfArith 0x054 f
  | .vlog2 f => wfArith 0x055 f
  | .vsin f => wfArith 0x056 f
  | .vcos f => wfArith 0x057 f
  | .vtanh f => wfArith 0x058 f
  | .vcvt f => wfArith 0x080 f
  | .vcvtd f => wfArith 0x081 f
  | .vcvtnf f => wfArith 0x082 f
  | .vpack f => wfArith 0x083 f
  | .vunpack f => wfArith 0x084 f
  | .vbsc f => wfArith 0x085 f
  | .vbq f => wfArith 0x086 f
  | .vbdq f => wfArith 0x087 f
  | .vcmp f => wfMask 0x0A0 f
  | .vfcmp f => wfMask 0x0A1 f
  | .vmlog f => wfMask 0x0A2 f
  | .vmpop f => wfMask 0x0A3 f
  | .vmfirst f => wfMask 0x0A4 f
  | .vif f => wfMask 0x0A5 f
  | .velse f => wfMask 0x0A6 f
  | .vendif f => wfMask 0x0A7 f
  | .vbreak f => wfMask 0x0A8 f
  | .vshfl f => wfCross 0x0C0 f
  | .vbcast f => wfCross 0x0C1 f
  | .vrot f => wfCross 0x0C2 f
  | .vvote f => wfCross 0x0C3 f
  | .vred f => wfCross 0x0C4 f
  | .vfred f => wfCross 0x0C5 f
  | .vscan f => wfCross 0x0C6 f
  | .vfscan f => wfCross 0x0C7 f
  | .vmatch f => wfCross 0x0C8 f
  | .vcompact f => wfCross 0x0C9 f
  | .vexpand f => wfCross 0x0CA f
  | .vld f => wfMem 0x0E0 f
  | .vst f => wfMem 0x0E1 f
  | .vldp f => wfMem 0x0E2 f
  | .vstp f => wfMem 0x0E3 f
  | .vldb f => wfMem 0x0E4 f
  | .vstb f => wfMem 0x0E5 f
  | .vldrow f => wfMem 0x0E6 f
  | .vtst f => wfMem 0x0E7 f
  | .vpref f => wfMem 0x0E8 f
  | .vatom f => wfMem 0x0E9 f
  | .vcas f => wfMem 0x0EA f
  | .vrowatom f => wfMem 0x0EB f
  | .vwst f => wfMat 0x100 f
  | .vqput f => wfMat 0x101 f
  | .vadr f => wfMat 0x102 f
  | .vaclr f => wfMat 0x103 f
  | .vnrred f => wfMat 0x110 f
  | .vnrld f => wfMat 0x111 f
  | .vnrst f => wfMat 0x112 f
  | .vnrclone f => wfMat 0x113 f
  | .vnop _ => true
  | .vend _ => true
  | .laneBlockStart _ => true
  | .loadDataReturn _ _ => true
  | .homeSliceAtomic _ => true
  | .atomicOldValueReturn _ _ => true
  | .atomicCollectionClose _ => true
  | .psnShareArrival _ _ => true
  | .psnCommit => true
  | .heldNotice _ _ => true
  | .commitNotice _ _ => true
  | .segmentSealTimeout _ => true
  | .skimmerCompact _ => true
  | .retireNotice _ _ => true
  | .appendResume => true
  | .spacealarm => true
  | .spillWaitEnd _ => true
  | .stalecntFlush _ => true
  | .basinStallTimeout _ => true
  | .teamRedispatch _ => true
  | .teamRestore _ => true
  | .waitSatisfied _ => true
  | .barrierGenerationComplete _ => true
  | .yieldEnd _ => true
  | .teamPromotion _ _ => true
  | .runnelStart _ => true
  | .runnelEnd _ => true
  | .completionRecordPost _ => true
  | .mxloopGrant _ => true
  | .matrixStep _ _ => true
  | .matrixUpdateLand _ _ => true
  | .cascadeComplete _ _ => true
  | .sealObserved _ _ => true
  | .launchParse _ => true
  | .dependenceSatisfied _ => true
  | .launchPlace _ => true
  | .instanceStamp _ _ => true
  | .templateSpreadCopy _ _ => true
  | .stageRebalance _ => true
  | .sliceExpiry _ => true
  | .launchRestore _ => true
  | .launchComplete _ => true
  | .patrolScrub _ => true
  | .slicePauseEnd _ => true
  | .dieLinkLoss => true
  | .tcfWatchdog => true
  | .coldReset _ => true
  | .junctionTemperature _ => true
  | .powerCapExceeded _ => true
  | .coolantFlowLow _ => true
  | .refreshWindow _ => true
  | .ageCapExpiry _ => true
  | .scanInterval => true
  | .scanComplete _ _ _ => true
  | .pairedTwinTimeout _ => true
  | .pairedAtomicTimeout _ => true
  | .cxlMemRead _ => true
  | .cxlMemWrite _ _ _ _ => true
  | .hostBatchClose => true
  | .msixUnmask _ _ => true
  | .xlinvVaRange => true
  | .xlinvContext => true
  | .xlinvWindow => true
  | .xlinvAll => true
  | .xlinvComplete => true
  | .resumeContinue _ _ _ => true
  | .resumeKill _ _ _ => true
  | .devctlEnable _ => true
  | .devctlWarmreq => true
  | .dbgHalt _ _ => true
  | .dbgResume _ _ => true
  | .dbgStep _ _ => true
  | .registerWrite _ _ => true
  | .snapfree _ _ _ => true
  | .exportWindow _ => true
  | .takeover _ => true
  | .mailboxCommand _ => true
  | .spdmMeasurement _ => true
  | .spdmChallenge _ => true
  | .spdmCertificate _ => true
  | .spillwayShip _ => true
  | .spillwayCut _ => true
  | .replicaSegmentData _ => true
  | .replicaCut _ _ _ _ => true
  | .cutEcho _ _ _ _ => true
  | .takeoverFlit _ _ => true
  | .hostWindowStoreAck _ => true
  | .computeRowStoreAtBank _ => true
  | .savefull => true

end Sys2Proof
end

