-- ==== Sys2Proof/Decode.lean ====
section
/-!
DEFINITION. Decoding scalar words (01 R18 to R24) and lane words (01 R26 to R37), total on any bits,
and the encoder, written from the same tables.
-/
namespace Sys2Proof

/-- Why a word is no instruction. -/
inductive Reject where
  /-- a reserved opcode, field or bit: ILLOP (01 R24, R37 step 1) -/
  | illop
  /-- a breach of the pairing conditions: ILLPAIR (01 R35, R37 step 2) -/
  | illpair
  /-- the bytes end before the instruction does -/
  | truncated
  deriving DecidableEq, Repr

/-- `n` bits of a word from bit `lo`. -/
def fld (w lo n : Nat) : BitVec n := BitVec.ofNat n (w / 2 ^ lo)

/-- One bit of a word. -/
def fbit (w lo : Nat) : Bool := w / 2 ^ lo % 2 == 1

/-- Scalar opcode 0x00 (01 R20 to R23). -/
def decodeOp00 (w : Nat) : Option Instr :=
  if w / 2 ^ 0 % 2 ^ 11 = 0 then some (.add (fld w 21 5) (fld w 16 5) (fld w 11 5))
  else if w / 2 ^ 0 % 2 ^ 11 = 1 then some (.sub (fld w 21 5) (fld w 16 5) (fld w 11 5))
  else if w / 2 ^ 0 % 2 ^ 11 = 2 then some (.mul (fld w 21 5) (fld w 16 5) (fld w 11 5))
  else if w / 2 ^ 0 % 2 ^ 11 = 3 then some (.mulh (fld w 21 5) (fld w 16 5) (fld w 11 5))
  else if w / 2 ^ 0 % 2 ^ 11 = 4 then some (.mulhu (fld w 21 5) (fld w 16 5) (fld w 11 5))
  else if w / 2 ^ 0 % 2 ^ 11 = 5 then some (.div (fld w 21 5) (fld w 16 5) (fld w 11 5))
  else if w / 2 ^ 0 % 2 ^ 11 = 6 then some (.divu (fld w 21 5) (fld w 16 5) (fld w 11 5))
  else if w / 2 ^ 0 % 2 ^ 11 = 7 then some (.rem (fld w 21 5) (fld w 16 5) (fld w 11 5))
  else if w / 2 ^ 0 % 2 ^ 11 = 8 then some (.remu (fld w 21 5) (fld w 16 5) (fld w 11 5))
  else if w / 2 ^ 0 % 2 ^ 11 = 9 then some (.and (fld w 21 5) (fld w 16 5) (fld w 11 5))
  else if w / 2 ^ 0 % 2 ^ 11 = 10 then some (.or (fld w 21 5) (fld w 16 5) (fld w 11 5))
  else if w / 2 ^ 0 % 2 ^ 11 = 11 then some (.xor (fld w 21 5) (fld w 16 5) (fld w 11 5))
  else if w / 2 ^ 0 % 2 ^ 11 = 12 then some (.andn (fld w 21 5) (fld w 16 5) (fld w 11 5))
  else if w / 2 ^ 0 % 2 ^ 11 = 13 then some (.shl (fld w 21 5) (fld w 16 5) (fld w 11 5))
  else if w / 2 ^ 0 % 2 ^ 11 = 14 then some (.shr (fld w 21 5) (fld w 16 5) (fld w 11 5))
  else if w / 2 ^ 0 % 2 ^ 11 = 15 then some (.sar (fld w 21 5) (fld w 16 5) (fld w 11 5))
  else if w / 2 ^ 0 % 2 ^ 11 = 16 then some (.rotr (fld w 21 5) (fld w 16 5) (fld w 11 5))
  else if w / 2 ^ 0 % 2 ^ 11 = 17 then some (.min (fld w 21 5) (fld w 16 5) (fld w 11 5))
  else if w / 2 ^ 0 % 2 ^ 11 = 18 then some (.max (fld w 21 5) (fld w 16 5) (fld w 11 5))
  else if w / 2 ^ 0 % 2 ^ 11 = 19 then some (.minu (fld w 21 5) (fld w 16 5) (fld w 11 5))
  else if w / 2 ^ 0 % 2 ^ 11 = 20 then some (.maxu (fld w 21 5) (fld w 16 5) (fld w 11 5))
  else if w / 2 ^ 0 % 2 ^ 11 = 21 then some (.slt (fld w 21 5) (fld w 16 5) (fld w 11 5))
  else if w / 2 ^ 0 % 2 ^ 11 = 22 then some (.sltu (fld w 21 5) (fld w 16 5) (fld w 11 5))
  else if w / 2 ^ 0 % 2 ^ 11 = 23 then some (.seq (fld w 21 5) (fld w 16 5) (fld w 11 5))
  else if w / 2 ^ 0 % 2 ^ 16 = 24 then some (.clz (fld w 21 5) (fld w 16 5))
  else if w / 2 ^ 0 % 2 ^ 16 = 25 then some (.ctz (fld w 21 5) (fld w 16 5))
  else if w / 2 ^ 0 % 2 ^ 16 = 26 then some (.popc (fld w 21 5) (fld w 16 5))
  else none

/-- Scalar opcode 0x01 (01 R20 to R23). -/
def decodeOp01 (w : Nat) : Option Instr :=
  some (.addi (fld w 21 5) (fld w 16 5) (fld w 0 16))

/-- Scalar opcode 0x02 (01 R20 to R23). -/
def decodeOp02 (w : Nat) : Option Instr :=
  some (.andi (fld w 21 5) (fld w 16 5) (fld w 0 16))

/-- Scalar opcode 0x03 (01 R20 to R23). -/
def decodeOp03 (w : Nat) : Option Instr :=
  some (.ori (fld w 21 5) (fld w 16 5) (fld w 0 16))

/-- Scalar opcode 0x04 (01 R20 to R23). -/
def decodeOp04 (w : Nat) : Option Instr :=
  some (.xori (fld w 21 5) (fld w 16 5) (fld w 0 16))

/-- Scalar opcode 0x05 (01 R20 to R23). -/
def decodeOp05 (w : Nat) : Option Instr :=
  if w / 2 ^ 6 % 2 ^ 10 = 0 then some (.shli (fld w 21 5) (fld w 16 5) (fld w 0 6))
  else none

/-- Scalar opcode 0x06 (01 R20 to R23). -/
def decodeOp06 (w : Nat) : Option Instr :=
  if w / 2 ^ 6 % 2 ^ 10 = 0 then some (.shri (fld w 21 5) (fld w 16 5) (fld w 0 6))
  else none

/-- Scalar opcode 0x07 (01 R20 to R23). -/
def decodeOp07 (w : Nat) : Option Instr :=
  if w / 2 ^ 6 % 2 ^ 10 = 0 then some (.sari (fld w 21 5) (fld w 16 5) (fld w 0 6))
  else none

/-- Scalar opcode 0x08 (01 R20 to R23). -/
def decodeOp08 (w : Nat) : Option Instr :=
  some (.slti (fld w 21 5) (fld w 16 5) (fld w 0 16))

/-- Scalar opcode 0x09 (01 R20 to R23). -/
def decodeOp09 (w : Nat) : Option Instr :=
  some (.sltui (fld w 21 5) (fld w 16 5) (fld w 0 16))

/-- Scalar opcode 0x0A (01 R20 to R23). -/
def decodeOp0A (w : Nat) : Option Instr :=
  some (.lui (fld w 21 5) (fld w 0 21))

/-- Scalar opcode 0x0B (01 R20 to R23). -/
def decodeOp0B (w : Nat) : Option Instr :=
  some (.apc (fld w 21 5) (fld w 0 21))

/-- Scalar opcode 0x0C (01 R20 to R23). -/
def decodeOp0C (w : Nat) : Option Instr :=
  some (.ldB (fld w 21 5) (fld w 16 5) (fld w 0 16))

/-- Scalar opcode 0x0D (01 R20 to R23). -/
def decodeOp0D (w : Nat) : Option Instr :=
  some (.ldH (fld w 21 5) (fld w 16 5) (fld w 0 16))

/-- Scalar opcode 0x0E (01 R20 to R23). -/
def decodeOp0E (w : Nat) : Option Instr :=
  some (.ldW (fld w 21 5) (fld w 16 5) (fld w 0 16))

/-- Scalar opcode 0x0F (01 R20 to R23). -/
def decodeOp0F (w : Nat) : Option Instr :=
  some (.ldD (fld w 21 5) (fld w 16 5) (fld w 0 16))

/-- Scalar opcode 0x10 (01 R20 to R23). -/
def decodeOp10 (w : Nat) : Option Instr :=
  some (.lduB (fld w 21 5) (fld w 16 5) (fld w 0 16))

/-- Scalar opcode 0x11 (01 R20 to R23). -/
def decodeOp11 (w : Nat) : Option Instr :=
  some (.lduH (fld w 21 5) (fld w 16 5) (fld w 0 16))

/-- Scalar opcode 0x12 (01 R20 to R23). -/
def decodeOp12 (w : Nat) : Option Instr :=
  some (.lduW (fld w 21 5) (fld w 16 5) (fld w 0 16))

/-- Scalar opcode 0x13 (01 R20 to R23). -/
def decodeOp13 (w : Nat) : Option Instr :=
  some (.stB (fld w 21 5) (fld w 16 5) (fld w 0 16))

/-- Scalar opcode 0x14 (01 R20 to R23). -/
def decodeOp14 (w : Nat) : Option Instr :=
  some (.stH (fld w 21 5) (fld w 16 5) (fld w 0 16))

/-- Scalar opcode 0x15 (01 R20 to R23). -/
def decodeOp15 (w : Nat) : Option Instr :=
  some (.stW (fld w 21 5) (fld w 16 5) (fld w 0 16))

/-- Scalar opcode 0x16 (01 R20 to R23). -/
def decodeOp16 (w : Nat) : Option Instr :=
  some (.stD (fld w 21 5) (fld w 16 5) (fld w 0 16))

/-- Scalar opcode 0x17 (01 R20 to R23). -/
def decodeOp17 (w : Nat) : Option Instr :=
  if w / 2 ^ 4 % 2 ^ 2 = 0 then some (.amo (fld w 21 5) (fld w 16 5) (fld w 11 5) (fld w 8 3) (fld w 6 2) (fld w 0 4))
  else none

/-- Scalar opcode 0x18 (01 R20 to R23). -/
def decodeOp18 (w : Nat) : Option Instr :=
  if w / 2 ^ 0 % 2 ^ 6 = 0 then some (.cas (fld w 21 5) (fld w 16 5) (fld w 11 5) (fld w 8 3) (fld w 6 2))
  else none

/-- Scalar opcode 0x19 (01 R20 to R23). -/
def decodeOp19 (w : Nat) : Option Instr :=
  some (.beq (fld w 21 5) (fld w 16 5) (fld w 0 16))

/-- Scalar opcode 0x1A (01 R20 to R23). -/
def decodeOp1A (w : Nat) : Option Instr :=
  some (.bne (fld w 21 5) (fld w 16 5) (fld w 0 16))

/-- Scalar opcode 0x1B (01 R20 to R23). -/
def decodeOp1B (w : Nat) : Option Instr :=
  some (.blt (fld w 21 5) (fld w 16 5) (fld w 0 16))

/-- Scalar opcode 0x1C (01 R20 to R23). -/
def decodeOp1C (w : Nat) : Option Instr :=
  some (.bge (fld w 21 5) (fld w 16 5) (fld w 0 16))

/-- Scalar opcode 0x1D (01 R20 to R23). -/
def decodeOp1D (w : Nat) : Option Instr :=
  some (.bltu (fld w 21 5) (fld w 16 5) (fld w 0 16))

/-- Scalar opcode 0x1E (01 R20 to R23). -/
def decodeOp1E (w : Nat) : Option Instr :=
  some (.bgeu (fld w 21 5) (fld w 16 5) (fld w 0 16))

/-- Scalar opcode 0x1F (01 R20 to R23). -/
def decodeOp1F (w : Nat) : Option Instr :=
  some (.jmp (fld w 0 26))

/-- Scalar opcode 0x20 (01 R20 to R23). -/
def decodeOp20 (w : Nat) : Option Instr :=
  some (.call (fld w 0 26))

/-- Scalar opcode 0x21 (01 R20 to R23). -/
def decodeOp21 (w : Nat) : Option Instr :=
  if w / 2 ^ 0 % 2 ^ 26 = 0 then some .ret
  else none

/-- Scalar opcode 0x22 (01 R20 to R23). -/
def decodeOp22 (w : Nat) : Option Instr :=
  if w / 2 ^ 0 % 2 ^ 11 = 0 ∧ w / 2 ^ 21 % 2 ^ 5 = 0 then some (.jtab (fld w 16 5) (fld w 11 5))
  else none

/-- Scalar opcode 0x23 (01 R20 to R23). -/
def decodeOp23 (w : Nat) : Option Instr :=
  if w / 2 ^ 21 % 2 ^ 5 = 0 then some (.lpad (fld w 0 21))
  else none

/-- Scalar opcode 0x24 (01 R20 to R23). -/
def decodeOp24 (w : Nat) : Option Instr :=
  some (.lrun (fld w 21 5) (fld w 0 21))

/-- Scalar opcode 0x25 (01 R20 to R23). -/
def decodeOp25 (w : Nat) : Option Instr :=
  if w / 2 ^ 16 % 2 ^ 10 = 0 then some (.lwait (fld w 0 16))
  else none

/-- Scalar opcode 0x26 (01 R20 to R23). -/
def decodeOp26 (w : Nat) : Option Instr :=
  if w / 2 ^ 5 % 2 ^ 11 = 0 then some (.mrd (fld w 21 5) (fld w 16 5) (fld w 0 5))
  else none

/-- Scalar opcode 0x27 (01 R20 to R23). -/
def decodeOp27 (w : Nat) : Option Instr :=
  if w / 2 ^ 5 % 2 ^ 11 = 0 then some (.mwr (fld w 21 5) (fld w 16 5) (fld w 0 5))
  else none

/-- Scalar opcode 0x28 (01 R20 to R23). -/
def decodeOp28 (w : Nat) : Option Instr :=
  if w / 2 ^ 11 % 2 ^ 15 = 0 then some (.rel (fld w 8 3) (fld w 0 8))
  else none

/-- Scalar opcode 0x29 (01 R20 to R23). -/
def decodeOp29 (w : Nat) : Option Instr :=
  if w / 2 ^ 0 % 2 ^ 8 = 0 ∧ w / 2 ^ 11 % 2 ^ 15 = 0 then some (.acq (fld w 8 3))
  else none

/-- Scalar opcode 0x2A (01 R20 to R23). -/
def decodeOp2A (w : Nat) : Option Instr :=
  if w / 2 ^ 11 % 2 ^ 15 = 0 then some (.fence (fld w 8 3) (fld w 0 8))
  else none

/-- Scalar opcode 0x2B (01 R20 to R23). -/
def decodeOp2B (w : Nat) : Option Instr :=
  if w / 2 ^ 3 % 2 ^ 13 = 0 ∧ w / 2 ^ 21 % 2 ^ 5 = 0 then some (.tlwait (fld w 16 5) (fld w 0 3))
  else none

/-- Scalar opcode 0x2C (01 R20 to R23). -/
def decodeOp2C (w : Nat) : Option Instr :=
  if w / 2 ^ 3 % 2 ^ 18 = 0 then some (.tlread (fld w 21 5) (fld w 0 3))
  else none

/-- Scalar opcode 0x2D (01 R20 to R23). -/
def decodeOp2D (w : Nat) : Option Instr :=
  if w / 2 ^ 4 % 2 ^ 12 = 0 then some (.rcopy (fld w 21 5) (fld w 16 5) (fld w 3 1) (fld w 0 3))
  else none

/-- Scalar opcode 0x2E (01 R20 to R23). -/
def decodeOp2E (w : Nat) : Option Instr :=
  if w / 2 ^ 4 % 2 ^ 12 = 0 then some (.rfeed (fld w 21 5) (fld w 16 5) (fld w 3 1) (fld w 0 3))
  else none

/-- Scalar opcode 0x2F (01 R20 to R23). -/
def decodeOp2F (w : Nat) : Option Instr :=
  if w / 2 ^ 4 % 2 ^ 12 = 0 then some (.rspill (fld w 21 5) (fld w 16 5) (fld w 3 1) (fld w 0 3))
  else none

/-- Scalar opcode 0x30 (01 R20 to R23). -/
def decodeOp30 (w : Nat) : Option Instr :=
  if w / 2 ^ 0 % 2 ^ 21 = 0 then some (.evpop (fld w 21 5))
  else none

/-- Scalar opcode 0x31 (01 R20 to R23). -/
def decodeOp31 (w : Nat) : Option Instr :=
  if w / 2 ^ 0 % 2 ^ 26 = 0 then some .evwait
  else none

/-- Scalar opcode 0x32 (01 R20 to R23). -/
def decodeOp32 (w : Nat) : Option Instr :=
  if w / 2 ^ 0 % 2 ^ 16 = 0 then some (.mxloop (fld w 21 5) (fld w 16 5))
  else none

/-- Scalar opcode 0x33 (01 R20 to R23). -/
def decodeOp33 (w : Nat) : Option Instr :=
  if w / 2 ^ 2 % 2 ^ 9 = 0 ∧ w / 2 ^ 24 % 2 ^ 2 = 0 then some (.wset (fld w 21 3) (fld w 16 5) (fld w 11 5) (fld w 0 2))
  else none

/-- Scalar opcode 0x34 (01 R20 to R23). -/
def decodeOp34 (w : Nat) : Option Instr :=
  if w / 2 ^ 0 % 2 ^ 21 = 0 ∧ w / 2 ^ 24 % 2 ^ 2 = 0 then some (.wfree (fld w 21 3))
  else none

/-- Scalar opcode 0x35 (01 R20 to R23). -/
def decodeOp35 (w : Nat) : Option Instr :=
  if w / 2 ^ 2 % 2 ^ 24 = 0 then some (.freeze (fld w 0 2))
  else none

/-- Scalar opcode 0x36 (01 R20 to R23). -/
def decodeOp36 (w : Nat) : Option Instr :=
  if w / 2 ^ 2 % 2 ^ 2 = 0 ∧ w / 2 ^ 8 % 2 ^ 18 = 0 then some (.bar (fld w 4 4) (fld w 0 2))
  else none

/-- Scalar opcode 0x37 (01 R20 to R23). -/
def decodeOp37 (w : Nat) : Option Instr :=
  if w / 2 ^ 1 % 2 ^ 15 = 0 then some (.qput (fld w 21 5) (fld w 16 5) (fld w 0 1))
  else none

/-- Scalar opcode 0x38 (01 R20 to R23). -/
def decodeOp38 (w : Nat) : Option Instr :=
  if w / 2 ^ 1 % 2 ^ 15 = 0 then some (.qget (fld w 21 5) (fld w 16 5) (fld w 0 1))
  else none

/-- Scalar opcode 0x39 (01 R20 to R23). -/
def decodeOp39 (w : Nat) : Option Instr :=
  if w / 2 ^ 0 % 2 ^ 26 = 0 then some .yield
  else none

/-- Scalar opcode 0x3A (01 R20 to R23). -/
def decodeOp3A (w : Nat) : Option Instr :=
  if w / 2 ^ 16 % 2 ^ 10 = 0 then some (.exit (fld w 0 16))
  else none

/-- Scalar opcode 0x3B (01 R20 to R23). -/
def decodeOp3B (w : Nat) : Option Instr :=
  if w / 2 ^ 16 % 2 ^ 10 = 0 then some (.trap (fld w 0 16))
  else none

/-- Scalar opcode 0x3C (01 R20 to R23). -/
def decodeOp3C (w : Nat) : Option Instr :=
  if w / 2 ^ 16 % 2 ^ 10 = 0 then some (.svc (fld w 0 16))
  else none

/-- Scalar opcode 0x3D (01 R20 to R23). -/
def decodeOp3D (w : Nat) : Option Instr :=
  if w / 2 ^ 11 % 2 ^ 10 = 0 then some (.sget (fld w 21 5) (fld w 0 11))
  else if w / 2 ^ 11 % 2 ^ 5 = 1 ∧ w / 2 ^ 21 % 2 ^ 5 = 0 then some (.sset (fld w 16 5) (fld w 0 11))
  else none

/-- Scalar opcode 0x3E (01 R20 to R23). -/
def decodeOp3E (w : Nat) : Option Instr :=
  if w / 2 ^ 0 % 2 ^ 26 = 0 then some .eret
  else if w / 2 ^ 16 % 2 ^ 10 = 16 then some (.brk (fld w 0 16))
  else if w / 2 ^ 0 % 2 ^ 10 = 0 ∧ w / 2 ^ 20 % 2 ^ 6 = 2 then some (.snap (fld w 15 5) (fld w 10 5))
  else if w / 2 ^ 0 % 2 ^ 5 = 0 ∧ w / 2 ^ 15 % 2 ^ 11 = 96 then some (.roll (fld w 10 5) (fld w 5 5))
  else if w / 2 ^ 0 % 2 ^ 26 = 4194304 then some .nop
  else none

/-- The fields of a scalar word, before its values are checked. -/
def scalarFields (w : Nat) : Option Instr :=
  match w / 2 ^ 26 with
  | 0x00 => decodeOp00 w
  | 0x01 => decodeOp01 w
  | 0x02 => decodeOp02 w
  | 0x03 => decodeOp03 w
  | 0x04 => decodeOp04 w
  | 0x05 => decodeOp05 w
  | 0x06 => decodeOp06 w
  | 0x07 => decodeOp07 w
  | 0x08 => decodeOp08 w
  | 0x09 => decodeOp09 w
  | 0x0A => decodeOp0A w
  | 0x0B => decodeOp0B w
  | 0x0C => decodeOp0C w
  | 0x0D => decodeOp0D w
  | 0x0E => decodeOp0E w
  | 0x0F => decodeOp0F w
  | 0x10 => decodeOp10 w
  | 0x11 => decodeOp11 w
  | 0x12 => decodeOp12 w
  | 0x13 => decodeOp13 w
  | 0x14 => decodeOp14 w
  | 0x15 => decodeOp15 w
  | 0x16 => decodeOp16 w
  | 0x17 => decodeOp17 w
  | 0x18 => decodeOp18 w
  | 0x19 => decodeOp19 w
  | 0x1A => decodeOp1A w
  | 0x1B => decodeOp1B w
  | 0x1C => decodeOp1C w
  | 0x1D => decodeOp1D w
  | 0x1E => decodeOp1E w
  | 0x1F => decodeOp1F w
  | 0x20 => decodeOp20 w
  | 0x21 => decodeOp21 w
  | 0x22 => decodeOp22 w
  | 0x23 => decodeOp23 w
  | 0x24 => decodeOp24 w
  | 0x25 => decodeOp25 w
  | 0x26 => decodeOp26 w
  | 0x27 => decodeOp27 w
  | 0x28 => decodeOp28 w
  | 0x29 => decodeOp29 w
  | 0x2A => decodeOp2A w
  | 0x2B => decodeOp2B w
  | 0x2C => decodeOp2C w
  | 0x2D => decodeOp2D w
  | 0x2E => decodeOp2E w
  | 0x2F => decodeOp2F w
  | 0x30 => decodeOp30 w
  | 0x31 => decodeOp31 w
  | 0x32 => decodeOp32 w
  | 0x33 => decodeOp33 w
  | 0x34 => decodeOp34 w
  | 0x35 => decodeOp35 w
  | 0x36 => decodeOp36 w
  | 0x37 => decodeOp37 w
  | 0x38 => decodeOp38 w
  | 0x39 => decodeOp39 w
  | 0x3A => decodeOp3A w
  | 0x3B => decodeOp3B w
  | 0x3C => decodeOp3C w
  | 0x3D => decodeOp3D w
  | 0x3E => decodeOp3E w
  | _ => none

/-- Decode a scalar word: every field holds a value R20 to R23 assign, or the word is ILLOP (01 R24). -/
def decodeScalar (w : Nat) : Except Reject Instr :=
  match scalarFields w with
  | some i => if wellFormed i then .ok i else .error .illop
  | none => .error .illop

/-- Fields of the integer, float and format classes (01 R30); none where a reserved bit is set. -/
def arithFields (w : Nat) : Option LArith :=
  if w / 2 ^ 32 % 2 ^ 5 = 0 then
    some { vd := fld w 78 7, va := fld w 71 7, vb := fld w 64 7, vc := fld w 57 7, mask := fld w 53 4, fmt := fld w 48 5,
           rnd := fld w 45 3, sat := fbit w 44, na := fbit w 43, nb := fbit w 42, nc := fbit w 41,
           bsel := fld w 39 2, imm := fbit w 38, spc := fbit w 37, imm32 := fld w 0 32 }
  else none

/-- Fields of the mask class (01 R32). -/
def maskFields (w : Nat) : Option LMask :=
  if w / 2 ^ 32 % 2 ^ 5 = 0 ∧ w / 2 ^ 39 % 2 ^ 5 = 0 then
    some { vd := fld w 78 7, va := fld w 71 7, vb := fld w 64 7, vc := fld w 57 7, mask := fld w 53 4, fmt := fld w 48 5,
           cnd := fld w 44 4, imm := fbit w 38, spc := fbit w 37, imm32 := fld w 0 32 }
  else none

/-- Fields of the cross-lane class (01 R32). -/
def crossFields (w : Nat) : Option LCross :=
  if w / 2 ^ 32 % 2 ^ 5 = 0 then
    some { vd := fld w 78 7, va := fld w 71 7, vb := fld w 64 7, vc := fld w 57 7, mask := fld w 53 4, fmt := fld w 48 5,
           rop := fld w 44 4, exc := fbit w 43, vk := fld w 41 2, bsel := fld w 39 2,
           imm := fbit w 38, spc := fbit w 37, imm32 := fld w 0 32 }
  else none

/-- Fields of the memory class (01 R33). -/
def memFields (w : Nat) : Option LMem :=
  if w / 2 ^ 32 % 2 ^ 2 = 0 ∧ w / 2 ^ 38 % 2 = 0 then
    some { vd := fld w 78 7, va := fld w 71 7, vb := fld w 64 7, vc := fld w 57 7, mask := fld w 53 4, fmt := fld w 48 5,
           scope := fld w 45 3, cov := fbit w 44, col := fld w 41 3, hint := fld w 39 2,
           aop := fld w 34 4, imm32 := fld w 0 32 }
  else none

/-- Fields of the matrix and Cascade class (01 R33). -/
def matFields (w : Nat) : Option LMat :=
  if w / 2 ^ 32 % 2 ^ 7 = 0 ∧ w / 2 ^ 41 % 2 = 0 then
    some { vd := fld w 78 7, va := fld w 71 7, vb := fld w 64 7, vc := fld w 57 7, mask := fld w 53 4, fmt := fld w 48 5,
           rnd := fld w 45 3, sat := fbit w 44, cop := fld w 42 2, bsel := fld w 39 2, imm32 := fld w 0 32 }
  else none

/-- Fields of the control class (01 R33): all but the mask field are zero. -/
def ctlFields (w : Nat) : Option LCtl :=
  if w % 2 ^ 53 = 0 ∧ w / 2 ^ 57 % 2 ^ 28 = 0 then some { mask := fld w 53 4 } else none

/-- The instruction of a lane opcode of the class (01 R34). -/
def arithInstr (op : Nat) (f : LArith) : Option Instr :=
  match op with
  | 0x000 => some (.vadd f)
  | 0x001 => some (.vsub f)
  | 0x002 => some (.vmul f)
  | 0x003 => some (.vmulh f)
  | 0x004 => some (.vmulhu f)
  | 0x005 => some (.vmad f)
  | 0x006 => some (.vmin f)
  | 0x007 => some (.vmax f)
  | 0x008 => some (.vminu f)
  | 0x009 => some (.vmaxu f)
  | 0x00A => some (.vand f)
  | 0x00B => some (.vor f)
  | 0x00C => some (.vxor f)
  | 0x00D => some (.vandn f)
  | 0x00E => some (.vshl f)
  | 0x00F => some (.vshr f)
  | 0x010 => some (.vsar f)
  | 0x011 => some (.vrotr f)
  | 0x012 => some (.vclz f)
  | 0x013 => some (.vpopc f)
  | 0x014 => some (.vbrev f)
  | 0x015 => some (.vabs f)
  | 0x016 => some (.vaddsat f)
  | 0x017 => some (.vsubsat f)
  | 0x018 => some (.vbfx f)
  | 0x019 => some (.vbfi f)
  | 0x01A => some (.vsel f)
  | 0x01B => some (.vmov f)
  | 0x01C => some (.vdot4 f)
  | 0x01D => some (.vrqz f)
  | 0x040 => some (.vfadd f)
  | 0x041 => some (.vfsub f)
  | 0x042 => some (.vfmul f)
  | 0x043 => some (.vfma f)
  | 0x044 => some (.vfmin f)
  | 0x045 => some (.vfmax f)
  | 0x046 => some (.vfabs f)
  | 0x047 => some (.vfneg f)
  | 0x048 => some (.vfrnd f)
  | 0x049 => some (.vfclass f)
  | 0x04A => some (.vnadd f)
  | 0x04B => some (.vnmul f)
  | 0x04C => some (.vnfma f)
  | 0x04D => some (.vnmax f)
  | 0x04E => some (.vnmin f)
  | 0x050 => some (.vfdiv f)
  | 0x051 => some (.vfsqrt f)
  | 0x052 => some (.vrcp f)
  | 0x053 => some (.vrsq f)
  | 0x054 => some (.vexp2 f)
  | 0x055 => some (.vlog2 f)
  | 0x056 => some (.vsin f)
  | 0x057 => some (.vcos f)
  | 0x058 => some (.vtanh f)
  | 0x080 => some (.vcvt f)
  | 0x081 => some (.vcvtd f)
  | 0x082 => some (.vcvtnf f)
  | 0x083 => some (.vpack f)
  | 0x084 => some (.vunpack f)
  | 0x085 => some (.vbsc f)
  | 0x086 => some (.vbq f)
  | 0x087 => some (.vbdq f)
  | _ => none

/-- The instruction of a lane opcode of the class (01 R34). -/
def maskInstr (op : Nat) (f : LMask) : Option Instr :=
  match op with
  | 0x0A0 => some (.vcmp f)
  | 0x0A1 => some (.vfcmp f)
  | 0x0A2 => some (.vmlog f)
  | 0x0A3 => some (.vmpop f)
  | 0x0A4 => some (.vmfirst f)
  | 0x0A5 => some (.vif f)
  | 0x0A6 => some (.velse f)
  | 0x0A7 => some (.vendif f)
  | 0x0A8 => some (.vbreak f)
  | _ => none

/-- The instruction of a lane opcode of the class (01 R34). -/
def crossInstr (op : Nat) (f : LCross) : Option Instr :=
  match op with
  | 0x0C0 => some (.vshfl f)
  | 0x0C1 => some (.vbcast f)
  | 0x0C2 => some (.vrot f)
  | 0x0C3 => some (.vvote f)
  | 0x0C4 => some (.vred f)
  | 0x0C5 => some (.vfred f)
  | 0x0C6 => some (.vscan f)
  | 0x0C7 => some (.vfscan f)
  | 0x0C8 => some (.vmatch f)
  | 0x0C9 => some (.vcompact f)
  | 0x0CA => some (.vexpand f)
  | _ => none

/-- The instruction of a lane opcode of the class (01 R34). -/
def memInstr (op : Nat) (f : LMem) : Option Instr :=
  match op with
  | 0x0E0 => some (.vld f)
  | 0x0E1 => some (.vst f)
  | 0x0E2 => some (.vldp f)
  | 0x0E3 => some (.vstp f)
  | 0x0E4 => some (.vldb f)
  | 0x0E5 => some (.vstb f)
  | 0x0E6 => some (.vldrow f)
  | 0x0E7 => some (.vtst f)
  | 0x0E8 => some (.vpref f)
  | 0x0E9 => some (.vatom f)
  | 0x0EA => some (.vcas f)
  | 0x0EB => some (.vrowatom f)
  | _ => none

/-- The instruction of a lane opcode of the class (01 R34). -/
def matInstr (op : Nat) (f : LMat) : Option Instr :=
  match op with
  | 0x100 => some (.vwst f)
  | 0x101 => some (.vqput f)
  | 0x102 => some (.vadr f)
  | 0x103 => some (.vaclr f)
  | 0x110 => some (.vnrred f)
  | 0x111 => some (.vnrld f)
  | 0x112 => some (.vnrst f)
  | 0x113 => some (.vnrclone f)
  | _ => none

/-- The instruction of a lane opcode of the class (01 R34). -/
def ctlInstr (op : Nat) (f : LCtl) : Option Instr :=
  match op with
  | 0x120 => some (.vnop f)
  | 0x121 => some (.vend f)
  | _ => none

/-- A half of a pair from bit `lo` (01 R27). -/
def halfFields (w lo : Nat) : Half :=
  { op7 := fld w (lo + 40) 7, vd := fld w (lo + 33) 7, va := fld w (lo + 26) 7, vb := fld w (lo + 19) 7,
    vc := fld w (lo + 12) 7, mask := fld w (lo + 8) 4, fmt := fld w (lo + 3) 5, mod3 := fld w lo 3 }

/-- The fields of a single lane word. -/
def laneFields (w : Nat) : Option Instr :=
  let op := w / 2 ^ 85 % 2 ^ 10
  if op < 0xA0 then (arithFields w).bind (arithInstr op)
  else if op < 0xC0 then (maskFields w).bind (maskInstr op)
  else if op < 0xE0 then (crossFields w).bind (crossInstr op)
  else if op < 0x100 then (memFields w).bind (memInstr op)
  else if op < 0x120 then (matFields w).bind (matInstr op)
  else (ctlFields w).bind (ctlInstr op)

/-- Decode a lane word: the ILLOP checks, then the pairing conditions (01 R37, steps 1 and 2). -/
def decodeLane (w : Nat) : Except Reject Instr :=
  if w / 2 ^ 95 % 2 = 0 then
    match laneFields w with
    | some i => if wellFormed i then .ok i else .error .illop
    | none => .error .illop
  else
    let a := halfFields w 48
    let b := halfFields w 1
    if w % 2 = 0 ∧ halfLegal a = true ∧ halfLegal b = true then
      (if pairLegal a b then .ok (.lanePair a b) else .error .illpair)
    else .error .illop

/-- The little-endian value of a list of bytes (00 R8). -/
def bytesToNat : List Byte → Nat
  | [] => 0
  | b :: r => b.toNat + 256 * bytesToNat r

/-- Decode the scalar word at the head of a list of bytes, with the rest of the list. -/
def decodeScalarBytes (l : List Byte) : Except Reject (Instr × List Byte) :=
  match l with
  | a :: b :: c :: d :: r => (decodeScalar (bytesToNat [a, b, c, d])).map fun i => (i, r)
  | _ => .error .truncated

/-- Decode the lane word at the head of a list of bytes, with the rest of the list. -/
def decodeLaneBytes (l : List Byte) : Except Reject (Instr × List Byte) :=
  if l.length < 12 then .error .truncated
  else (decodeLane (bytesToNat (l.take 12))).map fun i => (i, l.drop 12)

/-- A field placed at bit `lo` of a word. -/
def put {n : Nat} (v : BitVec n) (lo : Nat) : Nat := v.toNat * 2 ^ lo

/-- Format SR (01 R18). -/
def encSR (c : Nat) (d a b : XReg) : Nat := c + put d 21 + put a 16 + put b 11

/-- Two register fields and a low field: formats SI and SB (01 R18). -/
def encSI {n : Nat} (c : Nat) (d a : XReg) (i : BitVec n) : Nat := c + put d 21 + put a 16 + put i 0

/-- A register field and a low field: format SU (01 R18). -/
def encSU {n : Nat} (c : Nat) (d : XReg) (i : BitVec n) : Nat := c + put d 21 + put i 0

/-- One low field (01 R18). -/
def encLow {n : Nat} (c : Nat) (i : BitVec n) : Nat := c + put i 0

/-- The scalar word of an instruction (01 R18 to R23). -/
def encodeScalar (i : Instr) : Option Nat :=
  match i with
  | .add d a b => some (encSR 0x00000000 d a b)
  | .sub d a b => some (encSR 0x00000001 d a b)
  | .mul d a b => some (encSR 0x00000002 d a b)
  | .mulh d a b => some (encSR 0x00000003 d a b)
  | .mulhu d a b => some (encSR 0x00000004 d a b)
  | .div d a b => some (encSR 0x00000005 d a b)
  | .divu d a b => some (encSR 0x00000006 d a b)
  | .rem d a b => some (encSR 0x00000007 d a b)
  | .remu d a b => some (encSR 0x00000008 d a b)
  | .and d a b => some (encSR 0x00000009 d a b)
  | .or d a b => some (encSR 0x0000000A d a b)
  | .xor d a b => some (encSR 0x0000000B d a b)
  | .andn d a b => some (encSR 0x0000000C d a b)
  | .shl d a b => some (encSR 0x0000000D d a b)
  | .shr d a b => some (encSR 0x0000000E d a b)
  | .sar d a b => some (encSR 0x0000000F d a b)
  | .rotr d a b => some (encSR 0x00000010 d a b)
  | .min d a b => some (encSR 0x00000011 d a b)
  | .max d a b => some (encSR 0x00000012 d a b)
  | .minu d a b => some (encSR 0x00000013 d a b)
  | .maxu d a b => some (encSR 0x00000014 d a b)
  | .slt d a b => some (encSR 0x00000015 d a b)
  | .sltu d a b => some (encSR 0x00000016 d a b)
  | .seq d a b => some (encSR 0x00000017 d a b)
  | .clz d a => some (0x00000018 + put d 21 + put a 16)
  | .ctz d a => some (0x00000019 + put d 21 + put a 16)
  | .popc d a => some (0x0000001A + put d 21 + put a 16)
  | .addi d a i => some (encSI 0x04000000 d a i)
  | .andi d a i => some (encSI 0x08000000 d a i)
  | .ori d a i => some (encSI 0x0C000000 d a i)
  | .xori d a i => some (encSI 0x10000000 d a i)
  | .shli d a s => some (encSI 0x14000000 d a s)
  | .shri d a s => some (encSI 0x18000000 d a s)
  | .sari d a s => some (encSI 0x1C000000 d a s)
  | .slti d a i => some (encSI 0x20000000 d a i)
  | .sltui d a i => some (encSI 0x24000000 d a i)
  | .lui d i => some (encSU 0x28000000 d i)
  | .apc d i => some (encSU 0x2C000000 d i)
  | .ldB d a i => some (encSI 0x30000000 d a i)
  | .ldH d a i => some (encSI 0x34000000 d a i)
  | .ldW d a i => some (encSI 0x38000000 d a i)
  | .ldD d a i => some (encSI 0x3C000000 d a i)
  | .lduB d a i => some (encSI 0x40000000 d a i)
  | .lduH d a i => some (encSI 0x44000000 d a i)
  | .lduW d a i => some (encSI 0x48000000 d a i)
  | .stB s a i => some (encSI 0x4C000000 s a i)
  | .stH s a i => some (encSI 0x50000000 s a i)
  | .stW s a i => some (encSI 0x54000000 s a i)
  | .stD s a i => some (encSI 0x58000000 s a i)
  | .amo d a b c z o => some (0x5C000000 + put d 21 + put a 16 + put b 11 + put c 8 + put z 6 + put o 0)
  | .cas d a b c z => some (0x60000000 + put d 21 + put a 16 + put b 11 + put c 8 + put z 6)
  | .beq a b o => some (encSI 0x64000000 a b o)
  | .bne a b o => some (encSI 0x68000000 a b o)
  | .blt a b o => some (encSI 0x6C000000 a b o)
  | .bge a b o => some (encSI 0x70000000 a b o)
  | .bltu a b o => some (encSI 0x74000000 a b o)
  | .bgeu a b o => some (encSI 0x78000000 a b o)
  | .jmp o => some (encLow 0x7C000000 o)
  | .call o => some (encLow 0x80000000 o)
  | .ret => some (0x84000000)
  | .jtab i t => some (0x88000000 + put i 16 + put t 11)
  | .lpad l => some (encLow 0x8C000000 l)
  | .lrun c i => some (encSU 0x90000000 c i)
  | .lwait n => some (encLow 0x94000000 n)
  | .mrd d n k => some (encSI 0x98000000 d n k)
  | .mwr n a k => some (encSI 0x9C000000 n a k)
  | .rel s m => some (0xA0000000 + put s 8 + put m 0)
  | .acq s => some (0xA4000000 + put s 8)
  | .fence k m => some (0xA8000000 + put k 8 + put m 0)
  | .tlwait a n => some (0xAC000000 + put a 16 + put n 0)
  | .tlread d n => some (encSU 0xB0000000 d n)
  | .rcopy d a p n => some (0xB4000000 + put d 21 + put a 16 + put p 3 + put n 0)
  | .rfeed d a p n => some (0xB8000000 + put d 21 + put a 16 + put p 3 + put n 0)
  | .rspill d a p n => some (0xBC000000 + put d 21 + put a 16 + put p 3 + put n 0)
  | .evpop d => some (0xC0000000 + put d 21)
  | .evwait => some (0xC4000000)
  | .mxloop d a => some (0xC8000000 + put d 21 + put a 16)
  | .wset n a b c => some (0xCC000000 + put n 21 + put a 16 + put b 11 + put c 0)
  | .wfree n => some (0xD0000000 + put n 21)
  | .freeze k => some (encLow 0xD4000000 k)
  | .bar i s => some (0xD8000000 + put i 4 + put s 0)
  | .qput d a b => some (encSI 0xDC000000 d a b)
  | .qget d a b => some (encSI 0xE0000000 d a b)
  | .yield => some (0xE4000000)
  | .exit s => some (encLow 0xE8000000 s)
  | .trap c => some (encLow 0xEC000000 c)
  | .svc n => some (encLow 0xF0000000 n)
  | .sget d n => some (encSU 0xF4000000 d n)
  | .sset a n => some (0xF4000800 + put a 16 + put n 0)
  | .eret => some (0xF8000000)
  | .brk c => some (encLow 0xF8100000 c)
  | .snap d a => some (0xF8200000 + put d 15 + put a 10)
  | .roll a b => some (0xF8300000 + put a 10 + put b 5)
  | .nop => some (0xF8400000)
  | .lanePair .. | .vadd .. | .vsub .. | .vmul .. | .vmulh .. | .vmulhu .. | .vmad .. | .vmin .. | .vmax .. | .vminu ..
  | .vmaxu .. | .vand .. | .vor .. | .vxor .. | .vandn .. | .vshl .. | .vshr .. | .vsar .. | .vrotr .. | .vclz ..
  | .vpopc .. | .vbrev .. | .vabs .. | .vaddsat .. | .vsubsat .. | .vbfx .. | .vbfi .. | .vsel .. | .vmov ..
  | .vdot4 .. | .vrqz .. | .vfadd .. | .vfsub .. | .vfmul .. | .vfma .. | .vfmin .. | .vfmax .. | .vfabs .. | .vfneg ..
  | .vfrnd .. | .vfclass .. | .vnadd .. | .vnmul .. | .vnfma .. | .vnmax .. | .vnmin .. | .vfdiv .. | .vfsqrt ..
  | .vrcp .. | .vrsq .. | .vexp2 .. | .vlog2 .. | .vsin .. | .vcos .. | .vtanh .. | .vcvt .. | .vcvtd .. | .vcvtnf ..
  | .vpack .. | .vunpack .. | .vbsc .. | .vbq .. | .vbdq .. | .vcmp .. | .vfcmp .. | .vmlog .. | .vmpop ..
  | .vmfirst .. | .vif .. | .velse .. | .vendif .. | .vbreak .. | .vshfl .. | .vbcast .. | .vrot .. | .vvote ..
  | .vred .. | .vfred .. | .vscan .. | .vfscan .. | .vmatch .. | .vcompact .. | .vexpand .. | .vld .. | .vst ..
  | .vldp .. | .vstp .. | .vldb .. | .vstb .. | .vldrow .. | .vtst .. | .vpref .. | .vatom .. | .vcas .. | .vrowatom ..
  | .vwst .. | .vqput .. | .vadr .. | .vaclr .. | .vnrred .. | .vnrld .. | .vnrst .. | .vnrclone .. | .vnop ..
  | .vend .. | .laneBlockStart .. | .loadDataReturn .. | .homeSliceAtomic .. | .atomicOldValueReturn ..
  | .atomicCollectionClose .. | .psnShareArrival .. | .psnCommit .. | .heldNotice .. | .commitNotice ..
  | .segmentSealTimeout .. | .skimmerCompact .. | .retireNotice .. | .appendResume .. | .spacealarm ..
  | .spillWaitEnd .. | .stalecntFlush .. | .basinStallTimeout .. | .teamRedispatch .. | .teamRestore ..
  | .waitSatisfied .. | .barrierGenerationComplete .. | .yieldEnd .. | .teamPromotion .. | .runnelStart ..
  | .runnelEnd .. | .completionRecordPost .. | .mxloopGrant .. | .matrixStep .. | .matrixUpdateLand ..
  | .cascadeComplete .. | .sealObserved .. | .launchParse .. | .dependenceSatisfied .. | .launchPlace ..
  | .instanceStamp .. | .templateSpreadCopy .. | .stageRebalance .. | .sliceExpiry .. | .launchRestore ..
  | .launchComplete .. | .patrolScrub .. | .slicePauseEnd .. | .dieLinkLoss .. | .tcfWatchdog .. | .coldReset ..
  | .junctionTemperature .. | .powerCapExceeded .. | .coolantFlowLow .. | .refreshWindow .. | .ageCapExpiry ..
  | .scanInterval .. | .scanComplete .. | .pairedTwinTimeout .. | .pairedAtomicTimeout .. | .cxlMemRead ..
  | .cxlMemWrite .. | .hostBatchClose .. | .msixUnmask .. | .xlinvVaRange .. | .xlinvContext .. | .xlinvWindow ..
  | .xlinvAll .. | .xlinvComplete .. | .resumeContinue .. | .resumeKill .. | .devctlEnable .. | .devctlWarmreq ..
  | .dbgHalt .. | .dbgResume .. | .dbgStep .. | .registerWrite .. | .snapfree .. | .exportWindow .. | .takeover ..
  | .mailboxCommand .. | .spdmMeasurement .. | .spdmChallenge .. | .spdmCertificate .. | .spillwayShip ..
  | .spillwayCut .. | .replicaSegmentData .. | .replicaCut .. | .cutEcho .. | .takeoverFlit .. | .hostWindowStoreAck ..
  | .computeRowStoreAtBank .. | .savefull .. => none

/-- The register, mask and format fields of a single lane word (01 R26). -/
def laneBase (op vd va vb vc mask fmt : Nat) : Nat :=
  op * 2 ^ 85 + vd * 2 ^ 78 + va * 2 ^ 71 + vb * 2 ^ 64 + vc * 2 ^ 57 + mask * 2 ^ 53 + fmt * 2 ^ 48

def encArith (op : Nat) (f : LArith) : Nat :=
  laneBase op f.vd.toNat f.va.toNat f.vb.toNat f.vc.toNat f.mask.toNat f.fmt.toNat
    + f.rnd.toNat * 2 ^ 45 + f.sat.toNat * 2 ^ 44 + f.na.toNat * 2 ^ 43 + f.nb.toNat * 2 ^ 42 + f.nc.toNat * 2 ^ 41
    + f.bsel.toNat * 2 ^ 39 + f.imm.toNat * 2 ^ 38 + f.spc.toNat * 2 ^ 37 + f.imm32.toNat

def encMask (op : Nat) (f : LMask) : Nat :=
  laneBase op f.vd.toNat f.va.toNat f.vb.toNat f.vc.toNat f.mask.toNat f.fmt.toNat
    + f.cnd.toNat * 2 ^ 44 + f.imm.toNat * 2 ^ 38 + f.spc.toNat * 2 ^ 37 + f.imm32.toNat

def encCross (op : Nat) (f : LCross) : Nat :=
  laneBase op f.vd.toNat f.va.toNat f.vb.toNat f.vc.toNat f.mask.toNat f.fmt.toNat
    + f.rop.toNat * 2 ^ 44 + f.exc.toNat * 2 ^ 43 + f.vk.toNat * 2 ^ 41 + f.bsel.toNat * 2 ^ 39
    + f.imm.toNat * 2 ^ 38 + f.spc.toNat * 2 ^ 37 + f.imm32.toNat

def encMem (op : Nat) (f : LMem) : Nat :=
  laneBase op f.vd.toNat f.va.toNat f.vb.toNat f.vc.toNat f.mask.toNat f.fmt.toNat
    + f.scope.toNat * 2 ^ 45 + f.cov.toNat * 2 ^ 44 + f.col.toNat * 2 ^ 41 + f.hint.toNat * 2 ^ 39
    + f.aop.toNat * 2 ^ 34 + f.imm32.toNat

def encMat (op : Nat) (f : LMat) : Nat :=
  laneBase op f.vd.toNat f.va.toNat f.vb.toNat f.vc.toNat f.mask.toNat f.fmt.toNat
    + f.rnd.toNat * 2 ^ 45 + f.sat.toNat * 2 ^ 44 + f.cop.toNat * 2 ^ 42 + f.bsel.toNat * 2 ^ 39 + f.imm32.toNat

def encCtl (op : Nat) (f : LCtl) : Nat := op * 2 ^ 85 + f.mask.toNat * 2 ^ 53

/-- The 47 bits of a half (01 R27). -/
def encHalf (h : Half) : Nat :=
  h.op7.toNat * 2 ^ 40 + h.vd.toNat * 2 ^ 33 + h.va.toNat * 2 ^ 26 + h.vb.toNat * 2 ^ 19 + h.vc.toNat * 2 ^ 12
    + h.mask.toNat * 2 ^ 8 + h.fmt.toNat * 2 ^ 3 + h.mod3.toNat

/-- The lane word of an instruction (01 R26 to R34). -/
def encodeLane : Instr → Option Nat
  | .lanePair a b => some (2 ^ 95 + encHalf a * 2 ^ 48 + encHalf b * 2)
  | .vadd f => some (encArith 0x000 f)
  | .vsub f => some (encArith 0x001 f)
  | .vmul f => some (encArith 0x002 f)
  | .vmulh f => some (encArith 0x003 f)
  | .vmulhu f => some (encArith 0x004 f)
  | .vmad f => some (encArith 0x005 f)
  | .vmin f => some (encArith 0x006 f)
  | .vmax f => some (encArith 0x007 f)
  | .vminu f => some (encArith 0x008 f)
  | .vmaxu f => some (encArith 0x009 f)
  | .vand f => some (encArith 0x00A f)
  | .vor f => some (encArith 0x00B f)
  | .vxor f => some (encArith 0x00C f)
  | .vandn f => some (encArith 0x00D f)
  | .vshl f => some (encArith 0x00E f)
  | .vshr f => some (encArith 0x00F f)
  | .vsar f => some (encArith 0x010 f)
  | .vrotr f => some (encArith 0x011 f)
  | .vclz f => some (encArith 0x012 f)
  | .vpopc f => some (encArith 0x013 f)
  | .vbrev f => some (encArith 0x014 f)
  | .vabs f => some (encArith 0x015 f)
  | .vaddsat f => some (encArith 0x016 f)
  | .vsubsat f => some (encArith 0x017 f)
  | .vbfx f => some (encArith 0x018 f)
  | .vbfi f => some (encArith 0x019 f)
  | .vsel f => some (encArith 0x01A f)
  | .vmov f => some (encArith 0x01B f)
  | .vdot4 f => some (encArith 0x01C f)
  | .vrqz f => some (encArith 0x01D f)
  | .vfadd f => some (encArith 0x040 f)
  | .vfsub f => some (encArith 0x041 f)
  | .vfmul f => some (encArith 0x042 f)
  | .vfma f => some (encArith 0x043 f)
  | .vfmin f => some (encArith 0x044 f)
  | .vfmax f => some (encArith 0x045 f)
  | .vfabs f => some (encArith 0x046 f)
  | .vfneg f => some (encArith 0x047 f)
  | .vfrnd f => some (encArith 0x048 f)
  | .vfclass f => some (encArith 0x049 f)
  | .vnadd f => some (encArith 0x04A f)
  | .vnmul f => some (encArith 0x04B f)
  | .vnfma f => some (encArith 0x04C f)
  | .vnmax f => some (encArith 0x04D f)
  | .vnmin f => some (encArith 0x04E f)
  | .vfdiv f => some (encArith 0x050 f)
  | .vfsqrt f => some (encArith 0x051 f)
  | .vrcp f => some (encArith 0x052 f)
  | .vrsq f => some (encArith 0x053 f)
  | .vexp2 f => some (encArith 0x054 f)
  | .vlog2 f => some (encArith 0x055 f)
  | .vsin f => some (encArith 0x056 f)
  | .vcos f => some (encArith 0x057 f)
  | .vtanh f => some (encArith 0x058 f)
  | .vcvt f => some (encArith 0x080 f)
  | .vcvtd f => some (encArith 0x081 f)
  | .vcvtnf f => some (encArith 0x082 f)
  | .vpack f => some (encArith 0x083 f)
  | .vunpack f => some (encArith 0x084 f)
  | .vbsc f => some (encArith 0x085 f)
  | .vbq f => some (encArith 0x086 f)
  | .vbdq f => some (encArith 0x087 f)
  | .vcmp f => some (encMask 0x0A0 f)
  | .vfcmp f => some (encMask 0x0A1 f)
  | .vmlog f => some (encMask 0x0A2 f)
  | .vmpop f => some (encMask 0x0A3 f)
  | .vmfirst f => some (encMask 0x0A4 f)
  | .vif f => some (encMask 0x0A5 f)
  | .velse f => some (encMask 0x0A6 f)
  | .vendif f => some (encMask 0x0A7 f)
  | .vbreak f => some (encMask 0x0A8 f)
  | .vshfl f => some (encCross 0x0C0 f)
  | .vbcast f => some (encCross 0x0C1 f)
  | .vrot f => some (encCross 0x0C2 f)
  | .vvote f => some (encCross 0x0C3 f)
  | .vred f => some (encCross 0x0C4 f)
  | .vfred f => some (encCross 0x0C5 f)
  | .vscan f => some (encCross 0x0C6 f)
  | .vfscan f => some (encCross 0x0C7 f)
  | .vmatch f => some (encCross 0x0C8 f)
  | .vcompact f => some (encCross 0x0C9 f)
  | .vexpand f => some (encCross 0x0CA f)
  | .vld f => some (encMem 0x0E0 f)
  | .vst f => some (encMem 0x0E1 f)
  | .vldp f => some (encMem 0x0E2 f)
  | .vstp f => some (encMem 0x0E3 f)
  | .vldb f => some (encMem 0x0E4 f)
  | .vstb f => some (encMem 0x0E5 f)
  | .vldrow f => some (encMem 0x0E6 f)
  | .vtst f => some (encMem 0x0E7 f)
  | .vpref f => some (encMem 0x0E8 f)
  | .vatom f => some (encMem 0x0E9 f)
  | .vcas f => some (encMem 0x0EA f)
  | .vrowatom f => some (encMem 0x0EB f)
  | .vwst f => some (encMat 0x100 f)
  | .vqput f => some (encMat 0x101 f)
  | .vadr f => some (encMat 0x102 f)
  | .vaclr f => some (encMat 0x103 f)
  | .vnrred f => some (encMat 0x110 f)
  | .vnrld f => some (encMat 0x111 f)
  | .vnrst f => some (encMat 0x112 f)
  | .vnrclone f => some (encMat 0x113 f)
  | .vnop f => some (encCtl 0x120 f)
  | .vend f => some (encCtl 0x121 f)
  | .add .. | .sub .. | .mul .. | .mulh .. | .mulhu .. | .div .. | .divu .. | .rem .. | .remu .. | .and .. | .or ..
  | .xor .. | .andn .. | .shl .. | .shr .. | .sar .. | .rotr .. | .min .. | .max .. | .minu .. | .maxu .. | .slt ..
  | .sltu .. | .seq .. | .clz .. | .ctz .. | .popc .. | .addi .. | .andi .. | .ori .. | .xori .. | .shli .. | .shri ..
  | .sari .. | .slti .. | .sltui .. | .lui .. | .apc .. | .ldB .. | .ldH .. | .ldW .. | .ldD .. | .lduB .. | .lduH ..
  | .lduW .. | .stB .. | .stH .. | .stW .. | .stD .. | .amo .. | .cas .. | .beq .. | .bne .. | .blt .. | .bge ..
  | .bltu .. | .bgeu .. | .jmp .. | .call .. | .ret .. | .jtab .. | .lpad .. | .lrun .. | .lwait .. | .mrd .. | .mwr ..
  | .rel .. | .acq .. | .fence .. | .tlwait .. | .tlread .. | .rcopy .. | .rfeed .. | .rspill .. | .evpop ..
  | .evwait .. | .mxloop .. | .wset .. | .wfree .. | .freeze .. | .bar .. | .qput .. | .qget .. | .yield .. | .exit ..
  | .trap .. | .svc .. | .sget .. | .sset .. | .eret .. | .brk .. | .snap .. | .roll .. | .nop .. | .laneBlockStart ..
  | .loadDataReturn .. | .homeSliceAtomic .. | .atomicOldValueReturn .. | .atomicCollectionClose ..
  | .psnShareArrival .. | .psnCommit .. | .heldNotice .. | .commitNotice .. | .segmentSealTimeout ..
  | .skimmerCompact .. | .retireNotice .. | .appendResume .. | .spacealarm .. | .spillWaitEnd .. | .stalecntFlush ..
  | .basinStallTimeout .. | .teamRedispatch .. | .teamRestore .. | .waitSatisfied .. | .barrierGenerationComplete ..
  | .yieldEnd .. | .teamPromotion .. | .runnelStart .. | .runnelEnd .. | .completionRecordPost .. | .mxloopGrant ..
  | .matrixStep .. | .matrixUpdateLand .. | .cascadeComplete .. | .sealObserved .. | .launchParse ..
  | .dependenceSatisfied .. | .launchPlace .. | .instanceStamp .. | .templateSpreadCopy .. | .stageRebalance ..
  | .sliceExpiry .. | .launchRestore .. | .launchComplete .. | .patrolScrub .. | .slicePauseEnd .. | .dieLinkLoss ..
  | .tcfWatchdog .. | .coldReset .. | .junctionTemperature .. | .powerCapExceeded .. | .coolantFlowLow ..
  | .refreshWindow .. | .ageCapExpiry .. | .scanInterval .. | .scanComplete .. | .pairedTwinTimeout ..
  | .pairedAtomicTimeout .. | .cxlMemRead .. | .cxlMemWrite .. | .hostBatchClose .. | .msixUnmask .. | .xlinvVaRange ..
  | .xlinvContext .. | .xlinvWindow .. | .xlinvAll .. | .xlinvComplete .. | .resumeContinue .. | .resumeKill ..
  | .devctlEnable .. | .devctlWarmreq .. | .dbgHalt .. | .dbgResume .. | .dbgStep .. | .registerWrite .. | .snapfree ..
  | .exportWindow .. | .takeover .. | .mailboxCommand .. | .spdmMeasurement .. | .spdmChallenge ..
  | .spdmCertificate .. | .spillwayShip .. | .spillwayCut .. | .replicaSegmentData .. | .replicaCut .. | .cutEcho ..
  | .takeoverFlit .. | .hostWindowStoreAck .. | .computeRowStoreAtBank .. | .savefull .. => none

/-- The words of an instruction: 32 bits for a scalar word, 96 for a lane word; a step of another agent has none. -/
def encode (i : Instr) : Option Nat :=
  match encodeScalar i with
  | some w => some w
  | none => encodeLane i

/-- The instruction the decoder reads from a word of the opcode table's width, its higher bits zero. -/
def decodeTableWord (nbits w : Nat) : Option Instr :=
  if nbits = 32 then (decodeScalar (w % 2 ^ 32)).toOption
  else if nbits = 96 then (decodeLane (w % 2 ^ 96)).toOption
  else none

end Sys2Proof
end

