-- ==== Sys2Proof/Config.lean ====
section
/-!
DEFINITION. What the spec leaves open: opaque constants with no value that any proof can see.
Each is named in a row of notes/assumptions.
-/
namespace Sys2Proof

/-- The free values of the machine, one per draw (log 9). -/
opaque Config.freeValue : Nat → Word64

/-- Which of the two codes beside that of infinity an NF format with INF = 1 and NAN = 0 writes where the rounding of R218 names neither,
the one above or the one below (log 19), by the register, the rounding mode and the magnitude as a fraction. -/
opaque Config.nfGapAbove : Word64 → Nat → Nat → Nat → Bool

/-- The element of a slot that its lane does not hold, by element width, slot, lane and source word (10 R209, log 18). -/
opaque Config.absentSlot : Nat → Nat → Nat → Word32 → Nat

/-- The set of the cluster cache in which a line competes for its ways, before it is reduced to the 2,048 sets (04 R96,
log 10). -/
opaque Config.cacheSet : Nat → Nat

/-- The set of a home slice in which a line competes for its ways, before it is reduced to the 1,024 sets (04 R93, log 10). -/
opaque Config.homeSet : Nat → Nat

/-- The set of a cluster TLB in which a leaf competes, by its page, and the set of a walk cache, by its tag, before they are
reduced to the sets there are (05 R122, log 11). -/
opaque Config.tlbSet : Nat → Nat
opaque Config.walkSet : Nat → Nat

/-- The ordinary HBM row that holds a sector, and the bank that holds a row: the spec gives no layout of them (03 R77,
log 1). -/
opaque Config.ordinaryRow : Nat → Nat
opaque Config.ordinaryBank : Nat → Nat

/-- Signature of a message under a key of the device (24 R404 to R406, log 14). -/
opaque Config.sign : Nat → List Nat → List Byte

/-- The certificate chain of a slot (24 R406, log 14). -/
opaque Config.certificate : Nat → List Byte

/-- The firmware measurements M0 and M1 (24 R405, log 14). -/
opaque Config.bootMeasure : Nat → BitVec 512

/-- M3 for a core map: ROM version, fused minimum and LCMAP in a layout the spec does not give (24 R405, log 14). -/
opaque Config.mapMeasure : BitVec 192 → BitVec 512

/-- The bytes of a mailbox command whose layout the spec does not give, by its kind and arguments (24 R405, log 14). -/
opaque Config.commandBytes : Nat → List Nat → List Byte

/-- Bytes 0 to 7 of a report: version, RTID and security version, whose places the spec does not give (24 R406, log 14). -/
opaque Config.reportHead : Nat → Nat → BitVec 64

end Sys2Proof
end

