-- ==== Sys2Proof/Machine/Number.lean ====
section
/-!
DEFINITION. Number formats and rounding (10 R204 to R226): exact values, the formats bit by bit,
the six rounding modes, overflow and the flags a written result sets.
-/
namespace Sys2Proof.Machine

/-- A decoded number: NaN, an infinity, or plus or minus m times 2 to the e, zero keeping its sign. -/
inductive Num where
  | nan
  | inf (neg : Bool)
  | fin (neg : Bool) (m : Nat) (e : Int)
  deriving DecidableEq, Repr

/-- An exact result before rounding: the finite ones are n over d. -/
inductive Exact where
  | nan
  | inf (neg : Bool)
  | rat (neg : Bool) (n d : Nat)
  deriving DecidableEq, Repr

/-- Rounding modes (10 R218, 01 R30). -/
inductive RMode where
  | rne | rtz | rup | rdn | rna | dth
  deriving DecidableEq, Repr

def RMode.ofCode : Nat → RMode
  | 0 => .rne | 1 => .rtz | 2 => .rup | 3 => .rdn | 4 => .rna | _ => .dth

/-- The code of a rounding mode (10 R218). -/
def RMode.code : RMode → Nat
  | .rne => 0 | .rtz => 1 | .rup => 2 | .rdn => 3 | .rna => 4 | .dth => 5

/-- Which codes of a floating format are NaN (10 R214). -/
inductive NanKind where
  | none       -- no NaN
  | expOnes    -- exponent all ones and mantissa not zero
  | allOnes    -- every bit but the sign is one
  deriving DecidableEq, Repr

/-- A floating format (10 R204, R206, R214). -/
structure FFmt where
  sgn  : Bool
  expW : Nat
  manW : Nat
  bias : Int
  inf  : Bool
  nan  : NanKind
  /-- the negative-zero code is the block special code (10 R207) -/
  nzr  : Bool
  /-- overflow always saturates -/
  satd : Bool
  /-- the register a number-format register holds, zero for a fixed format -/
  reg  : Word64
  deriving DecidableEq, Repr

def FFmt.width (f : FFmt) : Nat := (if f.sgn then 1 else 0) + f.expW + f.manW

def fp32 : FFmt := ⟨true, 8, 23, 127, true, .expOnes, false, false, 0⟩
def fp16 : FFmt := ⟨true, 5, 10, 15, true, .expOnes, false, false, 0⟩
def bf16 : FFmt := ⟨true, 8, 7, 127, true, .expOnes, false, false, 0⟩
def e5m2 : FFmt := ⟨true, 5, 2, 15, true, .expOnes, false, false, 0⟩
def e4m3 : FFmt := ⟨true, 4, 3, 7, false, .allOnes, false, false, 0⟩
def e3m2 : FFmt := ⟨true, 3, 2, 3, false, .none, false, false, 0⟩
def e2m3 : FFmt := ⟨true, 2, 3, 1, false, .none, false, false, 0⟩
def e2m1 : FFmt := ⟨true, 2, 1, 1, false, .none, true, false, 0⟩

/-- The number-format register is malformed (10 R215). -/
def nfMalformed (r : Word64) : Bool :=
  let v := r.toNat
  let wid := v / 2 ^ 14 % 4
  let sgn := v / 2 ^ 13 % 2
  let expw := v / 2 ^ 10 % 8
  let manw := v / 2 ^ 7 % 8
  let inf := v / 2 ^ 6 % 2
  let nan := v / 2 ^ 4 % 4
  let nzr := v / 2 ^ 3 % 2
  decide (wid = 3 ∨ 6 ≤ expw ∨ nan = 3 ∨ v / 2 ^ 24 ≠ 0 ∨ v % 4 ≠ 0 ∨ sgn + expw + manw ≠ 4 + 2 * wid
    ∨ (inf = 1 ∧ (expw = 0 ∨ nan = 2)) ∨ (nan = 1 ∧ (expw = 0 ∨ manw = 0)) ∨ (nzr = 1 ∧ sgn = 0))

/-- The format a well-formed number-format register defines (10 R214, R216). -/
def nfFormat (r : Word64) : FFmt :=
  let v := r.toNat
  let b := v / 2 ^ 16 % 256
  { sgn := v / 2 ^ 13 % 2 = 1
    expW := v / 2 ^ 10 % 8
    manW := v / 2 ^ 7 % 8
    bias := if b < 128 then Int.ofNat b else Int.ofNat b - 256
    inf := v / 2 ^ 6 % 2 = 1
    nan := match v / 2 ^ 4 % 4 with | 0 => .none | 1 => .expOnes | _ => .allOnes
    nzr := v / 2 ^ 3 % 2 = 1
    satd := v / 2 ^ 2 % 2 = 1
    reg := r }

/-- An element format: integer or floating. -/
inductive Elem where
  | int (w : Nat) (signed : Bool)
  | flt (f : FFmt)
  deriving DecidableEq, Repr

def Elem.width : Elem → Nat
  | .int w _ => w
  | .flt f => f.width

/-- The element format of a format code (01 R29, 10 R206 to R216); a block-scaled code gives its element format.
`nf` is the sampled number-format registers (10 R217). -/
def elemOfCode (nf : List Word64) (c : Nat) : Elem :=
  match c with
  | 0x00 => .int 32 true | 0x01 => .int 16 true | 0x02 => .flt fp32 | 0x03 => .flt fp16
  | 0x04 => .flt bf16 | 0x05 => .flt bf16 | 0x06 => .int 2 true | 0x07 => .int 4 true
  | 0x08 => .int 4 false | 0x09 => .int 8 true | 0x0A => .int 8 false | 0x0B => .int 16 true
  | 0x0C => .flt e2m1 | 0x0D => .flt e2m3 | 0x0E => .flt e3m2 | 0x0F => .flt e4m3
  | 0x10 => .flt e5m2 | 0x11 => .flt e2m1 | 0x12 => .flt e2m3 | 0x13 => .flt e3m2
  | 0x14 => .flt e4m3 | 0x15 => .flt e5m2 | 0x16 => .int 4 true | 0x17 => .int 8 true
  | c => .flt (nfFormat (nf.getD (c - 0x18) 0))

/-- The format code is block-scaled (10 R210). -/
def isBlockCode (c : Nat) : Bool := decide (0x11 ≤ c ∧ c ≤ 0x17)

/-- The format code names a number-format register (01 R29). -/
def isNfCode (c : Nat) : Bool := decide (0x18 ≤ c ∧ c ≤ 0x1B)

/-- Bits of one element of a code, without reading a number-format register: 4, 6 or 8 for those (10 R214). -/
def widthOfCode (nf : List Word64) (c : Nat) : Nat :=
  if isNfCode c then 4 + 2 * ((nf.getD (c - 0x18) 0).toNat / 2 ^ 14 % 4) else (elemOfCode nf c).width

/-- Elements per lane of a packed element width (10 R209). -/
def elemsPerLane (w : Nat) : Nat := if w = 6 then 5 else 32 / w

/-- Elements a lane holds: a group of 64 lanes of 6-bit elements uses one slot of lane 51 and none of lanes 52 to 63
(10 R209). -/
def slotsOfLane (w lane : Nat) : Nat :=
  if w = 6 then (if lane % 64 < 51 then 5 else if lane % 64 = 51 then 1 else 0) else elemsPerLane w

/-- Lane group of a 256-element block of that width (10 R209). -/
def laneGroup (w : Nat) : Nat :=
  match w with | 2 => 16 | 4 => 32 | 6 => 64 | 8 => 64 | 16 => 128 | _ => 256

/-- The code is the block special code of its format (10 R207, R216). -/
def isSpecialCode (f : FFmt) (c : Nat) : Bool := f.nzr && decide (c = 2 ^ (f.expW + f.manW))

/-- Decode a code of a floating format (10 R206, R207, R216); the special code of a plain operand reads as +0. -/
def decodeF (f : FFmt) (c : Nat) : Num :=
  let neg := f.sgn && decide (c / 2 ^ (f.expW + f.manW) % 2 = 1)
  let e := c / 2 ^ f.manW % 2 ^ f.expW
  let m := c % 2 ^ f.manW
  if f.nan = .expOnes ∧ e = 2 ^ f.expW - 1 ∧ m ≠ 0 then .nan
  else if f.nan = .allOnes ∧ c % 2 ^ (f.expW + f.manW) = 2 ^ (f.expW + f.manW) - 1 then .nan
  else if f.inf = true ∧ e = 2 ^ f.expW - 1 ∧ m = 0 then .inf neg
  else if f.nzr = true ∧ neg = true ∧ e = 0 ∧ m = 0 then .fin false 0 0
  else if f.expW = 0 then .fin neg m (-f.bias)
  else if e = 0 then .fin neg m (1 - f.bias - f.manW)
  else .fin neg (2 ^ f.manW + m) (e - f.bias - f.manW)

/-- The canonical NaN of a format that has one (10 R205, R206, R216). -/
def canonNan (f : FFmt) : Nat :=
  match f.nan with
  | .none => 0
  | .expOnes =>
    if f.expW = 5 ∧ f.manW = 2 ∧ f.reg = 0 then 0x7E
    else (2 ^ f.expW - 1) * 2 ^ f.manW + 2 ^ (f.manW - 1)
  | .allOnes => 2 ^ (f.expW + f.manW) - 1

/-- The magnitude code of the largest finite value. -/
def maxFinite (f : FFmt) : Nat :=
  if f.nan = .expOnes then
    (if f.inf then (2 ^ f.expW - 1) * 2 ^ f.manW - 1 else (2 ^ f.expW - 1) * 2 ^ f.manW)
  else if f.nan = .allOnes then 2 ^ (f.expW + f.manW) - 2
  else if f.inf = true ∧ f.manW = 0 then 2 ^ f.expW - 2
  else 2 ^ (f.expW + f.manW) - 1

def infCode (f : FFmt) : Nat := (2 ^ f.expW - 1) * 2 ^ f.manW

def signBit (f : FFmt) (neg : Bool) : Nat := if neg && f.sgn then 2 ^ (f.expW + f.manW) else 0

/-- Floor of log2 of n over d, both positive. -/
def log2Rat (n d : Nat) : Int :=
  let e : Int := (Nat.log2 n : Int) - (Nat.log2 d : Int)
  let below := if 0 ≤ e then n < d * 2 ^ e.toNat else n * 2 ^ (-e).toNat < d
  if below then e - 1 else e

/-- n/d divided by 2^p as a fraction. -/
def scaleRat (n d : Nat) (p : Int) : Nat × Nat :=
  if 0 ≤ p then (n, d * 2 ^ p.toNat) else (n * 2 ^ (-p).toNat, d)

/-- Round the count of steps n/d to an integer, `even` giving the parity of a candidate (10 R218, R222);
`t` is the dither threshold in 256ths. -/
def roundSteps (mode : RMode) (neg : Bool) (t n d : Nat) (even : Nat → Bool) : Nat :=
  let k := n / d
  let r := n % d
  match mode with
  | .rtz => k
  | .rup => if neg || decide (r = 0) then k else k + 1
  | .rdn => if !neg || decide (r = 0) then k else k + 1
  | .rna => if 2 * r ≥ d then k + 1 else k
  | .rne => if 2 * r > d ∨ (2 * r = d ∧ even k = false) then k + 1 else k
  | .dth => (256 * n + t * d) / (256 * d)

/-- A written code and the flags it sets (10 R221). -/
structure Rounded where
  code : Nat
  o    : Bool
  n    : Bool
  deriving DecidableEq, Repr

/-- The magnitude code of a non-zero finite magnitude n/d rounded with an unbounded exponent range. -/
def roundMagnitude (f : FFmt) (mode : RMode) (neg : Bool) (t n d : Nat) : Nat :=
  let emin : Int := if f.expW = 0 then -f.bias else 1 - f.bias
  let lg := log2Rat n d
  let ex := if f.expW = 0 ∨ lg < emin then emin else lg
  let step := if f.expW = 0 then -f.bias else ex - f.manW
  let base := (ex - emin).toNat * 2 ^ f.manW
  let (n', d') := scaleRat n d step
  base + roundSteps mode neg t n' d' (fun k => (base + k) % 2 == 0)

/-- The value of a magnitude code of an unbounded exponent range (10 R219): no code stands for infinity or NaN. -/
def magValue (f : FFmt) (neg : Bool) (c : Nat) : Num :=
  let e := c / 2 ^ f.manW
  if f.expW = 0 then .fin neg c (-f.bias)
  else if e = 0 then .fin neg c (1 - f.bias - f.manW)
  else .fin neg (2 ^ f.manW + c % 2 ^ f.manW) (e - f.bias - f.manW)

/-- What an overflow, or an infinite value in a format without infinities, writes (10 R219); `mx` is the code of the value
farthest out on its side. -/
def overflowCode (f : FFmt) (mode : RMode) (sat neg : Bool) (mx : Nat := maxFinite f + signBit f neg) : Rounded :=
  let mx : Rounded := ⟨mx, true, false⟩
  let special : Rounded :=
    if f.inf then ⟨infCode f + signBit f neg, true, false⟩
    else if f.nan = .none then mx else ⟨canonNan f, true, true⟩
  if sat || f.satd then mx
  else match mode with
    | .rtz => mx
    | .rup => if neg then mx else special
    | .rdn => if neg then special else mx
    | _ => special

/-- A format whose infinity takes the code of a finite magnitude that its neighbours surround (10 R214, R216): INF = 1, NAN = 0,
a mantissa of at least one bit. -/
def FFmt.hasGap (f : FFmt) : Bool := f.inf && f.nan == .none && decide (0 < f.manW)

/-- A magnitude that lies between the two codes beside infinity's rounds to one of them (10 R218); none where it lies elsewhere.
Both codes are odd, and dither may land on the missing magnitude itself: there the spec names neither of the two (log 19). -/
def roundGap (f : FFmt) (mode : RMode) (neg : Bool) (t n d : Nat) : Option Nat :=
  let top : Int := (2 ^ f.expW - 1 : Int) - f.bias
  let low : Int := (if f.expW = 1 then 1 - f.bias else top - 1) - f.manW
  -- in steps below the gap: the code below, the code above, and the magnitude
  let mid := 2 ^ (top - low).toNat
  let hi := mid + 2 ^ (top - f.manW - low).toNat
  let (n', d') := scaleRat n d low
  if n' ≤ (mid - 1) * d' ∨ hi * d' ≤ n' then none
  else
    let down := infCode f - 1
    let up := infCode f + 1
    let open_ := if Config.nfGapAbove f.reg mode.code n d then up else down
    some (match mode with
      | .rtz => down
      | .rup => if neg then down else up
      | .rdn => if neg then up else down
      | .rna => if (mid - 1 + hi) * d' ≤ 2 * n' then up else down
      | .rne => if 2 * n' = (mid - 1 + hi) * d' then open_ else if (mid - 1 + hi) * d' < 2 * n' then up else down
      | .dth =>
        let c := roundMagnitude f .dth neg t n d
        if c = infCode f then open_ else c)

/-- Round an exact result into a floating format (10 R218, R219); a format with a special code has no negative zero. -/
def roundF (f : FFmt) (mode : RMode) (sat : Bool) (t : Nat) (x : Exact) : Rounded :=
  match x with
  | .nan => if f.nan = .none then ⟨0, false, true⟩ else ⟨canonNan f, false, true⟩
  | .inf neg =>
    if neg = true ∧ f.sgn = false then ⟨0, true, false⟩
    else if f.inf then ⟨infCode f + signBit f neg, false, false⟩
    else overflowCode f mode sat neg
  | .rat neg n d =>
    if n = 0 then ⟨if f.nzr then 0 else signBit f neg, false, false⟩
    else
      let c := roundMagnitude f mode neg t n d
      if neg = true ∧ f.sgn = false then ⟨0, decide (c ≠ 0), false⟩
      else if c > maxFinite f then overflowCode f mode sat neg
      else if let some g := (if f.hasGap then roundGap f mode neg t n d else none) then ⟨g + signBit f neg, false, false⟩
      else if c = 0 ∧ f.nzr = true then ⟨0, false, false⟩
      else ⟨c + signBit f neg, false, false⟩

/-- Range of an integer format (10 R208). -/
def intMin (w : Nat) (signed : Bool) : Int := if signed then -(2 ^ (w - 1) : Int) else 0
def intMax (w : Nat) (signed : Bool) : Int := if signed then (2 ^ (w - 1) : Int) - 1 else (2 ^ w : Int) - 1

/-- Clamp to an integer range; true when clamping changed the value. -/
def clampInt (w : Nat) (signed : Bool) (x : Int) : Int × Bool :=
  if x < intMin w signed then (intMin w signed, true)
  else if intMax w signed < x then (intMax w signed, true)
  else (x, false)

/-- The low `w` bits of an integer. -/
def lowBits (w : Nat) (x : Int) : Nat := (x % (2 ^ w : Int)).toNat

/-- The signed value of a `w`-bit code. -/
def sintOf (w : Nat) (c : Nat) : Int :=
  if c % 2 ^ w < 2 ^ (w - 1) then (c % 2 ^ w : Nat) else ((c % 2 ^ w : Nat) : Int) - 2 ^ w

/-- An exact value rounded to an integer (10 R218, R220), not yet clamped. -/
def roundToInt (mode : RMode) (t : Nat) (neg : Bool) (n d : Nat) : Int :=
  let k := roundSteps mode neg t n d (fun k => k % 2 == 0)
  if neg then -(k : Int) else k

/-- A floating value to an integer format: rounds and always saturates, NaN to 0 (10 R220). -/
def roundI (w : Nat) (signed : Bool) (mode : RMode) (t : Nat) (x : Exact) : Rounded :=
  match x with
  | .nan => ⟨0, false, true⟩
  | .inf neg => ⟨lowBits w (if neg then intMin w signed else intMax w signed), true, false⟩
  | .rat neg n d =>
    let (v, o) := clampInt w signed (roundToInt mode t neg n d)
    ⟨lowBits w v, o, false⟩

/-- Round into any element format. -/
def roundElem (el : Elem) (mode : RMode) (sat : Bool) (t : Nat) (x : Exact) : Rounded :=
  match el with
  | .int w sg => roundI w sg mode t x
  | .flt f => roundF f mode sat t x

def Num.exact : Num → Exact
  | .nan => .nan
  | .inf s => .inf s
  | .fin s m e => if 0 ≤ e then .rat s (m * 2 ^ e.toNat) 1 else .rat s m (2 ^ (-e).toNat)

def Num.ofInt (x : Int) : Num := .fin (decide (x < 0)) x.natAbs 0

/-- Decode a code of any element format. -/
def decodeElem (el : Elem) (c : Nat) : Num :=
  match el with
  | .int w sg => Num.ofInt (if sg then sintOf w c else ((c % 2 ^ w : Nat) : Int))
  | .flt f => decodeF f (c % 2 ^ f.width)

def Num.negate : Num → Num
  | .nan => .nan
  | .inf s => .inf (!s)
  | .fin s m e => .fin (!s) m e

/-- Multiply by a power of two. -/
def Num.scale (x : Num) (p : Int) : Num :=
  match x with
  | .fin s m e => .fin s m (e + p)
  | x => x

/-- The signed mantissa at exponent `e0`, for e0 no greater than the number's own. -/
def alignTo (s : Bool) (m : Nat) (e e0 : Int) : Int :=
  let v : Int := m * 2 ^ (e - e0).toNat
  if s then -v else v

/-- Exact sum; the sign of an exact zero follows IEEE 754 (10 R205). -/
def Num.add (mode : RMode) : Num → Num → Num
  | .nan, _ => .nan
  | _, .nan => .nan
  | .inf a, .inf b => if a = b then .inf a else .nan
  | .inf a, .fin _ _ _ => .inf a
  | .fin _ _ _, .inf b => .inf b
  | .fin s m e, .fin s' m' e' =>
    let e0 := if e ≤ e' then e else e'
    let v := alignTo s m e e0 + alignTo s' m' e' e0
    if v = 0 then .fin (if s = s' then s else decide (mode = .rdn)) 0 0
    else .fin (decide (v < 0)) v.natAbs e0

def Num.mul : Num → Num → Num
  | .nan, _ => .nan
  | _, .nan => .nan
  | .inf a, .inf b => .inf (a != b)
  | .inf a, .fin b m _ => if m = 0 then .nan else .inf (a != b)
  | .fin a m _, .inf b => if m = 0 then .nan else .inf (a != b)
  | .fin a m e, .fin b m' e' => .fin (a != b) (m * m') (e + e')

def Num.isNan : Num → Bool
  | .nan => true
  | _ => false

def Num.isZero : Num → Bool
  | .fin _ 0 _ => true
  | _ => false

def Num.isNeg : Num → Bool
  | .nan => false
  | .inf s => s
  | .fin s _ _ => s

/-- Order of two numbers that are not NaN, +0 above -0 (10 R205): a ranks below b. -/
def Num.below : Num → Num → Bool
  | .nan, _ => false
  | _, .nan => false
  | .inf a, .inf b => a && !b
  | .inf a, .fin _ _ _ => a
  | .fin _ _ _, .inf b => !b
  | .fin s m e, .fin s' m' e' =>
    if m = 0 ∧ m' = 0 then s && !s'
    else
      let e0 := if e ≤ e' then e else e'
      decide (alignTo s m e e0 < alignTo s' m' e' e0)

/-- Equal as IEEE compares them: zeros of both signs are equal. -/
def Num.ieeeEq : Num → Num → Bool
  | .nan, _ => false
  | _, .nan => false
  | .inf a, .inf b => a == b
  | .inf _, .fin _ _ _ => false
  | .fin _ _ _, .inf _ => false
  | .fin s m e, .fin s' m' e' =>
    let e0 := if e ≤ e' then e else e'
    decide (alignTo s m e e0 = alignTo s' m' e' e0)

def Num.ieeeLt (a b : Num) : Bool := a.below b && !a.ieeeEq b

def Num.max (a b : Num) : Num := if a.isNan || b.isNan then .nan else if a.below b then b else a
def Num.min (a b : Num) : Num := if a.isNan || b.isNan then .nan else if b.below a then b else a

/-- a / b as an exact value (11 R236). -/
def Num.div : Num → Num → Exact
  | .nan, _ => .nan
  | _, .nan => .nan
  | .inf _, .inf _ => .nan
  | .inf a, .fin b _ _ => .inf (a != b)
  | .fin a _ _, .inf b => .rat (a != b) 0 1
  | .fin a m e, .fin b m' e' =>
    if m' = 0 then (if m = 0 then .nan else .inf (a != b))
    else
      let (n, d) := scaleRat m m' (e' - e)
      .rat (a != b) n d

/-- Bits of the fixed point of the functions below. Every binary32 argument rounds correctly from so many bits
(log 13: DEDUCED, from the distance of results to rounding boundaries). -/
def fixBits : Nat := 1100
def fixOne : Int := 2 ^ fixBits

/-- Integer square root by bisection on bits, `fuel` bits. -/
def isqrt (n : Nat) : Nat → Nat → Nat
  | 0, r => r
  | b + 1, r => let c := r + 2 ^ b; isqrt n b (if c * c ≤ n then c else r)

/-- Square root of n/d to 200 fractional bits beyond its scale, the last bit sticky. -/
def sqrtRat (n d : Nat) : Nat × Nat :=
  let k := 400
  let q := n * 2 ^ (2 * k) / d
  let r := isqrt q (Nat.log2 q / 2 + 1) 0
  if r * r * d = n * 2 ^ (2 * k) then (r, 2 ^ k) else (2 * r + 1, 2 ^ (k + 1))

/-- Sum of x^i / i! in fixed point. -/
def expSeries (x : Int) : Nat → Nat → Int → Int → Int
  | 0, _, _, acc => acc
  | f + 1, i, term, acc =>
    let term' := term * x / fixOne / ((i : Int) + 1)
    expSeries x f (i + 1) term' (acc + term')

def squareTimes : Nat → Int → Int
  | 0, v => v
  | k + 1, v => squareTimes k (v * v / fixOne)

/-- e to the x for a fixed-point x of magnitude at most 2^12, by halving x 24 times and squaring back. -/
def expFix (x : Int) : Int := squareTimes 24 (expSeries (x / 2 ^ 24) 120 0 fixOne fixOne)

/-- Sum over odd i of (sign) y^i / i in fixed point; `alt` alternates the sign. -/
def oddSeries (y2 : Int) (alt : Bool) : Nat → Nat → Int → Int → Int
  | 0, _, _, acc => acc
  | f + 1, i, pw, acc =>
    let term := pw / (2 * (i : Int) + 1)
    oddSeries y2 alt f (i + 1) (pw * y2 / fixOne) (if alt && i % 2 == 1 then acc - term else acc + term)

/-- Natural logarithm of a fixed-point m in [1, 2). -/
def lnFix (m : Int) : Int :=
  let y := (m - fixOne) * fixOne / (m + fixOne)
  2 * oddSeries (y * y / fixOne) false 360 0 y 0

def ln2Fix : Int := lnFix (2 * fixOne)

def piFix : Int :=
  let a := fixOne / 5
  let b := fixOne / 239
  16 * oddSeries (a * a / fixOne) true 250 0 a 0 - 4 * oddSeries (b * b / fixOne) true 80 0 b 0

/-- Sum of the sine or cosine series: term (-1)^j x^(2j+s)/(2j+s)!. -/
def trigSeries (x2 : Int) : Nat → Nat → Int → Int → Int
  | 0, _, _, acc => acc
  | f + 1, i, term, acc =>
    let term' := -(term * x2 / fixOne / (((i : Int) + 1) * ((i : Int) + 2)))
    trigSeries x2 f (i + 2) term' (acc + term')

def sinFix (x : Int) : Int := trigSeries (x * x / fixOne) 110 1 x x
def cosFix (x : Int) : Int := trigSeries (x * x / fixOne) 110 0 fixOne fixOne

/-- A value known to lie strictly inside its last kept bit: cut to 700 bits with a sticky one. -/
def stickyFix (v : Int) : Exact :=
  let q := v.natAbs / 2 ^ 400
  .rat (decide (v < 0)) (2 * q + 1) (2 ^ 701)

/-- A fixed-point value of m times 2^e, e at least -1100. -/
def toFix (s : Bool) (m : Nat) (e : Int) : Int :=
  let (n, d) := scaleRat m 1 (-(e + fixBits))
  let v : Int := n / d
  if s then -v else v

/-- The number is an integer, and its value. -/
def asInteger (s : Bool) (m : Nat) (e : Int) : Option Int :=
  let v : Option Nat := if 0 ≤ e then some (m * 2 ^ e.toNat)
    else if m % 2 ^ (-e).toNat = 0 then some (m / 2 ^ (-e).toNat) else none
  v.map fun k => if s then -(k : Int) else k

def pow2Exact (p : Int) : Exact := if 0 ≤ p then .rat false (2 ^ p.toNat) 1 else .rat false 1 (2 ^ (-p).toNat)

/-- 2 to the a (11 R236). -/
def exp2Exact : Num → Exact
  | .nan => .nan
  | .inf s => if s then .rat false 0 1 else .inf false
  | .fin s m e =>
    if m = 0 then .rat false 1 1
    else if 12 ≤ (Nat.log2 m : Int) + e then (if s then pow2Exact (-4096) else pow2Exact 4096)
    else match asInteger s m e with
      | some k => pow2Exact k
      | none =>
        let x := toFix s m e
        let k := x / fixOne
        let f := x - k * fixOne
        match stickyFix (expFix (f * ln2Fix / fixOne)) with
        | .rat _ n d => let (n', d') := scaleRat n d (-k); .rat false n' d'
        | y => y

/-- log2 a (11 R236). -/
def log2Exact : Num → Exact
  | .nan => .nan
  | .inf s => if s then .nan else .inf false
  | .fin s m e =>
    if m = 0 then .inf true
    else if s then .nan
    else
      let k := Nat.log2 m
      let p := (k : Int) + e
      if m = 2 ^ k then .rat (decide (p < 0)) p.natAbs 1
      else
        let mf : Int := (m : Int) * fixOne / 2 ^ k
        stickyFix (p * fixOne + lnFix mf * fixOne / ln2Fix)

/-- sin of pi times x, for x in fixed point (0 ≤ x < 2), x no multiple of one half. -/
def sinPiFix (x : Int) : Int :=
  let h := fixOne / 2
  let quad := x / h
  let r := x - quad * h
  -- inside the quadrant, sin(pi r) or cos(pi r)
  let ang := piFix * r / fixOne
  match quad.toNat with
  | 0 => sinFix ang
  | 1 => cosFix ang
  | 2 => -sinFix ang
  | _ => -cosFix ang

/-- sin(pi a) (11 R236). -/
def sinPiExact : Num → Exact
  | .nan => .nan
  | .inf _ => .nan
  | .fin s m e =>
    match asInteger false m e with
    | some _ => .rat s 0 1
    | none =>
      let x := toFix false m e % (2 * fixOne)
      if x % fixOne = fixOne / 2 then
        (let neg := decide (fixOne < x); .rat (neg != s) 1 1)
      else match stickyFix (sinPiFix x) with
        | .rat ng n d => .rat (ng != s) n d
        | y => y

/-- cos(pi a) (11 R236). -/
def cosPiExact : Num → Exact
  | .nan => .nan
  | .inf _ => .nan
  | .fin _ m e =>
    match asInteger false m e with
    | some k => .rat (decide (k % 2 = 1)) 1 1
    | none =>
      let x := toFix false m e % (2 * fixOne)
      if x % fixOne = fixOne / 2 then .rat false 0 1
      else stickyFix (sinPiFix ((x + fixOne / 2) % (2 * fixOne)))

/-- tanh a (11 R236). -/
def tanhExact : Num → Exact
  | .nan => .nan
  | .inf s => .rat s 1 1
  | .fin s m e =>
    if m = 0 then .rat s 0 1
    else if 8 ≤ (Nat.log2 m : Int) + e then .rat s (2 ^ 700 - 1) (2 ^ 700)
    else
      let x := toFix false m e
      let ex := expFix (-(2 * x))
      match stickyFix ((fixOne - ex) * fixOne / (fixOne + ex)) with
      | .rat _ n d => .rat s n d
      | y => y

/-- Square root (11 R236). -/
def sqrtExact : Num → Exact
  | .nan => .nan
  | .inf s => if s then .nan else .inf false
  | .fin s m e =>
    if m = 0 then .rat s 0 1
    else if s then .nan
    else
      let (n, d) := scaleRat m 1 (-e)
      let (a, b) := sqrtRat n d
      .rat false a b

/-- 1 over the square root (11 R236). -/
def rsqExact : Num → Exact
  | .nan => .nan
  | .inf s => if s then .nan else .rat false 0 1
  | .fin s m e =>
    if m = 0 then .inf s
    else if s then .nan
    else
      let (n, d) := scaleRat m 1 (-e)
      let (a, b) := sqrtRat d n
      .rat false a b

/-- Reverse the eight bits of a byte value. -/
def bitReverse8 (q : Nat) : Nat :=
  (List.range 8).foldl (fun acc i => acc + (q / 2 ^ i % 2) * 2 ^ (7 - i)) 0

/-- The dither threshold, in 256ths, of element position `p` in phase `dph` (10 R222). -/
def ditherT (p : Nat) (dph : Word64) : Nat := bitReverse8 ((p + 17 * dph.toNat) % 256)

/-- The decoded value of an element with its scale pair: E8M0 scale `S`, special value `V` (10 R211). -/
def decodeScaled (el : Elem) (S V c : Nat) : Num :=
  if S = 0xFF then .nan
  else
    let p : Int := (S : Int) - 127
    match el with
    | .flt f => if isSpecialCode f (c % 2 ^ f.width) then (decodeF e4m3 V).scale p else (decodeF f (c % 2 ^ f.width)).scale p
    | el => (decodeElem el c).scale p

end Sys2Proof.Machine
end

