-- ==== Sys2Proof/Machine/Bits.lean ====
section
/-!
DEFINITION. Bit fields, sign extension and byte order helpers.
-/
namespace Sys2Proof.Machine

/-- `n` bits of a number from bit `lo`. -/
def bits (v lo n : Nat) : Nat := v / 2 ^ lo % 2 ^ n

/-- One bit of a number. -/
def bitAt (v i : Nat) : Bool := v / 2 ^ i % 2 == 1

/-- Replace `n` bits of a number from bit `lo`. -/
def setBits (v lo n x : Nat) : Nat := v - bits v lo n * 2 ^ lo + x % 2 ^ n * 2 ^ lo

/-- Sign extension of a field to a 64-bit word (01 R19). -/
def sext64 {n : Nat} (v : BitVec n) : Word64 := v.signExtend 64

/-- Zero extension of a field to a 64-bit word (01 R19). -/
def zext64 {n : Nat} (v : BitVec n) : Word64 := v.setWidth 64

/-- A truth value as a register value. -/
def ofBool (b : Bool) : Word64 := if b then 1 else 0

/-- Sign extension of the low `n` bits of a number to 64 bits. -/
def sextN (n v : Nat) : Word64 :=
  if v % 2 ^ n < 2 ^ (n - 1) then BitVec.ofNat 64 (v % 2 ^ n) else BitVec.ofNat 64 (v % 2 ^ n + (2 ^ 64 - 2 ^ n))

/-- Count of set bits among the low `n`. -/
def popCount (v : Nat) : Nat → Nat
  | 0 => 0
  | n + 1 => (if bitAt v n then 1 else 0) + popCount v n

/-- Leading zeros of the low `n` bits. -/
def leadingZeros (v : Nat) : Nat → Nat
  | 0 => 0
  | n + 1 => if bitAt v n then 0 else 1 + leadingZeros v n

/-- Trailing zeros from bit `i`, looking at `n` bits. -/
def trailingZeros (v i : Nat) : Nat → Nat
  | 0 => 0
  | n + 1 => if bitAt v i then 0 else 1 + trailingZeros v (i + 1) n

/-- Bits set in a number below `n`, ascending. -/
def setBitsOf (v n : Nat) : List Nat := (List.range n).filter fun i => bitAt v i

/-- Ceiling of a quotient. -/
def ceilDiv (a b : Nat) : Nat := (a + b - 1) / b

/-- One step of CRC-32C over a bit, reflected (02 R46). -/
def crcBits (c : Nat) : Nat → Nat
  | 0 => c
  | n + 1 => crcBits (if c % 2 = 1 then (c / 2) ^^^ 0x82F63B78 else c / 2) n

/-- CRC-32C over `n` bytes of a little-endian number (02 R46). -/
def crcBytes (c v : Nat) : Nat → Nat
  | 0 => c
  | n + 1 => crcBytes (crcBits (c ^^^ (v % 256)) 8) (v / 256) n

/-- The check value of a sector: 32 data bytes, then 5 bytes of its logical sector address (02 R46). -/
def checkValue (data : BitVec 256) (sec : Nat) : BitVec 32 :=
  BitVec.ofNat 32 (crcBytes 0xFFFFFFFF (data.toNat + sec % 2 ^ 40 * 2 ^ 256) 37 ^^^ 0xFFFFFFFF)

/-- Bytes `off` to `off + n - 1` of a sector. -/
def secBytes (data : BitVec 256) (off n : Nat) : Nat := bits data.toNat (8 * off) (8 * n)

/-- A sector with bytes `off` to `off + n - 1` replaced (02 R47, merge under a byte mask). -/
def mergeBytes (data : BitVec 256) (off n v : Nat) : BitVec 256 :=
  BitVec.ofNat 256 (setBits data.toNat (8 * off) (8 * n) v)

end Sys2Proof.Machine
end

