-- ==== Sys2Proof/Machine/Map.lean ====
section
/-!
DEFINITION. A sparse table with a default: a list of keys and values, keys strictly rising,
no entry equal to the default. Memories and register files of the machine are such tables.
-/
namespace Sys2Proof.Machine

/-- A sparse table from natural numbers. -/
abbrev Table (β : Type) := List (Nat × β)

variable {β : Type}

/-- The value at key `k`, or the default `d` where nothing is listed. -/
def Table.get (d : β) (t : Table β) (k : Nat) : β :=
  match t with
  | [] => d
  | (k', v) :: r => if k' = k then v else Table.get d r k

/-- Remove every entry of key `k`. -/
def Table.erase (t : Table β) (k : Nat) : Table β :=
  match t with
  | [] => []
  | (k', v) :: r => if k' = k then Table.erase r k else (k', v) :: Table.erase r k

/-- Insert an entry before the first entry of a greater key. -/
def Table.insert (t : Table β) (k : Nat) (v : β) : Table β :=
  match t with
  | [] => [(k, v)]
  | (k', v') :: r => if k < k' then (k, v) :: (k', v') :: r else (k', v') :: Table.insert r k v

/-- Write `v` at key `k`; writing the default removes the entry. -/
def Table.set [DecidableEq β] (d : β) (t : Table β) (k : Nat) (v : β) : Table β :=
  if v = d then t.erase k else (t.erase k).insert k v

/-- Every key of the table lies above `k`. -/
def Table.allAbove (k : Nat) (t : Table β) : Bool :=
  match t with
  | [] => true
  | (k', _) :: r => decide (k < k') && Table.allAbove k r

/-- The canonical form: keys strictly rising and no entry equal to the default. -/
def Table.wf [DecidableEq β] (d : β) (t : Table β) : Bool :=
  match t with
  | [] => true
  | (k, v) :: r => decide (v ≠ d) && Table.allAbove k r && Table.wf d r

/-- Change every listed value; an entry that becomes the default leaves the table. -/
def Table.mapVals [DecidableEq β] (d : β) (f : β → β) (t : Table β) : Table β :=
  t.filterMap fun p => if f p.2 = d then none else some (p.1, f p.2)

/-- The values listed, in key order. -/
def Table.vals (t : Table β) : List β := t.map (·.2)

/-- A memory of bytes: the host's cells, one per listed address. -/
abbrev Memory := Table Byte

/-- What an unlisted byte reads as (log entries 6 and 7: DESIGN CHOICE, the spec gives no contents after power-on). -/
def Memory.dflt : Byte := 0

/-- One byte of a memory. -/
def Memory.read (m : Memory) (a : Nat) : Byte := Table.get Memory.dflt m a

/-- Store one byte. -/
def Memory.write (m : Memory) (a : Nat) (v : Byte) : Memory := Table.set Memory.dflt m a v

/-- The canonical form of a memory. -/
def Memory.wf (m : Memory) : Bool := Table.wf Memory.dflt m

/-- `n` bytes from address `a`, little-endian (00 R8). -/
def Memory.readN (m : Memory) (a : Nat) : Nat → Nat
  | 0 => 0
  | n + 1 => (m.read a).toNat + 256 * Memory.readN m (a + 1) n

/-- Store the `n` low bytes of `v` from address `a`, little-endian (00 R8). -/
def Memory.writeN (m : Memory) (a : Nat) (v : Nat) : Nat → Memory
  | 0 => m
  | n + 1 => Memory.writeN (m.write a (BitVec.ofNat 8 v)) (a + 1) (v / 256) n

/-- The bytes of `n` addresses from `a`. -/
def Memory.readBytes (m : Memory) (a n : Nat) : List Byte := (List.range n).map fun i => m.read (a + i)

/-- Store a list of bytes from address `a`. -/
def Memory.writeBytes (m : Memory) (a : Nat) : List Byte → Memory
  | [] => m
  | b :: r => Memory.writeBytes (m.write a b) (a + 1) r

end Sys2Proof.Machine
end

