-- ==== Sys2Proof/Machine/State.lean ====
section
/-!
DEFINITION. The state of the machine: everything the spec gives it, as plain data, and the state after reset.
-/
namespace Sys2Proof.Machine

/-- Where the machine stops because the spec gives no effect. -/
inductive Fault where
  /-- An index node copy or a fresh leaf finds no free frame of the index pool (02 R53, R58): the spec gives no effect.
  Raised by the publication steps. Safe: the model stops where the hardware does something the spec does not say. -/
  | indexPoolExhausted
  deriving DecidableEq, Repr

/-- Where the model gives no meaning. -/
inductive Refusal where
  /-- An instruction that has no meaning yet. Raised by the dispatcher alone. Safe. -/
  | notModelled (mnemonic : String)
  deriving DecidableEq, Repr

/-! ## Pieces of a team -/

/-- A fault record before it is filed: its code, words 2 to 6, and which stream raised it (21 R351, R352). -/
structure TrapReq where
  code : Nat
  /-- SRC of R352: 0 scalar, 1 lane, 2 asynchronous, 3 device -/
  src : Nat
  recov : Bool
  w2 : Word64
  w3 : Word64
  w4 : Word64
  w5 : Word64
  w6 : Word64
  /-- PC to report for SRC 2; none takes the team's own -/
  pc : Option Word64
  /-- privilege to report for SRC 2 -/
  priv : Option Bool
  /-- the banks a `wset` names, for a Basin exhaustion (13 R268) -/
  named : Option (Nat × Nat)
  deriving DecidableEq, Repr

/-- Team status (15 R310). A template before its `freeze` is a ready or waiting team of level 1 or 2; a Frozen team is its
image and no longer a team. -/
inductive TeamStatus where
  | ready | waiting | swapped | ended
  deriving DecidableEq, Repr

/-- What a Waiting team waits for (15 R310); the word runs again when the wait holds. -/
inductive WaitFor where
  /-- a memory access held by a lock, a held entry or an atomic in flight (02 R64, R68, 07 R166) -/
  | memory
  /-- the drain of rel, acq, fence, freeze, exit (07 R158) -/
  | drain
  /-- room for an append or a dirty sector (02 R72) -/
  | space
  /-- commit notices up to the commit point (02 R69) -/
  | commitNotices
  /-- the commit of a publication (07 R159) -/
  | commit (psn : Nat)
  /-- lane blocks to retire until at most this many are outstanding (14 R301, R302) -/
  | lanes (n : Nat)
  /-- lane words that touch a mask or a register (09 R200) -/
  | laneRegs
  /-- a timeline counter to reach a value (07 R162) -/
  | timeline (tl : Nat) (v : Nat)
  /-- an event record (08 R188) -/
  | event
  /-- a barrier generation (15 R321) -/
  | barrier
  /-- a stage queue (15 R323) -/
  | queue
  /-- room for an engine operation or a loop (08 R174, 13 R285) -/
  | engine
  /-- a free Basin bank for a copy fault (04 R102) -/
  | basin
  /-- room in the save pool for its image (21 R360) -/
  | save
  /-- the twin of a paired task (22 R384) -/
  | twin
  deriving DecidableEq, Repr

/-- Why a team was swapped out. -/
inductive SwapCause where
  /-- waits for a RESUME write naming SEQ (21 R356) -/
  | notPresent (seq : Nat)
  /-- waits for this many free banks, or for these named banks (04 R102, 13 R268) -/
  | basin (banks : Nat) (named : Option (Nat × Nat))
  /-- waits for 4,096 free spill entries (02 R62) -/
  | spill
  /-- pre-empted with its launch (16 R339) -/
  | preempted
  /-- its fault is to be taken as fatal once it has a core (21 R356) -/
  | kill
  deriving DecidableEq, Repr

/-- Which access an outstanding scoreboard entry is (14 R292). -/
inductive OutKind where
  | load | atomic | sget | mrd | tlread | evpop
  deriving DecidableEq, Repr

/-- A scalar access issued whose register is not yet written (14 R293). -/
structure Outstanding where
  op : Nat
  kind : OutKind
  rd : Nat
  /-- the value, once the access has been served -/
  val : Option Word64
  /-- the second register of an evpop -/
  val2 : Option Word64
  deriving DecidableEq, Repr

/-- A queued lane block with the values sampled at its lrun (14 R301, 09 R198). -/
structure LaneBlock where
  start : Nat
  count : Nat
  /-- the scalar file at the lrun -/
  xs : Table Word64
  /-- registers whose value an outstanding access will give: register and operation -/
  late : List (Nat × Nat)
  dcol : Nat
  nf : List Word64
  priv : Bool
  /-- PC of the lrun -/
  pc : Word64
  /-- order among the team's blocks, loops and engine operations -/
  stamp : Nat
  deriving DecidableEq, Repr

/-- The running block: how many of its words have retired and where the lane PC stands (01 R9, R10). -/
structure LaneRun where
  blk : LaneBlock
  lpc : Nat
  done : Nat
  /-- the lane word in flight, once decoded (01 R37) -/
  word : Option Instr
  deriving DecidableEq, Repr

/-- Operations of a lane pass whose atomics are in flight (06 R134): the pass and their count. -/
structure PassFlight where
  pass : Nat
  left : Nat
  deriving DecidableEq, Repr

/-- A stationary region (13 R266, R268). -/
structure Region where
  num : Nat
  first : Nat
  count : Nat
  cls : Nat
  /-- set by a template above the team (13 R267) -/
  inherited : Bool
  deriving DecidableEq, Repr

/-- An accumulator tile (13 R271). -/
structure Tile where
  num : Nat
  first : Nat
  rows : Nat
  cols : Nat
  float : Bool
  deriving DecidableEq, Repr

/-- How a row of a stash page was filled: the newest publication that its granule's IXB entry showed, and its sectors that came from a
superseded entry (02 R70, 04 R103, R104). -/
structure RowFill where
  psn : Nat
  old : BitVec 4
  deriving DecidableEq, Repr

/-- A page of a task held in a Basin bank: a stash page or a private copy of a template page (04 R103, 15 R314). -/
structure PageBank where
  page : Nat
  bank : Nat
  /-- the window and logical address the page lies at -/
  win : Nat
  la : Nat
  /-- rows filled, one bit each; a template page is filled whole -/
  filled : BitVec 32
  /-- how the filled rows of a stash page were filled, by row -/
  fills : Table RowFill
  deriving DecidableEq, Repr

/-- A fragment of a streaming FIFO: 32 codes with their poison (13 R274). -/
structure Fragment where
  codes : List Nat
  poison : Bool
  deriving DecidableEq, Repr

/-- The fragment latch (13 R283). -/
structure Latch where
  m : Nat
  k : Nat
  sfmt : Nat
  sscl : Bool
  sparse : Bool
  fifo : Nat
  frags : List Fragment
  deriving DecidableEq, Repr

/-- Why a multi-part instruction stands where it does: what it has done already. -/
inductive Phase where
  | none
  /-- its publication has this PSN (07 R173) -/
  | published (psn : Nat)
  /-- its snapshot has been taken and has this handle (25 R410) -/
  | snapped (handle : Nat)
  /-- a release that found nothing to publish, or another first part already done -/
  | released
  /-- arrived at a barrier, scope × 16 + id, in this generation (15 R321) -/
  | arrived (key gen : Nat)
  /-- a stage-queue entry taken or appended -/
  | queued
  /-- the team has a core, and its template pages are still to be filled before its first word (15 R311) -/
  | filling
  deriving DecidableEq, Repr

/-- A publication of the task's own: a granule of a window and the PSN (02 R59). -/
structure OwnPub where
  win : Nat
  gran : Nat
  psn : Nat
  deriving DecidableEq, Repr

/-- The trap hook in progress (21 R365). -/
structure HookRun where
  saved : List Word64
  deriving DecidableEq, Repr

/-- Identity of a team (15 R307, R308). -/
structure TeamId where
  ctx : Nat
  tenant : Nat
  prow : Nat
  pcol : Nat
  core : Nat
  slot : Nat
  stage : Nat
  task : Nat
  inst : Nat
  ix : Nat
  iy : Nat
  iz : Nat
  /-- the launch it belongs to -/
  launch : Nat
  deriving DecidableEq, Repr

/-- The control fields of a team (15 R309). -/
structure TeamCtl where
  nreg : Nat
  /-- lane words n -/
  nlw : Nat
  level : Nat
  paired : Bool
  preempt : Bool
  gang : Bool
  prio : Nat
  dcol : Nat
  deriving DecidableEq, Repr

/-- Addresses a team's kernel descriptor gives (16 R331). -/
structure KernelMap where
  scode : Word64
  lcode : Word64
  sbase : Word64
  spages : Nat
  tbase : Word64
  tpages : Nat
  tsrc : Word64
  /-- private slices: 32 times g banks (04 R105) -/
  g : Nat
  deriving DecidableEq, Repr

/-- Scalar part of a team's context (21 R358). -/
structure Scalar where
  /-- x1 to x31; x0 is never held -/
  x : Table Word64
  pc : Word64
  srpc : Word64
  priv : Bool
  hook : Option HookRun
  outs : List Outstanding
  phase : Phase
  /-- the word at the PC has been counted as issued (01 R16) -/
  counted : Bool
  deriving DecidableEq, Repr

/-- Lane part of a team's context. -/
structure Lane where
  queue : List LaneBlock
  run : Option LaneRun
  /-- why the lane word in flight cannot go on; it is tried again (14 R303) -/
  stall : Option WaitFor
  /-- the comparators have been asked about the pass in hand (21 R368) -/
  watched : Bool
  /-- progress of the lane word in flight (01 R14, 21 R357) -/
  pix : Nat
  /-- the pass set the lane word fixed at its first pass (09 R199) -/
  passes : Option (BitVec 32)
  flight : Option PassFlight
  /-- DPH at the first pass of the lane word (10 R223) -/
  dphAt : Word64
  m : Table MaskWord
  dead : MaskWord
  /-- register page table (09 R192) -/
  pt : Table Word64
  /-- registers whose page table entry is poisoned (22 R372) -/
  badRegs : List Nat
  nf : List Word64
  flagE : Bool
  flagO : Bool
  flagN : Bool
  rdx : Word64
  /-- committed tiles (10 R223) -/
  dph : Word64
  deriving DecidableEq, Repr

/-- Timelines, matrix and Basin holdings of a team. -/
structure Holdings where
  /-- operation numbers issued on tl0 to tl7 -/
  tlIssued : List Nat
  /-- the counters tl0 to tl7 (07 R169) -/
  tl : List Nat
  /-- ended operations above the counter: timeline and number -/
  tlDone : List (Nat × Nat)
  regions : List Region
  tiles : List Tile
  privBase : Option Nat
  stash : List PageBank
  /-- own copies of template pages (15 R314) -/
  copies : List PageBank
  latch : Option Latch
  frozen : Bool
  deriving DecidableEq, Repr

/-- A comparison point a copy has reached: its kind (0 release, 1 exit, 2 fatal trap), what must match beside S, and S after
it (22 R384). -/
structure PairPoint where
  kind : Nat
  key : Nat
  sig : Word64
  deriving DecidableEq, Repr

/-- Paired execution (22 R384). -/
structure Paired where
  /-- 0 not paired, 1 the primary, 2 the other copy -/
  role : Nat
  twin : Nat
  sig : Word64
  at_ : Option PairPoint
  deriving DecidableEq, Repr

/-- The unit a team stands before when a comparator has halted it, and the comparators that pass over it on resume: a unit of the
lane stream or of the scalar stream (21 R368). -/
structure PassOver where
  lane : Bool
  pcm : Nat
  dam : Nat
  deriving DecidableEq, Repr

/-- Debug state of a slot (21 R369, R370). -/
structure Debug where
  halted : Bool
  reason : Nat
  haltReq : Bool
  /-- a step is under way; its scalar word and its lane pass are still to run -/
  stepping : Bool
  stepS : Bool
  stepL : Bool
  pcm : Nat
  dam : Nat
  /-- at most one unit of each stream is passed over -/
  skips : List PassOver
  pendf : Option TrapReq
  brk : Nat
  deriving DecidableEq, Repr

/-! ## The cluster -/

/-- A sector a task has written and not yet appended (02 R59, 04 R96). -/
structure DirtySector where
  uid : Nat
  win : Nat
  /-- logical sector address (02 R45) -/
  sec : Nat
  colour : Nat
  data : BitVec 256
  poison : Bool
  /-- order of the last touch of its line (04 R97) -/
  stamp : Nat
  prot : Nat
  deriving DecidableEq, Repr

/-- Visibility of a pending update (02 R60). -/
inductive Level where
  | task
  /-- cluster level, with the order stamp of its release -/
  | cluster (stamp : Nat)
  deriving DecidableEq, Repr

/-- A pending update of the Weir buffer (02 R59). -/
structure Pending where
  uid : Nat
  win : Nat
  gran : Nat
  colour : Nat
  /-- sectors of the run, and those of them no newer store of another colour has superseded -/
  set : BitVec 32
  live : BitVec 32
  pos : Nat
  level : Level
  /-- its slot of the cluster's spill area, once spilled (02 R62, 04 R98) -/
  spilled : Option Nat
  /-- sealed into this publication, not yet committed -/
  pub : Option Nat
  deriving DecidableEq, Repr

/-- The load that filled an IXB entry and has not returned: a scalar load by its operation, a lane load by its team and the index of
its lane word (17 R341). -/
inductive Filler where
  | op (n : Nat)
  | word (uid lpc : Nat)
  deriving DecidableEq, Repr

/-- An IXB entry (02 R67, R68). -/
structure IxbEntry where
  win : Nat
  gran : Nat
  entry : BitVec 128
  /-- PSN of the newest publication the entry shows -/
  psn : Nat
  superseded : Bool
  /-- PSNs whose held notice has come and whose commit notice has not -/
  heldBy : List Nat
  stamp : Nat
  /-- order stamp of its fill, and the load whose return ends the fill (17 R341) -/
  filledAt : Nat
  fill : Option Filler
  deriving DecidableEq, Repr

/-- A cluster-level update that has since been published: its granule, the publication, the order stamp of its cluster
release (02 R61, 07 R160). -/
structure RaisedPub where
  win : Nat
  gran : Nat
  psn : Nat
  stamp : Nat
  deriving DecidableEq, Repr

/-- A published line of the cluster cache: four log positions, the sectors that it holds, those held as poison, its protection
level and the time of its last use (04 R96, R99). -/
structure PubLine where
  line : Nat
  valid : BitVec 4
  bad : BitVec 4
  prot : Nat
  stamp : Nat
  deriving DecidableEq, Repr

/-- What a home-slice line holds, with its tag (04 R93). -/
inductive LineTag where
  /-- an index node: its frame and the 128-byte line of it -/
  | node (frame line : Nat)
  /-- a sector map or published data: the window and four log positions -/
  | log (win line : Nat)
  /-- atomic results that have no log position yet: the window and four logical sectors -/
  | result (win line : Nat)
  /-- a copy of compute-row sectors: the compute-row address by 128 (03 R82) -/
  | crow (line : Nat)
  /-- a device structure: the physical byte by 128 -/
  | phys (line : Nat)
  deriving DecidableEq, Repr

/-- A home-slice line: its four sectors, whether it is dirty, its owner tag (OWN where OWNV is 1) and its protection level
(04 R93, R94, R99). -/
structure HomeLine where
  tag : LineTag
  valid : BitVec 4
  bad : BitVec 4
  dirty : Bool
  own : Option Nat
  prot : Nat
  deriving DecidableEq, Repr

/-- A translation a TLB holds: a leaf with window attributes (05 R113, R122). -/
structure TlbLeaf where
  ctx : Nat
  /-- first 4 KiB page and count -/
  vpn : Nat
  pages : Nat
  la : Nat
  entry : Word64
  lvl : Nat
  win : Nat
  desc : BitVec 512
  deriving DecidableEq, Repr

/-- A window-attribute entry: the context whose translation loaded it, the window, its descriptor (05 R122). -/
structure AttrEntry where
  ctx : Nat
  win : Nat
  desc : BitVec 512
  deriving DecidableEq, Repr

/-- A walk-cache entry: a table pointer read at a level (05 R122). -/
structure WalkEntry where
  ctx : Nat
  lvl : Nat
  /-- virtual address bits above the level's index, with the index -/
  tag : Nat
  entry : Word64
  deriving DecidableEq, Repr

/-- A matrix loop in the reservation table (13 R285). -/
structure Loop where
  id : Nat
  uid : Nat
  num : Nat
  desc : List Word64
  nf : List Word64
  pc : Word64
  stamp : Nat
  /-- it holds an entry of the table (13 R285, R288) -/
  entry : Bool
  granted : Bool
  old : Bool
  /-- steps started and landed per row (13 R280, R282) -/
  started : List Nat
  done : List Nat
  /-- fragments removed from the FIFO and not yet used, by index m × K + s -/
  frags : List (Nat × Fragment)
  removed : Nat
  /-- sums of started steps not yet landed: row, step, columns (value and poison) -/
  sums : List (Nat × Nat × List (Num × Bool))
  flagO : Bool
  flagN : Bool
  deriving DecidableEq, Repr

structure Cluster where
  ixb : List IxbEntry
  /-- last acquire PSN (02 R69) -/
  acqPsn : Nat
  /-- commit notices have come for every PSN up to this one -/
  noticed : Nat
  dirty : List DirtySector
  weir : List Pending
  /-- cluster-level updates published since the cluster's last device-scope acquire (log 24) -/
  raised : List RaisedPub
  lines : List PubLine
  /-- uses of the cluster cache so far: what its least recently used line is told by (04 R97, R99) -/
  clock : Nat
  tlb : List TlbLeaf
  walk : List WalkEntry
  attrs : List AttrEntry
  /-- stale reads not yet in STALECNT, by window (02 R70) -/
  stale : Table Nat
  loops : List Loop
  /-- quarantined ways (22 R378) -/
  quar : List Nat
  /-- it pauses while it quarantines a line (22 R376) -/
  paused : Bool
  deriving DecidableEq, Repr

/-! ## Cores -/

/-- What a Basin bank holds (04 R100), with the team or the image that holds it. -/
inductive BankState where
  | free
  | stat (owner : Nat)
  | acc (owner : Nat)
  | reg (owner : Nat)
  | stash (owner : Nat)
  | priv (owner : Nat)
  deriving DecidableEq, Repr

/-- An event record (08 R185). -/
structure EventRec where
  lo : Word64
  hi : Word64
  /-- the team it was posted for -/
  uid : Nat
  deriving DecidableEq, Repr

/-- A streaming FIFO: its bits as bytes with poison per byte (13 R274). -/
structure Fifo where
  uid : Nat
  q : Nat
  bytes : List (Byte × Bool)
  /-- bits of a `vqput` in progress that do not fill a byte yet, and their number (13 R275) -/
  carry : Nat
  nbits : Nat
  deriving DecidableEq, Repr

/-- Bytes that an operation has written of a sector it does not cover, until it ends: they go to memory together, so that the sector
shows all of them or none (07 R170, 08 R175). -/
structure OutSector where
  va : Nat
  mask : BitVec 32
  data : BitVec 256
  poison : Bool
  deriving DecidableEq, Repr

/-- A Runnel operation (08 R174, R181). -/
structure Runnel where
  id : Nat
  uid : Nat
  /-- 0 rcopy, 1 rfeed, 2 rspill -/
  kind : Nat
  ctxNum : Nat
  num : Nat
  post : Bool
  /-- the 64-byte record copied at issue -/
  record : BitVec 512
  pc : Word64
  priv : Bool
  stamp : Nat
  /-- number formats at issue (10 R217) -/
  nf : List Word64
  started : Bool
  /-- units done -/
  done : Nat
  /-- bytes written, as BYTES of its record counts them (08 R185) -/
  bytes : Nat
  status : Nat
  ended : Bool
  out : List OutSector
  /-- pages and windows it has reached (05 R125) -/
  used : List (Nat × Nat)
  deriving DecidableEq, Repr

structure Core where
  /-- Basin rows by bank × 32 + row -/
  basin : Table (BitVec 1024)
  /-- poisoned Basin words: 32 bits per row, by bank × 32 + row -/
  poison : Table (BitVec 32)
  banks : Table BankState
  cnt : Table Word64
  stalerd : Word64
  tlb : List TlbLeaf
  fifos : List Fifo
  events : List EventRec
  /-- completion records waiting for room in the event queue (08 R186) -/
  waitingEvents : List EventRec
  runnels : List Runnel
  dbgpc : Table Word64
  dbgda : Table Word64
  /-- flagged for a scan; under scan (22 R387) -/
  scanFlag : Bool
  scanning : Bool
  deriving DecidableEq, Repr

/-! ## Teams -/

/-- A bank kept in a saved image (21 R358). -/
structure SavedBank where
  bank : Nat
  rows : Table (BitVec 1024)
  poison : Table (BitVec 32)
  deriving DecidableEq, Repr

/-- What a swapped-out team keeps in the save pool beside its own fields (21 R358, R360). -/
structure SavedTeam where
  banks : List SavedBank
  pend : List Pending
  fifos : List Fifo
  events : List EventRec
  waitingEvents : List EventRec
  runnels : List Runnel
  loops : List Loop
  deriving DecidableEq, Repr

/-- A team. -/
structure Team where
  uid : Nat
  id : TeamId
  ctl : TeamCtl
  kern : KernelMap
  /-- the template image it was stamped from -/
  image : Option Nat
  status : TeamStatus
  waits : Option WaitFor
  cause : Option SwapCause
  s : Scalar
  l : Lane
  h : Holdings
  faultrec : List Word64
  /-- order stamp of its last cluster-scope or wider acquire; 0 for none (07 R163) -/
  clAcq : Nat
  own : List OwnPub
  /-- arrivals at barriers, by scope × 16 + id (15 R321) -/
  arrived : Table Nat
  /-- banks and engine state of a swapped-out team (21 R358) -/
  saved : Option SavedTeam
  /-- a fatal fault of one of its engines, taken at its next scalar word boundary (08 R184) -/
  efault : Option TrapReq
  /-- a recoverable fault whose swap-out waits: the team issues nothing until it is served (21 R360) -/
  rfault : Option TrapReq
  paired : Paired
  dbg : Debug
  /-- order stamp of its stamping; order stamps of its promotions, 0 for none; a yield (16 R338, 15 R324) -/
  age : Nat
  promoted : Nat
  lanePromoted : Nat
  yielding : Bool
  /-- words and passes that its core has issued since the team stood ready for them: what the default order promotes by (log 2) -/
  held : Nat
  laneHeld : Nat
  deriving DecidableEq, Repr

/-! ## Home slices, publications, logs -/

/-- What an atomic request does at its slice (06 R132, R133, R144, R148). -/
inductive AtomOp where
  | amo (op : Nat) (n : Nat) (b : Word64)
  | cas (n : Nat) (cmp new : Word64)
  /-- a lane atomic: AOP, fmt5, operand -/
  | lane (aop fmt : Nat) (b : Word64)
  | laneCas (n : Nat) (cmp new : Word64)
  /-- a row update: AOP, lane words, the operands of the taking lanes -/
  | row (aop : Nat) (len : Nat) (lanes : List (Nat × Word32))
  deriving DecidableEq, Repr

/-- Where an old value goes. -/
inductive AtomDest where
  | scalar (op : Nat)
  | lane (vd : Nat) (lane : Nat) (wide : Bool)
  | none
  deriving DecidableEq, Repr

structure AtomReq where
  uid : Nat
  ctx : Nat
  cluster : Nat
  win : Nat
  la : Nat
  what : AtomOp
  dest : AtomDest
  sys : Bool
  /-- virtual address and PC, for a POISONLD -/
  va : Word64
  pc : Word64
  /-- number of the request -/
  id : Nat
  deriving DecidableEq, Repr

/-- An atomic performed whose old value has not returned (06 R134). -/
structure AtomDone where
  req : AtomReq
  old : Word64
  poison : Bool
  /-- its result lies in the open collection of its slice -/
  inColl : Bool
  /-- the publication that carries its result -/
  psn : Option Nat
  /-- lanes whose sector was poisoned, for a row update -/
  badLanes : List Nat
  deriving DecidableEq, Repr

/-- A sector with its logical place. -/
structure SectorData where
  win : Nat
  sec : Nat
  data : BitVec 256
  poison : Bool
  deriving DecidableEq, Repr

structure Slice where
  /-- lines of its cache, the most recently used first (04 R93) -/
  lines : List HomeLine
  reqs : List AtomReq
  coll : Option (List SectorData)
  /-- PSNs prepared up to this one -/
  prepared : Nat
  paused : Bool
  quar : List Nat
  deriving DecidableEq, Repr

/-- A run of a publication: its sector set, the sectors it updates, its first position (02 R57). -/
structure PubRun where
  set : BitVec 32
  live : BitVec 32
  pos : Nat
  deriving DecidableEq, Repr

/-- The update of one granule in a publication: runs in append order (02 R57). -/
structure GranUpdate where
  win : Nat
  gran : Nat
  runs : List PubRun
  deriving DecidableEq, Repr

/-- Where a posted store goes (07 R171, R172, 05 R117). -/
inductive PostedTo where
  | host | sysReg | computeRow
  deriving DecidableEq, Repr

/-- A store posted and not yet acknowledged, or not yet at its bank. -/
structure Posted where
  id : Nat
  uid : Nat
  colour : Nat
  target : PostedTo
  addr : Nat
  size : Nat
  data : Nat
  poison : Bool
  /-- privileged registers are reached by system windows -/
  ctx : Nat
  /-- the bytes it writes of those from its address, where not all (03 R82) -/
  only : Option (BitVec 32)
  /-- page and window its address went through (05 R125) -/
  via : Nat × Nat
  deriving DecidableEq, Repr

/-- What a Cascade command does to compute rows at its completion (03 R87, R89). -/
inductive RowEffect where
  /-- bytes stored at an address -/
  | bytes (addr size data : Nat)
  /-- a whole row of zeros or ones -/
  | fill (addr : Nat) (ones : Bool)
  /-- a whole row copied -/
  | copy (src dst : Nat)
  deriving DecidableEq, Repr

/-- An accepted pass of a Cascade command, in the queue of its pseudo-channel: its place in order of arrival, and its effects
(03 R76, R89). -/
structure CascPass where
  chan : Nat
  stamp : Nat
  effects : List RowEffect
  deriving DecidableEq, Repr

/-- A Cascade command issued and not yet complete at every bank (03 R89): its tl7 number, and its accepted passes that have still
to be served. -/
structure Cascade where
  uid : Nat
  ctx : Nat
  num : Nat
  /-- base and source compute-row addresses, translated at the first pass (03 R86) -/
  base : Nat
  src : Nat
  queue : List CascPass
  /-- compute rows the command names, whole (03 R81) -/
  named : List Nat
  /-- passes are still to come -/
  growing : Bool
  /-- pages and windows its addresses went through (05 R125) -/
  via : List (Nat × Nat)
  deriving DecidableEq, Repr

/-- Who publishes. -/
inductive PubBy where
  | task (uid : Nat)
  | slice (h : Nat)
  | host
  | fabric (port : Nat)
  | device
  /-- a snapshot's PSN: the task and the window (25 R410) -/
  | snap (uid win : Nat)
  /-- a rollback: the task, the window and the snapshot (25 R411) -/
  | roll (uid win handle : Nat)
  deriving DecidableEq, Repr

/-- A publication numbered and not yet noticed by every cluster (02 R63). -/
structure Publication where
  psn : Nat
  who : PubBy
  share : List GranUpdate
  /-- data of an atomic publication, newest value of its sectors -/
  data : List SectorData
  /-- slices that have prepared it, and clusters that have had their notices: bit sets -/
  prepared : Nat
  heldSent : Nat
  committed : Bool
  noticed : Nat
  deriving DecidableEq, Repr

/-- The publication changes a granule of a window: its share names it, or a rollback takes the whole window (25 R411). -/
def Publication.touches (p : Publication) (win gran : Nat) : Bool :=
  (p.share.any fun u => u.win == win && u.gran == gran)
    || (match p.who with | .roll _ w _ => w == win | _ => false)

structure LogState where
  seg : Option Nat
  off : Nat
  deriving DecidableEq, Repr

/-- A segment frame that is not free (02 R51). -/
structure Segment where
  log : Nat
  sealed : Bool
  /-- sectors appended -/
  used : Nat
  /-- retire notices acknowledged: bit set of clusters; none while not retired -/
  retiring : Option Nat
  /-- sectors shipped by the Spillway -/
  shipped : Bool
  deriving DecidableEq, Repr

/-- A snapshot (25 R408). -/
structure Snapshot where
  handle : Nat
  win : Nat
  root : Nat
  rootGen : Nat
  snapGen : Nat
  depth : Nat
  lsize : Nat
  psn : Nat
  deriving DecidableEq, Repr

/-! ## Template images (15 R312 to R317) -/

/-- What one bank of a frozen template held. -/
inductive ImageRole where
  | regPage (page : Nat)
  | tmplPage (page : Nat)
  | region (num idx : Nat)
  deriving DecidableEq, Repr

structure ImageBank where
  /-- names the content: two images that share a bank share its number (20 R350) -/
  id : Nat
  role : ImageRole
  rows : Table (BitVec 1024)
  poison : Table (BitVec 32)
  deriving DecidableEq, Repr

/-- A frozen template's image. -/
structure Image where
  id : Nat
  launch : Nat
  stage : Nat
  level : Nat
  /-- the cluster of a level-1 template -/
  cluster : Nat
  /-- the launch template it was stamped from -/
  parent : Option Nat
  x : Table Word64
  pc : Word64
  m : Table MaskWord
  dead : MaskWord
  pt : Table Word64
  nf : List Word64
  ctl : TeamCtl
  kern : KernelMap
  ident : TeamId
  regions : List Region
  banks : List ImageBank
  deriving DecidableEq, Repr

/-- A copy of an image on a core: the bank that holds each of its banks, in order. -/
structure ImageCopy where
  image : Nat
  core : Nat
  banks : List Nat
  deriving DecidableEq, Repr

/-! ## Launches -/

/-- State of a launch slot (16 R332). -/
inductive LaunchStatus where
  | sealed_ | waiting | ready | running | swapped | completing | complete
  deriving DecidableEq, Repr

/-- A stage queue: its capacity, its entries, oldest first, and the cluster whose way 15 holds each (15 R322, 04 R96). -/
structure StageQueue where
  cap : Nat
  entries : List (BitVec 512)
  places : List Nat
  deriving DecidableEq, Repr

/-- A stage of a placed launch (16 R336, R337). -/
structure StageRun where
  /-- clusters dealt to it, in order -/
  clusters : List Nat
  /-- cores that take its instances; a launch template's children go to these -/
  cores : List Nat
  /-- the lowest instance never stamped -/
  next : Nat
  /-- instances to stamp again after a first mismatch, with the cores that may not run them (22 R386) -/
  again : List (Nat × List Nat)
  /-- instances that have ended or are counted as ended -/
  ended : Nat
  /-- the launch template: 0 not frozen, 1 frozen with level-1 templates, 2 frozen with instances, 3 ended before its freeze -/
  top : Nat
  /-- clusters whose level-1 template has not frozen or ended yet -/
  opening : List Nat
  deriving DecidableEq, Repr

/-- A launch between Parsed and Complete (16 R332). -/
structure Launch where
  id : Nat
  /-- owner of its ring, the ring's queue and the slot -/
  tenant : Nat
  queue : Nat
  slot : Nat
  record : BitVec 1024
  kdesc : BitVec 1024
  status : LaunchStatus
  /-- STATUS and REASON of R334 -/
  code : Nat
  reason : Nat
  dep0 : Bool
  dep1 : Bool
  placed : Bool
  origin : Nat
  stages : List StageRun
  queues : List StageQueue
  failed : Nat
  nonzero : Nat
  first : Nat
  /-- a slice expiry that is due and waits: for a halted team, or for its teams to be swapped out with room for them (21 R360, R370) -/
  held : Bool
  /-- a pre-emption is under way: its teams stop at their boundaries and wait to be swapped out (16 R339, 07 R173) -/
  stopping : Bool
  /-- where its template images lay when it was swapped out: image and core (21 R359) -/
  imageAt : List (Nat × Nat)
  /-- the summary is written: publications up to this PSN commit before the counter advances (16 R334) -/
  bound : Option Nat
  /-- instances with a first mismatch (22 R386) -/
  mismatched : List Nat
  /-- clusters that ran a mismatching copy (22 R386) -/
  suspects : List Nat
  deriving DecidableEq, Repr

/-! ## The device -/

/-- Who moves next: a list of turns the model runs before its default order (log 2). -/
inductive Turn where
  /-- a scalar word of a team -/
  | scalar (team : Nat)
  /-- a pass or a word of a team's lane stream -/
  | lane (team : Nat)
  /-- words of several teams, or passes of their lane streams, in one cycle: their requests tie (18 R344) -/
  | cycle (teams : List (Nat × Bool))
  /-- a halt request reaches a team in the cycle of its next scalar word, or of its next lane pass (21 R370) -/
  | halting (team : Nat) (lane : Bool)
  /-- a step of another agent -/
  | event (i : Instr)
  /-- the host stores bytes into its own memory -/
  | hostStore (addr : Nat) (bytes : List Byte)
  /-- the host masks or unmasks a vector of a function -/
  | hostMask (fn vec : Nat)
  /-- a matrix loop has stood in its table for more than 1,024 cycles (13 R285) -/
  | loopAged (cluster loop : Nat)
  /-- the spacing since the last activation of every listed row has passed (03 R77) -/
  | rowsSpaced
  /-- a cluster cache has quarantined a line (22 R376) -/
  | clusterResumed (cluster : Nat)
  /-- the pending message of an unmasked vector has gone out on the link (24 R397) -/
  | msixSent (fn vec : Nat)
  /-- the module power, averaged over 1 ms, is a new value (26 R419, R421) -/
  | powerRead (watts : Nat)
  /-- a warm reset with a cause, whose steps 2 and 3 find errors in home-slice lines: slice, way and number of each line (22 R381) -/
  | resetFinding (cause : Nat) (finds : List (Nat × Nat × Nat))
  deriving DecidableEq, Repr

/-- What the device has sent on its links, newest last: the model's own record. -/
inductive Sent where
  | msix (fn vec : Nat)
  | readData (hpa : Nat) (data : BitVec 512) (poison : Bool)
  | writeDone (hpa : Nat)
  | flit (port : Nat) (bytes : List Byte)
  | mailbox (status : Nat)
  | report (bytes : List Byte)
  | chain (bytes : List Byte)
  deriving DecidableEq, Repr

/-- A launch ring (16 R328): base, slots, the next slot and the lap. -/
structure Ring where
  base : Nat
  slots : Nat
  next : Nat
  lap : Nat
  deriving DecidableEq, Repr

/-- A sector the Spillway has yet to ship: of a window, published by a PSN, at a log position; at none where a rollback has left it
unwritten (25 R413, R414). -/
structure Unshipped where
  win : Nat
  psn : Nat
  sec : Nat
  pos : Option Nat
  deriving DecidableEq, Repr

/-- Sectors a replica has received since its last cut (25 R414). -/
structure Received where
  win : Nat
  sec : Nat
  pos : Nat
  deriving DecidableEq, Repr

/-- The echo of a cut: it waits for the publication of a PSN, goes to a peer's window, and carries the source's PSN (25 R414). -/
structure Echo where
  psn : Nat
  rtid : Nat
  pwid : Nat
  cut : Nat
  deriving DecidableEq, Repr

/-- A host batch whose publication has not committed: its PSN and the lines whose completions it owes (24 R396). -/
structure HostBatch where
  psn : Nat
  lines : List Nat
  deriving DecidableEq, Repr

/-- A row of HBM: a compute row by its number, or an ordinary row (03 R77). -/
inductive RowKey where
  | compute (row : Nat)
  | ordinary (row : Nat)
  deriving DecidableEq, Repr

/-- What the base dies keep of their rows: the activation counts of the refresh windows by kind, the listed rows, the open rows, at
most one to a bank, and the listed rows whose last activation lies less than their spacing back (03 R77). -/
structure RowTrack where
  acts : Table Nat
  ordActs : Table Nat
  listed : List RowKey
  open_ : List RowKey
  held : List RowKey
  deriving DecidableEq, Repr

/-- Who reads a row: a team's scalar word, by its PC; a pass of its lane stream, by the index of the lane word and the pass; an engine
operation (03 R76). -/
inductive RowAsker where
  | scalar (uid : Nat) (pc : Word64)
  | lane (uid lpc pix : Nat)
  | engine (op : Nat)
  deriving DecidableEq, Repr

/-- A read of compute rows that waits in the queue of its pseudo-channel: who asks, its order of arrival, the rows, and the team and
number of the Cascade command it is part of (03 R76). -/
structure RowWait where
  who : RowAsker
  chan : Nat
  stamp : Nat
  rows : List Nat
  cmd : Option (Nat × Nat)
  deriving DecidableEq, Repr

/-- Whose image a run of the save pool holds (21 R360). -/
inductive PoolOwner where
  | team (uid : Nat)
  | image (id : Nat)
  deriving DecidableEq, Repr

/-- A run of 64 KiB blocks of the save pool (21 R360). -/
structure PoolRun where
  first : Nat
  count : Nat
  who : PoolOwner
  deriving DecidableEq, Repr

/-- Whose append stands stalled (02 R71, R72). -/
inductive Staller where
  | team (uid : Nat)
  /-- a write of an engine operation, whose team goes on (08 R183) -/
  | engine (op : Nat)
  /-- a store of the device's own, on a cluster -/
  | device (cluster : Nat)
  | slice (h : Nat)
  | host
  | replica (port : Nat)
  deriving DecidableEq, Repr

/-- A store of the device's own that waits for room in the log of a cluster: context, cluster, address, sectors (16 R425, 02 R71). -/
structure OwedStore where
  ctx : Nat
  cluster : Nat
  va : Word64
  secs : List (BitVec 256)
  deriving DecidableEq, Repr

/-- The device beside its memories, cores and launches. -/
structure Device where
  enable : Bool
  ixBase : Nat
  ixFrames : Nat
  spillBase : Nat
  saveBase : Nat
  saveFrames : Nat
  errBase : Nat
  errHead : Nat
  ageCap : Nat
  distThr : Nat
  /-- the rows of HBM (03 R77), the reads that wait for theirs, and the pseudo-channels whose oldest request blocks younger row hits
  (03 R76) -/
  rows : RowTrack
  rowWaits : List RowWait
  ageBlock : List Nat
  /-- segment frames marked reserved: first frame and count, rising (02 R71) -/
  reserved : List (Nat × Nat)
  /-- stalled appends, the oldest first (02 R72) -/
  stalls : List Staller
  /-- bursts of sectors that a receive log had no room for yet, the oldest first (02 R71, 24 R402) -/
  arrivals : List ReplicaBurst
  /-- its own stores that appends stalled, the oldest first (16 R425) -/
  owed : List OwedStore
  /-- runs of the save pool in use (21 R360) -/
  pool : List PoolRun
  /-- logged windows of terminated contexts that have not been rolled or rebuilt since (22 R377) -/
  broken : List Nat
  xlA : Word64
  xlB : Word64
  xlIssued : Nat
  xlDone : Nat
  xlQueue : List (Word64 × Word64)
  /-- the command at the head has dropped its matches and waits for these operations -/
  xlBusy : Option (List Nat)
  scanInt : Nat
  scanDue : List Nat
  lcmap : BitVec 192
  hostRefuse : Nat
  fabDrop : Nat
  fabRefuse : Nat
  /-- throttle levels that the junction temperature and the power demand (26 R421) -/
  thermLevel : Nat
  powLevel : Nat
  degrees : Nat
  power : Nat
  pcap : Nat
  coolantLow : Bool
  /-- issue is held until the junction falls below 90 degrees (26 R421) -/
  hot : Bool
  /-- completion counters and their table (16 R334, 24 R398) -/
  counters : Table Word64
  counterTable : Table Word64
  /-- the tenants there are: the tenant table, of which the spec gives no more (24 R403, R404) -/
  tenants : BitVec 16
  rings : Table Ring
  tslice : Table Nat
  fqSeq : Table Nat
  routes : Table (BitVec 16)
  rtid : BitVec 12
  hostRd : BitVec 256
  hostWr : BitVec 256
  hdmBase : Nat
  armed : List Nat
  meas : Table (BitVec 512)
  fwVersion : Nat
  /-- retired 64 KiB frames (22 R378) -/
  retired : List Nat
  /-- MSI-X: pending and masked vectors -/
  pending : List (Nat × Nat)
  masked : List (Nat × Nat)
  sent : List Sent
  batch : List SectorData
  batchLines : List Nat
  batches : List HostBatch
  unshipped : List Unshipped
  burstSeq : Table Nat
  cutOwed : List (Nat × Nat)
  shipPsn : Table Nat
  /-- PSN of the last sector shipped of each window -/
  lastShip : Table Nat
  received : List Received
  /-- echoes owed once the publication of a cut commits (25 R414) -/
  echoes : List Echo
  spaceLow : Bool
  spaceAlarm : Bool
  deriving DecidableEq, Repr

structure State where
  turns : List Turn
  /-- the model's own counter of free values -/
  free : Nat
  /-- the model's own order stamps: every team, operation and release takes the next -/
  stamp : Nat
  /-- the core that issued last: the default order goes on with the next one (log 2) -/
  lastCore : Nat
  /-- the team whose word is issuing -/
  cur : Team
  /-- every other team -/
  teams : List Team
  cores : Table Core
  clusters : Table Cluster
  slices : Table Slice
  hbm : Memory
  /-- check value and poison per physical sector (02 R46, R47) -/
  chk : Table (BitVec 32)
  bad : Table Bool
  crow : Memory
  crowBad : Table Bool
  host : Memory
  /-- host sectors that the device has written with the data-poison indication (22 R373) -/
  hostBad : Table Bool
  psnNext : Nat
  commitPoint : Nat
  pubs : List Publication
  posted : List Posted
  cascades : List Cascade
  done : List AtomDone
  logs : Table LogState
  segs : Table Segment
  ixUsed : List Nat
  /-- window table, context table, by index -/
  windows : Table (BitVec 512)
  contexts : Table (BitVec 512)
  /-- peer window table (24 R402) -/
  peers : Table (BitVec 128)
  snaps : List Snapshot
  images : List Image
  copies : List ImageCopy
  launches : List Launch
  dev : Device
  deriving DecidableEq, Repr

/-! ## Values at reset -/

def Cluster.init : Cluster :=
  { ixb := [], acqPsn := 0, noticed := 0, dirty := [], weir := [], raised := [], lines := [], clock := 1, tlb := [], walk := [], attrs := []
    stale := [], loops := [], quar := [], paused := false }

def Core.init : Core :=
  { basin := [], poison := [], banks := [], cnt := [], stalerd := 0, tlb := [], fifos := [], events := []
    waitingEvents := [], runnels := [], dbgpc := [], dbgda := [], scanFlag := false, scanning := false }

def Slice.init : Slice := { lines := [], reqs := [], coll := none, prepared := 0, paused := false, quar := [] }

def LogState.init : LogState := { seg := none, off := 0 }

def TeamId.init : TeamId :=
  { ctx := 0, tenant := 0, prow := 0, pcol := 0, core := 0, slot := 0, stage := 0, task := 0, inst := 0
    ix := 0, iy := 0, iz := 0, launch := 0 }

def TeamCtl.init : TeamCtl :=
  { nreg := 8, nlw := 1, level := 0, paired := false, preempt := false, gang := false, prio := 0, dcol := 0 }

def KernelMap.init : KernelMap :=
  { scode := 0, lcode := 0, sbase := 0, spages := 0, tbase := 0, tpages := 0, tsrc := 0, g := 1 }

def Scalar.init : Scalar :=
  { x := [], pc := 0, srpc := 0, priv := false, hook := none, outs := [], phase := .none, counted := false }

/-- All lanes of a team of `n` lane words (09 R199). -/
def allLanes (n : Nat) : MaskWord := BitVec.ofNat 1024 (2 ^ (32 * n) - 1)

def Lane.init (n : Nat) : Lane :=
  { queue := [], run := none, stall := none, watched := false, pix := 0, passes := none, flight := none, dphAt := 0, m := [(0, allLanes n)], dead := 0
    pt := [], badRegs := [], nf := [0, 0, 0, 0], flagE := false, flagO := false, flagN := false, rdx := 0, dph := 0 }

def Holdings.init : Holdings :=
  { tlIssued := [0, 0, 0, 0, 0, 0, 0, 0], tl := [0, 0, 0, 0, 0, 0, 0, 0], tlDone := [], regions := [], tiles := []
    privBase := none, stash := [], copies := [], latch := none, frozen := false }

def Paired.init : Paired := { role := 0, twin := 0, sig := BitVec.allOnes 64, at_ := none }

def Debug.init : Debug :=
  { halted := false, reason := 0, haltReq := false, stepping := false, stepS := false, stepL := false, pcm := 0, dam := 0, skips := []
    pendf := none, brk := 0 }

/-- No team: what the issuing place holds when no team exists, as after reset. -/
def Team.vacant : Team :=
  { uid := 0, id := TeamId.init, ctl := TeamCtl.init, kern := KernelMap.init, image := .none, status := .ended, waits := .none
    cause := .none, s := Scalar.init, l := Lane.init 1, h := Holdings.init, faultrec := [0, 0, 0, 0, 0, 0, 0, 0]
    clAcq := 0, own := [], arrived := [], saved := .none, efault := .none, rfault := .none, paired := Paired.init, dbg := Debug.init, age := 0, promoted := 0, lanePromoted := 0
    yielding := false, held := 0, laneHeld := 0 }

def Ring.init : Ring := { base := 0, slots := 0, next := 0, lap := 0 }

def RowTrack.init : RowTrack := { acts := [], ordActs := [], listed := [], open_ := [], held := [] }

/-- The device after a completed cold reset (26 R418), its tables empty; the places of the reserved areas are the
firmware's (log 5). -/
def Device.init : Device :=
  { enable := true
    ixBase := 0, ixFrames := 0x100000, spillBase := 0x100000000, saveBase := 0x200000000, saveFrames := 0x800
    errBase := 0x300000000, errHead := 0
    ageCap := 16, distThr := 4000, rows := RowTrack.init, rowWaits := [], ageBlock := []
    reserved := [(0, 8192)], stalls := [], arrivals := [], owed := [], pool := [], broken := []
    xlA := 0, xlB := 0, xlIssued := 0, xlDone := 0, xlQueue := [], xlBusy := none
    scanInt := 24, scanDue := [], lcmap := BitVec.allOnes 192
    hostRefuse := 0, fabDrop := 0, fabRefuse := 0
    thermLevel := 0, powLevel := 0, degrees := 0, power := 0, pcap := 1600, coolantLow := false, hot := false
    counters := [], counterTable := [], tenants := 0, rings := [], tslice := [], fqSeq := [], routes := [], rtid := 0
    hostRd := 0, hostWr := 0, hdmBase := 0, armed := []
    meas := [(0, Config.bootMeasure 0), (1, Config.bootMeasure 1), (3, Config.mapMeasure (BitVec.allOnes 192))], fwVersion := 0
    retired := [], pending := [], masked := [], sent := [], batch := [], batchLines := [], batches := []
    unshipped := [], burstSeq := [], cutOwed := [], shipPsn := [], lastShip := [], received := [], echoes := []
    spaceLow := false, spaceAlarm := false }

/-- The machine right after a completed cold reset (26 R418): no team, no launch, nothing written. -/
def State.reset : State :=
  { turns := [], free := 0, stamp := 1, lastCore := 191, cur := Team.vacant, teams := [], cores := [], clusters := [], slices := []
    hbm := [], chk := [], bad := [], crow := [], crowBad := [], host := [], hostBad := [], psnNext := 1, commitPoint := 0
    pubs := [], posted := [], cascades := [], done := [], logs := [], segs := [], ixUsed := [], windows := [], contexts := []
    peers := [], snaps := [], images := [], copies := [], launches := [], dev := Device.init }

end Sys2Proof.Machine
end

