-- ==== Sys2Proof/Machine/Ops.lean ====
section
/-!
DEFINITION. Named operations over registers and the parts of the state, the ways a step can stop,
and the free values.
-/
namespace Sys2Proof.Machine

/-- Why a meaning does not run to its end. -/
inductive Stop where
  /-- a fault of the task (21 R351) -/
  | trap (r : TrapReq)
  /-- the word cannot go on yet (14 R292) -/
  | wait (w : WaitFor)
  /-- the owning context of a corrupt index or an uncorrectable error is terminated (02 R56, 22 R376) -/
  | terminate (ctx : Nat) (kind : Nat) (la : Nat) (task : Nat)
  /-- the machine stops -/
  | halt (f : Fault)
  deriving DecidableEq, Repr

/-- A computation over the state that may stop; the state reached stays. -/
abbrev M := EStateM Stop State

/-! ## Registers -/

/-- A scalar register of a file; `x0` reads zero (01 R11). -/
def xget (x : Table Word64) (r : XReg) : Word64 := if r = 0 then 0 else Table.get 0 x r.toNat

/-- Write a scalar register; `x0` discards the write (01 R11). -/
def xset (x : Table Word64) (r : XReg) (v : Word64) : Table Word64 :=
  if r = 0 then x else Table.set 0 x r.toNat v

/-- A scalar register of the issuing team. -/
def State.getX (s : State) (r : XReg) : Word64 := xget s.cur.s.x r

/-- The issuing team's scalar part changed. -/
def State.withS (s : State) (f : Scalar → Scalar) : State := { s with cur := { s.cur with s := f s.cur.s } }

/-- Write a scalar register of the issuing team. -/
def State.setX (s : State) (r : XReg) (v : Word64) : State := s.withS fun c => { c with x := xset c.x r v }

/-- The scalar PC of the issuing team (01 R9). -/
def State.pc (s : State) : Word64 := s.cur.s.pc

/-- Set the scalar PC of the issuing team. -/
def State.setPc (s : State) (pc : Word64) : State := s.withS fun c => { c with pc := pc }

/-- The word has been done: the next one stands four bytes on (01 R9). -/
def State.advance (s : State) : State :=
  s.withS fun c => { c with pc := c.pc + 4, phase := .none, counted := false }

/-- The word has been done and control goes to `pc`. -/
def State.jumpTo (s : State) (pc : Word64) : State :=
  s.withS fun c => { c with pc := pc, phase := .none, counted := false }

/-- A result written to a register by a word that has been done. -/
def State.result (s : State) (d : XReg) (v : Word64) : State := (s.setX d v).advance

/-! ## Parts of the state -/

def State.core (s : State) (k : Nat) : Core := Table.get Core.init s.cores k
def State.setCore (s : State) (k : Nat) (c : Core) : State := { s with cores := Table.set Core.init s.cores k c }
def State.cluster (s : State) (k : Nat) : Cluster := Table.get Cluster.init s.clusters k
def State.setCluster (s : State) (k : Nat) (c : Cluster) : State :=
  { s with clusters := Table.set Cluster.init s.clusters k c }
def State.slice (s : State) (h : Nat) : Slice := Table.get Slice.init s.slices h
def State.setSlice (s : State) (h : Nat) (c : Slice) : State := { s with slices := Table.set Slice.init s.slices h c }

def onCore (k : Nat) (f : Core → Core) : M Unit := modify fun s => s.setCore k (f (s.core k))
def onCluster (k : Nat) (f : Cluster → Cluster) : M Unit := modify fun s => s.setCluster k (f (s.cluster k))
def onSlice (k : Nat) (f : Slice → Slice) : M Unit := modify fun s => s.setSlice k (f (s.slice k))

/-- The issuing team. -/
def getTeam : M Team := do return (← get).cur

def onTeam (f : Team → Team) : M Unit := modify fun s => { s with cur := f s.cur }
def onScalar (f : Scalar → Scalar) : M Unit := modify fun s => s.withS f
def onLane (f : Lane → Lane) : M Unit := onTeam fun t => { t with l := f t.l }
def onHold (f : Holdings → Holdings) : M Unit := onTeam fun t => { t with h := f t.h }

/-- Core and cluster of a team (00 R1). -/
def Team.core (t : Team) : Nat := t.id.core
def Team.cluster (t : Team) : Nat := t.id.core / 4

/-- Die of a cluster, a stack, a fabric port: 0 for die A (00 R1, R3, R4). -/
def dieOfCluster (c : Nat) : Nat := if c % 12 < 6 then 0 else 1
def dieOfStack (k : Nat) : Nat := if k < 6 then 0 else 1
def dieOfPort (p : Nat) : Nat := if p < 8 then 0 else 1

/-- The next order stamp. -/
def nextStamp : M Nat := modifyGet fun s => (s.stamp, { s with stamp := s.stamp + 1 })

/-- A value the spec leaves open: a fresh free value, read by advancing the counter (log 9). -/
def drawFree : M Word64 := modifyGet fun s => (Config.freeValue s.free, { s with free := s.free + 1 })

/-- Add to a word of CORECNT, modulo 2^64 (01 R16). -/
def Core.count (c : Core) (w n : Nat) : Core := { c with cnt := Table.set 0 c.cnt w (Table.get 0 c.cnt w + BitVec.ofNat 64 n) }

def bump (core w n : Nat) : M Unit := if n = 0 then pure () else onCore core fun c => c.count w n

/-- A team by its number, wherever it stands. -/
def State.team? (s : State) (uid : Nat) : Option Team :=
  if s.cur.uid = uid then some s.cur else s.teams.find? fun t => t.uid == uid

/-- Change a team wherever it stands. -/
def State.onTeamId (s : State) (uid : Nat) (f : Team → Team) : State :=
  if s.cur.uid = uid then { s with cur := f s.cur }
  else { s with teams := s.teams.map fun t => if t.uid = uid then f t else t }

/-- Bring a team to the issuing place; the one there goes back among the others. -/
def State.focus (s : State) (uid : Nat) : State :=
  if s.cur.uid = uid then s
  else match s.teams.find? fun t => t.uid == uid with
    | none => s
    | some t => { s with cur := t, teams := s.cur :: s.teams.filter fun u => u.uid != uid }

/-- Every team of the machine. -/
def State.allTeams (s : State) : List Team := s.cur :: s.teams

/-- Run a computation and keep the state it reached, whether or not it stopped. -/
def runM {α : Type} (m : M α) (s : State) : State :=
  match m s with
  | .ok _ s' => s'
  | .error _ s' => s'

/-- An event raises the message of a vector: it is pending until it is sent, and an event meanwhile raises no further one (24 R397). -/
def Device.raise (d : Device) (fn vec : Nat) : Device :=
  if d.pending.contains (fn, vec) then d else { d with pending := d.pending ++ [(fn, vec)] }

/-- The pending message of a vector goes out on the link, where the vector is not masked (24 R397). -/
def Device.sendMsix (d : Device) (fn vec : Nat) : Device :=
  if d.pending.contains (fn, vec) ∧ d.masked.contains (fn, vec) = false then
    { d with pending := d.pending.filter fun v => v != (fn, vec), sent := d.sent ++ [.msix fn vec] }
  else d

/-! ## Stops -/

def noTrap : TrapReq :=
  { code := 0, src := 0, recov := false, w2 := 0, w3 := 0, w4 := 0, w5 := 0, w6 := 0, pc := none, priv := none, named := none }

/-- Raise a fault with one word of detail (21 R352). -/
def trapWith {α : Type} (code : Nat) (w2 : Word64) : M α := throw (.trap { noTrap with code := code, w2 := w2 })

/-- Raise a fault of the lane stream. -/
def laneTrap {α : Type} (code : Nat) (w2 w3 : Word64) : M α :=
  throw (.trap { noTrap with code := code, src := 1, w2 := w2, w3 := w3 })

/-- The word waits. -/
def waitFor {α : Type} (w : WaitFor) : M α := throw (.wait w)

/-- Wait unless a condition holds. -/
def waitUnless (b : Bool) (w : WaitFor) : M Unit := if b then pure () else waitFor w

/-- Fault codes (21 R351). -/
def Code.illop : Nat := 0x01
def Code.illpair : Nat := 0x02
def Code.privop : Nat := 0x03
def Code.trap : Nat := 0x04
def Code.brk : Nat := 0x05
def Code.svcnum : Nat := 0x06
def Code.svcnest : Nat := 0x07
def Code.svctab : Nat := 0x08
def Code.basinexh : Nat := 0x0C
def Code.spillwait : Nat := 0x0D
def Code.preempted : Nat := 0x0E
def Code.vafmt : Nat := 0x10
def Code.notpresent : Nat := 0x11
def Code.rsvbit : Nat := 0x12
def Code.contmis : Nat := 0x13
def Code.walkwin : Nat := 0x14
def Code.descfmt : Nat := 0x15
def Code.winvalid : Nat := 0x16
def Code.winown : Nat := 0x17
def Code.winrange : Nat := 0x18
def Code.perm : Nat := 0x19
def Code.winkind : Nat := 0x1A
def Code.hostrmw : Nat := 0x1B
def Code.misalign : Nat := 0x20
def Code.poisonld : Nat := 0x21
def Code.basinrange : Nat := 0x22
def Code.basinalign : Nat := 0x23
def Code.basinperm : Nat := 0x24
def Code.privrange : Nat := 0x25
def Code.tstfrozen : Nat := 0x26
def Code.tstrange : Nat := 0x27
def Code.rowfmt : Nat := 0x28
def Code.tlrange : Nat := 0x30
def Code.recfmt : Nat := 0x31
def Code.stashmap : Nat := 0x32
def Code.regrange : Nat := 0x34
def Code.nffmt : Nat := 0x36
def Code.mxdesc : Nat := 0x38
def Code.wsetbad : Nat := 0x39
def Code.wfrozen : Nat := 0x3A
def Code.wstrange : Nat := 0x3B
def Code.accfmt : Nat := 0x3C
def Code.pcalign : Nat := 0x40
def Code.jtbound : Nat := 0x41
def Code.lpadmis : Nat := 0x42
def Code.jtfmt : Nat := 0x43
def Code.freezelvl : Nat := 0x48
def Code.barlevel : Nat := 0x49
def Code.qstage : Nat := 0x4A
def Code.tmplacc : Nat := 0x4B
def Code.enccmd : Nat := 0x50
def Code.notcrow : Nat := 0x51
def Code.craddr : Nat := 0x52
def Code.crclone : Nat := 0x53

end Sys2Proof.Machine
end

