-- ==== Sys2Proof/Machine/Lines.lean ====
section
/-!
DEFINITION. Lines of the home slices and of the cluster caches: tags, sets and ways, protection, replacement (04 R92 to R99),
and the activation counts of HBM rows (03 R77).
-/
namespace Sys2Proof.Machine

/-! ## Home slices by address (04 R92, R93) -/

/-- Home slice of a logical address (04 R92). -/
def homeSlice (la : Nat) : Nat :=
  let g := bits la 10 36
  let f := bits g 0 16 ^^^ bits g 16 16 ^^^ bits g 32 4
  f * 48 / 65536

/-- Home slice of a granule of logged memory. -/
def sliceOfGran (gran : Nat) : Nat := homeSlice (gran * 1024)

/-! ## Row activations (03 R77) -/

/-- Global bank of a compute row, by its row number: the compute-row address without its BYTE field, whose low five bits are the
bank of the pseudo-channel (03 R79). -/
def bankOfRow (row : Nat) : Nat := row / 4096 * 32 + row % 32

/-- The bank of a row; that of an ordinary row the spec leaves open (log 1). -/
def RowKey.bank : RowKey → Nat
  | .compute r => bankOfRow r
  | .ordinary r => Config.ordinaryBank r

/-- A row is an ordinary one: its refresh window is 32 ms, that of a compute row 8 ms (03 R77). -/
def RowKey.isOrdinary : RowKey → Bool | .compute _ => false | .ordinary _ => true

/-- Activations of a row in its refresh window. -/
def RowTrack.actsOf (t : RowTrack) : RowKey → Nat
  | .compute r => Table.get 0 t.acts r
  | .ordinary r => Table.get 0 t.ordActs r

def RowTrack.setActs (t : RowTrack) (k : RowKey) (n : Nat) : RowTrack :=
  match k with
  | .compute r => { t with acts := Table.set 0 t.acts r n }
  | .ordinary r => { t with ordActs := Table.set 0 t.ordActs r n }

/-- The listed row of a bank with the highest count; of several, the one listed first (log 116, DESIGN CHOICE: the spec names no
order). -/
def RowTrack.topOf (t : RowTrack) (mates : List RowKey) (k : RowKey) : RowKey :=
  mates.foldl (fun b r => if t.actsOf b < t.actsOf r then r else b) (mates.headD k)

/-- An activation of a row is counted; at three quarters of the threshold the row is listed, and a full table of its bank
first frees the entry of its highest count, whose neighbours are refreshed. The next activation of a listed row keeps its spacing
(03 R77). -/
def RowTrack.count (t : RowTrack) (thr : Nat) (k : RowKey) : RowTrack :=
  let n := t.actsOf k + 1
  let t1 := t.setActs k n
  if 4 * n < 3 * thr ∧ t.listed.contains k = false then t1
  else
    let t2 := { t1 with held := k :: t1.held.filter fun r => r != k }
    if t.listed.contains k then t2
    else
      let mates := t.listed.filter fun r => r.bank == k.bank
      if mates.length < 32 then { t2 with listed := t.listed ++ [k] }
      else
        let top := t.topOf mates k
        { t2.setActs top 0 with listed := (t.listed.filter fun r => r != top) ++ [k], held := t2.held.filter fun r => r != top }

/-- The row is open in its bank. -/
def RowTrack.isOpen (t : RowTrack) (k : RowKey) : Bool := t.open_.contains k

/-- The row's next activation is held back by its spacing (03 R77). -/
def RowTrack.isHeld (t : RowTrack) (k : RowKey) : Bool := t.held.contains k && !t.isOpen k

/-- A request reaches a row: one that is not open is activated and counted, and stays open in its bank's place. -/
def RowTrack.access (t : RowTrack) (thr : Nat) (k : RowKey) : RowTrack :=
  if t.isOpen k then t
  else
    let t1 := t.count thr k
    { t1 with open_ := k :: t1.open_.filter fun r => r.bank != k.bank }

/-- An activation that opens several rows at once counts once for each, and leaves none of their banks with one open row. -/
def RowTrack.multi (t : RowTrack) (thr : Nat) (ks : List RowKey) : RowTrack :=
  let t1 := ks.foldl (fun (t : RowTrack) k => t.count thr k) t
  { t1 with open_ := t1.open_.filter fun r => !ks.any fun k => k.bank == r.bank }

/-- A refresh window of one kind of row starts: its counts and its table entries are cleared (03 R77; log 116). -/
def RowTrack.fresh (t : RowTrack) (ordinary : Bool) : RowTrack :=
  { t with
    acts := if ordinary then t.acts else []
    ordActs := if ordinary then [] else t.ordActs
    listed := t.listed.filter fun k => k.isOrdinary != ordinary
    held := t.held.filter fun k => k.isOrdinary != ordinary }

/-- Pseudo-channel, with its stack, of a compute-row address (03 R79). -/
def chanOf (cra : Nat) : Nat := bits cra 22 10

/-- Rows that a command's effect opens. -/
def RowEffect.rows : RowEffect → List Nat
  | .bytes a _ _ => [a / 1024]
  | .fill a _ => [a / 1024]
  | .copy src dst => [src / 1024, dst / 1024]

/-- A request in the queue of a pseudo-channel: its order of arrival, the rows it opens, and the team and number of a Cascade
command (03 R76). -/
structure RowReq where
  stamp : Nat
  rows : List Nat
  cmd : Option (Nat × Nat)
  deriving DecidableEq, Repr

/-- A team is on its core with its word at a PC, or with a pass of a lane word still to do. -/
def Team.stillAsks (t : Team) : RowAsker → Bool
  | .scalar _ pc => (t.status == .ready || t.status == .waiting) && t.s.pc == pc
  | .lane _ lpc pix => (t.status == .ready || t.status == .waiting) && (match t.l.run with
    | some r => r.lpc == lpc && t.l.pix == pix
    | none => false)
  | .engine _ => false

/-- A waiting read is still wanted: its word, its pass or its engine operation has not ended without it. -/
def State.asks (s : State) (who : RowAsker) : Bool :=
  match who with
  | .scalar uid _ => (s.team? uid).any fun t => t.stillAsks who
  | .lane uid _ _ => (s.team? uid).any fun t => t.stillAsks who
  | .engine op => s.cores.any fun c => c.2.runnels.any fun r => r.id == op && !r.ended

/-- The reads that wait in the queue of a pseudo-channel. -/
def State.readsOf (s : State) (chan : Nat) : List RowWait := s.dev.rowWaits.filter fun w => w.chan == chan && s.asks w.who

/-- The queue of a pseudo-channel: posted stores to compute rows, accepted passes of Cascade commands, and reads that wait. Requests
to ordinary rows are made and served in one step, so none stands in it (log 116). -/
def State.rowQueue (s : State) (chan : Nat) : List RowReq :=
  ((s.posted.filter fun p => p.target == .computeRow && chanOf p.addr == chan).map fun p =>
      ({ stamp := p.id, rows := [p.addr / 1024], cmd := none } : RowReq))
    ++ (s.cascades.flatMap fun c => (c.queue.filter fun q => q.chan == chan).map fun q =>
      ({ stamp := q.stamp, rows := (q.effects.flatMap RowEffect.rows).eraseDups, cmd := some (c.uid, c.num) } : RowReq))
    ++ (s.readsOf chan).map fun w => ({ stamp := w.stamp, rows := w.rows, cmd := w.cmd } : RowReq)

/-- One team's commands at a pseudo-channel execute in issue order (03 R89): an earlier one stands in the queue. -/
def RowReq.behind (r : RowReq) (q : List RowReq) : Bool :=
  match r.cmd with
  | none => false
  | some (uid, num) => q.any fun o => match o.cmd with
    | some (u, n) => u == uid && decide (n < num)
    | none => false

/-- A row hit: every row of the request is open, and nothing of its team's must come before it. -/
def State.rowHit (s : State) (q : List RowReq) (r : RowReq) : Bool :=
  !r.behind q && r.rows.all fun n => s.dev.rows.isOpen (.compute n)

/-- A request is held back by the spacing of a listed row that it opens (03 R76, R77). -/
def State.rowHeld (s : State) (r : RowReq) : Bool := r.rows.any fun n => s.dev.rows.isHeld (.compute n)

/-- The oldest request of a queue, where nothing holds it back. -/
def State.oldestFree (s : State) (chan : Nat) : Option RowReq :=
  let all := s.rowQueue chan
  all.find? fun o => !s.rowHeld o && all.all fun p => decide (o.stamp ≤ p.stamp)

/-- The oldest request of a pseudo-channel blocks younger row hits: it has waited longer than the age cap, and nothing holds it back
(03 R76). -/
def State.aged (s : State) (chan : Nat) : Bool := s.dev.ageBlock.contains chan && (s.oldestFree chan).isSome

/-- The spacing of every listed row has passed: the age of a request that it held back counts from 0 again (03 R76, R77). -/
def State.spaceRows (s : State) : State :=
  { s with dev := { s.dev with
      rows := { s.dev.rows with held := [] }
      ageBlock := s.dev.ageBlock.filter fun c => (s.oldestFree c).isSome } }

/-- A request may be served now (03 R76): row hits first, the oldest first among equals; an oldest request that has waited
longer than the age cap comes before every other. One that is held back waits, and meanwhile the others pass it. -/
def State.mayServe (s : State) (chan : Nat) (r : RowReq) : Bool :=
  let all := s.rowQueue chan
  let q := all.filter fun o => !s.rowHeld o
  let first := q.all fun o => decide (r.stamp ≤ o.stamp)
  !s.rowHeld r && !r.behind all &&
    ((q.all fun o => o.stamp == r.stamp)
      || first && (s.aged chan || s.rowHit all r || q.all fun o => o.stamp == r.stamp || !s.rowHit all o)
      || !first && !s.aged chan && s.rowHit all r
        && q.all fun o => decide (r.stamp ≤ o.stamp) || !s.rowHit all o)

/-- A request has been served: once the oldest of its queue that nothing holds back has been, younger row hits are free again
(03 R76). -/
def State.servedRow (s : State) (chan stamp : Nat) : State :=
  if (s.rowQueue chan).all fun o => s.rowHeld o || decide (stamp ≤ o.stamp) then
    { s with dev := { s.dev with ageBlock := s.dev.ageBlock.filter fun c => c != chan } }
  else s

/-- An access to compute rows at their banks. -/
def State.touchRows (s : State) (rows : List Nat) : State :=
  { s with dev := { s.dev with rows := rows.foldl (fun t r => t.access s.dev.distThr (.compute r)) s.dev.rows } }

/-- An access to the ordinary row of a physical sector (03 R77; which row that is, the spec leaves open, log 1). -/
def State.touchHbm (s : State) (sec : Nat) : State :=
  { s with dev := { s.dev with rows := s.dev.rows.access s.dev.distThr (.ordinary (Config.ordinaryRow sec)) } }

/-- The same of several sectors, in order. -/
def State.touchAll (s : State) (secs : List Nat) : State :=
  { s with dev := { s.dev with
      rows := secs.foldl (fun t sec => t.access s.dev.distThr (.ordinary (Config.ordinaryRow sec))) s.dev.rows } }

/-- The request of a read: its place in the queue from its first try on (03 R76). -/
def State.readReq (s : State) (who : Option RowAsker) (chan : Nat) (rows : List Nat) (cmd : Option (Nat × Nat)) : RowReq :=
  match s.dev.rowWaits.find? fun w => some w.who == who && w.chan == chan && w.rows == rows with
  | some w => { stamp := w.stamp, rows := rows, cmd := cmd }
  | none => { stamp := s.stamp, rows := rows, cmd := cmd }

/-- Compute rows are read at their banks: a read that is not its queue's turn waits there, and keeps its place (03 R76). -/
def rowRead (who : Option RowAsker) (chan : Nat) (rows : List Nat) (cmd : Option (Nat × Nat)) : M Unit := do
  let s ← get
  let r := s.readReq who chan rows cmd
  let others := s.dev.rowWaits.filter fun w => some w.who != who && s.asks w.who
  let stands := s.dev.rowWaits.any fun w => some w.who == who && w.chan == chan && w.rows == rows
  if s.mayServe chan r then
    let s1 : State := { s with dev := { s.dev with rowWaits := others } }
    set ((s1.servedRow chan r.stamp).touchRows rows)
  else
    match who with
    | some a =>
      if !stands then set ({ s with
        stamp := s.stamp + 1
        dev := { s.dev with rowWaits := others ++ [{ who := a, chan := chan, stamp := r.stamp, rows := rows, cmd := cmd }] } } : State)
    | none => pure ()
    waitFor .memory

/-! ## Protection and replacement (04 R99) -/

/-- PROT of a line allocated by an access of a hint. -/
def hintProt (hint : Nat) : Nat := match hint with | 0 => 1 | 2 => 2 | _ => 0

/-- PROT of a line after a hit by an access of a hint. -/
def hintRaise (prot hint : Nat) : Nat := match hint with | 0 => (if prot < 1 then 1 else prot) | 2 => 2 | _ => prot

/-- One bit of a line's four sectors. -/
def lineBit (i : Nat) : BitVec 4 := BitVec.ofNat 4 (2 ^ i)

/-- Write one sector's bit of a line. -/
def lineSet (b : BitVec 4) (i : Nat) (v : Bool) : BitVec 4 := if v then b ||| lineBit i else b &&& ~~~lineBit i

/-! ## Lines of a home slice (04 R93, R94) -/

/-- Where a tag competes: the argument of the set function. -/
def LineTag.key : LineTag → Nat
  | .node f l => 8 * (f * 32 + l)
  | .log w l => 8 * (w * 2 ^ 40 + l) + 1
  | .result w l => 8 * (w * 2 ^ 40 + l) + 2
  | .crow l => 8 * l + 3
  | .phys l => 8 * l + 4

/-- The set of a tag among the 1,024 sets of a slice. -/
def LineTag.set (t : LineTag) : Nat := Config.homeSet t.key % 1024

/-- Results that have no log position yet are never replaced: they stay until their publication appends them (04 R95). -/
def LineTag.replaceable : LineTag → Bool | .result _ _ => false | _ => true

/-- The line of a tag in a slice. -/
def Slice.line? (c : Slice) (t : LineTag) : Option HomeLine := c.lines.find? fun l => l.tag == t

/-- The least recently used of a list in order of use, most recent first. -/
def oldestOf (l : List HomeLine) : Option LineTag := (l.getLast?).map (·.tag)

/-- The ninth line of PROT 2 in a set demotes the least recently used one (04 R99). -/
def demoteTwos (lines : List HomeLine) (set : Nat) : List HomeLine :=
  if lines.length < 9 then lines
  else
    let twos := lines.filter fun l => l.prot == 2 && l.tag.set == set
    if twos.length < 9 then lines
    else match oldestOf twos with
      | some t => lines.map fun l => if l.tag = t then { l with prot := 1 } else l
      | none => lines

/-- The lines of a set that has no way left; a quarantined way holds nothing (22 R378). -/
def Slice.fullSet (c : Slice) (set : Nat) : Option (List HomeLine) :=
  if c.lines.length + c.quar.length < 16 then none
  else
    let same := c.lines.filter fun l => l.tag.set == set
    if same.length < 16 - (c.quar.filter fun q => q / 16 == set).length then none else some same

/-- The victim of a full set: the least recently used of the lowest PROT (04 R99); none where every line of it holds results. -/
def sliceVictim (same : List HomeLine) : Option LineTag :=
  let open_ := same.filter fun l => l.tag.replaceable
  let low := open_.foldl (fun m l => if l.prot < m then l.prot else m) 3
  oldestOf (open_.filter fun l => l.prot == low)

/-- The line that a line of a tag would replace. -/
def Slice.victim (c : Slice) (t : LineTag) : Option HomeLine :=
  match c.line? t, c.fullSet t.set with
  | none, some same => (sliceVictim same).bind c.line?
  | _, _ => none

/-- A line of a tag is there, or finds a way: no line stays where all lines of its set hold results (04 R95, log 95). -/
def Slice.hasRoom (c : Slice) (t : LineTag) : Bool :=
  (c.line? t).isSome || (match c.fullSet t.set with | some same => (sliceVictim same).isSome | none => true)

/-- Room for one more line in a set of a slice. A dirty victim is written back where it belongs, which its bytes already are
(log 95). -/
def Slice.makeRoom (c : Slice) (t : LineTag) : List HomeLine :=
  match c.victim t with
  | some v => c.lines.filter fun l => l.tag != v.tag
  | none => c.lines

/-- A slice with a line used last, before the others. -/
def Slice.addLine (c : Slice) (l : HomeLine) (rest : List HomeLine) : Slice :=
  { c with lines := if l.prot = 2 then demoteTwos (l :: rest) l.tag.set else l :: rest }

/-- Sector `i` of a line of a slice is filled or written: the line is brought in with its owner tag (04 R94), or used again.
No-allocate brings in nothing. -/
def Slice.put (c : Slice) (t : LineTag) (i : Nat) (bad dirty : Bool) (own : Option Nat) (hint : Nat) : Slice :=
  match c.line? t with
  | some l =>
    let l1 := { l with valid := lineSet l.valid i true, bad := lineSet l.bad i bad, dirty := l.dirty || dirty
                       prot := hintRaise l.prot hint }
    c.addLine l1 (c.lines.filter fun o => o.tag != t)
  | none =>
    if hint = 3 ∨ c.hasRoom t = false then c
    else
      let l1 : HomeLine := { tag := t, valid := lineBit i, bad := if bad then lineBit i else 0, dirty := dirty, own := own
                             prot := hintProt hint }
      c.addLine l1 (c.makeRoom t)

/-- A hit on sector `i` of a line: whether it is held as poison; none on a miss. -/
def Slice.hit (c : Slice) (t : LineTag) (i : Nat) : Option Bool :=
  match c.line? t with
  | some l => if bitAt l.valid.toNat i then some (bitAt l.bad.toNat i) else none
  | none => none

/-- Drop sector `i` of a line; a line without a sector left is gone. -/
def Slice.dropSector (c : Slice) (t : LineTag) (i : Nat) : Slice :=
  { c with lines := c.lines.filterMap fun l =>
      if l.tag = t then (if l.valid &&& ~~~lineBit i = 0 then none else some { l with valid := l.valid &&& ~~~lineBit i }) else some l }

/-- The physical sector that the first of a line's four lies at, for a line that may be dirty and has a place in HBM (04 R93). -/
def State.homeOf (s : State) : LineTag → Option Nat
  | .node f l => some ((s.dev.ixBase + f * 4096) / 32 + l * 4)
  | .phys l => some (l * 4)
  | _ => none

/-- A line that is written back opens its row (03 R77, 04 R93). -/
def State.writeBack (s : State) (v : Option HomeLine) : State :=
  match v with
  | some l => if l.dirty then (match s.homeOf l.tag with | some sec => s.touchHbm sec | none => s) else s
  | none => s

/-- A sector of a line of a slice is used. -/
def State.putLine (s : State) (h : Nat) (t : LineTag) (i : Nat) (bad dirty : Bool) (own : Option Nat) (hint : Nat) : State :=
  let c := s.slice h
  (if hint = 3 then s else s.writeBack (c.victim t)).setSlice h (c.put t i bad dirty own hint)

/-- A read of a sector at a home slice: from its line, or from HBM, whose row it opens and whose poison `bad` gives. -/
def homeRead (h : Nat) (t : LineTag) (i sec : Nat) (bad : Bool) (own : Option Nat) (hint : Nat) : M Bool := do
  let s ← get
  match (s.slice h).hit t i with
  | some b =>
    set (s.putLine h t i b false own hint)
    return b
  | none =>
    set ((s.touchHbm sec).putLine h t i bad false own hint)
    return bad

/-! ## Device structures (04 R93) -/

/-- Places of the window table, the context table, the snapshot table and the segment state table in the reserved area (log 5). -/
def windowTableBase : Nat := 0x310000000
def contextTableBase : Nat := 0x320000000
def snapshotTableBase : Nat := 0x330000000
def segmentTableBase : Nat := 0x340000000

/-- Home slice of a physical byte of a device structure. -/
def sliceOfByte (byte : Nat) : Nat := homeSlice (byte % 2 ^ 46)

/-- A device structure's sector is read or written through its home slice: such a line has OWNV 0 (04 R94). -/
def State.touchStructure (s : State) (byte : Nat) (dirty : Bool) : State :=
  let h := sliceOfByte byte
  let t := LineTag.phys (byte / 128)
  let s1 := if dirty || ((s.slice h).hit t (byte / 32 % 4)).isSome then s else s.touchHbm (byte / 32)
  s1.putLine h t (byte / 32 % 4) false dirty none 0

/-! ## The cluster cache (04 R96 to R99) -/

/-- The key of a published line, and of a dirty line, which window, line and task tag. -/
def pubKey (line : Nat) : Nat := 2 * line
def dirtyKey (uid win line : Nat) : Nat := 2 * ((uid * 256 + win) * 2 ^ 40 + line) + 1

/-- The set of a key among the 2,048 sets of a cluster cache. -/
def clusterSet (key : Nat) : Nat := Config.cacheSet key % 2048

/-- A way of a set as replacement sees it: a dirty line or a published one, its protection and its last use. -/
structure CacheWay where
  key : Nat
  /-- task, window and logical line of a dirty line -/
  dirty : Option (Nat × Nat × Nat)
  line : Nat
  prot : Nat
  stamp : Nat
  deriving DecidableEq, Repr

/-- The dirty lines of a cluster cache: the line of a sector holds what one task has written of it (04 R96). -/
def Cluster.dirtyWays (c : Cluster) : List CacheWay :=
  c.dirty.foldl (fun acc d =>
    let k := (d.uid, d.win, d.sec / 4)
    if acc.any fun w => w.dirty == some k then
      acc.map fun w => if w.dirty = some k then
        { w with prot := if w.prot < d.prot then d.prot else w.prot, stamp := if w.stamp < d.stamp then d.stamp else w.stamp } else w
    else acc ++ [{ key := dirtyKey d.uid d.win (d.sec / 4), dirty := some k, line := 0, prot := d.prot, stamp := d.stamp }]) []

/-- Every line of a cluster cache. -/
def Cluster.allWays (c : Cluster) : List CacheWay :=
  c.dirtyWays ++ c.lines.map fun l => { key := pubKey l.line, dirty := none, line := l.line, prot := l.prot, stamp := l.stamp }

/-- The least recently used way of the lowest PROT. -/
def victimOf (ways : List CacheWay) : Option CacheWay :=
  ways.foldl (fun (b : Option CacheWay) w => match b with
    | none => some w
    | some v => if w.prot < v.prot ∨ (w.prot = v.prot ∧ w.stamp < v.stamp) then some w else some v) none

/-- The least recently used way. -/
def oldestWay (ways : List CacheWay) : Option CacheWay :=
  ways.foldl (fun (b : Option CacheWay) w => match b with
    | none => some w
    | some v => if w.stamp < v.stamp then some w else some v) none

/-- Change the protection of the line a way stands for. -/
def Cluster.setProt (c : Cluster) (w : CacheWay) (p : Nat) : Cluster :=
  match w.dirty with
  | some k => { c with dirty := c.dirty.map fun d => if (d.uid, d.win, d.sec / 4) = k then { d with prot := p } else d }
  | none => { c with lines := c.lines.map fun l => if l.line = w.line then { l with prot := p } else l }

/-- The ninth line of PROT 2 in a set demotes the least recently used one (04 R99). -/
def Cluster.demoteFor (c : Cluster) (set : Nat) : Nat → Cluster
  | 0 => c
  | n + 1 =>
    let twos := c.allWays.filter fun w => w.prot == 2 && clusterSet w.key == set
    if twos.length < 9 then c
    else match oldestWay twos with
      | some w => (c.setProt w 1).demoteFor set n
      | none => c

/-- At most eight lines of the set of a key hold PROT 2 (04 R99). -/
def Cluster.demote (c : Cluster) (key : Nat) : Cluster :=
  if c.lines.length + c.dirty.length < 9 then c else c.demoteFor (clusterSet key) 8

/-- Ways of a set that lines may take: a quarantined way holds nothing, nor does way 15 while a launch with a pipeline is
resident on the cluster (04 R96, 22 R378). -/
def Cluster.waysOf (c : Cluster) (set : Nat) (pipe : Bool) : Nat :=
  (if pipe then 15 else 16) - (c.quar.filter fun q => q / 16 == set && !(pipe && q % 16 == 15)).length

/-- A launch with a declared pipeline is resident on the cluster (04 R96, 15 R322). -/
def State.pipelined (s : State) (cl : Nat) : Bool :=
  s.launches.any fun l => !l.queues.isEmpty && l.placed && l.stages.any fun g => g.clusters.contains cl

/-- The set of a key has no way left for another line, and the lines of the set. -/
def Cluster.fullSet (c : Cluster) (key : Nat) (pipe : Bool) : Option (List CacheWay) :=
  if c.lines.length + c.dirty.length + c.quar.length < 15 then none
  else
    let set := clusterSet key
    let same := c.allWays.filter fun w => clusterSet w.key == set
    if same.length < c.waysOf set pipe then none else some same

/-- Drop a published line. -/
def Cluster.dropLine (c : Cluster) (line : Nat) : Cluster := { c with lines := c.lines.filter fun l => l.line != line }

/-- Room for a clean line in a full set by its clean lines alone; no room where every line of it is dirty. -/
def Cluster.roomForClean (c : Cluster) (key : Nat) (pipe : Bool) : Option Cluster :=
  match c.fullSet key pipe with
  | none => some c
  | some same => match victimOf (same.filter fun w => w.dirty.isNone) with
    | some w => some (c.dropLine w.line)
    | none => none

/-- The clean lines of a set that exceed its ways leave, the least recently used of the lowest PROT first. -/
def Cluster.trimSet (c : Cluster) (key : Nat) (pipe : Bool) : Nat → Cluster
  | 0 => c
  | n + 1 =>
    let same := c.allWays.filter fun w => clusterSet w.key == clusterSet key
    if same.length ≤ c.waysOf (clusterSet key) pipe then c
    else match victimOf (same.filter fun w => w.dirty.isNone) with
      | some w => (c.dropLine w.line).trimSet key pipe n
      | none => c

/-- Way 15 of every set is given to the stage queues of a pipeline that becomes resident: a clean line leaves each set of sixteen,
of which at most twelve are dirty (04 R96, R97; log 95, DESIGN CHOICE: the spec does not say which line stands in way 15). -/
def Cluster.trim (c : Cluster) : Cluster :=
  if c.lines.length + c.dirty.length + c.quar.length < 16 then c
  else c.lines.foldl (fun (c : Cluster) l => c.trimSet (pubKey l.line) true 16) c

/-- Bring a sector of a log position into the cluster cache, or use its line again (04 R99). -/
def Cluster.putClean (c : Cluster) (pos : Nat) (bad : Bool) (prot : Nat) (raise : Nat → Nat) (pipe : Bool) : Cluster :=
  let line := pos / 4
  let i := pos % 4
  match c.lines.find? fun l => l.line == line with
  | some l =>
    let l1 := { l with valid := lineSet l.valid i true, bad := lineSet l.bad i bad, prot := raise l.prot, stamp := c.clock }
    ({ c with lines := c.lines.map fun o => if o.line = line then l1 else o, clock := c.clock + 1 } : Cluster).demote (pubKey line)
  | none =>
    match c.roomForClean (pubKey line) pipe with
    | none => c
    | some c1 =>
      let fresh : PubLine := { line := line, valid := lineBit i, bad := if bad then lineBit i else 0, prot := prot, stamp := c.clock }
      ({ c1 with lines := fresh :: c1.lines, clock := c.clock + 1 } : Cluster).demote (pubKey line)

/-- A hit on a published sector: whether it is held as poison; none on a miss. -/
def Cluster.pubHit (c : Cluster) (pos : Nat) : Option Bool :=
  match c.lines.find? fun l => l.line == pos / 4 with
  | some l => if bitAt l.valid.toNat (pos % 4) then some (bitAt l.bad.toNat (pos % 4)) else none
  | none => none

/-- Lines of a segment frame leave every cache once the frame is free: its positions will name other sectors (log 95). -/
def State.dropFrameLines (s : State) (seg : Nat) : State :=
  let own := fun (line : Nat) => line / 16384 == seg
  { s with
    clusters := Table.mapVals Cluster.init (fun c => { c with lines := c.lines.filter fun l => !own l.line }) s.clusters
    slices := Table.mapVals Slice.init (fun c =>
      { c with lines := c.lines.filter fun l => match l.tag with | .log _ x => !own x | _ => true }) s.slices }

end Sys2Proof.Machine
end

