-- ==== Sys2Proof/Machine/Hbm.lean ====
section
/-!
DEFINITION. The logs in HBM: sectors with their check value, segments, appends (02 R45 to R51, R71),
and the index of a window (02 R52 to R58).
-/
namespace Sys2Proof.Machine

/-- A sector as it is delivered. -/
structure Delivered where
  data : BitVec 256
  poison : Bool
  deriving DecidableEq, Repr

/-- Physical sector number of a log position (02 R50): segment frames are 65,536 sectors. -/
def physSector (pos : Nat) : Nat := pos

/-- Physical byte of a log position (02 R50). -/
def physByte (pos : Nat) : Nat := pos * 32

/-- A sector never written (02 R48). -/
def unwritten : Delivered := { data := 0, poison := false }

/-- Deliver the sector at a log position for a logical sector address, checking it (02 R47): `bad` says that it is held as
poison where it is taken from. -/
def State.sectorHeld (s : State) (pos sec : Nat) (bad : Bool) : Delivered :=
  let data := BitVec.ofNat 256 (s.hbm.readN (physByte pos) 32)
  { data := data, poison := bad || Table.get 0 s.chk (physSector pos) != checkValue data sec }

/-- Deliver the sector at a log position from HBM. -/
def State.sectorAt (s : State) (pos sec : Nat) : Delivered := s.sectorHeld pos sec (Table.get false s.bad (physSector pos))

/-- Write a sector at a log position; a check value is made where it enters, and poison stays poison (02 R47). -/
def State.putSector (s : State) (pos sec : Nat) (d : Delivered) : State :=
  { s.touchHbm pos with
    hbm := s.hbm.writeN (physByte pos) d.data.toNat 32
    chk := Table.set 0 s.chk (physSector pos) (checkValue d.data sec)
    bad := Table.set false s.bad (physSector pos) d.poison }

/-- Eight bytes of reserved HBM. -/
def State.hbm64 (s : State) (a : Nat) : Nat := s.hbm.readN a 8

/-! ## Segments (02 R51, R71) -/

def numSegments : Nat := 393216
def segsPerStack : Nat := 32768
def secsPerSeg : Nat := 65536

def Segment.dflt : Segment := { log := 0, sealed := false, used := 0, retiring := none, shipped := false }

/-- A segment frame is marked reserved: it is never handed out and never counts as free (02 R71). -/
def State.reservedFrame (s : State) (f : Nat) : Bool := s.dev.reserved.any fun r => decide (r.1 ≤ f ∧ f < r.1 + r.2)

/-- Reserved frames that lie in `n` frames from `b`. -/
def State.reservedIn (s : State) (b n : Nat) : Nat :=
  s.dev.reserved.foldl (fun acc r =>
    let lo := if r.1 < b then b else r.1
    let hi := if r.1 + r.2 < b + n then r.1 + r.2 else b + n
    acc + (hi - lo)) 0

/-- Segment frames that are not in use and hold a retired frame: they are never allocated again (22 R378). -/
def State.lostSegs (s : State) : List Nat :=
  ((s.dev.retired.map (· / 32)).eraseDups).filter fun f =>
    decide (f < numSegments) && !s.reservedFrame f && !s.segs.any fun p => p.1 == f

/-- Frames of a stack in use, reserved or lost. -/
def State.usedInStack (s : State) (k : Nat) : Nat :=
  (s.segs.filter fun p => p.1 / segsPerStack == k).length + (s.lostSegs.filter fun f => f / segsPerStack == k).length
    + s.reservedIn (k * segsPerStack) segsPerStack

/-- Free segments of the device (02 R71, 22 R378). -/
def State.freeSegs (s : State) : Nat := numSegments - s.reservedIn 0 numSegments - s.segs.length - s.lostSegs.length

/-- Die of a log's owner (02 R51). -/
def dieOfLog (log : Nat) : Nat :=
  if log < 48 then dieOfCluster log
  else if log < 96 then dieOfCluster (log - 48)
  else if log < 108 then dieOfStack (log - 96)
  else if log < 124 then dieOfPort (log - 108)
  else 0

/-- The stack the next segment of a log comes from: most free segments, then the owner's die, then the lowest. -/
def State.pickStack (s : State) (log : Nat) : Nat :=
  let better := fun (a b : Nat) =>   -- b strictly better than a
    let fa := segsPerStack - s.usedInStack a
    let fb := segsPerStack - s.usedInStack b
    fb > fa || (fb == fa && dieOfStack b == dieOfLog log && dieOfStack a != dieOfLog log)
  (List.range 12).foldl (fun a b => if better a b then b else a) 0

/-- Insert a run of frames into a rising list of runs. -/
def insertRun (l : List (Nat × Nat)) (r : Nat × Nat) : List (Nat × Nat) :=
  match l with
  | [] => [r]
  | x :: xs => if r.1 < x.1 then r :: x :: xs else x :: insertRun xs r

/-- The lowest frame from `f` that no run of a rising list holds. -/
def lowestFree (f : Nat) : List (Nat × Nat) → Nat
  | [] => f
  | (b, n) :: r => if f < b then f else lowestFree (if f < b + n then b + n else f) r

/-- Lowest frame of a stack that is free and not reserved. -/
def State.pickFrame (s : State) (stack : Nat) : Nat :=
  let taken := s.segs.map fun (p : Nat × Segment) => (p.1, 1)
  lowestFree (stack * segsPerStack) ((s.dev.reserved ++ s.lostSegs.map fun f => (f, 1)).foldl insertRun taken)

/-- May this log append now (02 R71)? -/
def State.mayAppend (s : State) (log : Nat) : Bool :=
  let free := s.freeSegs
  decide (15729 < free) || (decide (3933 ≤ free) && decide (48 ≤ log ∧ log < 108))
    || decide (96 ≤ log ∧ log < 108)

/-! ## Stalled appends (02 R72) -/

/-- An engine operation that has not ended, wherever it runs. -/
def State.engineOp? (s : State) (op : Nat) : Option Runnel :=
  s.cores.findSome? fun c => c.2.runnels.find? fun r => r.id == op && !r.ended

/-- The log that a stalled append goes to (02 R49). -/
def State.stallerLog (s : State) : Staller → Nat
  | .engine op => match (s.engineOp? op).bind fun r => s.team? r.uid with | some t => t.cluster | none => 0
  | .team uid => match s.team? uid with | some t => t.cluster | none => 0
  | .device cl => cl
  | .slice h => 48 + h
  | .host => 124
  | .replica port => 108 + port

/-- The append still stands stalled; that of a team halted by the debugger does not resume (21 R369). -/
def State.stillStalled (s : State) : Staller → Bool
  | .team uid => match s.team? uid with
    | some t => t.status == .waiting && t.waits == some .space && !t.dbg.halted
    | none => false
  | .engine op => match (s.engineOp? op).bind fun r => s.team? r.uid with | some t => !t.dbg.halted | none => false
  | .device cl => s.dev.owed.any fun o => o.cluster == cl
  | .slice h => let c := s.slice h
    c.coll.isSome || c.reqs != []
  | .host => s.dev.batchLines != []
  | .replica port => s.dev.arrivals.any fun b => b.port == port

/-- Stalled appends, the oldest first. -/
def State.stallers (s : State) : List Staller := s.dev.stalls.filter s.stillStalled

/-- An append stalls: it takes its place behind those that stand stalled already. -/
def State.stall (s : State) (x : Staller) : State :=
  { s with dev := { s.dev with stalls := if s.stallers.contains x then s.stallers else s.stallers ++ [x] } }

/-- An append no longer stands stalled. -/
def State.unstall (s : State) (x : Staller) : State :=
  if s.dev.stalls = [] then s else { s with dev := { s.dev with stalls := s.stallers.filter fun y => y != x } }

/-- An append may go on: its log may append, and no older stalled append may (02 R72). -/
def State.mayResume (s : State) (x : Staller) : Bool :=
  s.mayAppend (s.stallerLog x) && (s.stallers.takeWhile fun y => y != x).all fun y => !s.mayAppend (s.stallerLog y)

/-- The log's state. -/
def State.log (s : State) (l : Nat) : LogState := Table.get LogState.init s.logs l

/-- Seal the current segment of a log (02 R51). -/
def State.sealLog (s : State) (l : Nat) : State :=
  match (s.log l).seg with
  | none => s
  | some f =>
    let g := Table.get Segment.dflt s.segs f
    { s.touchStructure (segmentTableBase + 16 * f) true with
      segs := Table.set Segment.dflt s.segs f { g with sealed := true }
      logs := Table.set LogState.init s.logs l LogState.init }

/-- Open a new segment for a log. -/
def State.openSeg (s : State) (l : Nat) : State :=
  let f := s.pickFrame (s.pickStack l)
  let s1 := s.touchStructure (segmentTableBase + 16 * f) true
  { s1 with
    segs := Table.set Segment.dflt s.segs f { Segment.dflt with log := l }
    logs := Table.set LogState.init s.logs l { seg := some f, off := 0 }
    dev := if s.freeSegs ≤ 15730 ∧ s.dev.spaceLow = false then { s1.dev.raise 0 1 with spaceLow := true } else s1.dev }

/-- The log with room for a run of `n` sectors: a run that does not fit seals the segment (02 R51, R57). -/
def State.roomFor (s : State) (l n : Nat) : State :=
  match (s.log l).seg with
  | none => s.openSeg l
  | some _ => if (s.log l).off + n ≤ secsPerSeg then s else (s.sealLog l).openSeg l

/-- Append one sector at the log's next offset. -/
def State.appendOne (s : State) (l sec : Nat) (d : Delivered) : State :=
  match (s.log l).seg with
  | none => s
  | some f =>
    let off := (s.log l).off
    let s1 := s.putSector (f * secsPerSeg + off) sec d
    let g := Table.get Segment.dflt s1.segs f
    let s2 := { s1 with
      segs := Table.set Segment.dflt s1.segs f { g with used := off + 1 }
      logs := Table.set LogState.init s1.logs l { seg := some f, off := off + 1 } }
    if off + 1 = secsPerSeg then s2.sealLog l else s2

/-- Append a packed run; its first position (02 R57). The caller has checked that appends are allowed. -/
def appendRun (l : Nat) (secs : List (Nat × Delivered)) : M Nat := do
  modify fun s => s.roomFor l secs.length
  let s ← get
  let pos := (match (s.log l).seg with | some f => f * secsPerSeg + (s.log l).off | none => 0)
  modify fun s => secs.foldl (fun s p => s.appendOne l p.1 p.2) s
  return pos

/-! ## Window descriptors (02 R52) -/

/-- Word `w` of a 64-byte descriptor. -/
def descWord (d : BitVec 512) (w : Nat) : Nat := bits d.toNat (64 * w) 64

def Win.owner (d : BitVec 512) : Nat := bits (descWord d 0) 58 6
def Win.tenant (d : BitVec 512) : Nat := bits (descWord d 0) 54 4
def Win.wid (d : BitVec 512) : Nat := bits (descWord d 0) 46 8
def Win.valid (d : BitVec 512) : Bool := bitAt (descWord d 0) 45
def Win.logged (d : BitVec 512) : Bool := bitAt (descWord d 0) 44
def Win.enc (d : BitVec 512) : Bool := bitAt (descWord d 0) 43
def Win.host (d : BitVec 512) : Bool := bitAt (descWord d 0) 42
def Win.crow (d : BitVec 512) : Bool := bitAt (descWord d 0) 41
def Win.ncatom (d : BitVec 512) : Bool := bitAt (descWord d 0) 40
def Win.depth (d : BitVec 512) : Nat := bits (descWord d 0) 38 2
def Win.sys (d : BitVec 512) : Bool := bitAt (descWord d 0) 37
def Win.lbase (d : BitVec 512) : Nat := bits (descWord d 1) 0 46
def Win.lsize (d : BitVec 512) : Nat := bits (descWord d 2) 0 36
def Win.rootGen (d : BitVec 512) : Nat := bits (descWord d 3) 32 32
def Win.root (d : BitVec 512) : Nat := bits (descWord d 3) 0 32
def Win.snapGen (d : BitVec 512) : Nat := bits (descWord d 4) 0 32
def Win.psnPub (d : BitVec 512) : Nat := descWord d 5
def Win.staleCnt (d : BitVec 512) : Nat := descWord d 6

/-- Replace one 64-bit word of a descriptor. -/
def setDescWord (d : BitVec 512) (w v : Nat) : BitVec 512 := BitVec.ofNat 512 (setBits d.toNat (64 * w) 64 v)

/-- The descriptor keeps the table of R52 (DESCFMT otherwise; 05 R116 check 1). -/
def Win.wellFormed (d : BitVec 512) (idx : Nat) : Bool :=
  let w0 := descWord d 0
  let kinds := (if Win.host d then 1 else 0) + (if Win.crow d then 1 else 0) + (if Win.sys d then 1 else 0)
  decide (bits w0 0 37 = 0) && decide (Win.wid d = idx)
    && decide (bits (descWord d 1) 46 18 = 0) && decide (bits (descWord d 1) 0 21 = 0)
    && decide (bits (descWord d 2) 36 28 = 0) && decide (1 ≤ Win.lsize d)
    && decide (bits (descWord d 4) 32 32 = 0) && decide (descWord d 7 = 0)
    && (if Win.logged d then
          decide (kinds = 0) && decide (Win.lsize d ≤ 2 ^ (8 * (Win.depth d + 1)))
        else
          decide (kinds = 1) && decide (Win.depth d = 0) && decide (descWord d 3 = 0)
            && decide (bits (descWord d 4) 0 32 = 0) && !Win.enc d && decide (Win.lsize d ≤ 2 ^ 35))

def State.window (s : State) (w : Nat) : BitVec 512 := Table.get 0 s.windows w
def State.setWindow (s : State) (w : Nat) (d : BitVec 512) : State := { s with windows := Table.set 0 s.windows w d }

/-! ## Context descriptors (24 R400) -/

def Ctx.xroot (d : BitVec 512) : Nat := descWord d 0
def Ctx.valid (d : BitVec 512) : Bool := bitAt (descWord d 1) 63
def Ctx.dbgen (d : BitVec 512) : Bool := bitAt (descWord d 1) 62
def Ctx.term (d : BitVec 512) : Bool := bitAt (descWord d 1) 61
def Ctx.tenant (d : BitVec 512) : Nat := bits (descWord d 1) 57 4
def Ctx.fqlog2 (d : BitVec 512) : Nat := bits (descWord d 1) 52 5
def Ctx.fqvec (d : BitVec 512) : Nat := bits (descWord d 1) 45 7
def Ctx.keyslot (d : BitVec 512) : Nat := bits (descWord d 1) 39 6
def Ctx.fqbase (d : BitVec 512) : Nat := descWord d 2
def Ctx.svctab (d : BitVec 512) : Nat := descWord d 3

/-- The zero fields of a context descriptor, its translation root's among them (24 R400, 05 R110). -/
def Ctx.zeroFields (d : BitVec 512) : Bool :=
  decide (bits (Ctx.xroot d) 46 10 = 0 ∧ bits (Ctx.xroot d) 0 12 = 0 ∧ bits (descWord d 1) 0 39 = 0 ∧ bits d.toNat 256 256 = 0)

/-- The zero field of a counter-table entry (24 R398), and of a peer window entry (24 R402). -/
def counterZero (e : Nat) : Bool := decide (bits e 0 51 = 0)
def peerZero (e : BitVec 128) : Bool := decide (bits e.toNat 0 90 = 0)

/-- A peer window entry is valid and has ROLE 1, or ROLE 0 (24 R402); one with a non-zero checked field has no role (log 98). -/
def Peer.isReplica (e : BitVec 128) : Bool := bits e.toNat 126 2 == 3 && peerZero e
def Peer.isSource (e : BitVec 128) : Bool := bits e.toNat 126 2 == 2 && peerZero e

def State.context (s : State) (c : Nat) : BitVec 512 := Table.get 0 s.contexts c
def State.setContext (s : State) (c : Nat) (d : BitVec 512) : State := { s with contexts := Table.set 0 s.contexts c d }

/-! ## The index (02 R53 to R58) -/

/-- Base of the index pool and its frames (02 R53, 26 R419). -/
def State.poolBase (s : State) : Nat := s.dev.ixBase
def State.poolFrames (s : State) : Nat := s.dev.ixFrames

/-- Byte of entry `i` of node frame `f` (02 R53). -/
def State.nodeByte (s : State) (f i : Nat) : Nat := s.poolBase + f * 4096 + i * 16

def State.nodeEntry (s : State) (f i : Nat) : BitVec 128 := BitVec.ofNat 128 (s.hbm.readN (s.nodeByte f i) 16)
def State.setNodeEntry (s : State) (f i : Nat) (e : BitVec 128) : State :=
  { s with hbm := s.hbm.writeN (s.nodeByte f i) e.toNat 16 }

/-- Fields of entries (02 R54, R55). -/
def Ent.kind (e : BitVec 128) : Nat := bits e.toNat 126 2
def Ent.frame (e : BitVec 128) : Nat := bits e.toNat 94 32
def Ent.gen (e : BitVec 128) : Nat := bits e.toNat 62 32
def Ent.logid (e : BitVec 128) : Nat := bits e.toNat 118 8
def Ent.pos (e : BitVec 128) : Nat := bits e.toNat 78 40
def Ent.occ (e : BitVec 128) : Nat := bits e.toNat 46 32

def mkInterior (frame gen : Nat) : BitVec 128 := BitVec.ofNat 128 (1 * 2 ^ 126 + frame * 2 ^ 94 + gen * 2 ^ 62)
def mkGranule (form logid pos occ : Nat) : BitVec 128 :=
  BitVec.ofNat 128 (form * 2 ^ 126 + logid * 2 ^ 118 + pos * 2 ^ 78 + occ * 2 ^ 46)

/-- An interior entry that breaks its layout (02 R54, R56). -/
def Ent.badInterior (s : State) (e : BitVec 128) : Bool :=
  decide (2 ≤ Ent.kind e) || decide (bits e.toNat 0 62 ≠ 0)
    || (decide (Ent.kind e = 0) && e != 0)
    || (decide (Ent.kind e = 1) && decide (s.poolFrames ≤ Ent.frame e))

/-- A granule entry that breaks its layout (02 R55, R56). R56 lists a LOGID of 125 to 255 and a dense one of 48 to 95; that a
scattered entry names a log of 48 to 95 is R55's layout, and another one is taken as malformed too (log 94, DEDUCED). -/
def Ent.badGranule (e : BitVec 128) : Bool :=
  decide (Ent.kind e = 3) || decide (bits e.toNat 0 46 ≠ 0)
    || (decide (Ent.kind e = 0) && e != 0)
    || (decide (Ent.kind e ≠ 0) && (decide (125 ≤ Ent.logid e) || decide (numSegments ≤ Ent.pos e / 65536)))
    || (decide (Ent.kind e = 1) && decide (48 ≤ Ent.logid e ∧ Ent.logid e < 96))
    || (decide (Ent.kind e = 2) && !decide (48 ≤ Ent.logid e ∧ Ent.logid e < 96))

/-- A granule number relative to its window (02 R53). -/
def relGran (d : BitVec 512) (gran : Nat) : Nat := gran - Win.lbase d / 1024

/-- Digit of a relative granule number at a level. -/
def digit (g lvl : Nat) : Nat := bits g (8 * lvl) 8

/-- Entry `i` of a node lies in a poisoned line (22 R376, 23 R391). -/
def State.nodeBad (s : State) (f i : Nat) : Bool := Table.get false s.bad (s.nodeByte f i / 32)

/-- Walk the index from a node at a level: the granule entry, or none where it is malformed or poisoned (02 R53, R56,
23 R391). -/
def State.indexWalk (s : State) (g : Nat) (f : Nat) : Nat → Option (BitVec 128)
  | 0 =>
    let e := s.nodeEntry f (digit g 0)
    if Ent.badGranule e || s.nodeBad f (digit g 0) then none else some e
  | lvl + 1 =>
    let e := s.nodeEntry f (digit g (lvl + 1))
    if Ent.badInterior s e || s.nodeBad f (digit g (lvl + 1)) then none
    else if Ent.kind e = 0 then some 0
    else s.indexWalk g (Ent.frame e) lvl

/-- The granule entry of a window's index, or none on INDEXFMT (02 R56). -/
def State.granEntry (s : State) (d : BitVec 512) (gran : Nat) : Option (BitVec 128) :=
  if s.poolFrames ≤ Win.root d then none else s.indexWalk (relGran d gran) (Win.root d) (Win.depth d)

/-- The 40-bit position of sector `i` in a sector map of five sectors (02 R56). -/
def State.mapPos (s : State) (pos i : Nat) : Nat := s.hbm.readN (physByte pos + 5 * i) 5

/-- The walk to a granule of an index meets a poisoned line before any malformed entry (23 R391). -/
def State.indexLost (s : State) (g : Nat) (f : Nat) : Nat → Bool
  | 0 => s.nodeBad f (digit g 0)
  | lvl + 1 =>
    let e := s.nodeEntry f (digit g (lvl + 1))
    s.nodeBad f (digit g (lvl + 1)) || (decide (Ent.kind e = 1) && !Ent.badInterior s e && s.indexLost g (Ent.frame e) lvl)

/-- The place of sector `i` in a scattered entry's sector map lies in a poisoned sector (22 R376). -/
def State.mapLost (s : State) (e : BitVec 128) (i : Nat) : Bool :=
  Table.get false s.bad (physSector (Ent.pos e) + 5 * i / 32) || Table.get false s.bad (physSector (Ent.pos e) + (5 * i + 4) / 32)

/-- What leads to a sector is poison: a line of the index, or its sector map (22 R376, 23 R391). -/
def State.leadLost (s : State) (d : BitVec 512) (sec : Nat) : Bool :=
  s.indexLost (relGran d (sec / 32)) (Win.root d) (Win.depth d)
    || (match s.granEntry d (sec / 32) with
        | some e => decide (Ent.kind e = 2) && bitAt (Ent.occ e) (sec % 32) && s.mapLost e (sec % 32)
        | none => false)

/-- Where an entry says a sector lies. -/
inductive Place where
  | none
  | at_ (pos : Nat)
  | bad
  deriving DecidableEq, Repr

/-- Resolve sector `i` of a granule (02 R56). -/
def State.resolve (s : State) (e : BitVec 128) (i : Nat) : Place :=
  if Ent.kind e = 0 ∨ bitAt (Ent.occ e) i = false then .none
  else if Ent.kind e = 1 then .at_ (Ent.pos e + popCount (Ent.occ e) i)
  else
    let p := s.mapPos (Ent.pos e) i
    if p = 0xFFFFFFFFFF ∨ numSegments ≤ p / 65536 ∨ s.mapLost e i = true then .bad else .at_ p

/-- A sector of an entry that the index says is written has no place: its sector map is malformed or poison (02 R56, 22 R376). -/
def State.entryBad (s : State) (e : BitVec 128) : Bool := (List.range 32).any fun i => s.resolve e i == .bad

/-- A place in the sector map of an entry is malformed, and not for poison (02 R56). -/
def State.mapBad (s : State) (e : BitVec 128) : Bool := (List.range 32).any fun i => s.resolve e i == .bad && !s.mapLost e i

def insertSorted (l : List Nat) (x : Nat) : List Nat :=
  match l with
  | [] => [x]
  | y :: r => if x < y then x :: y :: r else if x = y then y :: r else y :: insertSorted r x

/-- Frames of the index pool that lie in retired frames (22 R378). -/
def State.lostNodes (s : State) : List Nat :=
  s.dev.retired.flatMap fun k =>
    if s.poolBase ≤ k * 65536 then (List.range 16).map fun i => (k * 65536 - s.poolBase) / 4096 + i else []

/-- A fresh frame of the index pool: the lowest that is neither in use nor retired (log 12). -/
def State.freshFrame (s : State) : Nat :=
  (s.lostNodes.foldl insertSorted s.ixUsed).foldl (fun f u => if u = f then f + 1 else f) 0

/-- A memory without the bytes of `n` addresses from `b`: they read as unlisted. -/
def Memory.clear (m : Memory) (b n : Nat) : Memory := List.filter (fun (p : Nat × Byte) => !(decide (b ≤ p.1 ∧ p.1 < b + n))) m

/-- A memory whose `n` bytes from `b` are those from `a`. -/
def Memory.copy (m : Memory) (a b n : Nat) : Memory :=
  List.foldl (fun (h : Memory) (p : Nat × Byte) => h.write (p.1 - a + b) p.2) (Memory.clear m b n)
    (List.filter (fun (p : Nat × Byte) => decide (a ≤ p.1 ∧ p.1 < a + n)) m)

/-- The rows of a node's 4 KiB are opened (03 R77). -/
def State.touchFrame (s : State) (b : Nat) : State := s.touchAll ((List.range 128).map fun i => b / 32 + i)

/-- The lines of index frames that are free leave every home slice: a frame taken again belongs to another index (04 R94). -/
def State.dropNodeLines (s : State) (frames : List Nat) : State :=
  { s with slices := Table.mapVals Slice.init (fun c =>
      { c with lines := c.lines.filter fun l => match l.tag with | .node f _ => !frames.contains f | _ => true }) s.slices }

/-- Take a fresh frame, its bytes cleared or copied from another node. -/
def takeFrame (copyOf : Option Nat) : M Nat := do
  let s ← get
  let f := s.freshFrame
  if s.poolFrames ≤ f then throw (.halt .indexPoolExhausted)
  let b := s.poolBase + f * 4096
  let old := fun (i : Nat) => match copyOf with | some g => Table.get false s.bad ((s.poolBase + g * 4096) / 32 + i) | none => false
  let bad := (List.range 128).foldl (fun (t : Table Bool) i => Table.set false t (b / 32 + i) (old i)) s.bad
  let s1 := s.dropNodeLines [f]
  match copyOf with
  | some g =>
    let a := s.poolBase + g * 4096
    set ({ (s1.touchFrame a).touchFrame b with ixUsed := insertSorted s.ixUsed f, hbm := Memory.copy s.hbm a b 4096, bad := bad } : State)
  | none => set ({ s1.touchFrame b with ixUsed := insertSorted s.ixUsed f, hbm := Memory.clear s.hbm b 4096, bad := bad } : State)
  return f

/-- The lowest granule below a node that holds relative granule `g` at a level, counted from the window's base. -/
def nodeGran (d : BitVec 512) (g lvl : Nat) : Nat := Win.lbase d / 1024 + g / 256 ^ (lvl + 1) * 256 ^ (lvl + 1)

/-- Home slice of a node: the slice of its lowest-numbered granule (02 R58). -/
def nodeSlice (d : BitVec 512) (g lvl : Nat) : Nat := sliceOfGran (nodeGran d g lvl)

/-- The line of a node entry at the node's home slice is read, or changed (04 R93, R94). -/
def State.touchNode (s : State) (d : BitVec 512) (g lvl f i : Nat) (dirty : Bool) : State :=
  let h := nodeSlice d g lvl
  let t := LineTag.node f (i / 8)
  let sec := s.nodeByte f i / 32
  let s1 := if ((s.slice h).hit t (i / 2 % 4)).isSome then s else s.touchHbm sec
  s1.putLine h t (i / 2 % 4) (s.nodeBad f i) dirty (some (Win.owner d)) 0

/-- The nodes of the path to a granule, root first: level and frame; the path stops at an absent or a malformed entry. -/
def State.nodePath (s : State) (g f : Nat) : Nat → List (Nat × Nat)
  | 0 => [(0, f)]
  | lvl + 1 =>
    let e := s.nodeEntry f (digit g (lvl + 1))
    (lvl + 1, f) :: (if Ent.badInterior s e || Ent.kind e != 1 then [] else s.nodePath g (Ent.frame e) lvl)

/-- A lookup of a granule reads a line of each node of its path (02 R67, 04 R93). -/
def State.touchPath (s : State) (d : BitVec 512) (gran : Nat) : State :=
  let g := relGran d gran
  if s.poolFrames ≤ Win.root d then s
  else (s.nodePath g (Win.root d) (Win.depth d)).foldl (fun s p => s.touchNode d g p.1 p.2 (digit g p.1) false) s

/-- Home slices other than `h` that must copy a node before an entry of a granule may change (02 R58): the generation of the
node is below SNAPGEN. -/
def State.copiersBelow (s : State) (d : BitVec 512) (g f : Nat) : Nat → List Nat
  | 0 => []
  | lvl + 1 =>
    let e := s.nodeEntry f (digit g (lvl + 1))
    if Ent.badInterior s e || Ent.kind e != 1 then []
    else (if Ent.gen e < Win.snapGen d then [nodeSlice d g lvl] else []) ++ s.copiersBelow d g (Ent.frame e) lvl

def State.copiers (s : State) (win gran : Nat) : List Nat :=
  let d := s.window win
  let g := relGran d gran
  if s.poolFrames ≤ Win.root d then []
  else (if Win.rootGen d < Win.snapGen d then [nodeSlice d g (Win.depth d)] else []) ++ s.copiersBelow d g (Win.root d) (Win.depth d)

/-- Make the path to a leaf writable below a node: fresh nodes where absent, copies where the generation is old (02 R58).
False where an entry of the path is malformed (02 R56). -/
def ensurePath (d : BitVec 512) (g : Nat) (f : Nat) : Nat → M Bool
  | 0 => pure true
  | lvl + 1 => do
    let s ← get
    let i := digit g (lvl + 1)
    let e := s.nodeEntry f i
    let gen := Win.snapGen d
    if Ent.badInterior s e then return false
    let renew := fun (copyOf : Option Nat) => (do
      let c ← takeFrame copyOf
      modify fun s => (s.setNodeEntry f i (mkInterior c gen)).touchNode d g (lvl + 1) f i true
      return c : M Nat)
    let child ← (if Ent.kind e = 0 then renew none else if Ent.gen e < gen then renew (some (Ent.frame e)) else pure (Ent.frame e))
    ensurePath d g child lvl

/-- The node copies a change of a granule needs (02 R58): the root first, then each node of the path. False where the index is
malformed on the way (02 R56). -/
def ensureGranule (win gran : Nat) : M Bool := do
  let s ← get
  let d := s.window win
  let g := relGran d gran
  if s.poolFrames ≤ Win.root d then return false
  if Win.rootGen d < Win.snapGen d then
    let c ← takeFrame (some (Win.root d))
    modify fun s => (s.setWindow win (setDescWord (s.window win) 3 (Win.snapGen d * 2 ^ 32 + c))).touchStructure
      (windowTableBase + 64 * win) true
  let d := (← get).window win
  ensurePath d g (Win.root d) (Win.depth d)

/-- The leaf frame of a granule, where its path exists. -/
def State.leafFrame (s : State) (g : Nat) (f : Nat) : Nat → Option Nat
  | 0 => some f
  | lvl + 1 =>
    let e := s.nodeEntry f (digit g (lvl + 1))
    if Ent.kind e = 1 then s.leafFrame g (Ent.frame e) lvl else none

/-- Write a granule entry into the leaf its path leads to. -/
def State.setGranEntry (s : State) (win gran : Nat) (e : BitVec 128) : State :=
  let d := s.window win
  match s.leafFrame (relGran d gran) (Win.root d) (Win.depth d) with
  | some f => (s.setNodeEntry f (digit (relGran d gran) 0) e).touchNode d (relGran d gran) 0 f (digit (relGran d gran) 0) true
  | none => s

/-- Every granule entry below a node: granule numbers relative to the window, with their entries. -/
def State.indexEntries (s : State) (f base : Nat) : Nat → List (Nat × BitVec 128)
  | 0 => (List.range 256).filterMap fun i =>
      let e := s.nodeEntry f i
      if Ent.kind e = 0 ∨ Ent.badGranule e = true ∨ s.nodeBad f i = true then none else some (base + i, e)
  | lvl + 1 => (List.range 256).flatMap fun i =>
      let e := s.nodeEntry f i
      if Ent.kind e = 1 ∧ Ent.badInterior s e = false ∧ s.nodeBad f i = false then s.indexEntries (Ent.frame e) ((base + i) * 256) lvl else []

/-- Granules below a node whose entry or sector map is malformed, or lies under a malformed entry: the first of each, relative to the
window (02 R56). -/
def State.badEntries (s : State) (f base : Nat) : Nat → List Nat
  | 0 => (List.range 256).filterMap fun i =>
      let e := s.nodeEntry f i
      if !s.nodeBad f i && (Ent.badGranule e || (Ent.kind e == 2 && s.mapBad e)) then some (base + i) else none
  | lvl + 1 => (List.range 256).flatMap fun i =>
      let e := s.nodeEntry f i
      if s.nodeBad f i then []
      else if Ent.badInterior s e then [(base + i) * 256 ^ (lvl + 1)]
      else if Ent.kind e = 1 then s.badEntries (Ent.frame e) ((base + i) * 256) lvl else []

/-- Granule entries that lie in the poisoned lines of an index or under such a line: what they name is kept (23 R391). Under a
poisoned line all are, as `under` says. -/
def State.lostEntries (s : State) (f : Nat) (under : Bool) : Nat → List (BitVec 128)
  | 0 => (List.range 256).filterMap fun i => if under || s.nodeBad f i then some (s.nodeEntry f i) else none
  | lvl + 1 => (List.range 256).flatMap fun i =>
      let e := s.nodeEntry f i
      if Ent.kind e = 1 ∧ Ent.badInterior s e = false then s.lostEntries (Ent.frame e) (under || s.nodeBad f i) lvl else []

/-- Every frame of an index. -/
def State.indexFrames (s : State) (f : Nat) : Nat → List Nat
  | 0 => [f]
  | lvl + 1 => f :: (List.range 256).flatMap fun i =>
      let e := s.nodeEntry f i
      if Ent.kind e = 1 ∧ Ent.badInterior s e = false then s.indexFrames (Ent.frame e) lvl else []

/-- Every written sector of an index: its sector number relative to the window, and its position. -/
def State.indexSectors (s : State) (root depth : Nat) : List (Nat × Nat) :=
  (s.indexEntries root 0 depth).flatMap fun g =>
    (List.range 32).filterMap fun i => match s.resolve g.2 i with
      | .at_ p => some (g.1 * 32 + i, p)
      | _ => none

/-- Positions of every sector of an entry, absent ones none. -/
def State.positions (s : State) (e : BitVec 128) : List (Option Nat) :=
  (List.range 32).map fun i => match s.resolve e i with | .at_ p => some p | _ => none

/-- The 160 bytes of a sector map (02 R56). -/
def mapValue (ps : List (Option Nat)) : Nat :=
  ps.foldr (fun p acc => (p.getD 0xFFFFFFFFFF) + 2 ^ 40 * acc) 0

/-- The first logical sector address of a granule. -/
def granSec (gran : Nat) : Nat := gran * 32

/-- Apply the runs of one granule in append order (02 R57): positions, OCC, and whether the last run covers it all. -/
def applyRuns (old : List (Option Nat)) (runs : List PubRun) : List (Option Nat) :=
  runs.foldl (fun ps r =>
    (List.range 32).map fun i =>
      if bitAt r.live.toNat i then some (r.pos + popCount r.set.toNat i) else (ps.getD i none)) old

def occOf (ps : List (Option Nat)) : Nat :=
  (List.range 32).foldl (fun acc i => if (ps.getD i none).isSome then acc + 2 ^ i else acc) 0

/-- An appended run leaves clean lines of published data or sector maps at a home slice (04 R93, R97). -/
def State.keepLines (s : State) (h win pos n : Nat) : State :=
  (List.range n).foldl (fun s i =>
    s.putLine h (.log win ((pos + i) / 4)) ((pos + i) % 4) false false (some (Win.owner (s.window win))) 0) s

/-- Append the sector map of a granule to the log of its home slice: five sectors (02 R57). -/
def appendMap (win gran : Nat) (ps : List (Option Nat)) : M Nat := do
  let mv := mapValue ps
  let h := sliceOfGran gran
  let pos ← appendRun (48 + h)
    ((List.range 5).map fun i => (granSec gran, ({ data := BitVec.ofNat 256 (mv / 2 ^ (256 * i)), poison := false } : Delivered)))
  modify fun s => s.keepLines h win pos 5
  return pos

/-- The last run of an update that covers all that the granule then holds, where its log may hold a dense entry: its position, set and
log (02 R55, R57). -/
def State.denseRun (s : State) (runs : List PubRun) (occ : Nat) : Option (Nat × Nat) :=
  match runs.getLast? with
  | some r =>
    let log := (Table.get Segment.dflt s.segs (r.pos / secsPerSeg)).log
    if r.set = r.live ∧ r.set.toNat = occ ∧ ¬ (48 ≤ log ∧ log < 96) then some (log, r.pos) else none
  | none => none

/-- Applying an update appends a sector map to the log of its home slice (02 R57). -/
def State.needsMap (s : State) (u : GranUpdate) : Bool :=
  match s.granEntry (s.window u.win) u.gran with
  | some e => !u.runs.isEmpty && (s.denseRun u.runs (occOf (applyRuns (s.positions e) u.runs))).isNone
  | none => false

/-- Apply a granule update at its home slice (02 R57); a home-slice log's run always leaves a scattered entry,
since a dense entry may not name such a log (02 R56; log 20). False where the granule's entry or its sector map is malformed (02 R56):
nothing is applied to it. -/
def applyGranule (u : GranUpdate) : M Bool := do
  if !(← ensureGranule u.win u.gran) then return false
  let s ← get
  let d := s.window u.win
  let e := (match s.leafFrame (relGran d u.gran) (Win.root d) (Win.depth d) with
    | some f => s.nodeEntry f (digit (relGran d u.gran) 0)
    | none => 0)
  if Ent.badGranule e || (Ent.kind e == 2 && s.entryBad e) then return false
  let ps := applyRuns (s.positions e) u.runs
  let occ := occOf ps
  if u.runs.isEmpty then return true
  match s.denseRun u.runs occ with
  | some (log, pos) => modify fun s => s.setGranEntry u.win u.gran (mkGranule 1 log pos occ)
  | none =>
    let pos ← appendMap u.win u.gran ps
    modify fun s => s.setGranEntry u.win u.gran (mkGranule 2 (48 + sliceOfGran u.gran) pos occ)
  return true

end Sys2Proof.Machine
end

