-- ==== Sys2Proof/Machine/Xlate.lean ====
section
/-!
DEFINITION. Address translation: the table walk, the window checks and the TLBs (05 R108 to R125).
-/
namespace Sys2Proof.Machine

/-- What an access is, for the checks of a translation (05 R117, R118, R120). -/
structure Access where
  /-- ACC of R120: 0 load, 1 store, 2 atomic, 3 scalar fetch, 4 lane fetch, 5 Runnel -/
  acc : Nat
  r : Bool
  w : Bool
  x : Bool
  priv : Bool
  /-- bytes of the access -/
  size : Nat
  /-- a device read-modify-write -/
  rmw : Bool
  /-- an `ld.d` or `st.d`, which a system window admits (05 R117) -/
  sysOk : Bool
  /-- SRC of a fault record (21 R352) -/
  src : Nat
  lane : Nat
  /-- PC to report -/
  pc : Option Word64
  /-- the engine operation whose access it is, where ACC is 5 -/
  op : Nat := 0
  deriving DecidableEq, Repr

def Access.load : Access :=
  { acc := 0, r := true, w := false, x := false, priv := false, size := 1, rmw := false, sysOk := false, src := 0
    lane := 0, pc := none }
def Access.store : Access := { Access.load with acc := 1, r := false, w := true }
def Access.atomic : Access := { Access.load with acc := 2, r := true, w := true, rmw := true }
def Access.sfetch : Access := { Access.load with acc := 3, r := false, x := true, size := 4 }
def Access.lfetch : Access := { Access.load with acc := 4, r := false, x := true, size := 12 }

/-- Where an access goes. -/
structure Place64 where
  la : Nat
  win : Nat
  desc : BitVec 512
  deriving DecidableEq, Repr

/-- A translation fault record (05 R120). -/
def xlateFault {α : Type} (a : Access) (code : Nat) (va : Word64) (lvl : Nat) (wid : Option Nat) (entry : Word64)
    (la : Nat) : M α :=
  throw (.trap
    { code := code, src := a.src, recov := decide (code = Code.notpresent), w2 := va
      w3 := BitVec.ofNat 64 (lvl * 2 ^ 61 + a.acc * 2 ^ 58 +
        (match wid with | some w => 2 ^ 57 + w * 2 ^ 49 | none => 0) + a.lane * 2 ^ 39)
      w4 := entry, w5 := BitVec.ofNat 64 la, w6 := 0, pc := a.pc, priv := if a.src = 2 then some a.priv else none, named := none })

/-- The granule is locked at its home slice: prepared and not applied (02 R63), or holding an atomic result
not yet applied (06 R134). -/
def State.locked (s : State) (win gran : Nat) : Bool :=
  let h := sliceOfGran gran
  (s.pubs.any fun p => !p.committed && bitAt p.prepared h && p.touches win gran)
    || (s.pubs.any fun p => !p.committed && p.data.any fun d => d.win == win && d.sec / 32 == gran)
    || (match (s.slice h).coll with
        | some l => l.any fun d => d.win == win && d.sec / 32 == gran
        | none => false)

/-- The lock a slice puts on a granule that atomics wait for (04 R95): a publication prepared there. -/
def State.prepLocked (s : State) (win gran : Nat) : Bool :=
  s.pubs.any fun p => !p.committed && bitAt p.prepared (sliceOfGran gran) && p.touches win gran

/-- The newest published entry of a granule, as its home slice gives it (02 R64); INDEXFMT ends the owner (02 R56). -/
def lookupGranule (win gran task : Nat) : M (BitVec 128) := do
  let s ← get
  if s.locked win gran then waitFor .memory
  let d := s.window win
  set (s.touchPath d gran)
  match s.granEntry d gran with
  | some e => return e
  | none => throw (.terminate (Win.owner d) 3 (gran * 1024) task)

/-- The sector map of a scattered entry is read at its home slice, the sectors that hold the place of sector `i` (02 R56, 04 R93). -/
def State.touchMap (s : State) (win gran : Nat) (e : BitVec 128) (i : Nat) : State :=
  if Ent.kind e ≠ 2 then s
  else
    let h := sliceOfGran gran
    let one := fun (s : State) (p : Nat) =>
      let t := LineTag.log win (p / 4)
      let s1 := if ((s.slice h).hit t (p % 4)).isSome then s else s.touchHbm p
      s1.putLine h t (p % 4) (Table.get false s.bad p) false (some (Win.owner (s.window win))) 0
    let a := Ent.pos e + 5 * i / 32
    let b := Ent.pos e + (5 * i + 4) / 32
    if a = b then one s a else one (one s a) b

/-- The log position of the sector an entry resolves to, its sector map read at the home slice; none where it was never written. -/
def findSector (win sec task : Nat) (e : BitVec 128) : M (Option Nat) := do
  modify fun s => s.touchMap win (sec / 32) e (sec % 32)
  let s ← get
  match s.resolve e (sec % 32) with
  | .none => return none
  | .at_ p => return some p
  | .bad => throw (.terminate (Win.owner (s.window win)) 3 (sec / 32 * 1024) task)

/-- The sector at a log position, from the home slice of its granule or from its log (04 R93). -/
def homeSector (win sec pos hint : Nat) : M Delivered := do
  let s ← get
  let bad ← homeRead (sliceOfGran (sec / 32)) (.log win (pos / 4)) (pos % 4) (physSector pos)
    (Table.get false s.bad (physSector pos)) (some (Win.owner (s.window win))) hint
  return s.sectorHeld pos sec bad

/-- The sector an entry resolves to, as its home slice delivers it. -/
def deliverSector (win sec task : Nat) (e : BitVec 128) : M Delivered := do
  match ← findSector win sec task e with
  | none => return unwritten
  | some p => homeSector win sec p 0

/-- The newest published value of a sector, read at its home slice (02 R64, 05 R110). -/
def readPublished (win sec task : Nat) : M Delivered := do
  let e ← lookupGranule win (sec / 32) task
  deliverSector win sec task e

/-- Task number a log entry names (21 R352). -/
def Team.taskNum (t : Team) : Nat := t.id.task

/-- A table entry breaks R112 at its level. -/
def reservedEntry (e lvl : Nat) : Bool :=
  let t := bitAt e 1
  decide (bits e 54 10 ≠ 0) || decide (bits e 8 4 ≠ 0) || bitAt e 2
    || (t && (decide (bits e 46 8 ≠ 0) || decide (bits e 3 5 ≠ 0)))
    || (!t && decide (lvl = 4)) || (t && decide (lvl = 0))
    || (!t && bitAt e 6 && decide (lvl = 3))
    || (!t && !bitAt e 3 && bitAt e 4)
    || (!t && decide (bits e 12 (9 * lvl) ≠ 0))

/-- Index of an address in the table of a level (05 R109). -/
def idxOf (va lvl : Nat) : Nat := bits va (12 + 9 * lvl) 9

/-- The descriptor of a window through the attribute cache of a cluster, in a context (05 R122); a miss reads it at its home
slice (04 R93). -/
def windowAttr (cl ctx win : Nat) : M (BitVec 512) := do
  let s ← get
  match (s.cluster cl).attrs.find? fun p => p.ctx == ctx && p.win == win with
  | some p => return p.desc
  | none =>
    let d := s.window win
    set ((s.touchStructure (windowTableBase + 64 * win) false).touchStructure (windowTableBase + 64 * win + 32) false)
    onCluster cl fun c => { c with attrs := ({ ctx := ctx, win := win, desc := d } :: c.attrs).take 64 }
    return d

/-- Read a table entry of a context (05 R110, R116 check 3). No entry has been read yet where the table window fails: ENTRY is
zero and LEVEL the level of the read (log 97). -/
def readTableEntry (a : Access) (t : Team) (va : Word64) (twid la lvl : Nat) : M Word64 := do
  let d ← windowAttr t.cluster t.id.ctx twid
  if !Win.wellFormed d twid then xlateFault a Code.descfmt va lvl (some twid) 0 0
  if !(Win.valid d && Win.logged d && decide (Win.owner d = t.id.ctx)
      && decide (Win.lbase d ≤ la ∧ la + 8 ≤ Win.lbase d + Win.lsize d * 1024) && !bitAt la 45) then
    xlateFault a Code.walkwin va lvl (some twid) 0 0
  let v ← readPublished twid (la / 32) t.taskNum
  return BitVec.ofNat 64 (secBytes v.data (la % 32) 8)

/-- An entry of eight ways joins a list of a capacity, newest first: the oldest of its set leaves a full set (log 11). -/
def joinSet {β : Type} (l : List β) (x : β) (setOf : β → Nat) : List β :=
  if l.length < 8 then x :: l
  else
    let same := l.filter fun o => setOf o == setOf x
    if same.length < 8 then x :: l
    else x :: (l.filter fun o => setOf o != setOf x) ++ same.take 7

/-- Sets of the walk cache: 512 entries of eight ways (05 R122). -/
def walkSetOf (w : WalkEntry) : Nat := Config.walkSet (w.tag * 8 + w.lvl) % 64

/-- A table pointer joins the walk cache in place of an older one for the same table (05 R122, R123). -/
def Cluster.putWalk (c : Cluster) (w : WalkEntry) : Cluster :=
  { c with walk := joinSet (c.walk.filter fun o => !decide (o.ctx = w.ctx ∧ o.lvl = w.lvl ∧ o.tag = w.tag)) w walkSetOf }

/-- The walk below a table (05 R115): the leaf, its level, and its entry. The entries of a contiguous group are held against the
leaf that the walk reached, and a group whose first entry is not aligned differs first at entry 0 (05 R114; log 96). -/
def walkFrom (a : Access) (t : Team) (va : Word64) (twid : Nat) : Nat → Nat → Nat → M (Word64 × Nat)
  | 0, _, _ => xlateFault a Code.rsvbit va 0 none 0 0
  | fuel + 1, tab, lvl => do
    let la := tab + 8 * idxOf va.toNat lvl
    let e ← readTableEntry a t va twid la lvl
    let v := e.toNat
    if !bitAt v 0 then xlateFault a Code.notpresent va lvl none e 0
    if reservedEntry v lvl then xlateFault a Code.rsvbit va lvl none e 0
    if bitAt v 1 then
      onCluster t.cluster fun c => c.putWalk { ctx := t.id.ctx, lvl := lvl, tag := va.toNat / 2 ^ (12 + 9 * lvl), entry := e }
      walkFrom a t va twid fuel (bits v 12 34 * 4096) (lvl - 1)
    else
      if bitAt v 6 then
        -- the other entries of the group (05 R114)
        let size := 2 ^ (12 + 9 * lvl)
        let first := la / 128 * 128
        let es ← (List.range 16).mapM fun j => readTableEntry a t va twid (first + 8 * j) lvl
        let e0 := (es.getD 0 0).toNat
        let base := bits e0 12 34 * 4096
        let bad := (List.range 16).find? fun j =>
          let ej := (es.getD j 0).toNat
          !(bitAt ej 0 && !bitAt ej 1 && bitAt ej 6 && bits ej 46 8 == bits v 46 8 && bits ej 0 8 == bits v 0 8
            && bits ej 12 34 * 4096 == base + j * size && base % (16 * size) == 0)
        match bad with
        | some j => xlateFault a Code.contmis va lvl none (es.getD j 0) 0
        | none => pure ()
      return (e, lvl)

/-- The deepest table pointer the walk cache holds for an address: the table and the level it serves. -/
def walkStart (c : Cluster) (ctx va : Nat) : Option (Nat × Nat) :=
  let hit := fun lvl => c.walk.find? fun w => w.ctx == ctx && w.lvl == lvl && w.tag == va / 2 ^ (12 + 9 * lvl)
  match hit 1 with
  | some w => some (bits w.entry.toNat 12 34 * 4096, 0)
  | none => match hit 2 with
    | some w => some (bits w.entry.toNat 12 34 * 4096, 1)
    | none => match hit 3 with
      | some w => some (bits w.entry.toNat 12 34 * 4096, 2)
      | none => match hit 4 with
        | some w => some (bits w.entry.toNat 12 34 * 4096, 3)
        | none => none

/-- A leaf covers a virtual page. -/
def TlbLeaf.covers (l : TlbLeaf) (ctx va : Nat) : Bool :=
  decide (l.ctx = ctx ∧ l.vpn ≤ va / 4096 ∧ va / 4096 < l.vpn + l.pages)

/-- Two leaves overlap. -/
def TlbLeaf.overlaps (a b : TlbLeaf) : Bool :=
  decide (a.ctx = b.ctx ∧ a.vpn < b.vpn + b.pages ∧ b.vpn < a.vpn + a.pages)

/-- Install a leaf in a core TLB of 64 entries; the oldest entry leaves a full TLB (log 11). -/
def coreInstall (tlb : List TlbLeaf) (l : TlbLeaf) : List TlbLeaf := (l :: tlb.filter fun o => !l.overlaps o).take 64

/-- Install a leaf in a cluster TLB of 2,048 entries in sets of eight (05 R122). -/
def clusterInstall (tlb : List TlbLeaf) (l : TlbLeaf) : List TlbLeaf :=
  joinSet (tlb.filter fun o => !l.overlaps o) l fun o => Config.tlbSet o.vpn % 256

/-- The leaf of an address by a walk (05 R115). A context descriptor with a non-zero checked field faults DESCFMT outside the walk
(05 R110, 24 R400; log 98). -/
def walkLeaf (a : Access) (t : Team) (va : Word64) : M TlbLeaf := do
  let s ← get
  if !Ctx.zeroFields (s.context t.id.ctx) then xlateFault a Code.descfmt va 7 none 0 0
  let root := Ctx.xroot (s.context t.id.ctx)
  let twid := bits root 56 8
  let start := match walkStart (s.cluster t.cluster) t.id.ctx va.toNat with
    | some p => p
    | none => (bits root 12 34 * 4096, 4)
  let (e, lvl) ← walkFrom a t va twid 5 start.1 start.2
  let v := e.toNat
  let wid := bits v 46 8
  let d ← windowAttr t.cluster t.id.ctx wid
  let cont := bitAt v 6
  let pages := 512 ^ lvl * (if cont then 16 else 1)
  let size := 4096 * 512 ^ lvl
  let base := bits v 12 34 * 4096
  -- the first page of a contiguous group lies below this entry's page by its place in the group
  let laBase := if cont then base - (idxOf va.toNat lvl % 16) * size else base
  return { ctx := t.id.ctx, vpn := va.toNat / 4096 / pages * pages, pages := pages, la := laBase, entry := e, lvl := lvl
           win := wid, desc := d }

/-- The leaf of an address from the cluster TLB, or by a walk that installs it there (05 R115, R122). -/
def clusterLeaf (a : Access) (t : Team) (va : Word64) : M TlbLeaf := do
  match ((← get).cluster t.cluster).tlb.find? fun l => l.covers t.id.ctx va.toNat with
  | some l => return l
  | none =>
    let l ← walkLeaf a t va
    onCluster t.cluster fun c => { c with tlb := clusterInstall c.tlb l }
    return l

/-- The leaf of an address: from the core TLB, or from the cluster TLB, which a Runnel asks at once (05 R115, R122). A miss of
the core TLB counts once, however long its walk waits (01 R16). -/
def findLeaf (a : Access) (t : Team) (va : Word64) : M TlbLeaf := do
  if a.acc = 5 then clusterLeaf a t va
  else match ((← get).core t.core).tlb.find? fun l => l.covers t.id.ctx va.toNat with
    | some l => return l
    | none =>
      let l ← tryCatch (clusterLeaf a t va) fun e => do
        match e with
        | .wait _ => pure ()
        | _ => bump t.core 10 1
        throw e
      bump t.core 10 1
      onCore t.core fun c => { c with tlb := coreInstall c.tlb l }
      return l

/-- The peer window entry of a window has ROLE 1: it is a replica here, which no program writes (05 R116, 25 R414). -/
def State.isReplica (s : State) (win : Nat) : Bool := Peer.isReplica (Table.get 0 s.peers win)

/-- The address has its high bits zero (05 R108). -/
def checkVa (a : Access) (va : Word64) : M Unit :=
  if va.toNat / 2 ^ 57 = 0 then pure () else xlateFault a Code.vafmt va 7 none 0 0

/-- Natural alignment, after the format of the address and before the walk (06 R126, R153). -/
def checkAlign (a : Access) (va : Word64) (n : Nat) : M Unit :=
  if va.toNat % n = 0 then pure () else xlateFault a Code.misalign va 7 none 0 0

/-- The window checks that follow the walk (05 R116). -/
def checkWindow (a : Access) (t : Team) (va : Word64) (l : TlbLeaf) (la : Nat) : M Unit := do
  let s ← get
  let d := l.desc
  let v := l.entry.toNat
  let fail := fun (code : Nat) => (xlateFault a code va 7 (some l.win) 0 la : M Unit)
  if !Win.wellFormed d l.win || (Win.host d && Win.enc d) then fail Code.descfmt
  if !Win.valid d then fail Code.winvalid
  if Win.owner d ≠ t.id.ctx ∨ Win.tenant d ≠ t.id.tenant then fail Code.winown
  if bitAt la 45 = Win.logged d ∨ ¬ (Win.lbase d ≤ la ∧ la + a.size ≤ Win.lbase d + Win.lsize d * 1024) then
    fail Code.winrange
  if (bitAt v 7 && !a.priv) || (a.r && !bitAt v 3) || (a.w && !bitAt v 4) || (a.x && !bitAt v 5)
      || (a.w && s.isReplica l.win) then fail Code.perm
  if Win.sys d && !a.sysOk then fail Code.winkind
  -- a paired instance, not the templates above it, writes no host or compute-row window (22 R383)
  if a.w && t.ctl.paired && t.ctl.level == 0 && (Win.host d || Win.crow d) then fail Code.winkind
  if Win.crow d && a.rmw then fail Code.winkind
  if Win.host d && a.rmw && !Win.ncatom d then fail Code.hostrmw

/-- The place a leaf gives for an address that it covers, its window checked (05 R115 to R118). -/
def placeIn (a : Access) (t : Team) (va : Word64) (l : TlbLeaf) : M Place64 := do
  let la := l.la + (va.toNat - l.vpn * 4096)
  checkWindow a t va l la
  return { la := la, win := l.win, desc := l.desc }

/-- Translate an address whose format has been checked (05 R115 to R118). -/
def translate (a : Access) (t : Team) (va : Word64) : M Place64 := do
  let l ← findLeaf a t va
  placeIn a t va l

/-- Translate for the device itself, by a walk at each access (16 R425). -/
def devLocate (a : Access) (t : Team) (va : Word64) : M Place64 := do
  checkVa a va
  let l ← walkLeaf a t va
  placeIn a t va l

/-- Format, alignment, translation. -/
def locate (a : Access) (t : Team) (va : Word64) (align : Nat) : M Place64 := do
  checkVa a va
  checkAlign a va align
  translate a t va

/-! ## Invalidation (05 R124, R125) -/

/-- Drop what an invalidation command names: its kind, context, window, first page and count. -/
def State.dropTranslations (s : State) (kind ctx wid vpn npages : Nat) : State :=
  let keepLeaf := fun (l : TlbLeaf) =>
    match kind with
    | 0 => !(decide (l.ctx = ctx ∧ l.vpn < vpn + npages ∧ vpn < l.vpn + l.pages))
    | 1 => decide (l.ctx ≠ ctx)
    | 2 => decide (l.win ≠ wid)
    | _ => false
  let keepWalk := fun (w : WalkEntry) =>
    match kind with
    | 0 => decide (w.ctx ≠ ctx)
    | 1 => decide (w.ctx ≠ ctx)
    | 2 => true
    | _ => false
  let keepAttr := fun (p : AttrEntry) =>
    match kind with
    | 0 => true
    | 1 => decide (p.ctx ≠ ctx)
    | 2 => decide (p.win ≠ wid)
    | _ => false
  { s with
    cores := Table.mapVals Core.init (fun c => { c with tlb := c.tlb.filter keepLeaf }) s.cores
    clusters := Table.mapVals Cluster.init (fun c =>
      { c with tlb := c.tlb.filter keepLeaf, walk := c.walk.filter keepWalk, attrs := c.attrs.filter keepAttr }) s.clusters }

end Sys2Proof.Machine
end

