-- ==== Sys2Proof/Machine/Access.lean ====
section
/-!
DEFINITION. What loads and stores do behind translation: the IXB and stale reads (02 R66 to R70), dirty sectors,
appends and pending updates (02 R59 to R62, 04 R96 to R99), stash and template pages (04 R103, R104, 15 R314),
host, system and compute-row windows (07 R171, R172, 03 R82).
-/
namespace Sys2Proof.Machine

/-! ## The IXB (02 R67, R68) -/

/-- The set an entry lies in. -/
def ixbSet (win gran : Nat) : Nat := (bits gran 0 10 ^^^ bits gran 10 10 ^^^ (win * 4)) % 1024

def IxbEntry.isFor (e : IxbEntry) (win gran : Nat) : Bool := decide (e.win = win ∧ e.gran = gran)

/-- Insert an entry; a full set of eight loses its least recently used. -/
def ixbInsert (l : List IxbEntry) (e : IxbEntry) : List IxbEntry :=
  let rest := l.filter fun o => !o.isFor e.win e.gran
  let same := rest.filter fun o => ixbSet o.win o.gran == ixbSet e.win e.gran
  if same.length < 8 then e :: rest
  else
    let lru := same.foldl (fun m o => if o.stamp < m then o.stamp else m) (same.headD e).stamp
    e :: rest.filter fun o => !(ixbSet o.win o.gran == ixbSet e.win e.gran && o.stamp == lru)

/-- Fill the IXB of a cluster with the newest entry of a granule. -/
def ixbFill (t : Team) (win gran : Nat) : M IxbEntry := do
  let e ← lookupGranule win gran t.taskNum
  let st ← nextStamp
  let psn := (← get).commitPoint
  let x : IxbEntry :=
    { win := win, gran := gran, entry := e, psn := psn, superseded := false, heldBy := [], stamp := st, filledAt := st, fill := none }
  onCluster t.cluster fun c => { c with ixb := ixbInsert c.ixb x }
  return x

/-- The task has published this granule later than the entry shows (02 R59: a task's loads see its own stores). -/
def ownNewer (t : Team) (e : IxbEntry) : Bool :=
  t.own.any fun p => p.win == e.win && p.gran == e.gran && decide (e.psn < p.psn)

/-- A cluster-level update released before the task's latest acquire has been published later than the entry shows: the task
still sees it (07 R160, R163; log 24). -/
def Cluster.raisedNewer (c : Cluster) (t : Team) (e : IxbEntry) : Bool :=
  c.raised.any fun r => r.win == e.win && r.gran == e.gran && decide (e.psn < r.psn ∧ r.stamp < t.clAcq)

/-- The fill of an entry is in flight: the scalar load that missed has not returned its value, or the lane word whose pass missed has
not ended (17 R341; log 117). -/
def State.filling (s : State) (e : IxbEntry) : Bool :=
  match e.fill with
  | some (.op n) => s.allTeams.any fun u => u.s.outs.any fun o => o.op == n
  | some (.word uid lpc) => (s.team? uid).any fun u => u.l.run.any fun r => r.lpc == lpc && r.word.isSome
  | none => false

/-- A load has missed for the entries of its cluster that were filled since order stamp `st`: their fill is in flight until it
returns (17 R341). -/
def markFills (t : Team) (st : Nat) (who : Filler) : M Unit :=
  onCluster t.cluster fun c => { c with ixb := c.ixb.map fun e => if st ≤ e.filledAt ∧ e.fill = none then { e with fill := some who } else e }

/-- The entry a load of a team takes: a held entry waits; a superseded one serves (02 R68). A load that misses while the fill is
in flight takes that fill (17 R341). -/
def ixbLookup (t : Team) (win gran : Nat) : M IxbEntry := do
  let s ← get
  match (s.cluster t.cluster).ixb.find? fun e => e.isFor win gran with
  | some e =>
    if e.heldBy ≠ [] then waitFor .memory
    if ownNewer t e || (s.cluster t.cluster).raisedNewer t e then ixbFill t win gran
    else
      if s.filling e then bump t.core 11 1
      let st ← nextStamp
      onCluster t.cluster fun c => { c with ixb := c.ixb.map fun o => if o.isFor win gran then { o with stamp := st } else o }
      return e
  | none =>
    let e ← ixbFill t win gran
    bump t.core 11 1
    return e

/-! ## Appends (02 R57, R59, R62, 04 R97, R98) -/

/-- Entries of the Weir buffer and of the spill area (02 R62). -/
def weirCap : Nat := 32768
def spillCap : Nat := 1048576

/-- A store that gives a cluster-level sector a newer colour leaves one update in two parts: they lie at one position. -/
def updates (l : List Pending) : Nat := (l.map fun p => (p.uid, p.pos)).eraseDups.length

def Cluster.inBuffer (c : Cluster) : Nat := updates (c.weir.filter fun p => p.spilled.isNone)
def Cluster.inSpill (c : Cluster) : Nat := updates (c.weir.filter fun p => p.spilled.isSome)

/-- The lowest slot of a cluster's spill area that no update holds (04 R98). -/
def Cluster.spillSlot (c : Cluster) : Nat :=
  ((c.weir.filterMap (·.spilled)).foldl insertSorted []).foldl (fun f u => if u = f then f + 1 else f) 0

/-- A spilled update's 16 bytes go to its slot of the cluster's spill area; the spec gives no layout of them (04 R98, log 107). -/
def writeSpill (cl slot : Nat) : M Unit := do
  let a ← drawFree
  let b ← drawFree
  modify fun s =>
    let at_ := s.dev.spillBase + cl * 2 ^ 24 + 16 * slot
    { s.touchHbm (at_ / 32) with hbm := (s.hbm.writeN at_ a.toNat 8).writeN (at_ + 8) b.toNat 8 }

/-- The dirty sectors of one granule and colour, ascending. -/
def sortSectors (l : List DirtySector) : List DirtySector :=
  l.foldl (fun acc d =>
    (acc.takeWhile fun e => decide (e.sec < d.sec)) ++ [d] ++ (acc.dropWhile fun e => decide (e.sec < d.sec))) []

/-- How an append goes: whether its sectors stay in the cluster cache as clean lines (04 R97), and whether its update goes
straight to a team's image, which no buffer bounds (21 R356, R358). -/
structure AppendHow where
  keep : Bool
  image : Bool
  deriving DecidableEq, Repr

def AppendHow.usual : AppendHow := { keep := true, image := false }

/-- The issuing team's append stalls (02 R72). -/
def stallAppend : M Unit := do
  modify fun s => s.stall (.team s.cur.uid)
  waitFor .space

/-- Append a set of dirty sectors of one task, granule and colour as one packed run: a pending update (02 R57, R59). -/
def appendGroup (cl : Nat) (how : AppendHow) (grp : List DirtySector) : M Unit := do
  match sortSectors grp with
  | [] => pure ()
  | d0 :: r =>
    let ds := d0 :: r
    let s ← get
    let c := s.cluster cl
    if !s.mayAppend cl then stallAppend
    let full := !how.image && decide (weirCap ≤ c.inBuffer)
    if full && decide (spillCap ≤ c.inSpill) then
      throw (.trap { noTrap with code := Code.spillwait, recov := true, w2 := BitVec.ofNat 64 cl })
    let pos ← appendRun cl (ds.map fun d => (d.sec, ({ data := d.data, poison := d.poison } : Delivered)))
    if full then writeSpill cl c.spillSlot
    let set := BitVec.ofNat 32 (ds.foldl (fun acc d => acc + 2 ^ (d.sec % 32)) 0)
    let p : Pending := { uid := d0.uid, win := d0.win, gran := d0.sec / 32, colour := d0.colour, set := set, live := set
                         pos := pos, level := .task, spilled := if full then some c.spillSlot else none, pub := none }
    let pipe := s.pipelined cl
    onCluster cl fun c =>
      let c1 : Cluster := { c with
        dirty := c.dirty.filter fun d => !(ds.any fun e => decide (e.uid = d.uid ∧ e.win = d.win ∧ e.sec = d.sec))
        weir := c.weir ++ [p] }
      if how.keep then
        (ds.mapIdx fun i d => (i, d)).foldl (fun (c : Cluster) q => c.putClean (pos + q.1) q.2.poison q.2.prot (fun x => x) pipe) c1
      else c1

/-- The distinct (window, granule, colour) of a list of dirty sectors, in the order of the list: the most recently stored first.
The spec gives no order to the runs of several granules (log 99, DESIGN CHOICE). -/
def dirtyGroups (l : List DirtySector) : List (Nat × Nat × Nat) :=
  l.foldl (fun acc d => if acc.contains (d.win, d.sec / 32, d.colour) then acc else acc ++ [(d.win, d.sec / 32, d.colour)]) []

/-- Append every dirty sector of a cluster that a predicate names. -/
def appendWhere (cl : Nat) (how : AppendHow) (p : DirtySector → Bool) : M Unit := do
  let ds := ((← get).cluster cl).dirty.filter p
  (dirtyGroups ds).forM fun g =>
    appendGroup cl how (ds.filter fun d => decide ((d.win, d.sec / 32, d.colour) = g))

/-- Append the task's dirty sectors in the colours of a mask (07 R159, AppendDirty). -/
def appendDirty (t : Team) (mask : Nat) : M Unit :=
  appendWhere t.cluster .usual fun d => d.uid == t.uid && bitAt mask d.colour

/-- A pending update more would find room in the buffer or the spill area of a cluster, and its log may append. -/
def State.mayEvict (s : State) (cl : Nat) : Bool :=
  let c := s.cluster cl
  s.mayAppend cl && (decide (c.inBuffer < weirCap) || decide (c.inSpill < spillCap))

/-- The sectors of a dirty line. -/
def DirtySector.inLine (d : DirtySector) (k : Nat × Nat × Nat) : Bool := decide ((d.uid, d.win, d.sec / 4) = k)

/-- Ways are made free in a full set until it has room (04 R99): a dirty victim is appended, a clean one dropped. A load evicts no
dirty line while appends stall or the spill area is full (`must` false; log 95). -/
def makeWays (cl key : Nat) (must : Bool) : Nat → M Unit
  | 0 => pure ()
  | n + 1 => do
    let s ← get
    match (s.cluster cl).fullSet key (s.pipelined cl) with
    | none => pure ()
    | some same =>
      let open_ := if must || s.mayEvict cl then same else same.filter fun w => w.dirty.isNone
      match victimOf open_ with
      | none => pure ()
      | some w =>
        match w.dirty with
        | some k => appendWhere cl { keep := false, image := false } fun d => d.inLine k
        | none => onCluster cl fun c => c.dropLine w.line
        makeWays cl key must n

/-- Room for one more line in the set of a key. -/
def makeWay (cl key : Nat) (must : Bool) : M Unit := makeWays cl key must 16

/-! ## The task's view of a sector (07 R163) -/

/-- The dirty sector a task holds. -/
def Cluster.dirtyOf (c : Cluster) (uid win sec : Nat) : Option DirtySector :=
  c.dirty.find? fun d => decide (d.uid = uid ∧ d.win = win ∧ d.sec = sec)

/-- A pending update covers a sector. -/
def Pending.covers (p : Pending) (win sec : Nat) : Bool :=
  decide (p.win = win ∧ p.gran = sec / 32) && bitAt p.live.toNat (sec % 32)

/-- Position of a sector in a pending update. -/
def Pending.posOf (p : Pending) (sec : Nat) : Nat := p.pos + popCount p.set.toNat (sec % 32)

/-- The task's newest pending update of a sector. -/
def Cluster.ownPending (c : Cluster) (uid win sec : Nat) : Option Pending :=
  (c.weir.filter fun p => p.uid == uid && p.covers win sec).getLast?

/-- The newest cluster-level update of a sector by another task that the team's acquire covers (02 R68, 07 R163). -/
def Cluster.clusterPending (c : Cluster) (t : Team) (win sec : Nat) : Option Pending :=
  (c.weir.filter fun p => p.uid != t.uid && p.covers win sec).foldl (fun best p =>
    match p.level with
    | .cluster st =>
      if st < t.clAcq then
        match best with
        | some b => (match b.level with | .cluster st' => if st' ≤ st then some p else some b | .task => some p)
        | none => some p
      else best
    | .task => best) none

/-- An atomic of the task on the sector is in flight: its later loads wait (07 R166). -/
def State.atomicInFlight (s : State) (uid win sec : Nat) : Bool :=
  let hit := fun (r : AtomReq) => decide (r.uid = uid ∧ r.win = win) &&
    (match r.what with
     | .row _ len _ => decide (r.la / 32 ≤ sec ∧ sec < r.la / 32 + 4 * len)
     | _ => decide (r.la / 32 = sec))
  (s.slice (homeSlice (sec * 32))).reqs.any hit || s.slices.any (fun p => p.2.reqs.any hit)
    || s.done.any fun d => hit d.req

/-- The positions of a run of `n` sectors that lie on the 128-byte line of one of them. -/
def runMates (first n pos : Nat) : List Nat :=
  ((List.range 4).map fun i => pos / 4 * 4 + i).filter fun p => decide (first ≤ p ∧ p < first + n)

/-- The positions that an entry gives on the 128-byte line of one of its sectors. -/
def State.entryMates (s : State) (e : BitVec 128) (pos : Nat) : List Nat :=
  if Ent.kind e = 1 then runMates (Ent.pos e) (popCount (Ent.occ e) 32) pos
  else (s.positions e).filterMap fun p => p.bind fun q => if q / 4 = pos / 4 then some q else none

/-- The positions that a pending update gives on the line of one of its sectors. -/
def Pending.mates (p : Pending) (pos : Nat) : List Nat := runMates p.pos (popCount p.set.toNat 32) pos

/-- A sector of a log position is read at a home slice and joins its line of the cluster cache. -/
def fillSector (t : Team) (h win pos hint : Nat) : M Unit := do
  let s ← get
  let bad ← homeRead h (.log win (pos / 4)) (pos % 4) (physSector pos)
    (Table.get false s.bad (physSector pos)) (some (Win.owner (s.window win))) hint
  if hint ≠ 3 then
    if !(s.cluster t.cluster).lines.any fun l => l.line == pos / 4 then makeWay t.cluster (pubKey (pos / 4)) false
    let pipe := (← get).pipelined t.cluster
    onCluster t.cluster fun c => c.putClean pos bad (hintProt hint) (fun p => hintRaise p hint) pipe

/-- A sector at a log position through the cluster cache: a hit uses its line; a miss is filled from the home slice of its
granule, and the line stays (04 R96, R99, 02 R68). The fill brings every sector of the 128-byte line that lies in the same granule,
`mates`; the line's other sectors belong to other granules, and the spec does not say who would bring them (17 R341, 14 R423;
log 117). -/
def readThrough (t : Team) (win sec pos hint : Nat) (mates : List Nat) : M Delivered := do
  let s ← get
  match (s.cluster t.cluster).pubHit pos with
  | some bad =>
    onCluster t.cluster fun c => c.putClean pos bad 0 (fun p => hintRaise p hint) false
    return s.sectorHeld pos sec bad
  | none =>
    let h := sliceOfGran (sec / 32)
    let bad := ((s.slice h).hit (.log win (pos / 4)) (pos % 4)).getD (Table.get false s.bad (physSector pos))
    if hint ≠ 3 then (mates.filter fun p => p != pos).forM fun p => fillSector t h win p hint
    fillSector t h win pos hint
    return (← get).sectorHeld pos sec bad

/-- A load uses its own dirty line: the line is the most recent of its set, its protection as the hint leaves it (04 R97, R99). -/
def useDirty (t : Team) (win sec hint : Nat) : M Unit :=
  onCluster t.cluster fun c =>
    ({ c with
      dirty := c.dirty.map fun d =>
        if d.inLine (t.uid, win, sec / 4) then
          { d with prot := hintRaise d.prot hint, stamp := if d.sec = sec then c.clock else d.stamp } else d
      clock := c.clock + 1 } : Cluster).demote (dirtyKey t.uid win (sec / 4))

/-- A sector of logged memory as a task sees it (07 R163), and whether it came from a superseded entry (02 R70). A cluster that pauses
serves nothing (22 R376). -/
def viewSector (t : Team) (win sec hint : Nat) : M (Delivered × Bool) := do
  let s ← get
  let c := s.cluster t.cluster
  if c.paused || s.atomicInFlight t.uid win sec then waitFor .memory
  match c.dirtyOf t.uid win sec with
  | some d =>
    useDirty t win sec hint
    return ({ data := d.data, poison := d.poison }, false)
  | none =>
    match c.ownPending t.uid win sec with
    | some p => return (← readThrough t win sec (p.posOf sec) hint (p.mates (p.posOf sec)), false)
    | none =>
      match c.clusterPending t win sec with
      | some p => return (← readThrough t win sec (p.posOf sec) hint (p.mates (p.posOf sec)), false)
      | none =>
        let e ← ixbLookup t win (sec / 32)
        match ← findSector win sec t.taskNum e.entry with
        | none => return (unwritten, e.superseded)
        | some p => return (← readThrough t win sec p hint ((← get).entryMates e.entry p), e.superseded)

/-- Count stale reads of a core, a cluster and a window (02 R70). -/
def countStale (t : Team) (win n : Nat) : M Unit := do
  if n = 0 then return
  onCore t.core fun c => { c with stalerd := c.stalerd + BitVec.ofNat 64 n }
  onCluster t.cluster fun c => { c with stale := Table.set 0 c.stale win (Table.get 0 c.stale win + n) }

/-! ## Stores to logged memory (02 R59, R61) -/

/-- Room for one more dirty line in its set: the 13th makes the least recently used clean (04 R97). -/
def makeRoom (t : Team) (win sec : Nat) : M Unit := do
  let c := (← get).cluster t.cluster
  let line := sec / 4
  if c.dirty.any fun d => d.inLine (t.uid, win, line) then return
  let key := dirtyKey t.uid win line
  if 12 ≤ c.dirty.length then
    let same := c.dirtyWays.filter fun w => clusterSet w.key == clusterSet key
    if 12 ≤ same.length then
      match oldestWay same with
      | some w => match w.dirty with
        | some k => appendWhere t.cluster .usual fun d => d.inLine k
        | none => pure ()
      | none => pure ()
  makeWay t.cluster key true

/-- The task's updates of a sector once it is stored again in a colour (02 R59): a private update of another colour loses the
sector, and is gone with its last one; a cluster-level update stays, its part for this sector in the newer colour (02 R61). -/
def recolour (uid win sec colour : Nat) (weir : List Pending) : List Pending :=
  weir.flatMap fun p =>
    if p.uid = uid ∧ p.covers win sec = true ∧ p.colour ≠ colour ∧ p.pub = none then
      let bit := BitVec.ofNat 32 (2 ^ (sec % 32))
      let rest := p.live &&& ~~~bit
      let old := if rest = 0 then [] else [{ p with live := rest }]
      match p.level with
      | .task => old
      | .cluster _ => old ++ [{ p with live := bit, colour := colour }]
    else [p]

/-- Put a whole sector of a task: its dirty sector takes the value and the colour (02 R59, R47, 06 R130). -/
def putDirty (t : Team) (win sec colour hint : Nat) (data : BitVec 256) (poison : Bool) : M Unit := do
  makeRoom t win sec
  onCluster t.cluster fun c =>
    let old := (c.dirty.filter fun d => d.inLine (t.uid, win, sec / 4)).head?
    let prot := match old with | some d => hintRaise d.prot hint | none => hintProt hint
    let d : DirtySector := { uid := t.uid, win := win, sec := sec, colour := colour, data := data, poison := poison
                             stamp := c.clock, prot := prot }
    ({ c with
      dirty := d :: (c.dirty.filter fun o => !decide (o.uid = t.uid ∧ o.win = win ∧ o.sec = sec)).map fun o =>
        if o.inLine (t.uid, win, sec / 4) then { o with prot := prot } else o
      weir := recolour t.uid win sec colour c.weir
      clock := c.clock + 1 } : Cluster).demote (dirtyKey t.uid win (sec / 4))
  if hint = 3 then
    appendWhere t.cluster .usual fun o => decide (o.uid = t.uid ∧ o.win = win ∧ o.sec = sec)

/-- Store bytes into a sector of logged memory: merge, dirty sector, colour (02 R59, R47, 06 R130); `bad` bytes poison it. -/
def storeSector (t : Team) (win sec off n v colour hint : Nat) (bad : Bool := false) : M Unit := do
  waitUnless (!((← get).cluster t.cluster).paused) .memory
  let base ← (do
    if n = 32 then return unwritten
    else
      let (d, _) ← viewSector t win sec hint
      return d)
  putDirty t win sec colour hint (mergeBytes base.data off n v) (base.poison || bad)

/-! ## Basin banks (04 R100 to R102) -/

def numBanks : Nat := 384

def Core.bank (c : Core) (b : Nat) : BankState := Table.get BankState.free c.banks b
def Core.setBank (c : Core) (b : Nat) (st : BankState) : Core := { c with banks := Table.set BankState.free c.banks b st }

def Core.freeBanks (c : Core) : List Nat := (List.range numBanks).filter fun b => c.bank b == .free
def BankState.isStash : BankState → Bool | .stash _ => true | _ => false
def BankState.isStat : BankState → Bool | .stat _ => true | _ => false
def BankState.owner : BankState → Option Nat
  | .free => none
  | .stat o => some o
  | .acc o => some o
  | .reg o => some o
  | .stash o => some o
  | .priv o => some o

def Core.countBanks (c : Core) (p : BankState → Bool) : Nat := (c.banks.filter fun b => p b.2).length

/-- A core may hold one more STASH bank, `n` more STAT banks (04 R100). -/
def Core.stashRoom (c : Core) : Bool := decide (c.countBanks BankState.isStash < 128)
def Core.statRoom (c : Core) (n : Nat) : Bool := decide (c.countBanks BankState.isStat + n ≤ 256)

/-- Clear a bank's rows. -/
def Core.clearBank (c : Core) (b : Nat) : Core :=
  { c with
    basin := c.basin.filter fun p => p.1 / 32 != b
    poison := c.poison.filter fun p => p.1 / 32 != b }

/-- A recoverable Basin exhaustion (04 R102). -/
def basinExhausted {α : Type} (n src : Nat) : M α :=
  throw (.trap { noTrap with code := Code.basinexh, src := src, recov := true, w2 := BitVec.ofNat 64 n })

/-- Row `r` of bank `b`. -/
def Core.row (c : Core) (b r : Nat) : BitVec 1024 := Table.get 0 c.basin (b * 32 + r)
def Core.setRow (c : Core) (b r : Nat) (v : BitVec 1024) : Core := { c with basin := Table.set 0 c.basin (b * 32 + r) v }
/-- Poison of the 32 words of a row. -/
def Core.rowPoison (c : Core) (b r : Nat) : BitVec 32 := Table.get 0 c.poison (b * 32 + r)
def Core.setRowPoison (c : Core) (b r : Nat) (v : BitVec 32) : Core := { c with poison := Table.set 0 c.poison (b * 32 + r) v }

/-- Word `w` of a row. -/
def Core.word (c : Core) (b r w : Nat) : Word32 := BitVec.ofNat 32 (bits (c.row b r).toNat (32 * w) 32)

/-- `n` bytes of a row from byte `o`. -/
def Core.rowBytes (c : Core) (b r o n : Nat) : Nat := bits (c.row b r).toNat (8 * o) (8 * n)

/-- Write `n` bytes of a row; a write makes no poison and clears none of other words (04 R106). -/
def Core.putBytes (c : Core) (b r o n v : Nat) : Core :=
  let c1 := c.setRow b r (BitVec.ofNat 1024 (setBits (c.row b r).toNat (8 * o) (8 * n) v))
  if n = 4 * (n / 4) ∧ o % 4 = 0 then
    c1.setRowPoison b r (BitVec.ofNat 32 (setBits (c.rowPoison b r).toNat (o / 4) (n / 4) 0))
  else c1

/-- Poison the words that `n` bytes of a row from byte `o` touch, where the bytes are poisoned. -/
def Core.poisonBytes (c : Core) (bad : Bool) (b r o n : Nat) : Core :=
  if bad then
    c.setRowPoison b r (c.rowPoison b r ||| BitVec.ofNat 32 ((2 ^ ((o + n - 1) / 4 - o / 4 + 1) - 1) * 2 ^ (o / 4)))
  else c

/-- Poison of the words that `n` bytes from byte `o` touch. -/
def Core.bytesPoisoned (c : Core) (b r o n : Nat) : Bool :=
  bits (c.rowPoison b r).toNat (o / 4) ((o + n - 1) / 4 - o / 4 + 1) != 0

/-! ## Stash and template pages (04 R103, R104, 15 R314) -/

/-- Which held page, if any, serves a virtual address. -/
inductive PageKind where
  | memory
  | stash (page : Nat)
  | template (page : Nat)
  deriving DecidableEq, Repr

def Team.pageKind (t : Team) (va : Word64) : PageKind :=
  let k := t.kern
  let rel := fun (base : Word64) => va.toNat - base.toNat
  if k.spages ≠ 0 ∧ k.sbase.toNat ≤ va.toNat ∧ rel k.sbase < k.spages * 4096 then .stash (rel k.sbase / 4096)
  else if k.tpages ≠ 0 ∧ k.tbase.toNat ≤ va.toNat ∧ rel k.tbase < k.tpages * 4096 then .template (rel k.tbase / 4096)
  else .memory

/-- Change the team at the issuing place or elsewhere by number. -/
def onUid (uid : Nat) (f : Team → Team) : M Unit := modify fun s => s.onTeamId uid f

/-- The stash page of a task, allocated on its first access (04 R103). At the limit of 128 STASH banks of R100 the access takes the
recoverable fault of R102 although banks are FREE (log 102, DESIGN CHOICE: R102 speaks only of no bank FREE). -/
def stashPage (t : Team) (page src : Nat) (p : Place64) : M PageBank := do
  let s ← get
  let held := ((s.team? t.uid).getD t).h.stash
  match held.find? fun b => b.page == page with
  | some b => return b
  | none =>
    let c := s.core t.core
    match c.freeBanks with
    | [] => basinExhausted 1 src
    | b :: _ =>
      if !c.stashRoom then basinExhausted 1 src
      let pb : PageBank := { page := page, bank := b, win := p.win, la := p.la / 4096 * 4096, filled := 0, fills := [] }
      onCore t.core fun c => (c.clearBank b).setBank b (.stash t.uid)
      onUid t.uid fun t => { t with h := { t.h with stash := pb :: t.h.stash } }
      return pb

/-- How a row that is not filled stands. -/
def RowFill.none : RowFill := { psn := 0, old := 0 }

/-- A row of a stash page is filled. -/
def PageBank.fillOf (b : PageBank) (row : Nat) : RowFill := Table.get RowFill.none b.fills row
def PageBank.isFilled (b : PageBank) (row : Nat) : Bool := bitAt b.filled.toNat row
def PageBank.fill (b : PageBank) (row : Nat) (f : RowFill) : PageBank :=
  { b with filled := b.filled ||| BitVec.ofNat 32 (2 ^ row), fills := Table.set RowFill.none b.fills row f }

/-- A row of a stash page is dropped: its next access fills it again. -/
def PageBank.drop (b : PageBank) (row : Nat) : PageBank :=
  { b with filled := b.filled &&& ~~~(BitVec.ofNat 32 (2 ^ row)), fills := Table.set RowFill.none b.fills row RowFill.none }

/-- Rows of a stash page that a predicate of their granule and row names are dropped. -/
def PageBank.dropRows (b : PageBank) (p : Nat → Nat → Bool) : PageBank :=
  ((List.range 32).filter fun r => b.isFilled r && p ((b.la + r * 128) / 1024) r).foldl PageBank.drop b

/-- The stash page of a team that holds a bank. -/
def Team.stashOf (t : Team) (bank : Nat) : Option PageBank := t.h.stash.find? fun b => b.bank == bank

/-- Change a team's stash pages in a bank. -/
def onStash (uid bank : Nat) (f : PageBank → PageBank) : M Unit :=
  onUid uid fun t => { t with h := { t.h with stash := t.h.stash.map fun b => if b.bank = bank then f b else b } }

/-- The entry that a cluster's IXB holds for a granule. -/
def Cluster.entryOf (c : Cluster) (win gran : Nat) : Option IxbEntry := c.ixb.find? fun e => e.isFor win gran

/-- A filled row shows an older publication than the IXB does since: it is filled again, as a load that went to memory may have seen
the newer one (07 R163). -/
def Cluster.rowBehind (c : Cluster) (b : PageBank) (row : Nat) : Bool :=
  (c.entryOf b.win ((b.la + row * 128) / 1024)).any fun e => decide ((b.fillOf row).psn < e.psn)

/-- Fill a stash row from the cluster cache in the task's view, unless it is filled (04 R103). -/
def fillRow (t : Team) (pb : PageBank) (row hint : Nat) : M Unit := do
  let s ← get
  let cur := (((s.team? t.uid).getD t).stashOf pb.bank).getD pb
  if cur.isFilled row && !(s.cluster t.cluster).rowBehind cur row then return
  let gran := (pb.la + row * 128) / 1024
  let old ← (List.range 4).foldlM (fun (acc : BitVec 4) i => do
    let (d, old) ← viewSector t pb.win ((pb.la + row * 128) / 32 + i) hint
    onCore t.core fun c =>
      (c.putBytes pb.bank row (32 * i) 32 d.data.toNat).setRowPoison pb.bank row
        (BitVec.ofNat 32 (setBits (c.rowPoison pb.bank row).toNat (8 * i) 8 (if d.poison then 255 else 0)))
    return lineSet acc i old) 0
  let s ← get
  let psn := match (s.cluster t.cluster).entryOf pb.win gran with | some e => e.psn | none => s.commitPoint
  onStash t.uid pb.bank fun b => b.fill row { psn := psn, old := old }

/-- A load from a filled row delivers a sector of a superseded entry (02 R70, 04 R103): no copy of the task's own nor of a cluster
release stands for it, and the row was filled through such an entry, or its granule has been published since. -/
def State.rowStale (s : State) (t : Team) (b : PageBank) (row i : Nat) : Bool :=
  let c := s.cluster t.cluster
  let sec := (b.la + row * 128) / 32 + i
  (c.dirtyOf t.uid b.win sec).isNone && (c.ownPending t.uid b.win sec).isNone && (c.clusterPending t b.win sec).isNone
    && (bitAt (b.fillOf row).old.toNat i || (c.entryOf b.win (sec / 32)).any fun e => e.superseded && !ownNewer t e)

/-- The task's own copy of sector `i` of a row is newer than what any publication gave (02 R59). -/
def PageBank.renew (b : PageBank) (row i : Nat) : PageBank :=
  if b.isFilled row then b.fill row { b.fillOf row with old := lineSet (b.fillOf row).old i false } else b

/-- A stash store invalidates the row in every other task's stash page of the cluster (04 R104). -/
def invalidateStash (t : Team) (win line : Nat) : M Unit :=
  modify fun s =>
    let f := fun (u : Team) =>
      if u.uid = t.uid ∨ u.cluster ≠ t.cluster then u
      else { u with h := { u.h with stash := u.h.stash.map fun b =>
        if b.win = win ∧ b.la / 4096 = line / 4096 then b.drop (line / 128 % 32) else b } }
    { s with cur := f s.cur, teams := s.teams.map f }

/-- A store of the task that goes past its stash pages, but for the one in bank `but`, drops the row that holds its sector: the next
access there takes the store (07 R163 case 1). -/
def dropOwnRow (t : Team) (win la : Nat) (but : Option Nat) : M Unit := do
  if ((← get).team? t.uid).any fun u => u.h.stash != [] then
    onUid t.uid fun u => { u with h := { u.h with stash := u.h.stash.map fun b =>
      if b.win = win ∧ b.la / 4096 = la / 4096 ∧ some b.bank ≠ but then b.drop (la / 128 % 32) else b } }

/-! ## Loads and stores of one place -/

/-- What a read of one place gives: its bytes, poison, and the stale sectors it counted. -/
structure ReadRes where
  value : Nat
  poison : Bool
  /-- sectors delivered from a superseded entry -/
  stale : List (Nat × Nat)
  deriving DecidableEq, Repr

/-- Bytes within one sector of logged memory. -/
def readLogged (t : Team) (win la n hint : Nat) : M ReadRes := do
  let (d, st) ← viewSector t win (la / 32) hint
  return { value := secBytes d.data (la % 32) n, poison := d.poison, stale := if st then [(win, la / 32)] else [] }

/-- The task has a posted store to the word that has not arrived. -/
def State.postedTo (s : State) (uid : Nat) (target : PostedTo) (addr n : Nat) : Bool :=
  s.posted.any fun p => decide (p.uid = uid ∧ p.target = target ∧ p.addr < addr + n ∧ addr < p.addr + p.size)

/-- Bytes go to host memory over CXL, with the data-poison indication where they are poison: it marks the host sectors that they
touch, and bytes that fill a sector leave it unmarked (22 R373; log 118). -/
def State.writeHost (s : State) (addr n v : Nat) (bad : Bool) : State :=
  { s with
    host := s.host.writeN addr v n
    hostBad := (List.range ((addr + n + 31) / 32 - addr / 32)).foldl (fun (t : Table Bool) i =>
      let k := addr / 32 + i
      if bad then Table.set false t k true else if addr ≤ 32 * k ∧ 32 * k + 32 ≤ addr + n then Table.set false t k false else t)
      s.hostBad }

/-- The marks of the host sectors that lie whole in `n` bytes are taken away: those bytes are new ones, and none is poison (log 118). -/
def State.cleanHost (s : State) (addr n : Nat) : Table Bool :=
  s.hostBad.filter fun (p : Nat × Bool) => !decide (addr ≤ 32 * p.1 ∧ 32 * p.1 + 32 ≤ addr + n)

/-- Compute-row address of a logical address (05 R117, 03 R79). -/
def craOf (la : Nat) : Nat := la % 2 ^ 32

/-- CRADDR of an ordinary access: the stack does not exist (03 R79). -/
def checkCra (a : Access) (va : Word64) (cra : Nat) : M Unit :=
  if cra / 2 ^ 28 ≤ 11 then pure ()
  else throw (.trap { noTrap with code := Code.craddr, src := a.src, w2 := va, w3 := BitVec.ofNat 64 cra, pc := a.pc })

/-- Who asks by an access of a team: its scalar word, its lane pass or an engine operation of it. -/
def Access.asker (a : Access) (t : Team) : Option RowAsker :=
  if a.acc = 5 then some (.engine a.op)
  else if a.src = 0 then some (.scalar t.uid t.s.pc)
  else if a.src = 1 then t.l.run.map fun r => .lane t.uid r.lpc t.l.pix
  else none

/-- Read bytes of one compute-row sector through the home slice of its logical address, which keeps a read-only copy (03 R82); a miss
is a request to the pseudo-channel, in its queue with the others (03 R76). -/
def readCrow (who : Option RowAsker) (win la n hint : Nat) : M ReadRes := do
  let s ← get
  let cra := craOf la
  let h := homeSlice la
  let t := LineTag.crow (cra / 128)
  let hit := (s.slice h).hit t (cra / 32 % 4)
  if hit.isNone then rowRead who (chanOf cra) [cra / 1024] none
  let bad := hit.getD (Table.get false s.crowBad (cra / 32))
  modify fun s => s.putLine h t (cra / 32 % 4) bad false (some (Win.owner (s.window win))) hint
  return { value := s.crow.readN cra n, poison := bad, stale := [] }

/-- The copies of a compute-row sector leave every home slice (03 R82, R83). -/
def State.dropCopies (s : State) (cra : Nat) : State :=
  { s with slices := Table.mapVals Slice.init (fun c => c.dropSector (.crow (cra / 128)) (cra / 32 % 4)) s.slices }

/-- A fault raised inside a store is the accessing stream's (21 R352). -/
def inStream {α : Type} (a : Access) (m : M α) : M α :=
  tryCatch m fun e => match e with
    | .trap r => throw (.trap { r with src := a.src, pc := a.pc })
    | e => throw e

/-- Offsets of the register space are read through the device's register file (26 R419). -/
def sysOffset (p : Place64) : Nat := p.la - Win.lbase p.desc

/-- Read `n` bytes at a translated place, within one sector (06 R131). A load of a host window, of a compute row or of a device
register waits until the task's own posted stores to its bytes have arrived (logs 28 and 104). `sysRead` gives the registers of a system window to
a tenant; a register that R419 does not list reads as a free value (log 17). -/
def readPlace (a : Access) (t : Team) (va : Word64) (p : Place64) (n hint : Nat)
    (sysRead : Nat → Nat → State → Option Word64) : M ReadRes := do
  let s ← get
  if Win.logged p.desc then readLogged t p.win p.la n hint
  else if Win.host p.desc then
    if s.postedTo t.uid .host (p.la % 2 ^ 45) n then waitFor .memory
    return { value := s.host.readN (p.la % 2 ^ 45) n, poison := Table.get false s.hostBad (p.la % 2 ^ 45 / 32), stale := [] }
  else if Win.crow p.desc then
    let cra := craOf p.la
    checkCra a va cra
    if s.postedTo t.uid .computeRow cra n then waitFor .memory
    readCrow (a.asker t) p.win p.la n hint
  else
    if s.postedTo t.uid .sysReg (sysOffset p) n then waitFor .memory
    let v ← (match sysRead t.id.tenant (sysOffset p) s with
      | some v => pure v
      | none => drawFree)
    return { value := v.toNat, poison := false, stale := [] }

/-- Post a store to a window that is not logged (03 R82, 07 R172, 05 R117). -/
def postStore (t : Team) (colour : Nat) (via : Nat × Nat) (target : PostedTo) (addr n v : Nat) (bad : Bool)
    (only : Option (BitVec 32)) : M Unit := do
  let id ← nextStamp
  modify fun s => { s with posted := s.posted ++
    [{ id := id, uid := t.uid, colour := colour, target := target, addr := addr, size := n, data := v % 2 ^ (8 * n)
       poison := bad, ctx := t.id.ctx, only := only, via := via }] }

/-- The bytes a posted store leaves of those from its address, over the ones it finds there (03 R82). -/
def Posted.over (p : Posted) (old : Nat) : Nat :=
  match p.only with
  | none => p.data
  | some m => (setBitsOf m.toNat 32).foldl (fun v i => setBits v (8 * i) 8 (bits p.data (8 * i) 8)) old

/-- Write `n` bytes at a translated place, within one sector; of those posted, `only` the ones it names. -/
def writePlace (a : Access) (t : Team) (va : Word64) (p : Place64) (n v colour hint : Nat) (bad : Bool := false)
    (only : Option (BitVec 32) := none) : M Unit := do
  let via := (va.toNat / 4096, p.win)
  if Win.logged p.desc then
    inStream a (storeSector t p.win (p.la / 32) (p.la % 32) n v colour hint bad)
    dropOwnRow t p.win p.la none
  else if Win.host p.desc then postStore t colour via .host (p.la % 2 ^ 45) n v bad only
  else if Win.crow p.desc then
    checkCra a va (craOf p.la)
    postStore t colour via .computeRow (craOf p.la) n v bad only
  else postStore t colour via .sysReg (sysOffset p) n v bad only

end Sys2Proof.Machine
end

