-- ==== Sys2Proof/Machine/Publish.lean ====
section
/-!
DEFINITION. Publication: numbering, shares, prepare, commit and apply (02 R63), notices to the IXBs (02 R68),
releases and acquires (07 R157 to R162), and atomics at the home slices (04 R95, 06 R134).
-/
namespace Sys2Proof.Machine

/-- Every slice, as a bit set. -/
def allSlices : Nat := 2 ^ 48 - 1

/-- Group the runs of a list of updates by granule, in their order. -/
def groupRuns (l : List (Nat × Nat × PubRun)) : List GranUpdate :=
  l.foldl (fun acc r =>
    if acc.any fun u => u.win == r.1 && u.gran == r.2.1 then
      acc.map fun u => if u.win = r.1 ∧ u.gran = r.2.1 then { u with runs := u.runs ++ [r.2.2] } else u
    else acc ++ [{ win := r.1, gran := r.2.1, runs := [r.2.2] }]) []

/-- Give a publication the next PSN (02 R63 step 2). -/
def number (who : PubBy) (share : List GranUpdate) (data : List SectorData) : M Nat := do
  let n := (← get).psnNext
  modify fun s => { s with
    psnNext := n + 1
    pubs := s.pubs ++ [{ psn := n, who := who, share := share, data := data, prepared := 0, heldSent := 0
                         committed := false, noticed := 0 }] }
  return n

/-- Append sectors to a log, each granule's as one packed run in ascending order; the share they make (02 R57, R65). -/
def appendSectors (log : Nat) (l : List SectorData) : M (List GranUpdate) := do
  let grans := (l.map fun d => (d.win, d.sec / 32)).eraseDups
  let runs ← grans.mapM fun (g : Nat × Nat) => do
    let mine := l.filter fun d => d.win == g.1 && d.sec / 32 == g.2
    let asc := (List.range 32).filterMap fun i => mine.find? fun d => d.sec % 32 == i
    let pos ← appendRun log (asc.map fun d => (d.sec, ({ data := d.data, poison := d.poison } : Delivered)))
    let set := BitVec.ofNat 32 (asc.foldl (fun acc d => acc + 2 ^ (d.sec % 32)) 0)
    -- results appended by a home slice stay in its cache as clean lines (04 R93, R95)
    if 48 ≤ log ∧ log < 96 then modify fun s => s.keepLines (sliceOfGran g.2) g.1 pos asc.length
    return (g.1, g.2, ({ set := set, live := set, pos := pos } : PubRun))
  return groupRuns runs

/-- Pending updates of a task in the colours of a mask, not yet sealed. -/
def pendingOf (c : Cluster) (uid mask : Nat) : List Pending :=
  c.weir.filter fun p => p.uid == uid && bitAt mask p.colour && p.pub == none

/-- Seal and number the pending updates of a cluster that a predicate names (02 R63 steps 1 to 3); none when empty. -/
def publishWhere (cl : Nat) (who : PubBy) (p : Pending → Bool) : M (Option Nat) := do
  let ps := ((← get).cluster cl).weir.filter fun q => q.pub == none && p q
  if ps.isEmpty then return none
  let share := groupRuns (ps.map fun q => (q.win, q.gran, ({ set := q.set, live := q.live, pos := q.pos } : PubRun)))
  let n ← number who share []
  onCluster cl fun c => { c with weir := c.weir.map fun q => if q.pub = none ∧ p q = true then { q with pub := some n } else q }
  return some n

/-- Raise a task's private updates in the colours of a mask to the cluster level (02 R60, R61). -/
def raiseToCluster (t : Team) (mask : Nat) : M Unit := do
  let st ← nextStamp
  onCluster t.cluster fun c =>
    { c with weir := c.weir.map fun p =>
      if p.uid = t.uid ∧ bitAt mask p.colour = true ∧ p.level = .task ∧ p.pub = none then { p with level := .cluster st } else p }

/-- Discard a task's private updates and dirty sectors (02 R61). -/
def discardVersion (t : Team) : M Unit :=
  onCluster t.cluster fun c =>
    { c with
      dirty := c.dirty.filter fun d => d.uid != t.uid
      weir := c.weir.filter fun p => !(p.uid == t.uid && p.level == .task && p.pub == none) }

/-- Publish a task's cluster-level updates as one publication (02 R61, 21 R356). -/
def publishClusterLevel (t : Team) : M Unit := do
  let _ ← publishWhere t.cluster .device fun p => p.uid == t.uid && (match p.level with | .cluster _ => true | .task => false)
  pure ()

/-! ## The steps of a publication (02 R63) -/

def State.pub? (s : State) (psn : Nat) : Option Publication := s.pubs.find? fun p => p.psn == psn
def State.onPub (s : State) (psn : Nat) (f : Publication → Publication) : State :=
  { s with pubs := s.pubs.map fun p => if p.psn = psn then f p else p }

/-- The granules of a publication at one slice. -/
def Publication.atSlice (p : Publication) (h : Nat) : List GranUpdate :=
  p.share.filter fun u => sliceOfGran u.gran == h

/-- Slices that hold a share of a publication. -/
def Publication.slices (p : Publication) : List Nat :=
  match p.who with
  | .roll _ _ _ => List.range 48
  | _ => (List.range 48).filter fun h => p.share.any fun u => sliceOfGran u.gran == h

/-- A slice may prepare a PSN: it has prepared every lower one, it is not paused, and no node copy that its share needs is
another slice's to make while that one is paused (02 R58, R63 step 4, 22 R389). -/
def State.mayPrepare (s : State) (psn h : Nat) : Bool :=
  (match s.pub? psn with
   | some p => !bitAt p.prepared h
       && (p.atSlice h).all fun u => (s.copiers u.win u.gran).all fun o => !(s.slice o).paused
   | none => false)
  && decide ((s.slice h).prepared + 1 = psn) && !(s.slice h).paused

/-- A granule whose index entry a step of the device found malformed: the window and the logical address (02 R56). -/
abbrev Malformed := Nat × Nat

/-- The granules of a list that a step finds malformed. -/
def malformedIn (l : List GranUpdate) (f : GranUpdate → M Bool) : M (List Malformed) :=
  l.filterMapM fun u => do return if ← f u then none else some (u.win, u.gran * 1024)

/-- A slice prepares a PSN: its locks and node copies (02 R63 step 4). -/
def prepare (psn h : Nat) : M (List Malformed) := do
  match (← get).pub? psn with
  | none => return []
  | some p =>
    let bad ← malformedIn (p.atSlice h) fun u => ensureGranule u.win u.gran
    modify fun s => s.onPub psn fun p => { p with prepared := p.prepared ||| 2 ^ h }
    onSlice h fun c => { c with prepared := psn }
    return bad

/-- The bit of a held notice: the slice that sends it and the cluster it goes to. -/
def noticeBit (h cl : Nat) : Nat := h * 48 + cl

/-- Every held notice of a publication has come to a cluster: one from each slice with a share (02 R63 step 4). -/
def Publication.heldAt (p : Publication) (cl : Nat) : Bool := p.slices.all fun h => bitAt p.heldSent (noticeBit h cl)

/-- The home slices' logs may append the sector maps that applying a publication needs (02 R57, R71). -/
def State.mapsAppend (s : State) (p : Publication) : Bool :=
  p.share.all fun u => s.mayAppend (48 + sliceOfGran u.gran) || !s.needsMap u

/-- The publication to commit next, when every slice has prepared it (02 R63 step 5) and its held notices have come: by the times
of R63 they reach every cluster before the commit (log 109, DEDUCED). It waits while a sector map that it needs may not be
appended (02 R71). -/
def State.mayCommit (s : State) : Option Publication :=
  match s.pub? (s.commitPoint + 1) with
  | some p =>
    if p.prepared = allSlices ∧ p.committed = false ∧ (List.range 48).all p.heldAt = true ∧ s.mapsAppend p = true then some p else none
  | none => none

/-- Set PSNPUB of the windows of a publication (02 R52, R63 step 6): a device structure's line is dirty (04 R93). -/
def setPsnPub (p : Publication) : M Unit :=
  p.share.forM fun u => modify fun s =>
    (s.setWindow u.win (setDescWord (s.window u.win) 5 p.psn)).touchStructure (windowTableBase + 64 * u.win + 32) true

/-- The cluster-level updates of a cluster that a publication carries (02 R61). -/
def Cluster.raisedBy (c : Cluster) (psn : Nat) : List RaisedPub :=
  c.weir.filterMap fun q =>
    match q.level with
    | .cluster st => if q.pub = some psn then some { win := q.win, gran := q.gran, psn := psn, stamp := st } else none
    | .task => none

/-- A team has published the granules of a share (02 R59). -/
def Team.hasPublished (share : List GranUpdate) (psn : Nat) (t : Team) : Team :=
  { t with own := t.own ++ share.map fun u => (OwnPub.mk u.win u.gran psn) }

/-- What a commit leaves with the publishing task: its updates are no longer pending, and it has published them; the other copy of a
paired instance has stored the same (22 R384). -/
def settleTask (p : Publication) : M Unit :=
  modify fun s =>
    let drop : Cluster → Cluster := fun c =>
      { c with
        weir := c.weir.filter fun q => q.pub != some p.psn
        raised := c.raised ++ c.raisedBy p.psn }
    let s1 : State := { s with clusters := Table.mapVals Cluster.init drop s.clusters }
    match p.who with
    | .task uid =>
      let s2 := s1.onTeamId uid (Team.hasPublished p.share p.psn)
      match s1.team? uid with
      | some t => if t.paired.role = 1 then s2.onTeamId t.paired.twin (Team.hasPublished p.share p.psn) else s2
      | none => s2
    | _ => s1

/-- What a commit does beside its share: a snapshot raises SNAPGEN and saves the root (25 R410); a rollback puts a saved root
back (25 R411). -/
def commitRoot (p : Publication) : M Unit := do
  let s ← get
  match p.who with
  | .snap uid w =>
    let d := s.window w
    let gen := Win.snapGen d + 1
    let s1 := s.setWindow w (setDescWord d 4 gen)
    let snap : Snapshot :=
      { handle := w * 2 ^ 32 + gen, win := w, root := Win.root d, rootGen := Win.rootGen d, snapGen := gen
        depth := Win.depth d, lsize := Win.lsize d, psn := p.psn }
    let s2 := (s1.touchStructure (windowTableBase + 64 * w + 32) true).touchStructure (snapshotTableBase + 64 * s1.snaps.length) true
    set { s2 with snaps := s2.snaps ++ [snap] }
    onUid uid fun t => if t.s.phase = .published p.psn then { t with s := { t.s with phase := .snapped snap.handle } } else t
  | .roll _ w h =>
    match s.snaps.find? fun q => q.handle == h with
    | some q =>
      let d := setDescWord (s.window w) 3 (q.rootGen * 2 ^ 32 + q.root)
      let s1 := (s.setWindow w (setDescWord d 5 p.psn)).touchStructure (windowTableBase + 64 * w) true
      -- the window has been reinstated (22 R377)
      set { s1 with dev := { s1.dev with broken := s1.dev.broken.filter fun x => x != w } }
    | none => pure ()
  | _ => pure ()

/-- Commit and apply (02 R63 steps 5 and 6): the instant of publication. A granule whose entry is malformed takes no update; it
is answered (02 R56). -/
def commit (p : Publication) : M (List Malformed) := do
  let bad ← malformedIn p.share applyGranule
  setPsnPub p
  commitRoot p
  settleTask p
  modify fun s => { (s.onPub p.psn fun q => { q with committed := true }) with commitPoint := p.psn }
  return bad

/-- The held notice of a slice for one cluster (02 R63 step 4, R68): every entry of the publication's granules there becomes
Held. -/
def heldNotice (p : Publication) (h cl : Nat) : M Unit := do
  onCluster cl fun c =>
    { c with
      ixb := c.ixb.map fun e =>
        if p.touches e.win e.gran = true ∧ sliceOfGran e.gran = h ∧ e.psn < p.psn then { e with heldBy := e.heldBy ++ [p.psn] } else e }
  modify fun s => s.onPub p.psn fun q => { q with heldSent := q.heldSent ||| 2 ^ noticeBit h cl }

/-- A commit notice for one cluster (02 R68): entries of its granules become Superseded. -/
def commitNotice (p : Publication) (cl : Nat) : M Unit := do
  onCluster cl fun c =>
    { c with
      ixb := c.ixb.map fun e =>
        if p.touches e.win e.gran = true ∧ e.psn < p.psn then
          { e with superseded := true, heldBy := e.heldBy.filter fun n => n != p.psn } else e
      noticed := p.psn }
  modify fun s => s.onPub p.psn fun q => { q with noticed := q.noticed ||| 2 ^ cl }
  -- a publication every cluster has had its notices of is gone
  modify fun s => { s with pubs := s.pubs.filter fun q => !(q.committed && q.noticed == allSlices) }

/-- A slice may send a cluster its held notice: it has a share of the publication and has prepared it (02 R63 step 4). -/
def Publication.mayHold (p : Publication) (h cl : Nat) : Bool :=
  p.slices.contains h && bitAt p.prepared h && !bitAt p.heldSent (noticeBit h cl)

/-- Clusters that may be sent the commit notice: committed, the held notices have come, and every lower PSN's has. -/
def State.mayNotice (s : State) (p : Publication) (cl : Nat) : Bool :=
  p.committed && p.heldAt cl && !bitAt p.noticed cl && decide ((s.cluster cl).noticed + 1 = p.psn)

/-! ## Acquire (02 R69, R70, 07 R160) -/

/-- Add a cluster's stale-read counts to STALECNT (02 R70). -/
def flushStale (cl : Nat) : M Unit := do
  let c := (← get).cluster cl
  c.stale.forM fun (p : Nat × Nat) =>
    modify fun s => (s.setWindow p.1 (setDescWord (s.window p.1) 6 (Win.staleCnt (s.window p.1) + p.2))).touchStructure
      (windowTableBase + 64 * p.1 + 32) true
  onCluster cl fun c => { c with stale := [] }

/-- An acquire that covers cluster-level updates up to an order stamp drops the task's stash rows that one of them newly covers
(07 R160, R163 case 2). -/
def dropCovered (t : Team) (upTo : Nat) : M Unit := do
  let c := (← get).cluster t.cluster
  let new := fun (st : Nat) => decide (t.clAcq ≤ st ∧ st < upTo)
  let pend := fun (b : PageBank) (gran row : Nat) => c.weir.any fun p =>
    p.uid != t.uid && (match p.level with | .cluster st => new st | .task => false)
      && (List.range 4).any fun i => p.covers b.win (gran * 32 + (row * 4 + i) % 32)
  let raised := fun (b : PageBank) (gran : Nat) => c.raised.any fun r => r.win == b.win && r.gran == gran && new r.stamp
  let keep := fun (b : PageBank) => b.dropRows fun gran row => pend b gran row || raised b gran
  onUid t.uid fun u => { u with h := { u.h with stash := u.h.stash.map keep } }

/-- A row shows another publication than the IXB's entry of its granule does, or may: the entry is superseded, newer, or gone. -/
def Cluster.rowOld (c : Cluster) (b : PageBank) (gran row : Nat) : Bool :=
  match c.entryOf b.win gran with
  | some e => e.superseded || e.psn != (b.fillOf row).psn
  | none => true

/-- The effect of a device-scope acquire on the team's cluster, once every commit notice has come: drop superseded
entries and the stash rows of their granules, record the PSN (02 R69, 04 R104). A row whose entry the IXB no longer holds as it was
at the fill is dropped with them (log 117). -/
def acquireDevice (t : Team) : M Unit := do
  let s ← get
  let c := s.cluster t.cluster
  waitUnless (decide (s.commitPoint ≤ c.noticed)) .commitNotices
  let st ← nextStamp
  let psn := s.commitPoint
  flushStale t.cluster
  dropCovered t st
  onCluster t.cluster fun c => { c with ixb := c.ixb.filter fun e => !e.superseded, acqPsn := psn, raised := c.raised.filter fun r => decide (psn < r.psn) }
  modify fun s =>
    let f := fun (u : Team) =>
      if u.cluster ≠ t.cluster then u
      else { u with h := { u.h with stash := u.h.stash.map fun b => b.dropRows (c.rowOld b) } }
    { s with cur := f s.cur, teams := s.teams.map f }
  onUid t.uid fun u => { u with clAcq := st, own := u.own.filter fun p => decide (psn < p.psn) }

/-- A cluster-scope acquire (07 R160). -/
def acquireCluster (t : Team) : M Unit := do
  let st ← nextStamp
  dropCovered t st
  onUid t.uid fun u => { u with clAcq := st }

/-! ## Atomics at a home slice (04 R95, 06 R132 to R134, R144, R148) -/

/-- A sector of the open collection of a slice. -/
def Slice.inColl (c : Slice) (win sec : Nat) : Option SectorData :=
  (c.coll.getD []).find? fun d => d.win == win && d.sec == sec

/-- A sector of an atomic publication not yet committed, the newest. -/
def State.inAtomicPub (s : State) (win sec : Nat) : Option SectorData :=
  s.pubs.foldl (fun best p =>
    if p.committed then best
    else match p.data.find? fun d => d.win == win && d.sec == sec with
      | some d => some d
      | none => best) none

/-- The newest value of a sector at its slice: left by an earlier atomic, or published (04 R95). What an open collection holds is
newer than every numbered publication: a row over two granules waits until no collection holds a sector of them (06 R148). -/
def atomicView (win sec task : Nat) : M Delivered := do
  let s ← get
  match (s.slice (sliceOfGran (sec / 32))).inColl win sec with
  | some d => return { data := d.data, poison := d.poison }
  | none =>
    match s.inAtomicPub win sec with
    | some d => return { data := d.data, poison := d.poison }
    | none =>
      set (s.touchPath (s.window win) (sec / 32))
      match s.granEntry (s.window win) (sec / 32) with
      | some e => deliverSector win sec task e
      | none => throw (.terminate (Win.owner (s.window win)) 3 (sec / 32 * 1024) task)

/-- Leave an atomic's result in the open collection of the slice, opening one where none is open (02 R65): a dirty line of its
cache, owned as its window is (04 R94, R95). Where every line of its set holds such results, the atomic waits for their publication. -/
def collect (h : Nat) (d : SectorData) : M Unit := do
  waitUnless (((← get).slice h).hasRoom (.result d.win (d.sec / 4))) .memory
  let own := Win.owner ((← get).window d.win)
  onSlice h fun c =>
    { c.put (.result d.win (d.sec / 4)) (d.sec % 4) d.poison true (some own) 0 with coll := some ((match c.coll with
        | some l => l.filter fun e => !(e.win == d.win && e.sec == d.sec)
        | none => []) ++ [d]) }

end Sys2Proof.Machine
end

