-- ==== Sys2Proof/Machine/Atomic.lean ====
section
/-!
DEFINITION. What an atomic does to its word or row, and its steps at the home slice
(06 R132 to R134, R144 to R148, 02 R65, 04 R95).
-/
namespace Sys2Proof.Machine

/-- New value of an `amo` of `n` bits (06 R132). -/
def amoNew (op n old b : Nat) : Nat :=
  let b := b % 2 ^ n
  match op with
  | 0 => (old + b) % 2 ^ n
  | 1 => old &&& b
  | 2 => old ||| b
  | 3 => old ^^^ b
  | 4 => if sintOf n old < sintOf n b then old else b
  | 5 => if sintOf n old < sintOf n b then b else old
  | 6 => if old < b then old else b
  | 7 => if old < b then b else old
  | _ => b

/-- FP32 sum, rounded once to nearest even (06 R144). -/
def f32Add (a b : Nat) : Nat :=
  (roundF fp32 .rne false 0 ((decodeF fp32 a).add .rne (decodeF fp32 b)).exact).code

/-- FP32 maximum and minimum, the canonical NaN when either is NaN (06 R144). -/
def f32Max (a b : Nat) : Nat := (roundF fp32 .rne false 0 ((decodeF fp32 a).max (decodeF fp32 b)).exact).code
def f32Min (a b : Nat) : Nat := (roundF fp32 .rne false 0 ((decodeF fp32 a).min (decodeF fp32 b)).exact).code

def bf16Add (a b : Nat) : Nat :=
  (roundF bf16 .rne false 0 ((decodeF bf16 a).add .rne (decodeF bf16 b)).exact).code
def bf16Max (a b : Nat) : Nat := (roundF bf16 .rne false 0 ((decodeF bf16 a).max (decodeF bf16 b)).exact).code

/-- Apply a function to both 16-bit halves. -/
def bothHalves (f : Nat → Nat → Nat) (a b : Nat) : Nat :=
  f (bits a 0 16) (bits b 0 16) + 2 ^ 16 * f (bits a 16 16) (bits b 16 16)

/-- New value of a lane atomic (06 R144). -/
def laneAtomNew (aop n old b : Nat) : Nat :=
  if aop ≤ 8 then amoNew aop n old b
  else match aop with
    | 9 => f32Add old b
    | 10 => f32Max old b
    | 11 => f32Min old b
    | _ => bothHalves bf16Add old b

/-- New value of four bytes of a row update (06 R148). -/
def rowNew (aop old b : Nat) : Nat :=
  match aop with
  | 0 => bothHalves bf16Add old b
  | 1 => bothHalves bf16Max old b
  | _ => f32Add old b

/-- Bits of the word an atomic covers. -/
def AtomOp.bits : AtomOp → Nat
  | .amo _ n _ => n
  | .cas n _ _ => n
  | .lane _ fmt _ => if fmt = 0x1C then 64 else 32
  | .laneCas n _ _ => n
  | .row .. => 32

/-- New value of a word under an atomic. -/
def AtomOp.apply (w : AtomOp) (old : Nat) : Nat :=
  match w with
  | .amo op n b => amoNew op n old b.toNat
  | .cas n cmp new => if old = cmp.toNat % 2 ^ n then new.toNat % 2 ^ n else old
  | .lane aop fmt b => laneAtomNew aop (if fmt = 0x1C then 64 else 32) old (b.toNat % 2 ^ (if fmt = 0x1C then 64 else 32))
  | .laneCas n cmp new => if old = cmp.toNat % 2 ^ n then new.toNat % 2 ^ n else old
  | .row .. => old

/-- What a scalar register receives: .w sign-extends the old value (06 R132, R133). -/
def AtomOp.result (w : AtomOp) (old : Nat) : Word64 :=
  match w with
  | .amo _ n _ => sextN n old
  | .cas n _ _ => sextN n old
  | _ => BitVec.ofNat 64 old

/-- Granules that a request touches. -/
def AtomReq.grans (r : AtomReq) : List Nat :=
  match r.what with
  | .row _ len _ => let a := r.la / 1024; let b := (r.la + 128 * len - 1) / 1024; if a = b then [a] else [a, b]
  | _ => [r.la / 1024]

/-- An open collection holds a sector of a granule. -/
def State.collected (s : State) (win gran : Nat) : Bool :=
  ((s.slice (sliceOfGran gran)).coll.getD []).any fun d => d.win == win && d.sec / 32 == gran

/-- A lock holds a request back (04 R95); a row over two granules also waits for the collections that hold a sector of them to be
published, so that it starts from the newest values and none of them is published after it (06 R148, 07 R167). -/
def State.heldBack (s : State) (r : AtomReq) : Bool :=
  r.grans.any (s.prepLocked r.win) || (decide (r.grans.length = 2) && r.grans.any (s.collected r.win))

/-- Two requests touch one granule. -/
def AtomReq.meets (a b : AtomReq) : Bool := a.win == b.win && a.grans.any fun g => b.grans.contains g

/-- A request at another slice came earlier, is held back, and shares a granule: one of the two is a row over two granules (04 R95,
06 R148). -/
def State.behindOther (s : State) (h : Nat) (held : AtomReq → Bool) (r : AtomReq) : Bool :=
  s.slices.any fun p => p.1 != h && p.2.reqs.any fun q => decide (q.id < r.id) && r.meets q && held q

/-- Requests of a slice that may be performed now: none that something holds back, and none that stands behind an earlier one to a
granule of its own, there or, held back, at another slice (04 R95). -/
def State.readyAtomics (s : State) (h : Nat) (held : AtomReq → Bool) : List AtomReq :=
  ((s.slice h).reqs.foldl (fun (acc : List AtomReq × List AtomReq) r =>
    (if held r || acc.2.any r.meets || s.behindOther h held r then acc.1 else acc.1 ++ [r], acc.2 ++ [r])) ([], [])).1

/-- An atomic of one word: its new sector joins the collection (02 R65). -/
def performWord (h : Nat) (r : AtomReq) : M Unit := do
  let sec := r.la / 32
  let d ← atomicView r.win sec (((← get).team? r.uid).getD Team.vacant).taskNum
  let n := r.what.bits / 8
  let old := secBytes d.data (r.la % 32) n
  let new := mergeBytes d.data (r.la % 32) n (r.what.apply old)
  let change := !d.poison && new != d.data
  if change then collect h { win := r.win, sec := sec, data := new, poison := false }
  -- a result that arrives while a collection is open joins it, though it changes no byte (02 R65)
  modify fun s => { s with done := s.done ++
    [{ req := r, old := BitVec.ofNat 64 old, poison := d.poison, inColl := (s.slice h).coll.isSome, psn := none, badLanes := [] }] }

/-- The sectors of a row after its update, and the lanes that die on poison (06 R148, R150). -/
def rowSectors (r : AtomReq) (aop len : Nat) (lanes : List (Nat × Word32)) : M (List SectorData × List Nat) :=
  (List.range (4 * len)).foldlM (fun (acc : List SectorData × List Nat) i => do
    let sec := r.la / 32 + i
    let d ← atomicView r.win sec (((← get).team? r.uid).getD Team.vacant).taskNum
    let mine := lanes.filter fun l => l.1 / 8 == i
    if d.poison then return (acc.1, acc.2 ++ mine.map (·.1))
    let new := mine.foldl (fun (v : BitVec 256) l =>
      mergeBytes v (4 * (l.1 % 8)) 4 (rowNew aop (secBytes v (4 * (l.1 % 8)) 4) l.2.toNat)) d.data
    if new = d.data then return acc
    return (acc.1 ++ [({ win := r.win, sec := sec, data := new, poison := false } : SectorData)], acc.2)) ([], [])

/-- A row update (06 R148): in one granule it joins the collection; over two it is a publication of its own. -/
def performRow (h : Nat) (r : AtomReq) (aop len : Nat) (lanes : List (Nat × Word32)) : M Unit := do
  let (secs, bad) ← rowSectors r aop len lanes
  if r.grans.length = 1 then
    secs.forM fun d => collect h d
  else if secs ≠ [] then
    let share ← appendSectors (48 + h) secs
    let _ ← number (.slice h) share secs
  modify fun s => { s with done := s.done ++
    [{ req := r, old := 0, poison := false, inColl := false, psn := none, badLanes := bad }] }

/-- A request whose result its slice appends itself: a row update over two granules (06 R148). -/
def AtomReq.appends (r : AtomReq) : Bool := decide (r.grans.length ≠ 1)

/-- Execute one atomic at its slice (04 R95). -/
def performAtomic (h : Nat) (r : AtomReq) : M Unit := do
  onSlice h fun c => { c with reqs := c.reqs.filter fun q => q.id != r.id }
  match r.what with
  | .row aop len lanes => performRow h r aop len lanes
  | _ => performWord h r

/-- Close the open collection of a slice: it becomes a publication (02 R65). -/
def closeCollection (h : Nat) (l : List SectorData) : M Unit := do
  onSlice h fun c =>
    { c with coll := none, lines := c.lines.filter fun x => match x.tag with | .result _ _ => false | _ => true }
  let share ← appendSectors (48 + h) l
  let n ← number (.slice h) share l
  modify fun s => { s with done := s.done.map fun d =>
    if d.inColl = true ∧ homeSlice d.req.la = h then { d with inColl := false, psn := some n } else d }

/-- An old value may return: with .sys only once the publication that carries the result has committed (06 R134). -/
def State.mayReturn (s : State) (d : AtomDone) : Bool :=
  !d.req.sys || (!d.inColl && (match d.psn with | some n => decide (n ≤ s.commitPoint) | none => true))

/-- Send an atomic to its home slice (06 R134). -/
def sendAtomic (t : Team) (p : Place64) (what : AtomOp) (dest : AtomDest) (sys : Bool) (va : Word64) : M Nat := do
  let id ← nextStamp
  let r : AtomReq := { uid := t.uid, ctx := t.id.ctx, cluster := t.cluster, win := p.win, la := p.la, what := what, dest := dest, sys := sys
                       va := va, pc := t.s.pc, id := id }
  onSlice (homeSlice p.la) fun c => { c with reqs := c.reqs ++ [r] }
  return id

end Sys2Proof.Machine
end

