-- ==== Sys2Proof/Machine/Scalar.lean ====
section
/-!
DEFINITION. Integer operations, immediate forms and control transfer of the scalar stream (14 R295 to R297, R300).
-/
namespace Sys2Proof.Machine

/-! ## Results (14 R295) -/

/-- High half of the signed 128-bit product. -/
def mulHighSigned (a b : Word64) : Word64 := BitVec.ofInt 64 (a.toInt * b.toInt / 2 ^ 64)

/-- High half of the unsigned 128-bit product. -/
def mulHighUnsigned (a b : Word64) : Word64 := BitVec.ofNat 64 (a.toNat * b.toNat / 2 ^ 64)

/-- Signed quotient toward zero; −1 for a zero divisor, −2^63 for −2^63 by −1. -/
def divSigned (a b : Word64) : Word64 := if b = 0 then BitVec.allOnes 64 else a.sdiv b

/-- Unsigned quotient; all ones for a zero divisor. -/
def divUnsigned (a b : Word64) : Word64 := if b = 0 then BitVec.allOnes 64 else a / b

/-- Signed remainder: its sign follows the dividend; the dividend for a zero divisor. -/
def remSigned (a b : Word64) : Word64 := a - b * divSigned a b

/-- Unsigned remainder; the dividend for a zero divisor. -/
def remUnsigned (a b : Word64) : Word64 := a - b * divUnsigned a b

/-- Shift counts are taken modulo 64. -/
def shiftLeft (a b : Word64) : Word64 := a <<< (b.toNat % 64)
def shiftRight (a b : Word64) : Word64 := a >>> (b.toNat % 64)
def shiftRightArith (a b : Word64) : Word64 := a.sshiftRight (b.toNat % 64)
def rotateRight (a b : Word64) : Word64 := a.rotateRight (b.toNat % 64)

/-! ## SR-ALU (14 R295) -/

/-- `add xD, xA, xB` (14 R295). -/
def resultAdd (a b : Word64) : Word64 := a + b
def execAdd (d a b : XReg) (s : State) : Host.Outcome State Fault Refusal :=
  .next (s.result d (resultAdd (s.getX a) (s.getX b)))

/-- `sub xD, xA, xB` (14 R295). -/
def resultSub (a b : Word64) : Word64 := a - b
def execSub (d a b : XReg) (s : State) : Host.Outcome State Fault Refusal :=
  .next (s.result d (resultSub (s.getX a) (s.getX b)))

/-- `mul xD, xA, xB` (14 R295). -/
def resultMul (a b : Word64) : Word64 := a * b
def execMul (d a b : XReg) (s : State) : Host.Outcome State Fault Refusal :=
  .next (s.result d (resultMul (s.getX a) (s.getX b)))

/-- `mulh xD, xA, xB` (14 R295). -/
def resultMulh (a b : Word64) : Word64 := mulHighSigned a b
def execMulh (d a b : XReg) (s : State) : Host.Outcome State Fault Refusal :=
  .next (s.result d (resultMulh (s.getX a) (s.getX b)))

/-- `mulhu xD, xA, xB` (14 R295). -/
def resultMulhu (a b : Word64) : Word64 := mulHighUnsigned a b
def execMulhu (d a b : XReg) (s : State) : Host.Outcome State Fault Refusal :=
  .next (s.result d (resultMulhu (s.getX a) (s.getX b)))

/-- `div xD, xA, xB` (14 R295). -/
def resultDiv (a b : Word64) : Word64 := divSigned a b
def execDiv (d a b : XReg) (s : State) : Host.Outcome State Fault Refusal :=
  .next (s.result d (resultDiv (s.getX a) (s.getX b)))

/-- `divu xD, xA, xB` (14 R295). -/
def resultDivu (a b : Word64) : Word64 := divUnsigned a b
def execDivu (d a b : XReg) (s : State) : Host.Outcome State Fault Refusal :=
  .next (s.result d (resultDivu (s.getX a) (s.getX b)))

/-- `rem xD, xA, xB` (14 R295). -/
def resultRem (a b : Word64) : Word64 := remSigned a b
def execRem (d a b : XReg) (s : State) : Host.Outcome State Fault Refusal :=
  .next (s.result d (resultRem (s.getX a) (s.getX b)))

/-- `remu xD, xA, xB` (14 R295). -/
def resultRemu (a b : Word64) : Word64 := remUnsigned a b
def execRemu (d a b : XReg) (s : State) : Host.Outcome State Fault Refusal :=
  .next (s.result d (resultRemu (s.getX a) (s.getX b)))

/-- `and xD, xA, xB` (14 R295). -/
def resultAnd (a b : Word64) : Word64 := a &&& b
def execAnd (d a b : XReg) (s : State) : Host.Outcome State Fault Refusal :=
  .next (s.result d (resultAnd (s.getX a) (s.getX b)))

/-- `or xD, xA, xB` (14 R295). -/
def resultOr (a b : Word64) : Word64 := a ||| b
def execOr (d a b : XReg) (s : State) : Host.Outcome State Fault Refusal :=
  .next (s.result d (resultOr (s.getX a) (s.getX b)))

/-- `xor xD, xA, xB` (14 R295). -/
def resultXor (a b : Word64) : Word64 := a ^^^ b
def execXor (d a b : XReg) (s : State) : Host.Outcome State Fault Refusal :=
  .next (s.result d (resultXor (s.getX a) (s.getX b)))

/-- `andn xD, xA, xB` (14 R295). -/
def resultAndn (a b : Word64) : Word64 := a &&& ~~~b
def execAndn (d a b : XReg) (s : State) : Host.Outcome State Fault Refusal :=
  .next (s.result d (resultAndn (s.getX a) (s.getX b)))

/-- `shl xD, xA, xB` (14 R295). -/
def resultShl (a b : Word64) : Word64 := shiftLeft a b
def execShl (d a b : XReg) (s : State) : Host.Outcome State Fault Refusal :=
  .next (s.result d (resultShl (s.getX a) (s.getX b)))

/-- `shr xD, xA, xB` (14 R295). -/
def resultShr (a b : Word64) : Word64 := shiftRight a b
def execShr (d a b : XReg) (s : State) : Host.Outcome State Fault Refusal :=
  .next (s.result d (resultShr (s.getX a) (s.getX b)))

/-- `sar xD, xA, xB` (14 R295). -/
def resultSar (a b : Word64) : Word64 := shiftRightArith a b
def execSar (d a b : XReg) (s : State) : Host.Outcome State Fault Refusal :=
  .next (s.result d (resultSar (s.getX a) (s.getX b)))

/-- `rotr xD, xA, xB` (14 R295). -/
def resultRotr (a b : Word64) : Word64 := rotateRight a b
def execRotr (d a b : XReg) (s : State) : Host.Outcome State Fault Refusal :=
  .next (s.result d (resultRotr (s.getX a) (s.getX b)))

/-- `min xD, xA, xB` (14 R295). -/
def resultMin (a b : Word64) : Word64 := if a.slt b then a else b
def execMin (d a b : XReg) (s : State) : Host.Outcome State Fault Refusal :=
  .next (s.result d (resultMin (s.getX a) (s.getX b)))

/-- `max xD, xA, xB` (14 R295). -/
def resultMax (a b : Word64) : Word64 := if a.slt b then b else a
def execMax (d a b : XReg) (s : State) : Host.Outcome State Fault Refusal :=
  .next (s.result d (resultMax (s.getX a) (s.getX b)))

/-- `minu xD, xA, xB` (14 R295). -/
def resultMinu (a b : Word64) : Word64 := if a.ult b then a else b
def execMinu (d a b : XReg) (s : State) : Host.Outcome State Fault Refusal :=
  .next (s.result d (resultMinu (s.getX a) (s.getX b)))

/-- `maxu xD, xA, xB` (14 R295). -/
def resultMaxu (a b : Word64) : Word64 := if a.ult b then b else a
def execMaxu (d a b : XReg) (s : State) : Host.Outcome State Fault Refusal :=
  .next (s.result d (resultMaxu (s.getX a) (s.getX b)))

/-- `slt xD, xA, xB` (14 R295). -/
def resultSlt (a b : Word64) : Word64 := ofBool (a.slt b)
def execSlt (d a b : XReg) (s : State) : Host.Outcome State Fault Refusal :=
  .next (s.result d (resultSlt (s.getX a) (s.getX b)))

/-- `sltu xD, xA, xB` (14 R295). -/
def resultSltu (a b : Word64) : Word64 := ofBool (a.ult b)
def execSltu (d a b : XReg) (s : State) : Host.Outcome State Fault Refusal :=
  .next (s.result d (resultSltu (s.getX a) (s.getX b)))

/-- `seq xD, xA, xB` (14 R295). -/
def resultSeq (a b : Word64) : Word64 := ofBool (a == b)
def execSeq (d a b : XReg) (s : State) : Host.Outcome State Fault Refusal :=
  .next (s.result d (resultSeq (s.getX a) (s.getX b)))

/-- `clz xD, xA` (14 R295): 64 for a zero operand in `clz` and `ctz`. -/
def resultClz (a : Word64) : Word64 := BitVec.ofNat 64 (leadingZeros a.toNat 64)
def execClz (d a : XReg) (s : State) : Host.Outcome State Fault Refusal :=
  .next (s.result d (resultClz (s.getX a)))

/-- `ctz xD, xA` (14 R295): 64 for a zero operand in `clz` and `ctz`. -/
def resultCtz (a : Word64) : Word64 := BitVec.ofNat 64 (trailingZeros a.toNat 0 64)
def execCtz (d a : XReg) (s : State) : Host.Outcome State Fault Refusal :=
  .next (s.result d (resultCtz (s.getX a)))

/-- `popc xD, xA` (14 R295): 64 for a zero operand in `clz` and `ctz`. -/
def resultPopc (a : Word64) : Word64 := BitVec.ofNat 64 (popCount a.toNat 64)
def execPopc (d a : XReg) (s : State) : Host.Outcome State Fault Refusal :=
  .next (s.result d (resultPopc (s.getX a)))

/-! ## Immediate forms (14 R296) -/

/-- `addi xD, xA, i` (14 R296). -/
def resultAddi (a : Word64) (i : BitVec 16) : Word64 := a + sext64 i
def execAddi (d a : XReg) (i : BitVec 16) (s : State) : Host.Outcome State Fault Refusal :=
  .next (s.result d (resultAddi (s.getX a) i))

/-- `andi xD, xA, i` (14 R296). -/
def resultAndi (a : Word64) (i : BitVec 16) : Word64 := a &&& zext64 i
def execAndi (d a : XReg) (i : BitVec 16) (s : State) : Host.Outcome State Fault Refusal :=
  .next (s.result d (resultAndi (s.getX a) i))

/-- `ori xD, xA, i` (14 R296). -/
def resultOri (a : Word64) (i : BitVec 16) : Word64 := a ||| zext64 i
def execOri (d a : XReg) (i : BitVec 16) (s : State) : Host.Outcome State Fault Refusal :=
  .next (s.result d (resultOri (s.getX a) i))

/-- `xori xD, xA, i` (14 R296). -/
def resultXori (a : Word64) (i : BitVec 16) : Word64 := a ^^^ zext64 i
def execXori (d a : XReg) (i : BitVec 16) (s : State) : Host.Outcome State Fault Refusal :=
  .next (s.result d (resultXori (s.getX a) i))

/-- `shli xD, xA, i` (14 R296). -/
def resultShli (a : Word64) (i : BitVec 6) : Word64 := shiftLeft a (zext64 i)
def execShli (d a : XReg) (i : BitVec 6) (s : State) : Host.Outcome State Fault Refusal :=
  .next (s.result d (resultShli (s.getX a) i))

/-- `shri xD, xA, i` (14 R296). -/
def resultShri (a : Word64) (i : BitVec 6) : Word64 := shiftRight a (zext64 i)
def execShri (d a : XReg) (i : BitVec 6) (s : State) : Host.Outcome State Fault Refusal :=
  .next (s.result d (resultShri (s.getX a) i))

/-- `sari xD, xA, i` (14 R296). -/
def resultSari (a : Word64) (i : BitVec 6) : Word64 := shiftRightArith a (zext64 i)
def execSari (d a : XReg) (i : BitVec 6) (s : State) : Host.Outcome State Fault Refusal :=
  .next (s.result d (resultSari (s.getX a) i))

/-- `slti xD, xA, i` (14 R296). -/
def resultSlti (a : Word64) (i : BitVec 16) : Word64 := ofBool (a.slt (sext64 i))
def execSlti (d a : XReg) (i : BitVec 16) (s : State) : Host.Outcome State Fault Refusal :=
  .next (s.result d (resultSlti (s.getX a) i))

/-- `sltui xD, xA, i` (14 R296). -/
def resultSltui (a : Word64) (i : BitVec 16) : Word64 := ofBool (a.ult (sext64 i))
def execSltui (d a : XReg) (i : BitVec 16) (s : State) : Host.Outcome State Fault Refusal :=
  .next (s.result d (resultSltui (s.getX a) i))

/-- The upper constant of `lui` and `apc` (14 R296). -/
def upper (i : BitVec 21) : Word64 := sext64 i <<< 16

/-- `lui xD, i` (14 R296). -/
def execLui (d : XReg) (i : BitVec 21) (s : State) : Host.Outcome State Fault Refusal := .next (s.result d (upper i))

/-- `apc xD, i` (14 R296). -/
def execApc (d : XReg) (i : BitVec 21) (s : State) : Host.Outcome State Fault Refusal :=
  .next (s.result d (s.pc + upper i))

/-! ## Control transfer (14 R297) -/

/-- Target of a word offset from the PC (01 R19). -/
def target {n : Nat} (pc : Word64) (o : BitVec n) : Word64 := pc + sext64 o * 4

/-- A conditional branch. -/
def State.branch (s : State) (c : Bool) (o : BitVec 16) : State := if c then s.jumpTo (target s.pc o) else s.advance

/-- `beq xA, xB, target` (14 R297). -/
def execBeq (a b : XReg) (o : BitVec 16) (s : State) : Host.Outcome State Fault Refusal :=
  .next (s.branch (s.getX a == s.getX b) o)

/-- `bne xA, xB, target` (14 R297). -/
def execBne (a b : XReg) (o : BitVec 16) (s : State) : Host.Outcome State Fault Refusal :=
  .next (s.branch (s.getX a != s.getX b) o)

/-- `blt xA, xB, target` (14 R297). -/
def execBlt (a b : XReg) (o : BitVec 16) (s : State) : Host.Outcome State Fault Refusal :=
  .next (s.branch ((s.getX a).slt (s.getX b)) o)

/-- `bge xA, xB, target` (14 R297). -/
def execBge (a b : XReg) (o : BitVec 16) (s : State) : Host.Outcome State Fault Refusal :=
  .next (s.branch (!(s.getX a).slt (s.getX b)) o)

/-- `bltu xA, xB, target` (14 R297). -/
def execBltu (a b : XReg) (o : BitVec 16) (s : State) : Host.Outcome State Fault Refusal :=
  .next (s.branch ((s.getX a).ult (s.getX b)) o)

/-- `bgeu xA, xB, target` (14 R297). -/
def execBgeu (a b : XReg) (o : BitVec 16) (s : State) : Host.Outcome State Fault Refusal :=
  .next (s.branch (!(s.getX a).ult (s.getX b)) o)

/-- `jmp target` (14 R297). -/
def execJmp (o : BitVec 26) (s : State) : Host.Outcome State Fault Refusal := .next (s.jumpTo (target s.pc o))

/-- `call target` (14 R297): `x30` takes PC + 4. -/
def execCall (o : BitVec 26) (s : State) : Host.Outcome State Fault Refusal :=
  .next ((s.setX 30 (s.pc + 4)).jumpTo (target s.pc o))

/-- `lpad label` reached other than by `jtab` does nothing (14 R300). -/
def execLpad (_l : BitVec 21) (s : State) : Host.Outcome State Fault Refusal := .next s.advance

/-- `nop` (14 R300). -/
def execNop (s : State) : Host.Outcome State Fault Refusal := .next s.advance

end Sys2Proof.Machine
end

