-- ==== Sys2Proof/Machine/LaneRegs.lean ====
section
/-!
DEFINITION. Lane registers in the Basin: pages, the register page table, forms, reads and writes (09 R190 to R197),
register copy faults (15 R315).
A register's rows always hold its lane values; FORM and BASE stand in the page table entry, since no form is ever
visible in a value (09 R193).
-/
namespace Sys2Proof.Machine

/-- Lane words of a team. -/
def Team.n (t : Team) : Nat := t.ctl.nlw

/-- Registers of a team (09 R190). -/
def Team.nregs (t : Team) : Nat := 8 * t.ctl.nreg

/-- Register slots of a page (09 R191). -/
def Team.slots (t : Team) : Nat := 32 / t.n

/-- Pages of a team: at least 4, then the next even number (09 R191). -/
def pagesFor (nreg n : Nat) : Nat :=
  let m := ceilDiv nreg (32 / n)
  let m := if m < 4 then 4 else m
  m + m % 2

def Team.npg (t : Team) : Nat := pagesFor t.nregs t.n

/-- Fields of a page table entry (09 R192). -/
def Pte.form (e : Word64) : Nat := bits e.toNat 62 2
def Pte.shr (e : Word64) : Bool := bitAt e.toNat 61
def Pte.bank (e : Word64) : Nat := bits e.toNat 52 9
def Pte.rowBase (e : Word64) : Nat := bits e.toNat 47 5
def Pte.base (e : Word64) : Nat := bits e.toNat 0 32

def mkPte (form : Nat) (shr : Bool) (bank rowBase base : Nat) : Word64 :=
  BitVec.ofNat 64 (form * 2 ^ 62 + (if shr then 2 ^ 61 else 0) + bank * 2 ^ 52 + rowBase * 2 ^ 47 + base)

/-- FORM values (09 R192). -/
def Form.full : Nat := 0
def Form.uniform : Nat := 1
def Form.delta8 : Nat := 2
def Form.delta16 : Nat := 3

def Team.pte (t : Team) (r : Nat) : Word64 := Table.get 0 t.l.pt r
def Team.setPte (t : Team) (r : Nat) (e : Word64) : Team := { t with l := { t.l with pt := Table.set 0 t.l.pt r e } }

/-- Row slot of register `r` in its page (09 R191). -/
def Team.rowBase (t : Team) (r : Nat) : Nat := r / t.npg * t.n

/-- A page table that names the bank of each page, every register uniform zero or with the forms of another table
(09 R191, R192). -/
def pageTable (nreg npg n : Nat) (banks : Nat → Nat) (shr : Bool) (old : Table Word64) : Table Word64 :=
  (List.range nreg).foldl (fun t r =>
    let e := Table.get 0 old r
    Table.set 0 t r (mkPte (Pte.form e) shr (banks (r % npg)) (r / npg * n) (Pte.base e))) []

/-- The table of a fresh team: uniform zero. -/
def freshTable (nreg npg n : Nat) (banks : Nat → Nat) : Table Word64 :=
  (List.range nreg).foldl (fun t r => Table.set 0 t r (mkPte Form.uniform false (banks (r % npg)) (r / npg * n) 0)) []

/-- The poison of the 32 lanes of lane word `w` of a register in a form, from the poison of the words of each row it holds: a
uniform register reads no row, and a word of a delta row carries four lanes or two (09 R193). -/
def formPoison (form w : Nat) (held : Nat → BitVec 32) : BitVec 32 :=
  let spread := fun (per : Nat) =>
    let row := held (w / per)
    if row = 0 then 0
    else BitVec.ofNat 32 ((List.range 32).foldl (fun acc p =>
      if bitAt row.toNat (32 / per * (w % per) + p / per) then acc + 2 ^ p else acc) 0)
  match form with
  | 0 => held w
  | 1 => 0
  | 2 => spread 4
  | _ => spread 2

/-- The 32 words of register `r` in lane word `w`, and their poison (09 R193, 22 R372). -/
def Team.regRow (t : Team) (c : Core) (r w : Nat) : BitVec 1024 × BitVec 32 :=
  let e := t.pte r
  (c.row (Pte.bank e) (Pte.rowBase e + w),
    if t.l.badRegs.contains r then BitVec.allOnes 32
    else formPoison (Pte.form e) w fun k => c.rowPoison (Pte.bank e) (Pte.rowBase e + k))

/-- Word `p` of a row of 32. -/
def rowWord (row : BitVec 1024) (p : Nat) : Word32 := BitVec.ofNat 32 (bits row.toNat (32 * p) 32)

/-- A row from 32 words. -/
def rowOf (ws : List Word32) : BitVec 1024 := BitVec.ofNat 1024 (ws.foldr (fun w acc => w.toNat + 2 ^ 32 * acc) 0)

/-- One lane of a register: its value and whether it is poisoned. -/
def Team.regLane (t : Team) (c : Core) (r lane : Nat) : Word32 × Bool :=
  let p := t.regRow c r (lane / 32)
  (rowWord p.1 (lane % 32), bitAt p.2.toNat (lane % 32))

/-- All lane values of a register in lane order. -/
def Team.regLanes (t : Team) (c : Core) (r : Nat) : List (Word32 × Bool) :=
  (List.range t.n).flatMap fun w =>
    let p := t.regRow c r w
    (List.range 32).map fun i => (rowWord p.1 i, bitAt p.2.toNat i)

/-- Rows a register of this form holds (09 R193). -/
def formRows (form n : Nat) : Nat :=
  match form with
  | 0 => n
  | 1 => 0
  | 2 => ceilDiv n 4
  | _ => ceilDiv n 2

/-- The distance of two words modulo 2^32, as signed, without its sign (09 R194). -/
def distance32 (a b : Nat) : Nat :=
  let d := (a + 2 ^ 32 - b) % 2 ^ 32
  if d < 2 ^ 31 then d else 2 ^ 32 - d

/-- The form of a register over all its lanes (09 R194). -/
def chooseForm (vals : List Nat) : Nat × Nat :=
  let b := vals.headD 0
  let d := vals.foldl (fun m v => if m < distance32 v b then distance32 v b else m) 0
  if d = 0 then (Form.uniform, b)
  else if d ≤ 127 then (Form.delta8, b)
  else if d ≤ 32767 then (Form.delta16, b)
  else (Form.full, 0)

/-- The form of a register over all its lanes, a register that holds poison kept in full form (09 R194; log 93). -/
def formOf (lanes : List (Word32 × Bool)) : Nat × Nat :=
  if lanes.any (·.2) then (Form.full, 0) else chooseForm (lanes.map fun p => p.1.toNat)

/-- The poison of the rows of a register's slot, one lane each (09 R193). -/
def Core.setSlotPoison (c : Core) (e : Word64) (n : Nat) (bad : Nat → BitVec 32) : Core :=
  (List.range n).foldl (fun c w => c.setRowPoison (Pte.bank e) (Pte.rowBase e + w) (bad w)) c

/-- Give a register another form: its lanes keep their values and their poison. -/
def setForm (r : Nat) (f : Nat × Nat) : M Unit := do
  let s ← get
  let t := s.cur
  let c := s.core t.core
  let e := t.pte r
  onTeam fun t => t.setPte r (mkPte f.1 (Pte.shr e) (Pte.bank e) (Pte.rowBase e) f.2)
  if Pte.form e ≠ Form.full then
    onCore t.core fun c' => c'.setSlotPoison e t.n fun w => formPoison (Pte.form e) w fun k => c.rowPoison (Pte.bank e) (Pte.rowBase e + k)

/-- Choose a register's form when an instruction that writes it retires, or when a restore loads it (09 R194). -/
def reform (r : Nat) : M Unit := do
  let s ← get
  setForm r (formOf (s.cur.regLanes (s.core s.cur.core) r))

/-- A destination is expanded to full rows at the first pass of the instruction that writes it: `k` lane words of it are
expanded (09 R195 step 1). -/
def expandReg (r k : Nat) : M Unit := do
  let t := (← get).cur
  if Pte.form (t.pte r) ≠ Form.full then
    setForm r (Form.full, 0)
    bump t.core 8 k

/-- Registers of the page of register `r`. -/
def Team.pageMates (t : Team) (r : Nat) : List Nat := (List.range t.nregs).filter fun k => k % t.npg == r % t.npg

/-- The first write to a register of a shared page copies the page to a bank of the team's own (15 R315). -/
def copyFault (r : Nat) : M Unit := do
  let s ← get
  let t := s.cur
  if !Pte.shr (t.pte r) then return
  let c := s.core t.core
  match c.freeBanks with
  | [] => waitFor .basin
  | b :: _ =>
    let old := Pte.bank (t.pte r)
    onCore t.core fun c =>
      let c1 := (List.range 32).foldl (fun c i => c.setRow b i (c.row old i)) ((c.clearBank b).setBank b (.reg t.uid))
      -- only the rows that a register's form holds are copied
      (t.pageMates r).foldl (fun c' k =>
        let e := t.pte k
        (List.range (formRows (Pte.form e) t.n)).foldl (fun c' i =>
          c'.setRowPoison b (Pte.rowBase e + i) (c.rowPoison old (Pte.rowBase e + i))) c') c1
    onTeam fun t => (t.pageMates r).foldl (fun t k =>
      let e := t.pte k
      t.setPte k (mkPte (Pte.form e) false b (Pte.rowBase e) (Pte.base e))) t
    bump t.core 9 1

/-- Write the lanes of `mask` of register `r` in lane word `w` (09 R195 step 2): the copy fault of a shared page has been taken,
and the register has been expanded. -/
def putRow (r w : Nat) (mask : BitVec 32) (row : BitVec 1024) : M Unit := do
  let s ← get
  let t := s.cur
  let e := t.pte r
  let c := s.core t.core
  let old := c.row (Pte.bank e) (Pte.rowBase e + w)
  let full := mask == BitVec.allOnes 32
  let new := if full then row else
    rowOf ((List.range 32).map fun i => if bitAt mask.toNat i then rowWord row i else rowWord old i)
  let pois := c.rowPoison (Pte.bank e) (Pte.rowBase e + w) &&& ~~~mask
  onCore t.core fun c =>
    (c.setRow (Pte.bank e) (Pte.rowBase e + w) new).setRowPoison (Pte.bank e) (Pte.rowBase e + w) pois

/-- Read cycles beyond the first of one pass over these registers (09 R196): the distinct rows read from one bank. -/
def Team.readConflicts (t : Team) (regs : List Nat) (w : Nat) : Nat :=
  let rows := regs.filterMap fun r =>
    let e := t.pte r
    match Pte.form e with
    | 0 => some (Pte.bank e, Pte.rowBase e + w)
    | 1 => none
    | 2 => some (Pte.bank e, Pte.rowBase e + w / 4)
    | _ => some (Pte.bank e, Pte.rowBase e + w / 2)
  let rows := rows.eraseDups
  let worst := rows.foldl (fun m p =>
    let k := (rows.filter fun q => q.1 == p.1).length
    if m < k then k else m) 0
  ceilDiv worst 2 - 1

/-! ## Masks (09 R199, 12 R247) -/

/-- A mask register of a team. -/
def Team.maskReg (t : Team) (m : Nat) : MaskWord := Table.get 0 t.l.m m

/-- Mask word `w`. -/
def maskWord (m : MaskWord) (w : Nat) : BitVec 32 := BitVec.ofNat 32 (bits m.toNat (32 * w) 32)

/-- The summary word: bit `w` when mask word `w` is not zero (12 R247). -/
def summaryOf (m : MaskWord) : BitVec 32 :=
  BitVec.ofNat 32 ((List.range 32).foldl (fun acc w => if maskWord m w = 0 then acc else acc + 2 ^ w) 0)

/-- Lanes of a governing mask that are active and not dead in lane word `w` (09 R199). -/
def Team.active (t : Team) (m w : Nat) : BitVec 32 := maskWord (t.maskReg m) w &&& ~~~(maskWord t.l.dead w)

/-- Lanes of a governing mask that are active and not dead (09 R199). -/
def Team.activeLanes (t : Team) (m : Nat) : MaskWord := t.maskReg m &&& ~~~t.l.dead &&& allLanes t.n

/-- Write a mask register. -/
def Team.setMask (t : Team) (m : Nat) (v : MaskWord) : Team :=
  { t with l := { t.l with m := Table.set 0 t.l.m m v } }

end Sys2Proof.Machine
end

