-- ==== Sys2Proof/Machine/Life.lean ====
section
/-!
DEFINITION. What a team and its launch hold: banks and images on cores (15 R313, R317, 20 R349, R350), the counts of a
launch (15 R318, 16 R334), the end of a team (15 R325, 21 R354), swap-out and restore (21 R356 to R360).
-/
namespace Sys2Proof.Machine

/-! ## Launch records (16 R330) and kernel descriptors (16 R331) -/

/-- Word `w` of a launch record or kernel descriptor. -/
def recWord (r : BitVec 1024) (w : Nat) : Nat := bits r.toNat (64 * w) 64

def Launch.word (l : Launch) (w : Nat) : Nat := recWord l.record w
def Launch.ctx (l : Launch) : Nat := bits (l.word 12) 58 6
def Launch.recTenant (l : Launch) : Nat := bits (l.word 12) 54 4
def Launch.recQueue (l : Launch) : Nat := bits (l.word 12) 51 3
def Launch.prio (l : Launch) : Nat := bits (l.word 12) 48 3
def Launch.paired (l : Launch) : Bool := bitAt (l.word 12) 47
def Launch.preempt (l : Launch) : Bool := bitAt (l.word 12) 46
def Launch.nx (l : Launch) : Nat := bits (l.word 1) 0 32
def Launch.ny (l : Launch) : Nat := bits (l.word 1) 32 32
def Launch.nz (l : Launch) : Nat := bits (l.word 2) 0 32
def Launch.prows (l : Launch) : Nat := bits (l.word 3) 60 4
def Launch.pcols (l : Launch) : Nat := bits (l.word 3) 56 4
def Launch.nstage (l : Launch) : Nat := bits (l.word 3) 52 4
def Launch.swt (l : Launch) (k : Nat) : Nat := bits (l.word 3) (20 + 4 * k) 4
def Launch.qcap (l : Launch) (k : Nat) : Nat := (if k < 5 then bits (l.word 4) (12 * k) 12 else bits (l.word 5) (12 * (k - 5)) 12) + 1
def Launch.cctr (l : Launch) : Nat := bits (l.word 10) 0 12
def Launch.hasCctr (l : Launch) : Bool := bitAt (l.word 10) 63
def Launch.caddr (l : Launch) : Word64 := BitVec.ofNat 64 (l.word 11)
def Launch.tag (l : Launch) : Nat := l.word 13

def Launch.kword (l : Launch) (w : Nat) : Nat := recWord l.kdesc w
def Launch.gang (l : Launch) : Bool := bitAt (l.kword 4) 44
/-- Lane words, registers / 8 and g of the kernel (16 R331). -/
def Launch.lanes (l : Launch) : Nat := bits (l.kword 4) 52 5 + 1
def Launch.nreg8 (l : Launch) : Nat := bits (l.kword 4) 47 5
def Launch.privg (l : Launch) : Nat := bits (l.kword 4) 45 2 + 1
def Launch.tpages (l : Launch) : Nat := bits (l.kword 4) 57 7
def Launch.stent (l : Launch) (k : Nat) : Nat := bits l.kdesc.toNat (8 * (0x28 + 4 * k)) 32

/-- Instances of each stage (15 R308). -/
def Launch.total (l : Launch) : Nat := l.nx * l.ny * l.nz

def State.launch? (s : State) (id : Nat) : Option Launch := s.launches.find? fun l => l.id == id
def State.onLaunch (s : State) (id : Nat) (f : Launch → Launch) : State :=
  { s with launches := s.launches.map fun l => if l.id = id then f l else l }

def StageRun.init : StageRun := { clusters := [], cores := [], next := 0, again := [], ended := 0, top := 0, opening := [] }

def Launch.stage (l : Launch) (k : Nat) : StageRun := l.stages.getD k StageRun.init
def Launch.onStage (l : Launch) (k : Nat) (f : StageRun → StageRun) : Launch :=
  { l with stages := l.stages.mapIdx fun i g => if i = k then f g else g }

/-! ## Banks and images -/

/-- Lowest start, a multiple of `align`, of a run of `n` FREE banks. -/
def Core.freeRun (c : Core) (n align : Nat) : Option Nat :=
  let free := c.freeBanks
  (List.range numBanks).find? fun b =>
    decide (b % align = 0 ∧ b + n ≤ numBanks) && (List.range n).all fun i => free.contains (b + i)

/-- Take a run of banks in a state, their rows cleared: the spec gives a fresh private region no contents (log 103). -/
def Core.take (c : Core) (b n : Nat) (st : BankState) : Core :=
  (List.range n).foldl (fun c i => (c.clearBank (b + i)).setBank (b + i) st) c

/-- Return a run of banks. -/
def Core.release (c : Core) (b n : Nat) : Core :=
  (List.range n).foldl (fun c i => (c.clearBank (b + i)).setBank (b + i) .free) c

/-- The copy of an image that a core holds. -/
def State.copyOn (s : State) (image core : Nat) : Option ImageCopy :=
  s.copies.find? fun c => decide (c.image = image ∧ c.core = core)

def State.image? (s : State) (id : Nat) : Option Image := s.images.find? fun i => i.id == id

/-- The bank that holds a content number on a core. -/
def State.contentBank (s : State) (core id : Nat) : Option Nat :=
  let c := s.core core
  (List.range numBanks).find? fun b => (c.bank b).owner == some id

/-- The bank of a role of an image on a core. -/
def State.roleBank (s : State) (image core : Nat) (p : ImageRole → Bool) : Option Nat :=
  match s.image? image, s.copyOn image core with
  | some i, some c => (i.banks.zip c.banks).findSome? fun q => if p q.1.role then some q.2 else none
  | _, _ => none

/-- The bank of a template page a team reads: its own copy, or its template's image (15 R314). -/
def State.templateBank (s : State) (t : Team) (page : Nat) : Option Nat :=
  match t.h.copies.find? fun b => b.page == page with
  | some b => some b.bank
  | none => match t.image with
    | some i => s.roleBank i t.core fun r => r == .tmplPage page
    | none => none

/-! ## The save pool (21 R360) -/

/-- Blocks of 64 KiB an image takes: its banks, 16 bytes for each pending update, 4 KiB for the rest (21 R356, R360; log 21). -/
def SavedTeam.blocks (v : SavedTeam) : Nat := ceilDiv (4096 * v.banks.length + 16 * v.pend.length + 4096) 65536

/-- Blocks of 64 KiB an image in the save pool takes. -/
def Image.blocks (i : Image) : Nat := ceilDiv (4096 * i.banks.length + 4096) 65536

/-- An image lies in the save pool: its launch is swapped out, or no core holds it and a swapped team needs it (15 R317). -/
def State.imageSaved (s : State) (i : Image) : Bool :=
  (match s.launch? i.launch with | some l => l.status == .swapped | none => false)
    || (!(s.copies.any fun c => c.image == i.id) && s.allTeams.any fun t => t.image == some i.id && t.saved.isSome)

/-- Blocks of the save pool (21 R360, 26 R419). -/
def State.saveBlocks (s : State) : Nat := s.dev.saveFrames * 32

/-- A run of the pool still holds an image: one that has been restored or discarded has given its blocks back (21 R360). -/
def State.poolHolds (s : State) (r : PoolRun) : Bool :=
  match r.who with
  | .team uid => (match s.team? uid with | some t => t.saved.isSome | none => false)
  | .image id => (match s.image? id with | some i => s.imageSaved i | none => false)

/-- The runs of the save pool in use. -/
def State.poolInUse (s : State) : List PoolRun := s.dev.pool.filter s.poolHolds

/-- Images that have been restored or discarded give their blocks back. -/
def State.prunePool (s : State) : State := { s with dev := { s.dev with pool := s.poolInUse } }

/-- The lowest first block of a free run of `n` blocks of a pool of `size`: block 0, or the end of a run in use. -/
def poolPlace (used : List PoolRun) (size n : Nat) : Option Nat :=
  let fits := (0 :: used.map fun r => r.first + r.count).filter fun b =>
    decide (b + n ≤ size) && used.all fun r => decide (b + n ≤ r.first ∨ r.first + r.count ≤ b)
  fits.foldl (fun best b => match best with
    | none => some b
    | some m => if b < m then some b else some m) none

/-- The rows of blocks of the save pool are opened: an image is written there (03 R77). -/
def State.touchPool (s : State) (first count : Nat) : State :=
  s.touchAll ((List.range (count * 2048)).map fun i => (s.dev.saveBase + first * 65536) / 32 + i)

/-- Take one run of blocks for an image; the swap-out waits where no run is free (21 R360). -/
def takePool (who : PoolOwner) (n : Nat) : M Unit := do
  let s ← get
  let used := s.poolInUse
  match poolPlace used s.saveBlocks n with
  | none => waitFor .save
  | some b =>
    modify fun s => State.touchPool { s with dev := { s.dev with pool := used ++ [{ first := b, count := n, who := who }] } } b n

/-- Every template image that lies in the save pool has its run there. -/
def savePoolImages : M Unit := do
  let s ← get
  (s.images.filter fun i => s.imageSaved i && !s.dev.pool.any fun r => r.who == .image i.id).forM fun i =>
    takePool (.image i.id) i.blocks

/-- A computation that waits for the save pool leaves everything as it was: the team stays resident with its version (21 R360). -/
def whole (m : M Unit) : M Unit := fun s =>
  match m s with
  | .error (.wait .save) _ => .error (.wait .save) s
  | o => o

/-- A loop spans the four cores of its cluster (13 R284). -/
def Loop.spans (l : Loop) : Bool := bitAt ((l.desc.getD 0 0).toNat) 52

/-- A team has a loop that spans its cluster, running or saved. -/
def State.spansCluster (s : State) (t : Team) : Bool :=
  ((s.cluster t.cluster).loops.any fun l => l.uid == t.uid && l.spans) || t.saved.any fun v => v.loops.any Loop.spans

/-! ## Copies of images -/

/-- Place one bank of an image on a core: the bank that already holds its content, or a fresh copy (20 R349, R350). -/
def copyBank (core : Nat) (b : ImageBank) (at_ : Option Nat) : M Nat := do
  let s ← get
  match s.contentBank core b.id with
  | some k => return k
  | none =>
    let c := s.core core
    let place := match at_ with
      | some k => if c.bank k = .free then some k else none
      | none => c.freeBanks.head?
    match place with
    | none => waitFor .basin
    | some k =>
      match b.role with
      | .regPage _ => pure ()
      | .tmplPage _ => waitUnless c.stashRoom .basin
      | .region _ _ => waitUnless (c.statRoom 1) .basin
      let st : BankState := match b.role with | .regPage _ => .reg b.id | .tmplPage _ => .stash b.id | .region _ _ => .stat b.id
      onCore core fun c =>
        let c1 := (c.clearBank k).setBank k st
        let c2 := b.rows.foldl (fun (c : Core) (p : Nat × BitVec 1024) => c.setRow k p.1 p.2) c1
        b.poison.foldl (fun (c : Core) (p : Nat × BitVec 32) => c.setRowPoison k p.1 p.2) c2
      return k

/-- Copy an image to a core that does not hold it (15 R313, 20 R349): the stationary regions take the banks their `wset` named
before the pages take the lowest FREE ones. -/
def spreadTo (i : Image) (core : Nat) : M Unit := do
  if ((← get).copyOn i.id core).isSome then return
  let firstOf := fun (num : Nat) => ((i.regions.find? fun r => r.num == num).map (·.first)).getD 0
  let fixed ← i.banks.mapM fun b => match b.role with
    | .region num idx => do return some (← copyBank core b (some (firstOf num + idx)))
    | _ => pure none
  let banks ← (i.banks.zip fixed).mapM fun q => match q.2 with
    | some k => pure k
    | none => copyBank core q.1 none
  modify fun s => State.prunePool { s with copies := s.copies ++ [{ image := i.id, core := core, banks := banks }] }

/-- The rows of a bank, by row number. -/
def Core.bankRows (c : Core) (b : Nat) : Table (BitVec 1024) :=
  (c.basin.filter fun (p : Nat × BitVec 1024) => p.1 / 32 == b).map fun p => (p.1 % 32, p.2)
def Core.bankPoison (c : Core) (b : Nat) : Table (BitVec 32) :=
  (c.poison.filter fun (p : Nat × BitVec 32) => p.1 / 32 == b).map fun p => (p.1 % 32, p.2)

/-- A team is about to be restored to its core: it came back with its launch (21 R359). -/
def Team.returning (t : Team) : Bool := t.status == .swapped && t.cause.isNone

/-- Instances of a stage are still to be stamped, or those of a paired launch may have to be stamped again after a mismatch (15 R317,
22 R386). -/
def Launch.stampsMore (l : Launch) (k : Nat) : Bool :=
  let g := l.stage k
  decide (g.next < l.total) || g.again != [] || (l.paired && decide (g.ended < l.total))

/-- A copy of an image is still needed on its core (15 R317); a loop that spans the cluster and a team that comes back with its launch
also need it (13 R284, 21 R359; log 119, DEDUCED). -/
def State.copyNeeded (s : State) (c : ImageCopy) (i : Image) : Bool :=
  let resident := s.allTeams.any fun t => t.image == some i.id &&
    ((t.id.core == c.core && (t.status == .ready || t.status == .waiting || t.returning))
      || (t.cluster == c.core / 4 && s.spansCluster t && (t.status == .ready || t.status == .waiting || t.returning)))
  let l := s.launch? i.launch
  let g := (l.map fun l => l.stage i.stage).getD StageRun.init
  if i.level = 2 then
    -- the launch template's image stays until every cluster template stamped from it has been freed
    resident || s.images.any (fun j => j.parent == some i.id) || g.opening != [] || s.allTeams.any (fun t => t.image == some i.id)
  else resident || (l.any (fun l => l.stampsMore i.stage) && g.cores.contains c.core)

/-- An image is still needed by some team, resident or swapped, or by instances to come. -/
def State.imageNeeded (s : State) (i : Image) : Bool :=
  s.copies.any (fun c => c.image == i.id) || s.allTeams.any (fun t => t.image == some i.id && t.status != .ended)
    || s.images.any (fun j => j.parent == some i.id)
    || (match s.launch? i.launch with
        | some l => decide (l.status = .swapped) || (decide (i.level = 1) && l.stampsMore i.stage && (l.stage i.stage).clusters.contains i.cluster)
            || (decide (i.level = 2) && (l.stage i.stage).opening != [])
        | none => false)

/-- Give back the shared banks of a core whose contents no copy on it names. -/
def State.freeShared (s : State) (core : Nat) : State :=
  let live := (s.copies.filter fun c => c.core == core).flatMap (·.banks)
  let c := s.core core
  let shared := (s.images.flatMap fun i => i.banks.map (·.id))
  let dead := (List.range numBanks).filter fun b =>
    !live.contains b && (match (c.bank b).owner with | some o => shared.contains o | none => false)
  if dead = [] then s else s.setCore core (dead.foldl (fun c b => c.release b 1) c)

/-- Free the copies and images that are no longer needed (15 R317). -/
def State.releaseImages (s : State) : State :=
  if s.images = [] then s
  else
    let keep := s.copies.filter fun c => match s.image? c.image with | some i => s.copyNeeded c i | none => false
    let gone := s.copies.filter fun c => !(match s.image? c.image with | some i => s.copyNeeded c i | none => false)
    let s1 := gone.foldl (fun s c => s.freeShared c.core) { s with copies := keep }
    let s2 := { s1 with images := s1.images.filter fun i => s1.imageNeeded i }
    -- the launch template's image goes once its cluster templates have gone
    let keep2 := s2.copies.filter fun c => match s2.image? c.image with | some i => s2.copyNeeded c i | none => false
    let gone2 := s2.copies.filter fun c => !(match s2.image? c.image with | some i => s2.copyNeeded c i | none => false)
    let s3 := gone2.foldl (fun s c => s.freeShared c.core) { s2 with copies := keep2 }
    { s3 with images := s3.images.filter fun i => s3.imageNeeded i }

/-! ## Team slots -/

/-- A team holds a slot (15 R310). -/
def Team.resident (t : Team) : Bool := t.status == .ready || t.status == .waiting

/-- Teams resident on a core. -/
def State.residents (s : State) (core : Nat) : List Team := s.allTeams.filter fun t => t.resident && t.id.core == core

/-- The lowest free slot of a core. -/
def State.freeSlot (s : State) (core : Nat) : Option Nat :=
  let used := (s.residents core).map fun t => t.id.slot
  (List.range 16).find? fun k => !used.contains k

/-- A core is in service: LCMAP holds it (22 R387). -/
def State.inService (s : State) (core : Nat) : Bool := bitAt s.dev.lcmap.toNat core

/-- A core takes teams: it is in service and not under scan (22 R387). -/
def State.serves (s : State) (core : Nat) : Bool := s.inService core && !(s.core core).scanning

/-- Free slots of a core that serves. -/
def State.freeSlots (s : State) (core : Nat) : Nat := if s.serves core then 16 - (s.residents core).length else 0

/-! ## The end of a team -/

/-- Take a team's engines' work from its core and cluster: Runnel operations, loops, FIFOs, events. -/
def removeEngines (t : Team) : M Unit := do
  onCore t.core fun c =>
    { c with
      runnels := c.runnels.filter fun r => r.uid != t.uid
      fifos := c.fifos.filter fun f => f.uid != t.uid
      events := c.events.filter fun e => e.uid != t.uid
      waitingEvents := c.waitingEvents.filter fun e => e.uid != t.uid }
  onCluster t.cluster fun c => { c with loops := c.loops.filter fun l => l.uid != t.uid }

/-- The counter reached from `v` with the ended numbers of a timeline. -/
def reachFrom (done : List (Nat × Nat)) (n v : Nat) : Nat → Nat
  | 0 => v
  | fuel + 1 => if done.contains (n, v + 1) then reachFrom done n (v + 1) fuel else v

/-- Operation `k` on timeline `n` has ended: the counter holds the highest number below which every operation has ended
(07 R169). -/
def Holdings.ended (h : Holdings) (n k : Nat) : Holdings :=
  let done := (n, k) :: h.tlDone
  let v := reachFrom done n (h.tl.getD n 0) done.length
  { h with tl := h.tl.set n v, tlDone := done.filter fun p => !(decide (p.1 = n ∧ p.2 ≤ v)) }

/-- Every Runnel operation and loop has ended, and the Cascade commands of a list of numbers have. -/
def Holdings.endAll (h : Holdings) (cascades : List Nat) : Holdings :=
  cascades.foldl (fun h k => h.ended 7 k)
    { h with
      tl := h.tl.mapIdx fun n v => if n < 7 then h.tlIssued.getD n v else v
      tlDone := h.tlDone.filter fun p => p.1 == 7 }

/-- Cancel a team's engines (08 R189, 13 R289); its accepted Cascade passes complete (03 R91). An operation that is cancelled has ended:
its timeline counts it (07 R169). -/
def cancelEngines (t : Team) : M Unit := do
  removeEngines t
  let gone := ((← get).cascades.filter fun c => c.uid == t.uid && c.queue == []).map (·.num)
  onUid t.uid fun t => { t with h := t.h.endAll gone }
  modify fun s => { s with
    cascades := (s.cascades.filter fun c => c.uid != t.uid || c.queue != []).map fun c =>
      if c.uid = t.uid then { c with growing := false } else c }

/-- Return every bank of a team's own to FREE (15 R325, 20 R348). -/
def freeOwnBanks (t : Team) : M Unit :=
  onCore t.core fun c =>
    ((List.range numBanks).filter fun b => (c.bank b).owner == some t.uid).foldl (fun c b => c.release b 1) c

/-- Count an ended task in its launch (15 R318, 16 R334): `trapped`, or its exit status. -/
def countEnd (t : Team) (trapped : Bool) (status : Nat) : M Unit :=
  modify fun s => s.onLaunch t.id.launch fun l =>
    let low := fun (l : Launch) => if trapped && decide (t.id.task < l.first) then { l with first := t.id.task } else l
    let bad := fun (l : Launch) (n : Nat) =>
      if trapped then { l with failed := l.failed + n } else if status ≠ 0 then { l with nonzero := l.nonzero + n } else l
    if t.ctl.level = 0 then
      if t.paired.role = 2 then l
      else low (bad (l.onStage t.id.stage fun g => { g with ended := g.ended + 1 }) 1)
    else if t.ctl.level = 2 then
      low (bad (l.onStage t.id.stage fun g => { g with next := l.total, ended := l.total, top := 3, opening := [] }) l.total)
    else
      let cl := t.cluster
      let l1 := l.onStage t.id.stage fun g =>
        { g with opening := g.opening.filter fun c => c != cl, cores := g.cores.filter fun c => c / 4 != cl }
      let g := l1.stage t.id.stage
      let open_ := g.opening != [] || s.images.any fun i => i.launch == l.id && i.stage == t.id.stage && i.level == 1
      if open_ then low l1
      else
        let left := l.total - g.next
        low (bad (l1.onStage t.id.stage fun g => { g with next := l.total, ended := g.ended + left }) left)

/-- The images that are no longer needed are freed, and those that swapped teams still need are saved (15 R317). While the save pool
has no room for them, they stay on their cores (21 R360). -/
def freeImages : M Unit := fun s =>
  match savePoolImages s.releaseImages.prunePool with
  | .ok u s1 => .ok u s1
  | .error _ _ => .ok () s.prunePool

/-- The team is gone: its slot is free (15 R325). -/
def dropTeam (uid : Nat) : M Unit := do
  modify fun s =>
    if s.cur.uid = uid then { s with cur := Team.vacant } else { s with teams := s.teams.filter fun t => t.uid != uid }
  freeImages

/-- Free what the task holds and end it. -/
def endTeam (t : Team) : M Unit := do
  cancelEngines t
  freeOwnBanks t
  dropTeam t.uid

/-! ## Swap-out and restore -/

/-- The registers that outstanding accesses have to write (14 R294). -/
def settleScalar (c : Scalar) : Scalar :=
  c.outs.foldl (fun c o =>
    let c1 := match o.val with | some v => { c with x := if o.rd = 0 then c.x else Table.set 0 c.x o.rd v } | none => c
    match o.val2 with
    | some v => { c1 with x := if o.rd + 1 < 32 then Table.set 0 c1.x (o.rd + 1) v else c1.x }
    | none => c1) { c with outs := [] }

/-- Every atomic of the team has come back, every accepted Cascade pass has completed, its loops hold no step that has not landed,
and its release in progress has committed (14 R294, 06 R151, 03 R91, 13 R288, 07 R173): what is left of such a pass or word, it does
when it goes on. A Cascade command whose passes are not all
accepted stops at a pass boundary and keeps its number: `tl7` covers the others (03 R91, log 111). -/
def State.mayStop (s : State) (t : Team) : Bool :=
  t.s.outs.all (fun o => o.val.isSome) && t.l.flight.all (fun f => f.left == 0)
    && (s.cascades.all fun c => c.uid != t.uid || (c.growing && c.queue == []))
    && ((s.cluster t.cluster).loops.all fun l => l.uid != t.uid || l.sums == [])
    && (match t.s.phase with | .published n => decide (n ≤ s.commitPoint) | _ => true)

/-- A release of the team has its PSN: it completes before the team stops (07 R173). -/
def Phase.isPublished : Phase → Bool
  | .published _ => true
  | _ => false

/-- A team of a launch whose pre-emption is under way issues nothing more than the word that completes a publication (16 R339, 07 R173). -/
def State.stopsNow (s : State) (t : Team) (lane : Bool) : Bool :=
  (match s.launch? t.id.launch with | some l => l.stopping | none => false) && (lane || !t.s.phase.isPublished)

/-- Loops of a team lose their grants and their entries (13 R288). -/
def Cluster.ungrant (c : Cluster) (uid : Nat) : Cluster :=
  { c with loops := c.loops.map fun l => if l.uid = uid then { l with granted := false, entry := false } else l }

/-- A private update of a team. -/
def Pending.ownOf (p : Pending) (uid : Nat) : Bool := p.uid == uid && p.pub == none

/-- The image of a team (21 R358): its banks, its private updates, its FIFOs, events, engine operations and loops. -/
def State.savedOf (s : State) (t : Team) : SavedTeam :=
  let c := s.core t.core
  let k := s.cluster t.cluster
  { banks := ((List.range numBanks).filter fun b => (c.bank b).owner == some t.uid).map fun b =>
      { bank := b, rows := c.bankRows b, poison := c.bankPoison b }
    pend := (k.weir.filter fun p => p.ownOf t.uid).map fun p => { p with spilled := none }
    fifos := c.fifos.filter fun f => f.uid == t.uid
    events := c.events.filter fun e => e.uid == t.uid
    waitingEvents := c.waitingEvents.filter fun e => e.uid == t.uid
    runnels := c.runnels.filter fun r => r.uid == t.uid
    loops := k.loops.filter fun l => l.uid == t.uid }

/-- Save a team and swap it out (21 R356, R358): dirty sectors appended, cluster-level updates published, private ones
saved with the image in one run of the save pool. The updates of its last dirty sectors go straight to the image, so a full buffer
and spill area do not hold the swap-out of R62 back. -/
def swapOut (uid : Nat) (why : SwapCause) : M Unit := whole do
  match (← get).team? uid with
  | none => pure ()
  | some t =>
    waitUnless ((← get).mayStop t) .drain
    appendWhere t.cluster { keep := true, image := true } fun d => d.uid == uid
    publishClusterLevel t
    let v := (← get).savedOf t
    onCluster t.cluster fun k => { k with weir := k.weir.filter fun p => !p.ownOf uid }
    removeEngines t
    freeOwnBanks t
    bump t.core 13 1
    onUid uid fun t => { t with status := .swapped, cause := some why, saved := some v, s := settleScalar t.s }
    takePool (.team uid) v.blocks
    modify fun s => s.releaseImages
    savePoolImages

/-- Where a saved bank goes: kept numbers for own regions, a run for the private region and for a tile, else the lowest FREE
bank (21 R357, 09 R191). The answer pairs old and new numbers. -/
def placeBanks (t : Team) (v : SavedTeam) (core : Nat) : M (List (Nat × Nat)) := do
  let take := fun (b n : Nat) (st : BankState) => onCore core fun c => c.take b n st
  -- own regions keep their numbers
  let regs := t.h.regions.filter fun r => !r.inherited
  regs.forM fun r => do
    let c := (← get).core core
    waitUnless (c.statRoom r.count) .basin
    waitUnless ((List.range r.count).all fun i => c.bank (r.first + i) == .free) .basin
    take r.first r.count (.stat t.uid)
  let keep := regs.flatMap fun r => (List.range r.count).map fun i => (r.first + i, r.first + i)
  -- the private region
  let priv ← (match t.h.privBase with
    | none => pure []
    | some b => do
      match ((← get).core core).freeRun (32 * t.kern.g) 32 with
      | none => waitFor .basin
      | some nb =>
        take nb (32 * t.kern.g) (.priv t.uid)
        return (List.range (32 * t.kern.g)).map fun i => (b + i, nb + i))
  -- tiles
  let tiles ← t.h.tiles.foldlM (fun (acc : List (Nat × Nat)) q => do
    let n := ceilDiv (q.rows * q.cols) 1024
    match ((← get).core core).freeRun n 1 with
    | none => waitFor .basin
    | some nb =>
      take nb n (.acc t.uid)
      return acc ++ (List.range n).map fun i => (q.first + i, nb + i)) []
  let done := keep ++ priv ++ tiles
  let stash := t.h.stash.map (·.bank) ++ t.h.copies.map (·.bank)
  let rest := v.banks.filter fun b => !(done.any fun p => p.1 == b.bank)
  rest.foldlM (fun (acc : List (Nat × Nat)) b => do
    match ((← get).core core).freeBanks with
    | [] => waitFor .basin
    | nb :: _ =>
      if stash.contains b.bank then waitUnless ((← get).core core).stashRoom .basin
      take nb 1 (if stash.contains b.bank then .stash t.uid else .reg t.uid)
      return acc ++ [(b.bank, nb)]) done

/-- The new number of a bank. -/
def newBank (m : List (Nat × Nat)) (b : Nat) : Nat := ((m.find? fun p => p.1 == b).map (·.2)).getD b

/-- Loops of a cluster that hold an entry of the reservation table or wait for one: those of teams that are not halted (13 R285,
R288). -/
def State.tableUse (s : State) (cl : Nat) : Nat :=
  ((s.cluster cl).loops.filter fun l => match s.team? l.uid with | some t => !t.dbg.halted | none => true).length

/-- Saved updates join the buffer of a cluster, and its spill area once the buffer is full (21 R357, 02 R62). -/
def reloadPending (cl : Nat) (ps : List Pending) : M Unit :=
  ps.forM fun p => do
    let c := (← get).cluster cl
    let full := decide (weirCap ≤ c.inBuffer)
    waitUnless (!full || decide (c.inSpill < spillCap)) .space
    if full then writeSpill cl c.spillSlot
    onCluster cl fun c => { c with weir := c.weir ++ [{ p with spilled := if full then some c.spillSlot else none }] }

/-- Restore a swapped team to a core (21 R357): its image, its version, its registers in the forms their values choose (09 R194),
then a device-scope acquire. It waits where the core lacks a slot, banks, slots for its engine operations (08 R174) or room for its
event records (08 R186), or its cluster room for its loops (13 R285) or its updates. An operation that an engine had taken is taken
again (08 R174). The bank numbers of its copied records stay as they were at issue (08 R189, log 119, DESIGN CHOICE). -/
def restoreTeam (uid core : Nat) : M Unit := do
  match (← get).team? uid with
  | none => pure ()
  | some t =>
    match t.saved with
    | none => pure ()
    | some v =>
      waitUnless (decide (0 < (← get).freeSlots core)) .basin
      let slot := ((← get).freeSlot core).getD 0
      -- the template's image
      match t.image with
      | some i => match (← get).image? i with
        | some im =>
          spreadTo im core
          if v.loops.any Loop.spans then (List.range 4).forM fun k => spreadTo im (core / 4 * 4 + k)
        | none => pure ()
      | none => pure ()
      let m ← placeBanks t v core
      onCore core fun c =>
        v.banks.foldl (fun c b =>
          let nb := newBank m b.bank
          let c1 := b.rows.foldl (fun (c : Core) (p : Nat × BitVec 1024) => c.setRow nb p.1 p.2) c
          b.poison.foldl (fun (c : Core) (p : Nat × BitVec 32) => c.setRowPoison nb p.1 p.2) c1) c
      let s ← get
      let cl := core / 4
      let c := s.core core
      waitUnless (decide (c.runnels.length + v.runnels.length ≤ 192 ∧ c.events.length + v.events.length ≤ 256)) .engine
      reloadPending cl v.pend
      onCluster cl fun k => { k with loops := k.loops ++ v.loops.map fun l => { l with granted := false, entry := false, started := l.done } }
      onCore core fun c =>
        { c with fifos := c.fifos ++ v.fifos, events := c.events ++ v.events
                 runnels := c.runnels ++ v.runnels.map fun r => { r with started := r.ended }
                 waitingEvents := c.waitingEvents ++ v.waitingEvents }
      let s ← get
      let bankOf := fun (r : Nat) (e : Word64) =>
        if Pte.shr e then
          match t.image with
          | some i => (s.roleBank i core fun q => q == .regPage (r % t.npg)).getD (Pte.bank e)
          | none => Pte.bank e
        else newBank m (Pte.bank e)
      let pt := (List.range t.nregs).foldl (fun (p : Table Word64) r =>
        let e := t.pte r
        Table.set 0 p r (mkPte (Pte.form e) (Pte.shr e) (bankOf r e) (Pte.rowBase e) (Pte.base e))) []
      let page := fun (b : PageBank) => { b with bank := newBank m b.bank }
      onUid uid fun t =>
        { t with
          status := if t.waits.isSome || t.dbg.halted then .waiting else .ready
          cause := none, saved := none
          id := { t.id with core := core, slot := slot }
          l := { t.l with pt := pt }
          h := { t.h with
            privBase := t.h.privBase.map (newBank m)
            tiles := t.h.tiles.map fun q => { q with first := newBank m q.first }
            stash := t.h.stash.map page, copies := t.h.copies.map page } }
      modify fun s => s.focus uid
      (List.range t.nregs).forM fun r => if Pte.shr (t.pte r) then pure () else reform r
      freeImages
      acquireDevice (← getTeam)

end Sys2Proof.Machine
end

