-- ==== Sys2Proof/Machine/Sha3.lean ====
section
/-!
DEFINITION. SHA3-512, which the device measures itself with (24 R405): SHA-3's permutation on one number of 1,600 bits, and the
hash of a list of bytes.
-/
namespace Sys2Proof.Machine

/-! ## The permutation -/

/-- The 1,600 bits of SHA-3's state: the lane of column `x` and row `y` stands at bit 64 (5 y + x). -/
abbrev Sponge := BitVec 1600

/-- A lane; columns and rows go round. -/
def Sponge.lane (a : Sponge) (x y : Nat) : Word64 := a.extractLsb' (64 * (5 * (y % 5) + x % 5)) 64

/-- A lane at its place, all other lanes zero. -/
def Sponge.only (x y : Nat) (v : Word64) : Sponge := v.setWidth 1600 <<< (64 * (5 * (y % 5) + x % 5))

/-- A state by its lanes. -/
def Sponge.ofLanes (f : Nat → Nat → Word64) : Sponge :=
  (List.range 25).foldl (fun a i => a ||| Sponge.only (i % 5) (i / 5) (f (i % 5) (i / 5))) 0

/-- The exclusive or of a column. -/
def Sponge.parity (a : Sponge) (x : Nat) : Word64 := (List.range 5).foldl (fun v y => v ^^^ a.lane x y) 0

/-- Every lane takes the parity of the column on its left, and that of the column on its right turned by one bit. -/
def Sponge.mixColumns (a : Sponge) : Sponge :=
  let p := (List.range 5).map a.parity
  Sponge.ofLanes fun x y => a.lane x y ^^^ p.getD ((x + 4) % 5) 0 ^^^ (p.getD ((x + 1) % 5) 0).rotateLeft 1

/-- From lane (x, y) on, `n` lanes of the walk that goes from (x, y) to (y, 2 x + 3 y): lane number `t` is turned by
(t + 1) (t + 2) / 2 bits and takes the place of the next. -/
def Sponge.walk (a : Sponge) (x y t : Nat) : Nat → Sponge
  | 0 => 0
  | n + 1 =>
    let y' := (2 * x + 3 * y) % 5
    Sponge.only y y' ((a.lane x y).rotateLeft ((t + 1) * (t + 2) / 2 % 64)) ||| a.walk y y' (t + 1) n

/-- Lane (0, 0) stays; the others move along the walk from (1, 0). -/
def Sponge.moveLanes (a : Sponge) : Sponge := Sponge.only 0 0 (a.lane 0 0) ||| a.walk 1 0 0 24

/-- Every lane changes where its right neighbour is 0 and the one after that is 1. -/
def Sponge.bendRows (a : Sponge) : Sponge :=
  Sponge.ofLanes fun x y => a.lane x y ^^^ ((~~~(a.lane (x + 1) y)) &&& a.lane (x + 2) y)

/-- The next state of the shift register that the round constants come from. -/
def nextRc (r : Nat) : Nat := if r < 128 then 2 * r else (2 * r) ^^^ 0x171

/-- Seven steps of the register: step `j` gives bit 2^j - 1 of a round's constant. The register after them, and the constant. -/
def roundConst (r : Nat) : Nat × Nat :=
  (List.range 7).foldl (fun (p : Nat × Nat) j => (nextRc p.1, p.2 + p.1 % 2 * 2 ^ (2 ^ j - 1))) (r, 0)

/-- `n` rounds, the register at `r`. -/
def Sponge.rounds (a : Sponge) (r : Nat) : Nat → Sponge
  | 0 => a
  | n + 1 => (a.mixColumns.moveLanes.bendRows ^^^ BitVec.ofNat 1600 (roundConst r).2).rounds (roundConst r).1 n

/-- The permutation: 24 rounds. -/
def Sponge.permute (a : Sponge) : Sponge := a.rounds 1 24

/-! ## The hash -/

/-- Bytes of a number, first byte least significant. -/
def byteList (n : Nat) (v : Nat) : List Byte := (List.range n).map fun i => BitVec.ofNat 8 (v / 256 ^ i)

def byteNum (l : List Byte) : Nat := l.foldr (fun b acc => b.toNat + 256 * acc) 0

/-- Bytes that one permutation takes in. -/
def sha3Rate : Nat := 72

/-- A message as a number: after its bytes the two bits of the hash and a 1, and a 1 in the last bit of the last block. -/
def sha3Padded (m : List Byte) : Nat :=
  byteNum m + 6 * 256 ^ m.length + 2 ^ (8 * sha3Rate * (m.length / sha3Rate + 1) - 1)

/-- Take in `n` blocks of a padded message. -/
def Sponge.takeIn (a : Sponge) (m : Nat) : Nat → Sponge
  | 0 => a
  | n + 1 => (a ^^^ BitVec.ofNat 1600 (m % 256 ^ sha3Rate)).permute.takeIn (m / 256 ^ sha3Rate) n

/-- SHA3-512 as 64 bytes. -/
def sha3 (m : List Byte) : List Byte :=
  byteList 64 (Sponge.takeIn 0 (sha3Padded m) (m.length / sha3Rate + 1)).toNat

end Sys2Proof.Machine
end

