-- ==== Sys2Proof/Machine/Regs.lean ====
section
/-!
DEFINITION. The register space (26 R419, R420, 24 R394, R398), interrupts (24 R397), the error log (22 R374), and the
device's own writes (16 R425) with the fault queue (21 R355).
-/
namespace Sys2Proof.Machine

def State.onDev (s : State) (f : Device → Device) : State := { s with dev := f s.dev }
def onDev (f : Device → Device) : M Unit := modify fun s => s.onDev f

/-! ## Interrupts (24 R397) -/

def raiseMsix (fn vec : Nat) : M Unit := onDev fun d => d.raise fn vec

/-! ## The error log (22 R374) -/

def noTask : Nat := 0xFFFFFFFF

/-- Write an error-log entry and raise its interrupts. -/
def logError (kind : Nat) (ctx : Option Nat) (loc task addr detail : Nat) : M Unit := do
  let s ← get
  let q := s.dev.errHead
  let a := s.dev.errBase + 32 * (q % 4096)
  let w0 := kind * 2 ^ 56 + (match ctx with | some c => 2 ^ 55 + c * 2 ^ 49 | none => 0) + loc * 2 ^ 41 + task % 2 ^ 32
  let v := w0 + addr % 2 ^ 64 * 2 ^ 64 + detail % 2 ^ 64 * 2 ^ 128 + q * 2 ^ 224
  set ({ s.touchHbm (a / 32) with hbm := s.hbm.writeN a v 32 } : State)
  onDev fun d => { d with errHead := (q + 1) % 2 ^ 32 }
  if 2 ≤ kind then
    raiseMsix 0 0
    match ctx with
    | some c =>
      if kind = 2 ∨ kind = 3 ∨ kind = 7 then
        let d := (← get).context c
        raiseMsix (Ctx.tenant d + 1) (Ctx.fqvec d)
    | none => pure ()

/-! ## Registers (26 R419, R420) -/

/-- Fields of a counter table entry (24 R398). -/
def Ctr.valid (e : Word64) : Bool := bitAt e.toNat 63
def Ctr.tenant (e : Word64) : Nat := bits e.toNat 59 4
def Ctr.irq (e : Word64) : Bool := bitAt e.toNat 58
def Ctr.vec (e : Word64) : Nat := bits e.toNat 51 7

def State.ctrEntry (s : State) (k : Nat) : Word64 := Table.get 0 s.dev.counterTable k
def State.counter (s : State) (k : Nat) : Word64 := Table.get 0 s.dev.counters k

/-- A debug register of a core, by its offset in the core's block (21 R367, R369). -/
def Core.dbgReg (c : Core) (team : Nat → Option Team) (o : Nat) : Option Word64 :=
  if o % 8 ≠ 0 then none
  else if o < 0xC0 then some (Table.get 0 c.dbgpc (o / 8))
  else if o < 0x120 then some (Table.get 0 c.dbgda ((o - 0xC0) / 8))
  else if o = 0x120 then some 0
  else if o < 0x1A8 then
    some (match team ((o - 0x128) / 8) with
      | none => 0
      | some t =>
        let d := t.dbg
        BitVec.ofNat 64 ((if d.halted then 2 ^ 63 else 0) + d.reason * 2 ^ 48 + d.pcm * 2 ^ 40 + d.dam * 2 ^ 36
          + (match d.pendf with | some r => r.code | none => 0) * 2 ^ 28 + d.brk))
  else none

/-- The throttle level (26 R421, R422): the higher of what the temperature and the power demand, 3 below the coolant flow. -/
def Device.level (d : Device) : Nat :=
  if d.coolantLow then 3
  else
    let p := if d.power ≤ d.pcap then 0 else d.powLevel
    if p < d.thermLevel then d.thermLevel else p

/-- A management register of physical function 0 (26 R419). -/
def State.mgmtReg (s : State) (off : Nat) : Option Word64 :=
  let d := s.dev
  let n := fun (v : Nat) => some (BitVec.ofNat 64 v)
  match off with
  | 0x0000 => n (if d.enable then 1 else 0)
  | 0x0008 => n d.ixBase
  | 0x0010 => n d.ixFrames
  | 0x0018 => n d.spillBase
  | 0x0020 => n d.ageCap
  | 0x0028 => n d.distThr
  | 0x0030 => n d.saveBase
  | 0x0038 => n d.saveFrames
  | 0x0040 => some d.xlA
  | 0x0048 => some d.xlB
  | 0x0050 => n (d.xlIssued % 2 ^ 32 * 2 ^ 32 + d.xlDone % 2 ^ 32)
  | 0x0080 => n d.errBase
  | 0x0088 => n d.errHead
  | 0x00A0 => n d.scanInt
  | 0x00A8 => n (bits d.lcmap.toNat 0 64)
  | 0x00B0 => n (bits d.lcmap.toNat 64 64)
  | 0x00B8 => n (bits d.lcmap.toNat 128 64)
  | 0x00C0 => n d.hostRefuse
  | 0x00C8 => n d.fabDrop
  | 0x00D0 => n d.fabRefuse
  | 0x00E0 => n (d.level * 256 + d.degrees % 256)
  | 0x00E8 => n (d.power % 2 ^ 16)
  | 0x00F0 => n d.pcap
  | _ => none

/-- A register of tenant `t`'s virtual function (26 R420, 24 R398, 25 R414). RESUME of a context of another tenant reads as zero
(24 R394); what the tenant's own reads as, the spec does not say (log 17). -/
def State.vfReg (s : State) (t o : Nat) : Option Word64 :=
  if o % 8 ≠ 0 then none
  else if 0x10000 ≤ o ∧ o < 0x18000 then
    let k := (o - 0x10000) / 8
    let e := s.ctrEntry k
    some (if Ctr.valid e && counterZero e.toNat && Ctr.tenant e == t then s.counter k else 0)
  else if 0x20000 ≤ o ∧ o < 0x20800 then
    let w := (o - 0x20000) / 8
    some (if Win.tenant (s.window w) = t then BitVec.ofNat 64 (Table.get 0 s.dev.shipPsn w) else 0)
  else if 0x30000 ≤ o ∧ o < 0x30200 then
    let d := s.context ((o - 0x30000) / 8)
    if Ctx.valid d && Ctx.tenant d == t then none else some 0
  else none

/-- A register through a system window of a tenant (26 R419); none where no register is listed. The debug block is
reached by the host alone (21 R367). -/
def sysRead (tenant off : Nat) (s : State) : Option Word64 :=
  if off < 0x01000000 then s.mgmtReg off
  else if off < 0x01000000 + 16 * 0x40000 then
    let t := (off - 0x01000000) / 0x40000
    if t ≠ tenant then some 0 else s.vfReg t ((off - 0x01000000) % 0x40000)
  else none

/-- Submit the invalidation command of XLINVA and the value written to XLINVB (05 R124); a write that submits nothing is ignored
whole. -/
def submitInvalidation (a b : Word64) : M Unit :=
  onDev fun d =>
    let bad := decide (16 ≤ d.xlQueue.length) || decide (bits a.toNat 40 8 ≠ 0) || decide (bits b.toNat 57 7 ≠ 0)
      || decide (bits b.toNat 0 12 ≠ 0) || (decide (bits a.toNat 62 2 = 0) && decide (bits a.toNat 0 40 = 0))
    if bad then d else { d with xlB := b, xlQueue := d.xlQueue ++ [(a, b)], xlIssued := (d.xlIssued + 1) % 2 ^ 32 }

/-- A well-formed comparator (21 R367). -/
def validPcCmp (a b c : Nat) : Bool :=
  decide (bits a 61 1 = 0) && decide (bits a 32 22 = 0) && decide (bits b 57 7 = 0)
    && (if bitAt a 62 then decide (bits b 21 36 = 0) else decide (b % 4 = 0))
    && decide (bits c 59 5 = 0) && decide (bits c 32 21 = 0)

def validDaCmp (a b c : Nat) : Bool :=
  decide (bits a 61 2 ≠ 0) && decide (bits a 32 22 = 0) && decide (bits b 63 1 = 0) && decide (bits b 57 6 ≤ 30)
    && decide (bits b 0 57 % 2 ^ bits b 57 6 = 0)
    && decide (bits c 59 5 = 0) && decide (bits c 32 21 = 0)

/-- Write a double word of a comparator; a write that leaves it malformed is ignored (21 R367). B and C of a data comparator
may be written while its A is still zero as after reset. -/
def writeComparator (core o : Nat) (v : Word64) : M Unit :=
  onCore core fun c =>
    if o % 8 ≠ 0 then c
    else if o < 0xC0 then
      let t := Table.set 0 c.dbgpc (o / 8) v
      let k := o / 24 * 3
      if validPcCmp (Table.get 0 t k).toNat (Table.get 0 t (k + 1)).toNat (Table.get 0 t (k + 2)).toNat then { c with dbgpc := t } else c
    else if o < 0x120 then
      let t := Table.set 0 c.dbgda ((o - 0xC0) / 8) v
      let k := (o - 0xC0) / 24 * 3
      let a := (Table.get 0 t k).toNat
      let a' := if a = 0 ∧ (o - 0xC0) % 24 ≠ 0 then 2 ^ 61 else a
      if validDaCmp a' (Table.get 0 t (k + 1)).toNat (Table.get 0 t (k + 2)).toNat then { c with dbgda := t } else c
    else c

/-- Write a management register (26 R419): read-only registers, values out of range, and registers marked before ENABLE
once ENABLE is set ignore the write. -/
def writeMgmt (off : Nat) (v : Word64) : M Unit := do
  let n := v.toNat
  let early := fun (ok : Bool) (f : Device → Device) => onDev fun d => if d.enable || !ok then d else f d
  match off with
  | 0x0008 => early (decide (n < 2 ^ 40 ∧ n % 2 ^ 21 = 0)) fun d => { d with ixBase := n }
  | 0x0010 => early (decide (n < 2 ^ 32)) fun d => { d with ixFrames := n }
  | 0x0018 => early (decide (n < 2 ^ 40 ∧ n % 2 ^ 24 = 0)) fun d => { d with spillBase := n }
  | 0x0020 => onDev fun d => if 1 ≤ n ∧ n ≤ 256 then { d with ageCap := n } else d
  | 0x0028 => onDev fun d => if 1000 ≤ n ∧ n ≤ 65535 then { d with distThr := n } else d
  | 0x0030 => early (decide (n < 2 ^ 40 ∧ n % 2 ^ 21 = 0)) fun d => { d with saveBase := n }
  | 0x0038 => early (decide (n < 2 ^ 32)) fun d => { d with saveFrames := n }
  | 0x0040 => onDev fun d => { d with xlA := v }
  | 0x0048 => do submitInvalidation (← get).dev.xlA v
  | 0x0080 => early (decide (n < 2 ^ 40 ∧ n % 2 ^ 17 = 0)) fun d => { d with errBase := n }
  | 0x00A0 => onDev fun d => if 1 ≤ n ∧ n ≤ 720 then { d with scanInt := n } else d
  | 0x00F0 => onDev fun d => if 900 ≤ n ∧ n ≤ 1600 then { d with pcap := n } else d
  | _ => pure ()

/-! ## The device's own accesses (16 R425) -/

/-- The team the device acts as: a context on a cluster, privileged. -/
def deviceTeam (s : State) (ctx cluster : Nat) : Team :=
  { Team.vacant with uid := 0, id := { TeamId.init with ctx := ctx, tenant := Ctx.tenant (s.context ctx), core := 4 * cluster, task := noTask } }

def Access.devLoad : Access := { Access.load with priv := true, src := 3 }
def Access.devStore : Access := { Access.store with priv := true, src := 3 }

/-- Write whole sectors of a context as a publication of the device's own (16 R425). -/
def devicePublish (cl : Nat) (p : Place64) (secs : List (BitVec 256)) : M Unit := do
  let first := p.la / 32
  let pos ← appendRun cl (secs.mapIdx fun i d => (first + i, ({ data := d, poison := false } : Delivered)))
  let set := BitVec.ofNat 32 ((List.range secs.length).foldl (fun acc i => acc + 2 ^ ((first + i) % 32)) 0)
  let run : PubRun := { set := set, live := set, pos := pos }
  let _ ← number .device [{ win := p.win, gran := first / 32, runs := [run] }] []
  pure ()

/-- The device's store of whole compute-row sectors: in place, and no sector of them is poison any more (03 R81, R82). -/
def State.rowsWritten (s : State) (cra v n : Nat) : State :=
  let s1 := (List.range (n / 32)).foldl (fun (s : State) i => s.dropCopies (cra + 32 * i)) (s.touchRows [cra / 1024])
  { s1 with
    crow := s1.crow.writeN cra v n
    crowBad := (List.range (n / 32)).foldl (fun (t : Table Bool) i => Table.set false t (cra / 32 + i) false) s1.crowBad }

/-- A device store of sectors at a virtual address of a context, dropped where it cannot be made (16 R425). One to logged memory
waits while appends to the cluster's log stall, and behind the context's stores that wait already, unless it is the next of those
(02 R71, 21 R355). -/
def deviceWrite (next : Bool) (ctx cl : Nat) (va : Word64) (secs : List (BitVec 256)) : M Unit := do
  let t := deviceTeam (← get) ctx cl
  let bytes := 32 * secs.length
  let place : Option Place64 ← tryCatch (do
      let p ← devLocate { Access.devStore with size := bytes } t va
      return some p) (fun e => match e with
        | .trap _ => pure none
        | e => throw e)
  match place with
  | none => pure ()
  | some p =>
    let v := secs.foldr (fun d acc => d.toNat + 2 ^ 256 * acc) 0
    if Win.logged p.desc then
      let s ← get
      if s.mayAppend cl && (next || s.dev.owed.all fun o => o.ctx != ctx) then devicePublish cl p secs
      else
        onDev fun d => { d with owed := d.owed ++ [{ ctx := ctx, cluster := cl, va := va, secs := secs }] }
        modify fun s => s.stall (.device cl)
    else if Win.host p.desc then modify fun s => s.writeHost (p.la % 2 ^ 45) bytes v false
    else if Win.crow p.desc then
      if craOf p.la / 2 ^ 28 ≤ 11 then modify fun s => s.rowsWritten (craOf p.la) v bytes else pure ()
    else pure ()

/-- A new store of the device. -/
def deviceStore (ctx cl : Nat) (va : Word64) (secs : List (BitVec 256)) : M Unit := deviceWrite false ctx cl va secs

/-- Post a record to the fault queue of a context (21 R355): words 0 to 6 and the word 7 of the entry. -/
def postFault (ctx cl queue slot hookCode : Nat) (rec0 : List Word64) : M Unit := do
  let s ← get
  let d := s.context ctx
  let seq := (Table.get 0 s.dev.fqSeq ctx + 1) % 2 ^ 32
  onDev fun v => { v with fqSeq := Table.set 0 v.fqSeq ctx seq }
  let w7 := seq * 2 ^ 32 + queue * 2 ^ 24 + slot * 2 ^ 12 + hookCode
  let ws := (List.range 7).map (fun i => (rec0.getD i 0).toNat) ++ [w7]
  let v := ws.foldr (fun w acc => w + 2 ^ 64 * acc) 0
  let va := BitVec.ofNat 64 (Ctx.fqbase d + 64 * (seq % 2 ^ Ctx.fqlog2 d))
  deviceStore ctx cl va [BitVec.ofNat 256 v, BitVec.ofNat 256 (v / 2 ^ 256)]
  raiseMsix (Ctx.tenant d + 1) (Ctx.fqvec d)

/-! ## Flits of the fabric (24 R401) -/

/-- Fields of a peer window table entry (24 R402). -/
def Peer.valid (e : BitVec 128) : Bool := bitAt e.toNat 127
def Peer.replica (e : BitVec 128) : Bool := bitAt e.toNat 126
def Peer.rtid (e : BitVec 128) : Nat := bits e.toNat 114 12
def Peer.pwid (e : BitVec 128) : Nat := bits e.toNat 106 8
def Peer.ports (e : BitVec 128) : Nat := bits e.toNat 90 16
def State.peer (s : State) (w : Nat) : BitVec 128 := Table.get 0 s.peers w

/-- The lowest port that the route of an RTID and a set of ports admit. -/
def State.portFor (s : State) (rtid ports : Nat) : Option Nat :=
  (List.range 16).find? fun p => bitAt (Table.get 0 s.dev.routes rtid).toNat p && bitAt ports p

/-- A head flit: bytes 0 to 9, then what its kind puts from byte 10. -/
def headFlit (kind count dst src seq wid : Nat) (rest : List Byte) : List Byte :=
  byteList 1 kind ++ byteList 1 count ++ byteList 2 dst ++ byteList 2 src ++ byteList 2 seq ++ byteList 2 wid ++ rest
    ++ List.replicate (246 - rest.length) 0

/-- Flits that cannot go, or come for another device, are counted (24 R401). -/
def dropFlits (n : Nat) : M Unit := onDev fun d => { d with fabDrop := (d.fabDrop + n) % 2 ^ 64 }

/-- Send a burst to an RTID: its head, with the port's next sequence number, and its data flits. -/
def sendBurst (rtid ports kind count wid : Nat) (rest : List Byte) (data : List (List Byte)) : M Unit := do
  let s ← get
  match s.portFor rtid ports with
  | none => dropFlits (1 + data.length)
  | some p =>
    let seq := Table.get 0 s.dev.burstSeq p
    let head := headFlit kind count rtid s.dev.rtid.toNat seq wid rest
    onDev fun d =>
      { d with
        burstSeq := Table.set 0 d.burstSeq p ((seq + 1) % 2 ^ 16)
        sent := d.sent ++ (head :: data).map fun f => (Sent.flit p f) }

/-- A cut or the echo of a cut: a KIND 2 head with a source PSN (25 R413, R414). -/
def sendCut (rtid ports wid cut : Nat) : M Unit := sendBurst rtid ports 2 0 wid (byteList 8 cut) []

/-! ## Launch completion by the device -/

/-- Bring a launch to Completing with a status (16 R332). -/
def State.completing (s : State) (id code : Nat) : State :=
  s.onLaunch id fun l =>
    if l.status = .completing ∨ l.status = .complete then l else { l with status := .completing, code := code }

end Sys2Proof.Machine
end

