-- ==== Sys2Proof/Machine/Data.lean ====
section
/-!
DEFINITION. Loads and stores at a virtual address: memory, stash pages (04 R103, R104) and template pages (15 R314).
-/
namespace Sys2Proof.Machine

/-- TMPLACC: an access that template pages do not admit (15 R314). -/
def tmplAcc {α : Type} (a : Access) (va : Word64) : M α :=
  throw (.trap { noTrap with code := Code.tmplacc, src := a.src, w2 := va, pc := a.pc })

/-- The team as it stands now, by the number of a team read earlier. -/
def current (t : Team) : M Team := do return ((← get).team? t.uid).getD t

/-- A template page of the team's own, copied on its first store (15 R314): with no bank FREE, or at the STASH limit of R100, the
team stalls as for a register copy fault. -/
def ownTemplatePage (t : Team) (page : Nat) : M Nat := do
  let t ← current t
  match t.h.copies.find? fun b => b.page == page with
  | some b => return b.bank
  | none =>
    let s ← get
    let c := s.core t.core
    match c.freeBanks with
    | [] => waitFor .basin
    | nb :: _ =>
      waitUnless c.stashRoom .basin
      let old := s.templateBank t page
      onCore t.core fun c =>
        let c1 := (c.clearBank nb).setBank nb (.stash t.uid)
        match old with
        | some o => (List.range 32).foldl (fun c i => (c.setRow nb i (c.row o i)).setRowPoison nb i (c.rowPoison o i)) c1
        | none => c1
      onUid t.uid fun t => { t with h := { t.h with copies := { page := page, bank := nb, win := 0, la := 0, filled := BitVec.allOnes 32, fills := [] } :: t.h.copies } }
      bump t.core 9 1
      return nb

/-- Read within one row of a Basin bank. -/
def readBank (t : Team) (bank off n : Nat) : M ReadRes := do
  let c := (← get).core t.core
  return { value := c.rowBytes bank (off / 128) (off % 128) n, poison := c.bytesPoisoned bank (off / 128) (off % 128) n, stale := [] }

/-- Read `n` bytes, within one sector, at a place whose translation stands (06 R131, 04 R103, 15 R314). A stash page serves an access
only where its page maps to logged memory: the window serves it elsewhere (log 101, DESIGN CHOICE). A load of a sector with an atomic of
the task in flight waits (07 R166), and one from a row that shows a superseded entry counts as stale (02 R70). -/
def readAt (a : Access) (t : Team) (va : Word64) (p : Place64) (n hint : Nat) : M ReadRes := do
  match t.pageKind va with
  | .template page =>
    match (← get).templateBank (← current t) page with
    | some b => readBank t b (va.toNat % 4096) n
    | none => return { value := 0, poison := false, stale := [] }
  | .stash page =>
    if !Win.logged p.desc then readPlace a t va p n hint sysRead
    else
      let pb ← stashPage t page a.src p
      let row := va.toNat % 4096 / 128
      if (← get).atomicInFlight t.uid p.win (p.la / 32) then waitFor .memory
      fillRow t pb row hint
      let r ← readBank t pb.bank (va.toNat % 4096) n
      let s ← get
      let t ← current t
      let stale := (t.stashOf pb.bank).any fun b => s.rowStale t b row (va.toNat % 128 / 32)
      return { r with stale := if stale then [(p.win, p.la / 32)] else [] }
  | .memory => readPlace a t va p n hint sysRead

/-- Store `n` bytes, within one sector, at a place whose translation stands; `bad` bytes carry poison. -/
def writeAt (a : Access) (t : Team) (va : Word64) (p : Place64) (n v colour hint : Nat) (bad : Bool := false) : M Unit := do
  match t.pageKind va with
  | .template page =>
    let b ← ownTemplatePage t page
    onCore t.core fun c => c.putBytes b (va.toNat % 4096 / 128) (va.toNat % 128) n v
  | .stash page =>
    if !Win.logged p.desc then writePlace a t va p n v colour hint bad
    else
      let pb ← stashPage t page a.src p
      fillRow t pb (va.toNat % 4096 / 128) hint
      inStream a (storeSector t p.win (p.la / 32) (p.la % 32) n v colour hint bad)
      dropOwnRow t p.win p.la (some pb.bank)
      onStash t.uid pb.bank fun b => b.renew (va.toNat % 4096 / 128) (va.toNat % 128 / 32)
      onCore t.core fun c => (c.putBytes pb.bank (va.toNat % 4096 / 128) (va.toNat % 128) n v).poisonBytes bad pb.bank
        (va.toNat % 4096 / 128) (va.toNat % 128) n
      invalidateStash t p.win (p.la / 128 * 128)
  | .memory => writePlace a t va p n v colour hint bad

/-- A load at a virtual address: format, alignment, translation, data. -/
def loadVa (a : Access) (t : Team) (va : Word64) (n hint : Nat) : M ReadRes := do
  let p ← locate { a with size := n } t va n
  readAt a t va p n hint

/-- A store at a virtual address. -/
def storeVa (a : Access) (t : Team) (va : Word64) (n v colour hint : Nat) : M Unit := do
  let p ← locate { a with size := n } t va n
  writeAt a t va p n v colour hint

/-- POISONLD of a consumer (06 R150, R154): the address, and the logical address of the poisoned sector. -/
def poisonLoad {α : Type} (a : Access) (va : Word64) (p : Place64) : M α :=
  xlateFault a Code.poisonld va 7 (some p.win) 0 (p.la / 32 * 32)

/-- A scalar load of the task, poison refused (06 R131, R150). -/
def scalarLoad (a : Access) (t : Team) (va : Word64) (n : Nat) : M Nat := do
  let a := { a with size := n }
  let p ← locate a t va n
  let r ← readAt a t va p n 0
  r.stale.forM fun q => countStale t q.1 1
  if r.poison then poisonLoad a va p
  return r.value

/-! ## Reads of the device itself (16 R331, R425) -/

/-- Bytes that a device read takes from one sector: their value and number, and poison. -/
structure DevBytes where
  value : Nat
  size : Nat
  poison : Bool
  deriving DecidableEq, Repr

/-- Read `n` bytes of a context for the device itself, at the newest committed publication (16 R331, R425, 05 R110). -/
def deviceRead (ctx cl : Nat) (va n : Nat) : M (List DevBytes) := do
  let t := deviceTeam (← get) ctx cl
  let parts := (List.range ((va + n - 1) / 32 - va / 32 + 1)).map fun i =>
    let a := if i = 0 then va else (va / 32 + i) * 32
    let z := (va / 32 + i + 1) * 32
    (a, (if z < va + n then z else va + n) - a)
  parts.mapM fun p => do
    let v := BitVec.ofNat 64 p.1
    let a := { Access.devLoad with size := p.2 }
    let q ← devLocate a t v
    if Win.logged q.desc then
      let d ← readPublished q.win (q.la / 32) noTask
      return { value := secBytes d.data (q.la % 32) p.2, size := p.2, poison := d.poison }
    else
      let r ← readPlace a t v q p.2 0 sysRead
      return { value := r.value, size := p.2, poison := r.poison }

/-- The bytes of a device read as one number. -/
def joinBytes (l : List DevBytes) : Nat := l.foldr (fun d acc => d.value + 2 ^ (8 * d.size) * acc) 0

end Sys2Proof.Machine
end

