-- ==== Sys2Proof/Machine/Stops.lean ====
section
/-!
DEFINITION. How a team stops: the fault record (21 R352), the fatal path (21 R354) with the trap hook (21 R365), the
recoverable path (21 R356), context termination (22 R376), lane death (22 R375), paired execution (22 R384 to R386), and the
one function that turns a computation into the outcome of a step.
-/
namespace Sys2Proof.Machine

/-! ## Fault records (21 R352, R353) -/

/-- The eight words of a fault record. -/
def recordWords (t : Team) (r : TrapReq) : List Word64 :=
  let lpc := if r.src = 1 then (match t.l.run with | some b => b.lpc | none => 0) else 0
  let pc := match r.src, t.l.run with
    | 1, some b => b.blk.pc
    | _, _ => r.pc.getD t.s.pc
  let priv := match r.src, t.l.run with
    | 1, some b => b.blk.priv
    | _, _ => r.priv.getD t.s.priv
  let w0 := r.code * 2 ^ 56 + r.src * 2 ^ 54 + (if r.recov then 2 ^ 53 else 0) + bits lpc 0 21 * 2 ^ 32 + t.id.task % 2 ^ 32
  let w1 := (if priv then 2 ^ 63 else 0) + bits pc.toNat 0 57
  [BitVec.ofNat 64 w0, BitVec.ofNat 64 w1, r.w2, r.w3, r.w4, r.w5, r.w6, 0]

/-- Post a record of a team to its context's fault queue (21 R355). -/
def postRecord (t : Team) (rec0 : List Word64) (hookCode : Nat) : M Unit := do
  let s ← get
  let l := s.launch? t.id.launch
  postFault t.id.ctx t.cluster ((l.map (·.queue)).getD 0) ((l.map (·.slot)).getD 0) hookCode rec0

/-! ## The trap hook (21 R362, R365) -/

/-- A malformed service-table header word (21 R362, R363). -/
def malformedHeader (hdr : Nat) : Bool := decide (bits hdr 17 47 ≠ 0)

/-- What the fatal path finds of a hook: its entry, or none with the code that HOOKCODE carries. -/
inductive HookFound where
  | run (pc : Word64)
  | absent (code : Nat)
  deriving DecidableEq, Repr

/-- A privileged load of eight bytes by the task (21 R363). -/
def loadPriv64 (t : Team) (va : Word64) : M Nat := scalarLoad { Access.load with priv := true } t va 8

/-- HookPresent (21 R365). -/
def findHook (t : Team) : M HookFound := do
  let svctab := Ctx.svctab ((← get).context t.id.ctx)
  if svctab = 0 then return .absent 0
  tryCatch (do
      let hdr ← loadPriv64 t (BitVec.ofNat 64 svctab)
      let hookPc ← loadPriv64 t (BitVec.ofNat 64 (svctab + 8))
      if malformedHeader hdr || decide (hookPc % 4 ≠ 0) || (!bitAt hdr 16 && decide (hookPc ≠ 0)) then return .absent Code.svctab
      if bitAt hdr 16 then return .run (BitVec.ofNat 64 hookPc)
      return .absent 0)
    (fun e => match e with
      | .trap r => pure (.absent r.code)
      | e => throw e)

/-! ## Lane death (22 R375) -/

/-- A lane of the issuing team dies: its destination keeps its value, it joins the dead set, and it is logged once. -/
def killLane (lane : Nat) (addr : Nat) : M Unit := do
  let t ← getTeam
  if bitAt t.l.dead.toNat lane then return
  onLane fun l => { l with dead := l.dead ||| BitVec.ofNat 1024 (2 ^ lane) }
  bump t.core 12 1
  logError 2 (some t.id.ctx) t.cluster t.id.task addr lane

/-! ## The fatal path (21 R354) -/

/-- Empty the lane stream of the issuing team. -/
def clearLane (l : Lane) : Lane := { l with queue := [], run := none, stall := none, watched := false, pix := 0, passes := none, flight := none }

/-- Everything of R354 before Post: engines cancelled, version discarded, FAULTREC written. -/
def fatalStop (uid : Nat) (rec0 : List Word64) : M Unit := do
  match (← get).team? uid with
  | none => pure ()
  | some t =>
    cancelEngines t
    discardVersion t
    publishClusterLevel t
    onUid uid fun t => { t with faultrec := rec0 }

/-- Post, CountFailed, FreeOwnBanks, Ended (21 R354). -/
def fatalEnd (uid : Nat) (rec0 : List Word64) (hookCode : Nat) : M Unit := do
  match (← get).team? uid with
  | none => pure ()
  | some t =>
    postRecord t rec0 hookCode
    countEnd t true 0
    endTeam t

/-- The fatal path of a task outside paired execution. -/
def fatalPath (uid : Nat) (r : TrapReq) : M Unit := do
  match (← get).team? uid with
  | none => pure ()
  | some t =>
    let rec0 := recordWords t { r with recov := false }
    fatalStop uid rec0
    match t.s.hook with
    | some h => fatalEnd uid h.saved r.code
    | none =>
      match ← findHook (← current t) with
      | .absent code => fatalEnd uid rec0 code
      | .run pc =>
        onUid uid fun t =>
          { t with
            status := .ready, waits := none, efault := none, rfault := none
            -- a fatal trap drops a halt and a step that reach the team with it (21 R370)
            dbg := { t.dbg with halted := false, reason := 0, haltReq := false, stepping := false, stepS := false, stepL := false
                                pcm := 0, dam := 0, skips := [], pendf := none, brk := 0 }
            s := { settleScalar t.s with pc := pc, priv := true, hook := some { saved := rec0 }, phase := .none, counted := false }
            l := clearLane t.l }

/-! ## Launches that fail as a whole -/

/-- Discard everything a team has not published, and remove it. -/
def dropWhole (t : Team) : M Unit := do
  onCluster t.cluster fun c =>
    { c with
      dirty := c.dirty.filter fun d => d.uid != t.uid
      weir := c.weir.filter fun p => !(p.uid == t.uid && p.pub == none) }
  cancelEngines t
  freeOwnBanks t
  modify fun s =>
    if s.cur.uid = t.uid then { s with cur := Team.vacant } else { s with teams := s.teams.filter fun u => u.uid != t.uid }

/-- Free every image of a launch. -/
def dropImages (launch : Nat) : M Unit :=
  modify fun s =>
    let mine := (s.images.filter fun i => i.launch == launch).map (·.id)
    let cores := (s.copies.filter fun c => mine.contains c.image).map (·.core)
    let s1 := { s with copies := s.copies.filter fun c => !mine.contains c.image }
    let s2 := cores.foldl (fun s c => s.freeShared c) s1
    { s2 with images := s2.images.filter fun i => i.launch != launch }

/-- Lowest instance of a launch that has not ended: resident, swapped, not yet stamped, or to be stamped again (16 R334, 22 R386). -/
def State.lowestLive (s : State) (l : Launch) : Nat :=
  let running := (s.allTeams.filter fun t => t.id.launch == l.id && t.ctl.level == 0 && t.status != .ended).map fun t => t.id.task
  let unstamped := (List.range l.nstage).flatMap fun k =>
    (if (l.stage k).next < l.total then [(l.stage k).next] else []) ++ (l.stage k).again.map (·.1)
  (running ++ unstamped).foldl (fun m x => if x < m then x else m) noTask

/-- Instances of a launch that have not ended. -/
def Launch.live (l : Launch) : Nat :=
  (List.range l.nstage).foldl (fun n k => n + (l.total - (l.stage k).ended)) 0

/-- A list in ascending order of a key, equal keys as they stand. -/
def ascending {α : Type} (key : α → Nat) (l : List α) : List α :=
  l.foldl (fun acc x => (acc.takeWhile fun y => decide (key y ≤ key x)) ++ [x] ++ acc.dropWhile fun y => decide (key y ≤ key x)) []

/-- Stop a task that is not of a terminated context: its version is discarded, and its cluster-level updates are published, since no
later event discards them (02 R61). -/
def stopTask (t : Team) : M Unit := do
  discardVersion t
  publishClusterLevel t
  dropWhole t

/-- Stop every task of a launch and complete it with a status (22 R376, R386). A termination alone discards cluster-level updates too;
the others are published in the order of the clusters (18 R344). -/
def failLaunch (id code : Nat) (count : Bool) : M Unit := do
  match (← get).launch? id with
  | none => pure ()
  | some l =>
    let low := (← get).lowestLive l
    let mine := ascending Team.cluster ((← get).allTeams.filter fun t => t.id.launch == id)
    mine.forM (if code = 4 then dropWhole else stopTask)
    dropImages id
    modify fun s => (s.onLaunch id fun l =>
      if count then { l with failed := l.failed + l.live, first := if low < l.first then low else l.first } else l).completing id code

/-- Logged windows of a context. -/
def State.loggedOf (s : State) (ctx : Nat) : List Nat :=
  (s.windows.filter fun w => Win.valid w.2 && Win.logged w.2 && Win.owner w.2 == ctx).map (·.1)

/-- Terminate a context (22 R376). A context already terminated is logged and nothing more. Its logged windows have to be reinstated
or rebuilt before it is restarted (22 R377, log 110). -/
def terminateContext (ctx loc task addr : Nat) : M Unit := do
  let d := (← get).context ctx
  logError 3 (some ctx) loc task addr 0
  if Ctx.term d then return
  let s ← get
  let mine := s.launches.filter fun l => l.ctx == ctx && l.status != .completing && l.status != .complete
  mine.forM fun l => failLaunch l.id 4 true
  ((← get).allTeams.filter fun t => t.id.ctx == ctx && t.status != .ended).forM dropWhole
  modify fun s =>
    let s1 := s.setContext ctx (setDescWord (s.context ctx) 1 (setBits (descWord (s.context ctx) 1) 61 1 1))
    { s1 with dev := { s1.dev with broken := (s1.loggedOf ctx).foldl insertSorted s1.dev.broken } }

/-! ## Recoverable faults (21 R356) -/

/-- Why a recoverable record swaps a team out. -/
def causeOf (r : TrapReq) (seq : Nat) : SwapCause :=
  if r.code = Code.notpresent then .notPresent seq
  else if r.code = Code.spillwait then .spill
  else .basin r.w2.toNat r.named

/-- The recoverable path: FAULTREC, the post of a NOTPRESENT, swap-out. -/
def recoverablePath (uid : Nat) (r : TrapReq) : M Unit := do
  match (← get).team? uid with
  | none => pure ()
  | some t =>
    let rec0 := recordWords t r
    onUid uid fun t => { t with faultrec := rec0 }
    if r.code = Code.notpresent then postRecord t rec0 0
    let seq := Table.get 0 (← get).dev.fqSeq t.id.ctx
    swapOut uid (causeOf r seq)

/-! ## Paired execution (22 R384 to R386) -/

/-- One byte into the running CRC-64, reflected. -/
def crc64Bits (c : Nat) : Nat → Nat
  | 0 => c
  | n + 1 => crc64Bits (if c % 2 = 1 then (c / 2) ^^^ 0xC96C5795D7870F42 else c / 2) n

/-- `n` bytes of a little-endian number into the running CRC-64. -/
def crc64Bytes (c v : Nat) : Nat → Nat
  | 0 => c
  | n + 1 => crc64Bytes (crc64Bits (c ^^^ (v % 256)) 8) (v / 256) n

/-- Fold the sectors a comparison point publishes, in ascending address, and its trailer (22 R384). -/
def foldPoint (sig : Word64) (secs : List (Nat × BitVec 256)) (scope mask kind : Nat) : Word64 :=
  let c := secs.foldl (fun c d => crc64Bytes (crc64Bytes c d.1 5) d.2.toNat 32) sig.toNat
  BitVec.ofNat 64 (crc64Bytes c (scope + mask * 2 ^ 8 + kind * 2 ^ 16 + secs.length % 2 ^ 32 * 2 ^ 32) 8)

/-- Insert by ascending address; a later value of one sector replaces an earlier. -/
def insertSector (l : List (Nat × BitVec 256)) (k : Nat) (v : BitVec 256) : List (Nat × BitVec 256) :=
  match l with
  | [] => [(k, v)]
  | (j, u) :: r => if k < j then (k, v) :: (j, u) :: r else if k = j then (k, v) :: r else (j, u) :: insertSector r k v

/-- The sectors that a release of a team brings out: its dirty sectors and private updates in the colours of a mask. An update at cluster
level has been compared already, and only the primary holds it (22 R384, log 115). -/
def State.releaseSectors (s : State) (t : Team) (mask : Nat) : List (Nat × BitVec 256) :=
  let c := s.cluster t.cluster
  let pend := c.weir.filter fun p => p.uid == t.uid && p.pub == none && p.level == .task && bitAt mask p.colour
  let l1 := pend.foldl (fun acc p =>
    (List.range 32).foldl (fun acc i =>
      if bitAt p.live.toNat i then
        let sec := p.gran * 32 + i
        insertSector acc sec (s.sectorAt (p.posOf sec) sec).data
      else acc) acc) []
  (c.dirty.filter fun d => d.uid == t.uid && bitAt mask d.colour).foldl (fun acc d => insertSector acc d.sec d.data) l1

/-- The signature of a copy: with its comparison point folded in, where it stands at one (22 R384). -/
def Team.signature (t : Team) : Word64 := match t.paired.at_ with | some p => p.sig | none => t.paired.sig

/-- A paired mismatch (22 R384, R386): both copies stop, their publications in the order of their clusters (18 R344); the instance
runs again elsewhere, or the launch fails. -/
def pairMismatch (t u : Team) : M Unit := do
  logError 7 (some t.id.ctx) t.cluster t.id.task 0 (t.signature ^^^ u.signature).toNat
  (ascending Team.cluster [t, u]).forM stopTask
  match (← get).launch? t.id.launch with
  | none => pure ()
  | some l =>
    if l.mismatched.contains t.id.task || decide (l.prows * l.pcols < 4) then
      logError 8 (some t.id.ctx) t.cluster t.id.task 0 (t.signature ^^^ u.signature).toNat
      (l.suspects ++ [t.cluster, u.cluster]).forM fun cl =>
        (List.range 4).forM fun i => onCore (4 * cl + i) fun c => { c with scanFlag := true }
      failLaunch l.id 2 false
    else
      modify fun s => s.onLaunch l.id fun l =>
        { (l.onStage t.id.stage fun g => { g with again := g.again ++ [(t.id.task, [t.cluster, u.cluster])] }) with
          mismatched := l.mismatched ++ [t.id.task], suspects := l.suspects ++ [t.cluster, u.cluster] }
  modify fun s => s.releaseImages.prunePool

/-- The other copy. -/
def State.twinOf (s : State) (t : Team) : Option Team := if t.paired.role = 0 then none else s.team? t.paired.twin

/-- A copy reaches a comparison point with a key that must match (22 R384); answers whether both copies stand there and
match. -/
def pairReach (t : Team) (p : PairPoint) : M Bool := do
  onUid t.uid fun t => { t with paired := { t.paired with at_ := some p } }
  match (← get).twinOf t with
  | none => return false
  | some u =>
    match u.paired.at_ with
    | none => return false
    | some q =>
      if q = p then
        [t.uid, u.uid].forM fun k => onUid k fun t => { t with paired := { t.paired with at_ := none, sig := p.sig } }
        return true
      else
        pairMismatch (← current t) (← current u)
        return false

/-- The fatal trap of a copy is a comparison point: the task fails once when both copies trap alike (22 R384). -/
def pairedTrap (t : Team) (r : TrapReq) : M Unit := do
  let rec0 := recordWords t r
  let key := r.code * 2 ^ 64 + (rec0.getD 1 0).toNat
  let p : PairPoint := { kind := 2, key := key, sig := foldPoint t.paired.sig [] 0 0 2 }
  if ← pairReach t p then
    match (← get).twinOf t with
    | none => pure ()
    | some u =>
      let prim := if t.paired.role = 1 then t else u
      let other := if t.paired.role = 1 then u else t
      dropWhole other
      onUid prim.uid fun t => { t with paired := Paired.init }
      fatalPath prim.uid r
  else
    onUid t.uid fun t => { t with status := .waiting, waits := some .twin }

/-! ## The outcome of a step -/

/-- The team stands at a scalar word boundary: no word has done a first part of what it does. -/
def Phase.boundary : Phase → Bool
  | .none => true
  | .arrived _ _ => true
  | .filling => true
  | _ => false

/-- Halt a team (21 R369): its reason, the comparators that matched, the code of a `brk`. Its matrix loops lose their grants and
their entries (13 R288); a recoverable fault not yet served is held in PENDF (21 R370). -/
def haltTeam (uid reason pcm dam brk : Nat) : M Unit := do
  match (← get).team? uid with
  | none => pure ()
  | some t => onCluster t.cluster fun c => c.ungrant uid
  onUid uid fun t =>
    { t with
      status := .waiting, rfault := none
      dbg := { t.dbg with halted := true, reason := reason, haltReq := false, stepping := false, stepS := false, stepL := false
                          pcm := pcm, dam := dam, brk := brk, pendf := t.dbg.pendf <|> t.rfault } }

/-- A team stands at a boundary at which a halt may take effect (21 R369, 07 R173): no release has its PSN, no pass has
atomics in flight. -/
def Team.atBoundary (t : Team) : Bool :=
  !t.s.phase.isPublished && t.l.flight.isNone

/-- Reason of a halt that is due: a request, or the end of a step (21 R369). -/
def Debug.due (d : Debug) : Nat :=
  (if d.haltReq then 1 else 0) + (if d.stepping && !d.stepS && !d.stepL then 2 else 0)

/-- A halt that is due takes effect at a boundary. -/
def haltIfDue (uid : Nat) : M Unit := do
  match (← get).team? uid with
  | none => pure ()
  | some t =>
    if t.resident && !t.dbg.halted && t.dbg.due != 0 && t.atBoundary then haltTeam uid t.dbg.due 0 0 0 else pure ()

/-- Take a fault of a team (21 R354, R356); under a halt or a halt request a recoverable fault is held in PENDF (21 R370). -/
def takeTrap (uid : Nat) (r : TrapReq) : M Unit := do
  match (← get).team? uid with
  | none => pure ()
  | some t =>
    if r.recov then
      if t.dbg.halted then onUid uid fun t => { t with dbg := { t.dbg with pendf := some r } }
      else if t.dbg.haltReq || t.dbg.stepping then
        onUid uid fun t => { t with dbg := { t.dbg with pendf := some r } }
        haltTeam uid ((if t.dbg.haltReq then 1 else 0) + (if t.dbg.stepping then 2 else 0)) 0 0 0
      else recoverablePath uid r
    else if t.paired.role = 0 then fatalPath uid r
    else pairedTrap t r

/-- A team parks: it waits (15 R310). -/
def parkTeam (uid : Nat) (s : State) (w : WaitFor) : State := s.onTeamId uid fun t => { t with status := .waiting, waits := some w }

/-- A recoverable fault whose swap-out has to wait: the team waits with it, and nothing of it is lost (21 R360). -/
def State.holdFault (s : State) (uid : Nat) (r : TrapReq) (w : WaitFor) : State :=
  s.onTeamId uid fun t => { t with status := .waiting, waits := some w, rfault := some r }

/-- A recoverable fault is served, or held until its swap-out need not wait. -/
def serveFault (uid : Nat) (r : TrapReq) : M Unit := fun s =>
  match (do
      onUid uid fun t => { t with status := .ready, waits := none, rfault := none }
      recoverablePath uid r : M Unit) s with
  | .error (.wait w) _ => .ok () (s.holdFault uid r w)
  | o => o

/-- A fatal fault of an engine is taken at the team's scalar word boundary (08 R184); it stays where its path would have to wait. -/
def takeEngineFault (uid : Nat) : M Unit := fun s =>
  match (s.team? uid).bind fun t => if t.s.phase.boundary then t.efault else none with
  | none => .ok () s
  | some r => match (do onUid uid fun t => { t with efault := none }; takeTrap uid r : M Unit) s with
    | .error (.wait _) _ => .ok () s
    | o => o

/-- The issuing team waits (15 R310). -/
def State.parkCur (s : State) (w : WaitFor) : State := { s with cur := { s.cur with status := .waiting, waits := some w } }

/-- Settle what stopped a computation of a team: a fault is taken, a wait parks what waits. `s0` is the state to park in when
taking the fault itself has to wait; a recoverable one is held (21 R360). -/
def settleWith (park : State → WaitFor → State) (uid : Nat) (e : Stop) (s0 s : State) : Host.Outcome State Fault Refusal :=
  match e with
  | .wait w => .next (park s w)
  | .halt f => .fault f
  | .terminate ctx _ la task => .next (runM (terminateContext ctx 0xFF task la) s)
  | .trap r =>
    match takeTrap uid r s with
    | .ok _ s' => .next s'
    | .error (.wait w) _ => .next (if r.recov then s0.holdFault uid r w else park s0 w)
    | .error (.halt f) _ => .fault f
    | .error (.terminate ctx _ la task) s' => .next (runM (terminateContext ctx 0xFF task la) s')
    | .error (.trap _) s' => .next s'

/-- The settling of a team whose waits park it. -/
def settle (uid : Nat) (e : Stop) (s0 s : State) : Host.Outcome State Fault Refusal := settleWith (parkTeam uid) uid e s0 s

/-- The outcome of a computation of the issuing team. -/
def runTeam (m : M Unit) (s : State) : Host.Outcome State Fault Refusal :=
  match m s with
  | .ok _ s' => .next s'
  | .error e s' => settle s.cur.uid e s s'

/-- The outcome of a step of another agent: where it may not act yet, nothing changes (log 3). -/
def runEvent (m : M Unit) (s : State) : Host.Outcome State Fault Refusal :=
  match m s with
  | .ok _ s' => .next s'
  | .error (.wait _) _ => .next s
  | .error e s' => settle s.cur.uid e s s'

/-- Guard of an event: where it does not hold, nothing changes (log 3). -/
def enabled (b : Bool) : M Unit := waitUnless b .memory

end Sys2Proof.Machine
end

