-- ==== Sys2Proof/Machine/ScalarMem.lean ====
section
/-!
DEFINITION. Scalar loads, stores and atomics (06 R126, R131 to R135, R150, R154).
-/
namespace Sys2Proof.Machine

/-- Effective address (06 R126). -/
def effAddr (s : State) (a : XReg) (i : BitVec 16) : Word64 := s.getX a + sext64 i

/-- Every scalar word that has done its work moves on. -/
def advance : M Unit := modify State.advance

/-- Note a value on its way to a register (14 R293). -/
def expect (kind : OutKind) (d : XReg) (val : Option Word64) (op : Nat) : M Unit :=
  onScalar fun c => { c with outs := c.outs ++ [{ op := op, kind := kind, rd := d.toNat, val := val, val2 := none }] }

/-- A scalar load of `n` bytes (06 R131): its value is served now and returns to the register by LOAD_DATA_RETURN; a fill of the
IXB that it began is in flight until then (17 R341). -/
def issueLoad (d : XReg) (ea : Word64) (n : Nat) (signed : Bool) : M Unit := do
  let t ← getTeam
  let st := (← get).stamp
  let v ← scalarLoad { Access.load with priv := t.s.priv, sysOk := n == 8 } t ea n
  let op ← nextStamp
  markFills t st (.op op)
  expect .load d (some (if signed then sextN (8 * n) v else BitVec.ofNat 64 v)) op
  advance

/-- A scalar store of `n` bytes in the default colour (06 R131, 15 R309). -/
def issueStore (v : Word64) (ea : Word64) (n : Nat) : M Unit := do
  let t ← getTeam
  storeVa { Access.store with priv := t.s.priv, sysOk := n == 8 } t ea n (v.toNat % 2 ^ (8 * n)) t.ctl.dcol 0
  advance

/-- `ld.b xD, i(xA)` (06 R131). -/
def execLdB (d a : XReg) (i : BitVec 16) (s : State) : Host.Outcome State Fault Refusal :=
  runTeam (issueLoad d (effAddr s a i) 1 true) s

/-- `ld.h xD, i(xA)` (06 R131). -/
def execLdH (d a : XReg) (i : BitVec 16) (s : State) : Host.Outcome State Fault Refusal :=
  runTeam (issueLoad d (effAddr s a i) 2 true) s

/-- `ld.w xD, i(xA)` (06 R131). -/
def execLdW (d a : XReg) (i : BitVec 16) (s : State) : Host.Outcome State Fault Refusal :=
  runTeam (issueLoad d (effAddr s a i) 4 true) s

/-- `ld.d xD, i(xA)` (06 R131). -/
def execLdD (d a : XReg) (i : BitVec 16) (s : State) : Host.Outcome State Fault Refusal :=
  runTeam (issueLoad d (effAddr s a i) 8 true) s

/-- `ldu.b xD, i(xA)` (06 R131). -/
def execLduB (d a : XReg) (i : BitVec 16) (s : State) : Host.Outcome State Fault Refusal :=
  runTeam (issueLoad d (effAddr s a i) 1 false) s

/-- `ldu.h xD, i(xA)` (06 R131). -/
def execLduH (d a : XReg) (i : BitVec 16) (s : State) : Host.Outcome State Fault Refusal :=
  runTeam (issueLoad d (effAddr s a i) 2 false) s

/-- `ldu.w xD, i(xA)` (06 R131). -/
def execLduW (d a : XReg) (i : BitVec 16) (s : State) : Host.Outcome State Fault Refusal :=
  runTeam (issueLoad d (effAddr s a i) 4 false) s

/-- `st.b xS, i(xA)` (06 R131). -/
def execStB (v a : XReg) (i : BitVec 16) (s : State) : Host.Outcome State Fault Refusal :=
  runTeam (issueStore (s.getX v) (effAddr s a i) 1) s

/-- `st.h xS, i(xA)` (06 R131). -/
def execStH (v a : XReg) (i : BitVec 16) (s : State) : Host.Outcome State Fault Refusal :=
  runTeam (issueStore (s.getX v) (effAddr s a i) 2) s

/-- `st.w xS, i(xA)` (06 R131). -/
def execStW (v a : XReg) (i : BitVec 16) (s : State) : Host.Outcome State Fault Refusal :=
  runTeam (issueStore (s.getX v) (effAddr s a i) 4) s

/-- `st.d xS, i(xA)` (06 R131). -/
def execStD (v a : XReg) (i : BitVec 16) (s : State) : Host.Outcome State Fault Refusal :=
  runTeam (issueStore (s.getX v) (effAddr s a i) 8) s

/-- Store back one aligned word of a host window that a read-modify-write has read (06 R135): each aligned 8-byte word whole. The
read and the write are one step, so no racing host store falls between them (log 105). -/
def hostRmw (addr n : Nat) (f : Nat → Nat) : M Nat := do
  let s ← get
  let base := addr / 8 * 8
  let w := s.host.readN base 8
  let old := bits w (8 * (addr % 8)) (8 * n)
  set (s.writeHost base 8 (setBits w (8 * (addr % 8)) (8 * n) (f old)) false)
  return old

/-- A scalar read-modify-write (06 R132 to R135). -/
def issueAtomic (d : XReg) (va : Word64) (n : Nat) (sys : Bool) (what : AtomOp) : M Unit := do
  let t ← getTeam
  let a : Access := { Access.atomic with priv := t.s.priv, size := n }
  let p ← locate a t va n
  match t.pageKind va with
  | .template _ => tmplAcc a va
  | _ => pure ()
  let op ← nextStamp
  if Win.logged p.desc then
    let _ ← sendAtomic t p what (.scalar op) sys va
    expect .atomic d none op
  else
    if (← get).postedTo t.uid .host (p.la % 2 ^ 45 / 8 * 8) 8 then waitFor .memory
    if Table.get false (← get).hostBad (p.la % 2 ^ 45 / 32) then poisonLoad a va p
    let old ← hostRmw (p.la % 2 ^ 45) n what.apply
    expect .atomic d (some (what.result old)) op
  advance

/-- Bytes of the size field of `amo` and `cas` (06 R132). -/
def atomBytes (z : BitVec 2) : Nat := if z = 0 then 4 else 8

/-- `amo.op.size.scope xD, (xA), xB` (06 R132): `.sys` is scope 5. -/
def execAmo (d a b : XReg) (c : BitVec 3) (z : BitVec 2) (o : BitVec 4) (s : State) : Host.Outcome State Fault Refusal :=
  runTeam (issueAtomic d (s.getX a) (atomBytes z) (c == 5) (.amo o.toNat (8 * atomBytes z) (s.getX b))) s

/-- `cas.size.scope xD, (xA), xB` (06 R133). -/
def execCas (d a b : XReg) (c : BitVec 3) (z : BitVec 2) (s : State) : Host.Outcome State Fault Refusal :=
  runTeam (issueAtomic d (s.getX a) (atomBytes z) (c == 5) (.cas (8 * atomBytes z) (s.getX d) (s.getX b))) s

/-! ## Returns (14 R293, 06 R134) -/

/-- Write the values of an outstanding access to its registers. -/
def deliverOut (c : Scalar) (op : Nat) : Scalar :=
  match c.outs.find? fun o => o.op == op with
  | none => c
  | some o => { settleScalar { c with outs := [o] } with outs := c.outs.filter fun o => o.op != op }

/-- LOAD_DATA_RETURN (06 R131, 14 R293): the data of a load, or of another access whose value is known, is written. -/
def loadDataReturn (team op : Nat) : M Unit := do
  match (← get).team? team with
  | none => enabled false
  | some t =>
    enabled (t.s.outs.any fun o => o.op == op && o.val.isSome)
    onUid team fun t => { t with s := deliverOut t.s op }
def execLoadDataReturn (team op : Nat) (s : State) : Host.Outcome State Fault Refusal := runEvent (loadDataReturn team op) s

/-- Drop the IXB entry of a granule in a cluster (06 R134). -/
def dropIxb (cl win gran : Nat) : M Unit :=
  onCluster cl fun c => { c with ixb := c.ixb.filter fun e => !e.isFor win gran }

/-- Drop the stash row of a task that holds a sector (04 R103). -/
def dropStashRow (uid win la : Nat) : M Unit :=
  onUid uid fun t => { t with h := { t.h with stash := t.h.stash.map fun b =>
    if b.win = win ∧ b.la / 4096 = la / 4096 then b.drop (la % 4096 / 128) else b } }

/-- Logical addresses of the 128-byte rows a request touches. -/
def AtomReq.rows (r : AtomReq) : List Nat :=
  match r.what with
  | .row _ len _ => (List.range len).map fun i => r.la + 128 * i
  | _ => [r.la]

/-- A queued block that sampled a register an outstanding atomic gives (14 R301) receives the value. -/
def LaneBlock.fill (b : LaneBlock) (op : Nat) (v : Word64) : LaneBlock :=
  { b with
    xs := b.late.foldl (fun x p => if p.2 = op then Table.set 0 x p.1 v else x) b.xs
    late := b.late.filter fun p => p.2 != op }

def Lane.fillLate (l : Lane) (op : Nat) (v : Word64) : Lane :=
  { l with
    queue := l.queue.map fun b => b.fill op v
    run := l.run.map fun r => { r with blk := r.blk.fill op v } }

/-- The result of a lane atomic arrives: the lane's registers are written, or the lane dies (06 R144, R150). -/
def deliverLane (d : AtomDone) (vd lane : Nat) (wide : Bool) : M Unit := do
  modify fun s => s.focus d.req.uid
  if (← get).cur.uid = d.req.uid then
    if d.poison then killLane lane d.req.la
    else if vd < 128 then
      let bit := BitVec.ofNat 32 (2 ^ (lane % 32))
      let put := fun (r v : Nat) => putRow r (lane / 32) bit (BitVec.ofNat 1024 (v % 2 ^ 32 * 2 ^ (32 * (lane % 32))))
      put vd d.old.toNat
      if wide then put (vd + 1) (d.old.toNat / 2 ^ 32)
    d.badLanes.forM fun l => killLane l d.req.la
    onLane fun l => { l with flight := l.flight.map fun f => { f with left := f.left - 1 } }

/-- ATOMIC_OLD_VALUE_RETURN (06 R134): the old value returns; the issuing cluster's IXB entry of the granule is dropped. -/
def atomicReturn (team op : Nat) : M Unit := do
  let s ← get
  match s.done.find? fun d => decide (d.req.uid = team) && (d.req.id == op || d.req.dest == .scalar op) with
  | none => enabled false
  | some d =>
    enabled (s.mayReturn d)
    modify fun s => { s with done := s.done.filter fun e => !(e.req.id == d.req.id && e.req.uid == d.req.uid) }
    d.req.rows.forM fun la => do
      dropIxb d.req.cluster d.req.win (la / 1024)
      dropStashRow team d.req.win la
    match d.req.dest with
    | .scalar o =>
      if d.poison then
        throw (.trap { noTrap with
          code := Code.poisonld, w2 := d.req.va
          w3 := BitVec.ofNat 64 (7 * 2 ^ 61 + 2 * 2 ^ 58 + 2 ^ 57 + d.req.win * 2 ^ 49)
          w5 := BitVec.ofNat 64 (d.req.la / 32 * 32), pc := some d.req.pc })
      let v := d.req.what.result d.old.toNat
      onUid team fun t =>
        { t with
          s := deliverOut { t.s with outs := t.s.outs.map fun x => if x.op = o then { x with val := some v } else x } o
          l := t.l.fillLate o v }
    | .lane vd lane wide => deliverLane d vd lane wide
    | .none => deliverLane d 128 0 false

/-- An event of one team: its stops are that team's. -/
def runEventOf (uid : Nat) (m : M Unit) (s : State) : Host.Outcome State Fault Refusal :=
  match m s with
  | .ok _ s' => .next s'
  | .error (.wait _) _ => .next s
  | .error e s' => settle uid e s s'

def execAtomicOldValueReturn (team op : Nat) (s : State) : Host.Outcome State Fault Refusal :=
  runEventOf team (atomicReturn team op) s

end Sys2Proof.Machine
end

