-- ==== Sys2Proof/Machine/Ordering.lean ====
section
/-!
DEFINITION. Ordering: the drain, releases, acquires and fences (07 R158 to R161), timelines (07 R162, R169), the steps of a
publication (02 R63, R65, R68), and the arrival of posted stores (03 R82, 07 R172).
-/
namespace Sys2Proof.Machine

/-! ## Drain (07 R158) -/

/-- Lane blocks outstanding (14 R302). -/
def Lane.outstanding (l : Lane) : Nat := l.queue.length + (if l.run.isSome then 1 else 0)

/-- Every lane block has retired, and every scalar access has returned its value. -/
def drain : M Unit := do
  let t ← getTeam
  waitUnless (decide (t.l.outstanding = 0)) (.lanes 0)
  waitUnless (t.s.outs.all fun o => o.val.isSome) .drain
  onScalar settleScalar

/-! ## Waits of a release (07 R159) -/

/-- Fields of a stream pattern record (08 R176). -/
def Rec.word (r : BitVec 512) (w : Nat) : Nat := bits r.toNat (64 * w) 64
def Rec.lkind (r : BitVec 512) : Nat := bits (Rec.word r 6) 59 2
def Rec.col (r : BitVec 512) : Nat := bits (Rec.word r 6) 43 3

/-- The operation writes global memory or a stash page: an `rspill`, or a local kind 2 or 3 (08 R176, R182). -/
def Runnel.writesGlobal (r : Runnel) : Bool := r.kind == 2 || Rec.lkind r.record == 2 || Rec.lkind r.record == 3

/-- Runnel operations of the task that write global memory in a named colour have ended. -/
def enginesDone (s : State) (t : Team) (mask : Nat) : Bool :=
  (s.core t.core).runnels.all fun r => r.uid != t.uid || r.ended || !r.writesGlobal || !bitAt mask (Rec.col r.record)

/-- Posted stores of the task in the named colours to a target have arrived. -/
def postsDone (s : State) (t : Team) (mask : Nat) (target : PostedTo) : Bool :=
  s.posted.all fun p => p.uid != t.uid || p.target != target || !bitAt mask p.colour

/-- Scope codes (07 R157, 01 R22). -/
def Scope.team : Nat := 1
def Scope.core : Nat := 2
def Scope.cluster : Nat := 3
def Scope.device : Nat := 4
def Scope.system : Nat := 5

/-- The release of a team whose waits are over (07 R159): private levels are raised, or a publication is numbered; answers
its PSN. -/
def startRelease (t : Team) (scope mask : Nat) : M (Option Nat) := do
  if scope = Scope.team then return none
  appendDirty t mask
  if scope ≤ Scope.cluster then
    raiseToCluster t mask
    return none
  publishWhere t.cluster (.task t.uid) fun p => p.uid == t.uid && bitAt mask p.colour

/-- Drop a copy's updates in the colours of a mask: the primary's are published (22 R384). -/
def dropUpdates (t : Team) (mask : Nat) : M Unit :=
  onCluster t.cluster fun c =>
    { c with
      dirty := c.dirty.filter fun d => !(d.uid == t.uid && bitAt mask d.colour)
      weir := c.weir.filter fun p => !(p.uid == t.uid && bitAt mask p.colour && p.pub == none) }

/-- Set where a multi-part instruction of a team stands. -/
def setPhase (uid : Nat) (p : Phase) : M Unit := onUid uid fun t => { t with s := { t.s with phase := p } }

/-- After its release a copy stands as its primary does. -/
def phaseOf : Option Nat → Phase
  | some n => .published n
  | none => .released

/-- A paired release (22 R384): when both copies stand alike the primary's updates are released and the other's dropped. -/
def pairedRelease (t : Team) (scope mask kind status : Nat) : M Unit := do
  let secs := (← get).releaseSectors t mask
  let p : PairPoint := { kind := kind, key := status + scope * 2 ^ 16 + mask * 2 ^ 24, sig := foldPoint t.paired.sig secs scope mask kind }
  if ← pairReach t p then
    match (← get).twinOf t with
    | none => pure ()
    | some u =>
      let prim := if t.paired.role = 1 then t else u
      let other := if t.paired.role = 1 then u else t
      let n ← startRelease prim scope mask
      dropUpdates other mask
      setPhase prim.uid (phaseOf n)
      setPhase other.uid (phaseOf n)
  else waitFor .twin

/-- Release after a drain (07 R159), or its remaining part: it ends once its publication has committed. `kind` and `status`
are what a paired copy compares. -/
def releaseAll (scope mask kind status : Nat) : M Unit := do
  let t ← getTeam
  match t.s.phase with
  | .published psn => waitUnless (decide (psn ≤ (← get).commitPoint)) (.commit psn)
  | .released => pure ()
  | _ =>
    drain
    let s ← get
    waitUnless (enginesDone s t mask) .engine
    waitUnless (postsDone s t mask .computeRow) .drain
    if scope = Scope.system then waitUnless (postsDone s t mask .host && postsDone s t mask .sysReg) .drain
    if t.paired.role ≠ 0 ∧ Scope.core ≤ scope then
      pairedRelease t scope mask kind status
    else
      let n ← startRelease t scope mask
      setPhase t.uid (phaseOf n)
    let t ← getTeam
    match t.s.phase with
    | .published psn => waitUnless (decide (psn ≤ (← get).commitPoint)) (.commit psn)
    | _ => pure ()

/-- `rel.scope mask` (07 R159). -/
def execRel (c : BitVec 3) (m : BitVec 8) (s : State) : Host.Outcome State Fault Refusal :=
  runTeam (do releaseAll c.toNat m.toNat 0 0; advance) s

/-- Acquire (07 R160). -/
def acquire (scope : Nat) : M Unit := do
  let t ← getTeam
  if scope = Scope.team then pure ()
  else if scope ≤ Scope.cluster then acquireCluster t
  else acquireDevice t

/-- `acq.scope` (07 R160). -/
def execAcq (c : BitVec 3) (s : State) : Host.Outcome State Fault Refusal :=
  runTeam (do drain; acquire c.toNat; advance) s

/-- The waits of a fence (07 R161). -/
def fenceAll (kind mask : Nat) : M Unit := do
  drain
  let t ← getTeam
  if kind ≠ 2 then
    appendDirty t mask
    let s ← get
    waitUnless (postsDone s t mask .computeRow && postsDone s t mask .host && postsDone s t mask .sysReg) .drain

/-- `fence.kind mask` (07 R161). -/
def execFence (k : BitVec 3) (m : BitVec 8) (s : State) : Host.Outcome State Fault Refusal :=
  runTeam (do fenceAll k.toNat m.toNat; advance) s

/-! ## Timelines (07 R162, R169) -/

/-- The next operation number of a timeline, counted as issued. -/
def timelineNext (n : Nat) : M Nat := do
  let t ← getTeam
  let k := t.h.tlIssued.getD n 0 + 1
  onHold fun h => { h with tlIssued := h.tlIssued.set n k }
  return k

/-- An operation of a team has ended. -/
def timelineEnd (uid n k : Nat) : M Unit := onUid uid fun t => { t with h := t.h.ended n k }

/-- Every operation issued on tl0 to tl7 has ended (15 R320, R325). -/
def timelinesDone (t : Team) : Bool := (List.range 8).all fun n => t.h.tl.getD n 0 == t.h.tlIssued.getD n 0

/-- `tlwait tlN, xA` (07 R162): TLRANGE beyond the highest number issued. -/
def execTlwait (a : XReg) (n : BitVec 3) (s : State) : Host.Outcome State Fault Refusal :=
  runTeam (do
    let t ← getTeam
    let v := (s.getX a).toNat
    if t.h.tlIssued.getD n.toNat 0 < v then trapWith Code.tlrange (s.getX a)
    waitUnless (decide (v ≤ t.h.tl.getD n.toNat 0)) (.timeline n.toNat v)
    advance) s

/-- `tlread xD, tlN` (07 R162). -/
def execTlread (d : XReg) (n : BitVec 3) (s : State) : Host.Outcome State Fault Refusal :=
  .next (s.result d (BitVec.ofNat 64 (s.cur.h.tl.getD n.toNat 0)))

/-! ## Steps of the home slices and the sequencer -/

/-- The paired twin of a request stands at the same slice: the copies send their requests in one order, and the first of one meets the
first of the other (22 R385). -/
def State.twinReq (s : State) (h : Nat) (r : AtomReq) : Option (Team × AtomReq) :=
  match s.team? r.uid with
  | none => none
  | some t => match s.twinOf t with
    | none => none
    | some u =>
      let place := ((s.slice h).reqs.filter fun q => q.uid == r.uid).findIdx fun q => q.id == r.id
      ((s.slice h).reqs.filter fun q => q.uid == u.uid)[place]?.map fun q => (u, q)

/-- Destination, requester and place of a request put aside: what paired copies must agree on (22 R385). -/
def AtomReq.same (a b : AtomReq) : Bool := decide (a.win = b.win ∧ a.la = b.la ∧ a.what = b.what ∧ a.sys = b.sys)

/-- A request of a paired copy whose twin's has not come: the slice holds it (22 R385). -/
def State.loneReq (s : State) (h : Nat) (r : AtomReq) : Bool :=
  match s.team? r.uid with
  | some t => t.paired.role != 0 && (s.twinReq h r).isNone
  | none => false

/-- A row update that stands stalled for room in the log of its slice (02 R71, R72). -/
def State.noRoom (s : State) (h : Nat) (r : AtomReq) : Bool :=
  r.appends && s.stallers.contains (.slice h) && !s.mayResume (.slice h)

/-- HOME_SLICE_ATOMIC (04 R95, 06 R134): the first request that nothing holds back is performed; a paired one with its twin's
request, once for both (22 R385). -/
def homeSliceAtomic (h : Nat) : M Unit := do
  let s ← get
  enabled (!(s.slice h).paused)
  match s.readyAtomics h fun r => s.heldBack r || s.loneReq h r || s.noRoom h r with
  | [] => enabled false
  | r :: _ =>
    if r.appends && !s.mayResume (.slice h) then
      modify fun s => s.stall (.slice h)
      return
    if r.appends then modify fun s => s.unstall (.slice h)
    match s.twinReq h r with
    | none => performAtomic h r
    | some (u, q) =>
      if r.same q then
        performAtomic h r
        onSlice h fun c => { c with reqs := c.reqs.filter fun x => x.id != q.id }
        modify fun s => { s with done := s.done ++ (s.done.filter fun d => d.req.id == r.id).map fun d => { d with req := q } }
      else
        onSlice h fun c => { c with reqs := c.reqs.filter fun x => x.id != q.id && x.id != r.id }
        match s.team? r.uid with
        | some t => pairMismatch t u
        | none => pure ()

/-- Stops of a step that acts for no team in particular. -/
def execHomeSliceAtomic (slice : Nat) (s : State) : Host.Outcome State Fault Refusal := runEventOf 0 (homeSliceAtomic slice) s

/-- ATOMIC_COLLECTION_CLOSE (02 R65): the open collection of a slice becomes a publication. Home-slice appends stall below
1 % of free segments (02 R71), and resume in their turn (02 R72). -/
def atomicCollectionClose (h : Nat) : M Unit := do
  let s ← get
  match (s.slice h).coll with
  | none => enabled false
  | some l =>
    if s.mayResume (.slice h) then
      modify fun s => s.unstall (.slice h)
      closeCollection h l
    else modify fun s => s.stall (.slice h)
def execAtomicCollectionClose (slice : Nat) (s : State) : Host.Outcome State Fault Refusal := runEventOf 0 (atomicCollectionClose slice) s

/-- The owners of windows whose index a step of the device found malformed are terminated: no task made the lookup (02 R56). -/
def endOwners (l : List Malformed) : M Unit :=
  l.forM fun m => do terminateContext (Win.owner ((← get).window m.1)) 0xFF noTask m.2

/-- PSN_SHARE_ARRIVAL (02 R63 step 4): a home slice prepares a PSN, every lower one prepared. -/
def psnShareArrival (psn h : Nat) : M Unit := do
  enabled (decide (h < 48) && (← get).mayPrepare psn h)
  endOwners (← prepare psn h)
def execPsnShareArrival (psn slice : Nat) (s : State) : Host.Outcome State Fault Refusal := runEventOf 0 (psnShareArrival psn slice) s

/-- Sectors of a source window that a rollback leaves unwritten: its replica holds them still (25 R414). -/
def State.rolledAway (s : State) (p : Publication) : List Nat :=
  match p.who with
  | .roll _ w h =>
    let d := s.window w
    match s.snaps.find? fun q => q.handle == h with
    | some q =>
      if Peer.isSource (Table.get 0 s.peers w) then
        let now := (s.indexSectors q.root q.depth).map (·.1)
        (((s.indexSectors (Win.root d) (Win.depth d)).map (·.1)).filter fun k => !now.contains k).map fun k => Win.lbase d / 32 + k
      else []
    | none => []
  | _ => []

/-- What a commit sends on: completions of a host batch (24 R396), sectors for the Spillway (25 R413), of a rollback also those that it
has left unwritten, `gone`. -/
def afterCommit (p : Publication) (gone : List Nat) : M Unit := do
  onDev fun d =>
    let mine := d.batches.filter fun b => b.psn == p.psn
    { d with batches := d.batches.filter (fun b => b.psn != p.psn), sent := d.sent ++ mine.flatMap fun b => b.lines.map Sent.writeDone }
  let s ← get
  let src := fun (w : Nat) => Peer.isSource (Table.get 0 s.peers w)
  let ship := p.share.flatMap fun u =>
    if src u.win then
      let e := (s.granEntry (s.window u.win) u.gran).getD 0
      (List.range 32).filterMap fun i =>
        if u.runs.any fun r => bitAt r.live.toNat i then
          match s.resolve e i with
          | .at_ pos => some (Unshipped.mk u.win p.psn (u.gran * 32 + i) (some pos))
          | _ => none
        else none
    else []
  -- a rollback of a source window ships the window again as it stands (25 R414)
  let again := (match p.who with
    | .roll _ w _ =>
      let d := s.window w
      if src w then
        ((s.indexSectors (Win.root d) (Win.depth d)).map fun q => Unshipped.mk w p.psn (Win.lbase d / 32 + q.1) (some q.2))
          ++ gone.map fun k => Unshipped.mk w p.psn k none
      else []
    | _ => [])
  -- a snapshot of a source window owes a cut (25 R413); a replica's cut is echoed (25 R414)
  let owed := (match p.who with
    | .snap _ w => if src w then [(w, p.psn)] else []
    | _ => [])
  let echoes := s.dev.echoes.filter fun e => e.psn == p.psn
  onDev fun d =>
    { d with
      unshipped := d.unshipped ++ ship ++ again, cutOwed := d.cutOwed ++ owed
      echoes := d.echoes.filter fun e => e.psn != p.psn }
  echoes.forM fun e => sendCut e.rtid (2 ^ 16 - 1) e.pwid e.cut

/-- PSN_COMMIT (02 R63 steps 5, 6): the sequencer commits the lowest PSN that every slice has prepared. -/
def psnCommit : M Unit := do
  match (← get).mayCommit with
  | none => enabled false
  | some p =>
    let gone := (← get).rolledAway p
    let bad ← commit p
    afterCommit p gone
    endOwners bad
def execPsnCommit (s : State) : Host.Outcome State Fault Refusal := runEventOf 0 psnCommit s

/-- HELD_NOTICE (02 R63 step 4, R68): of one slice, once it has prepared, to one cluster. -/
def heldNoticeStep (psn h cl : Nat) : M Unit := do
  match (← get).pub? psn with
  | none => enabled false
  | some p =>
    enabled (decide (cl < 48) && p.mayHold h cl)
    heldNotice p h cl
def execHeldNotice (psn : Nat) (route : NoticeRoute) (s : State) : Host.Outcome State Fault Refusal :=
  runEventOf 0 (heldNoticeStep psn route.slice route.cluster) s

/-- COMMIT_NOTICE (02 R68). -/
def commitNoticeStep (psn cl : Nat) : M Unit := do
  match (← get).pub? psn with
  | none => enabled false
  | some p =>
    enabled (decide (cl < 48) && (← get).mayNotice p cl)
    commitNotice p cl
def execCommitNotice (psn cluster : Nat) (s : State) : Host.Outcome State Fault Refusal := runEventOf 0 (commitNoticeStep psn cluster) s

/-- STALECNT_FLUSH (02 R70). -/
def execStalecntFlush (cluster : Nat) (s : State) : Host.Outcome State Fault Refusal :=
  runEventOf 0 (do enabled (decide (cluster < 48)); flushStale cluster) s

/-! ## Posted stores (03 R82, 07 R172) -/

/-- Two posted stores touch one aligned 8-byte word. -/
def Posted.sharesWord (p q : Posted) : Bool :=
  decide (p.addr / 8 ≤ (q.addr + q.size - 1) / 8 ∧ q.addr / 8 ≤ (p.addr + p.size - 1) / 8)

/-- No earlier posted store of the task goes to one of its aligned 8-byte words (07 R172). -/
def State.oldestOfWord (s : State) (p : Posted) : Bool :=
  s.posted.all fun q => !(decide (q.uid = p.uid ∧ q.target = p.target ∧ q.id < p.id) && p.sharesWord q)

def dropPosted (id : Nat) : M Unit := modify fun s => { s with posted := s.posted.filter fun q => q.id != id }

/-- A store reaches its bank: the bytes are merged in place (03 R81, R82); the sector's copies at the home slices are gone, and a
poisoned sector stays poisoned unless the store covers it whole. -/
def Posted.atBank (p : Posted) (s : State) : State :=
  let s1 := (s.touchRows [p.addr / 1024]).dropCopies p.addr
  { s1 with
    crow := s1.crow.writeN p.addr (p.over (s1.crow.readN p.addr p.size)) p.size
    crowBad := if (p.size = 32 ∧ p.only = none) ∨ p.poison = true then Table.set false s1.crowBad (p.addr / 32) p.poison else s1.crowBad }

/-- COMPUTE_ROW_STORE_AT_BANK (03 R82): the pseudo-channel serves the store in its turn (03 R76). Two stores of one task to one byte
open one row, so they are served in issue order (06 R152). -/
def computeRowStore (id : Nat) : M Unit := do
  let s ← get
  match s.posted.find? fun p => decide (p.id = id ∧ p.target = .computeRow) with
  | none => enabled false
  | some p =>
    enabled (s.mayServe (chanOf p.addr) { stamp := p.id, rows := [p.addr / 1024], cmd := none })
    modify fun s => s.servedRow (chanOf p.addr) p.id
    dropPosted id
    modify p.atBank
def execComputeRowStoreAtBank (store : Nat) (s : State) : Host.Outcome State Fault Refusal := runEventOf 0 (computeRowStore store) s

end Sys2Proof.Machine
end

