-- ==== Sys2Proof/Machine/Fetch.lean ====
section
/-!
DEFINITION. Fetching scalar and lane words (14 R298, R423), and what a word that is no instruction traps with (21 R352).
-/
namespace Sys2Proof.Machine

/-- Read four bytes of code (14 R423): through the core TLB and the IXB, seen as loads of the task are; no load is counted. -/
def fetch4 (a : Access) (t : Team) (va : Word64) : M Nat := do
  let c := Table.get 0 ((← get).core t.core).cnt 11
  let a := { a with size := 4 }
  let p ← locate a t va 4
  let r ← readPlace a t va p 4 0 sysRead
  onCore t.core fun k => { k with cnt := Table.set 0 k.cnt 11 c }
  if r.poison then poisonLoad a va p
  return r.value

/-- The scalar word at an address (14 R298). -/
def fetchScalar (t : Team) (va : Word64) : M Nat := fetch4 { Access.sfetch with priv := t.s.priv } t va

/-- A fault reports the address as presented, also where a later part of the access raised it (05 R120, R121). -/
def reportAt {α : Type} (va : Word64) (m : M α) : M α :=
  tryCatch m fun e => match e with
    | .trap r => throw (.trap { r with w2 := va })
    | e => throw e

/-- The lane word of an index (01 R9): three words of four bytes. -/
def fetchLane (t : Team) (priv : Bool) (n : Nat) : M Nat :=
  let va := t.kern.lcode + BitVec.ofNat 64 (12 * n)
  let a := { Access.lfetch with priv := priv, src := 1 }
  reportAt va (do
    let w0 ← fetch4 a t va
    let w1 ← fetch4 a t (va + 4)
    let w2 ← fetch4 a t (va + 8)
    return w0 + w1 * 2 ^ 32 + w2 * 2 ^ 64)

/-- Code of a decoder's rejection. -/
def rejectCode : Reject → Nat
  | .illpair => Code.illpair
  | _ => Code.illop

/-- ILLOP and PRIVOP of a scalar word (21 R352): the word, zero-extended. -/
def trapScalarWord {α : Type} (code w : Nat) : M α := trapWith code (BitVec.ofNat 64 w)

/-- ILLOP and ILLPAIR of a lane word (21 R352): its bits. -/
def trapLaneWord {α : Type} (code w : Nat) : M α :=
  laneTrap code (BitVec.ofNat 64 w) (BitVec.ofNat 64 (w / 2 ^ 64))

/-- The word of a well-formed instruction, as its trap reports it. -/
def wordOf (i : Instr) : Nat := (encode i).getD 0

/-- ILLOP or PRIVOP raised by an instruction of the scalar stream as it executes. -/
def trapSelf {α : Type} (code : Nat) (i : Instr) : M α := trapScalarWord code (wordOf i)

end Sys2Proof.Machine
end

