-- ==== Sys2Proof/Machine/LaneArith.lean ====
section
/-!
DEFINITION. What each lane arithmetic instruction computes in one lane: integer (11 R230 to R233), float and narrow
(R234 to R236), conversions (R238 to R240), and the block scales (R242 to R245), as functions of the operands.
-/
namespace Sys2Proof.Machine

/-- What a lane function reads beside its operands. -/
structure LaneCtx where
  nf : List Word64
  /-- dither phase (10 R223) -/
  dph : Word64
  lane : Nat
  deriving DecidableEq, Repr

/-- A lane result and the flags it sets (10 R221). -/
structure LaneOut where
  val : Word32
  o : Bool
  n : Bool
  deriving DecidableEq, Repr

/-- A lane function: fields, context, the three operands. -/
abbrev LaneFn := LArith → LaneCtx → Word32 → Word32 → Word32 → LaneOut

/-- Element `j` of `w` bits of a lane (10 R209). -/
def elem (w j : Nat) (v : Word32) : Nat := v.toNat / 2 ^ (w * j) % 2 ^ w

/-- Elements packed into a lane, unused bits zero (10 R209). -/
def packElems (w : Nat) (l : List Rounded) : LaneOut :=
  { val := BitVec.ofNat 32 (l.foldr (fun r acc => r.code % 2 ^ w + 2 ^ w * acc) 0)
    o := l.any (·.o), n := l.any (·.n) }

def mapElems (w e : Nat) (g : Nat → Rounded) : LaneOut := packElems w ((List.range e).map g)

/-! ## Integer (11 R230) -/

/-- Negation of an integer element (11 R228). -/
def negElem (neg : Bool) (w v : Nat) : Nat := if neg then (2 ^ w - v) % 2 ^ w else v

/-- The result of the class: SAT clamps to the signed range, otherwise modulo 2^w. -/
def fitSigned (sat : Bool) (w : Nat) (x : Int) : Int × Bool := if sat then clampInt w true x else (x, false)

/-- Unsigned saturation of `vaddsat` and `vsubsat`. -/
def fitUnsigned (w : Nat) (x : Int) : Int × Bool := clampInt w false x

/-- An integer instruction, element by element. -/
def laneIntWith (x : Nat → Nat → Nat → Nat → Int) (fit : Nat → Int → Int × Bool) (f : LArith) (a b c : Word32) : LaneOut :=
  let w := if f.fmt = 1 then 16 else 32
  mapElems w (32 / w) fun j =>
    let r := fit w (x w (negElem f.na w (elem w j a)) (negElem f.nb w (elem w j b)) (negElem f.nc w (elem w j c)))
    { code := lowBits w r.1, o := r.2, n := false }

def laneInt (x : Nat → Nat → Nat → Nat → Int) : LaneFn := fun f _ a b c => laneIntWith x (fitSigned f.sat) f a b c
def laneIntU (x : Nat → Nat → Nat → Nat → Int) : LaneFn := fun f _ a b c => laneIntWith x fitUnsigned f a b c

def xAdd (w a b _c : Nat) : Int := sintOf w a + sintOf w b
def xSub (w a b _c : Nat) : Int := sintOf w a - sintOf w b
def xMul (w a b _c : Nat) : Int := sintOf w a * sintOf w b
def xMulh (w a b _c : Nat) : Int := sintOf w a * sintOf w b / 2 ^ w
def xMulhu (w a b _c : Nat) : Int := ((a * b / 2 ^ w : Nat) : Int)
def xMad (w a b c : Nat) : Int := sintOf w a * sintOf w b + sintOf w c
def xMin (w a b _c : Nat) : Int := if sintOf w a < sintOf w b then sintOf w a else sintOf w b
def xMax (w a b _c : Nat) : Int := if sintOf w a < sintOf w b then sintOf w b else sintOf w a
def xMinu (_w a b _c : Nat) : Int := ((if a < b then a else b : Nat) : Int)
def xMaxu (_w a b _c : Nat) : Int := ((if a < b then b else a : Nat) : Int)
def xAnd (_w a b _c : Nat) : Int := ((a &&& b : Nat) : Int)
def xOr (_w a b _c : Nat) : Int := ((a ||| b : Nat) : Int)
def xXor (_w a b _c : Nat) : Int := ((a ^^^ b : Nat) : Int)
def xAndn (w a b _c : Nat) : Int := ((a &&& (2 ^ w - 1 - b) : Nat) : Int)
def xShl (w a b _c : Nat) : Int := sintOf w a * 2 ^ (b % w)
def xShr (w a b _c : Nat) : Int := ((a / 2 ^ (b % w) : Nat) : Int)
def xSar (w a b _c : Nat) : Int := sintOf w a / 2 ^ (b % w)
def xRotr (w a b _c : Nat) : Int := ((a / 2 ^ (b % w) + a * 2 ^ (w - b % w) : Nat) : Int)
def xClz (w a _b _c : Nat) : Int := (leadingZeros a w : Int)
def xPopc (w a _b _c : Nat) : Int := (popCount a w : Int)
def xBrev (w a _b _c : Nat) : Int :=
  ((List.range w).foldl (fun acc i => acc + (a / 2 ^ i % 2) * 2 ^ (w - 1 - i)) 0 : Nat)
def xAbs (w a _b _c : Nat) : Int := ((sintOf w a).natAbs : Int)
def xAddU (_w a b _c : Nat) : Int := (a : Int) + b
def xSubU (_w a b _c : Nat) : Int := (a : Int) - b
def xSel (_w a b c : Nat) : Int := ((if a ≠ 0 then b else c : Nat) : Int)
def xMov (_w _a b _c : Nat) : Int := (b : Int)

/-- The field mask of `vbfx` and `vbfi` (11 R231). -/
def bitField (b : Word32) : Nat × Nat × Nat :=
  let v := b.toNat
  let pos := v % 32
  let len := if v / 2 ^ 8 % 2 ^ 6 < 32 then v / 2 ^ 8 % 2 ^ 6 else 32
  (pos, len, ((2 ^ len - 1) * 2 ^ pos) % 2 ^ 32)

def fnBfx : LaneFn := fun f _ a b _ =>
  let (pos, len, m) := bitField b
  let v := (a.toNat &&& m) / 2 ^ pos
  let r : Nat := if len = 0 then 0 else if f.bsel = 1 then lowBits 32 (sintOf len v) else v
  { val := BitVec.ofNat 32 r, o := false, n := false }

def fnBfi : LaneFn := fun _ _ a b c =>
  let (pos, _, m) := bitField b
  { val := BitVec.ofNat 32 ((c.toNat &&& (2 ^ 32 - 1 - m)) ||| ((a.toNat * 2 ^ pos) % 2 ^ 32 &&& m)), o := false, n := false }

/-- `vdot4` (11 R232). -/
def fnDot4 : LaneFn := fun f _ a b c =>
  let w := if f.fmt = 0x09 ∨ f.fmt = 0x0A then 8 else 4
  let sg := decide (f.fmt = 0x09 ∨ f.fmt = 0x07)
  let val := fun (v : Word32) (j : Nat) => if sg then sintOf w (elem w j v) else (elem w j v : Int)
  let s : Int := (List.range (32 / w)).foldl (fun acc j => acc + val a j * val b j) (sintOf 32 c.toNat)
  let r := fitSigned f.sat 32 s
  { val := BitVec.ofNat 32 (lowBits 32 r.1), o := r.2, n := false }

/-- `vrqz` (11 R233). -/
def fnRqz : LaneFn := fun f _ a b c =>
  let h : Int := sintOf 32 a.toNat * sintOf 32 b.toNat / 2 ^ 32
  let s := f.imm32.toNat % 32
  let mag : Int := (((h.natAbs + 2 ^ (s - 1)) / 2 ^ s : Nat) : Int)
  let q : Int := if s = 0 then h else if h < 0 then -mag else mag
  let r := clampInt (if f.fmt = 0x09 then 8 else 4) true (q + sintOf 32 c.toNat)
  { val := BitVec.ofNat 32 (lowBits 32 r.1), o := r.2, n := false }

/-! ## Float (11 R234, R236) -/

/-- The format and element count of a float instruction. -/
def floatFmt (c : BitVec 5) : FFmt × Nat :=
  if c = 0x02 then (fp32, 1) else if c = 0x03 then (fp16, 1) else if c = 0x04 then (bf16, 1) else (bf16, 2)

def negNum (neg : Bool) (x : Num) : Num := if neg then x.negate else x

/-- A float instruction, element by element, rounded once. -/
def laneFloat (op : RMode → Num → Num → Num → Exact) : LaneFn := fun f _ a b c =>
  let (ft, e) := floatFmt f.fmt
  let w := ft.width
  let mode := RMode.ofCode f.rnd.toNat
  mapElems w e fun j =>
    roundF ft mode f.sat 0 (op mode (negNum f.na (decodeF ft (elem w j a))) (negNum f.nb (decodeF ft (elem w j b)))
      (negNum f.nc (decodeF ft (elem w j c))))

def oAdd (m : RMode) (a b _c : Num) : Exact := (a.add m b).exact
def oSub (m : RMode) (a b _c : Num) : Exact := (a.add m b.negate).exact
def oMul (_m : RMode) (a b _c : Num) : Exact := (a.mul b).exact
def oFma (m : RMode) (a b c : Num) : Exact := ((a.mul b).add m c).exact
def oMin (_m : RMode) (a b _c : Num) : Exact := (a.min b).exact
def oMax (_m : RMode) (a b _c : Num) : Exact := (a.max b).exact
def absNum : Num → Num
  | .nan => .nan
  | .inf _ => .inf false
  | .fin _ m e => .fin false m e
def oAbs (_m : RMode) (a _b _c : Num) : Exact := (absNum a).exact
def oNeg (_m : RMode) (a _b _c : Num) : Exact := a.negate.exact
/-- An integral value in the mode, keeping the sign (11 R234). -/
def oRnd (m : RMode) (a _b _c : Num) : Exact :=
  match a.exact with
  | .rat neg n d => .rat neg (roundSteps m neg 0 n d (fun k => k % 2 == 0)) 1
  | x => x
def oDiv (_m : RMode) (a b _c : Num) : Exact := a.div b
def oSqrt (_m : RMode) (a _b _c : Num) : Exact := sqrtExact a
def oRcp (_m : RMode) (a _b _c : Num) : Exact := Num.div (.fin false 1 0) a
def oRsq (_m : RMode) (a _b _c : Num) : Exact := rsqExact a
def oExp2 (_m : RMode) (a _b _c : Num) : Exact := exp2Exact a
def oLog2 (_m : RMode) (a _b _c : Num) : Exact := log2Exact a
def oSin (_m : RMode) (a _b _c : Num) : Exact := sinPiExact a
def oCos (_m : RMode) (a _b _c : Num) : Exact := cosPiExact a
def oTanh (_m : RMode) (a _b _c : Num) : Exact := tanhExact a

/-- The class mask of a code (11 R234). -/
def classMask (ft : FFmt) (c : Nat) : Nat :=
  match decodeF ft c with
  | .nan => 2 ^ 8
  | .inf s => if s then 2 ^ 0 else 2 ^ 7
  | .fin s m _ =>
    if m = 0 then (if s then 2 ^ 3 else 2 ^ 4)
    else if c / 2 ^ ft.manW % 2 ^ ft.expW = 0 then (if s then 2 ^ 2 else 2 ^ 5)
    else (if s then 2 ^ 1 else 2 ^ 6)

def fnClass : LaneFn := fun f _ a _ _ =>
  let (ft, e) := floatFmt f.fmt
  let w := ft.width
  if e = 2 then mapElems 16 2 fun j => { code := classMask ft (elem w j a), o := false, n := false }
  else { val := BitVec.ofNat 32 (classMask ft (elem w 0 a)), o := false, n := false }

/-! ## Narrow formats (11 R235) -/

/-- The dither threshold of element `j` of a packed result of width `w` (10 R222). -/
def packedDither (k : LaneCtx) (w j : Nat) : Nat :=
  ditherT (((k.lane % laneGroup w) * elemsPerLane w + j) % 256) k.dph

def laneNarrow (op : RMode → Num → Num → Num → Exact) : LaneFn := fun f k a b c =>
  match elemOfCode k.nf f.fmt.toNat with
  | .int _ _ => { val := 0, o := false, n := false }
  | .flt ft =>
    let w := ft.width
    let mode := RMode.ofCode f.rnd.toNat
    mapElems w (slotsOfLane w k.lane) fun j =>
      roundF ft mode f.sat (packedDither k w j)
        (op mode (negNum f.na (decodeF ft (elem w j a))) (negNum f.nb (decodeF ft (elem w j b)))
          (negNum f.nc (decodeF ft (elem w j c))))

/-! ## Conversions (11 R238 to R240) -/

/-- The written lane value of a converted element: signed integers sign-extend, all else zero-extends. -/
def placeElem (el : Elem) (c : Nat) : Word32 :=
  match el with
  | .int w true => BitVec.ofNat 32 (lowBits 32 (sintOf w c))
  | _ => BitVec.ofNat 32 c

/-- Convert one element between formats (11 R238). -/
def convertElem (src dst : Elem) (mode : RMode) (sat : Bool) (t c : Nat) : Rounded :=
  match src, dst with
  | .int w sg, .int w' sg' =>
    let x : Int := if sg then sintOf w c else ((c % 2 ^ w : Nat) : Int)
    let r := if sat then clampInt w' sg' x else (x, false)
    { code := lowBits w' r.1, o := r.2, n := false }
  | _, _ => roundElem dst mode sat t (decodeElem src c).exact

def fnCvt : LaneFn := fun f k a _ _ =>
  let src := elemOfCode k.nf f.imm32.toNat
  let dst := elemOfCode k.nf f.fmt.toNat
  let mode := RMode.ofCode f.rnd.toNat
  if f.fmt = 0x01 ∨ f.fmt = 0x05 then
    mapElems 16 2 fun j => convertElem src dst mode f.sat 0 (elem 16 j a)
  else
    let r := convertElem src dst mode f.sat 0 (a.toNat % 2 ^ src.width)
    { val := placeElem dst r.code, o := r.o, n := r.n }

def fnCvtd : LaneFn := fun f k a _ _ =>
  let src := elemOfCode k.nf f.imm32.toNat
  let dst := elemOfCode k.nf f.fmt.toNat
  let r := convertElem src dst .dth f.sat (ditherT (k.lane % 256) k.dph) (a.toNat % 2 ^ src.width)
  { val := placeElem dst r.code, o := r.o, n := r.n }

def fnCvtnf : LaneFn := fun f k a _ _ =>
  let el := elemOfCode k.nf f.fmt.toNat
  let mode := RMode.ofCode f.rnd.toNat
  let r :=
    if f.bsel = 0 then convertElem (.flt fp32) el mode f.sat (ditherT (k.lane % 256) k.dph) a.toNat
    else convertElem el (.flt fp32) mode f.sat 0 (a.toNat % 2 ^ el.width)
  { val := BitVec.ofNat 32 r.code, o := r.o, n := r.n }

/-! ## The function of an opcode -/

/-- The lane function of an integer or float opcode that may stand in a pair, or alone (01 R34). -/
def arithFn (op : Nat) : LaneFn :=
  match op with
  | 0x000 => laneInt xAdd | 0x001 => laneInt xSub | 0x002 => laneInt xMul | 0x003 => laneInt xMulh
  | 0x004 => laneInt xMulhu | 0x005 => laneInt xMad | 0x006 => laneInt xMin | 0x007 => laneInt xMax
  | 0x008 => laneInt xMinu | 0x009 => laneInt xMaxu | 0x00A => laneInt xAnd | 0x00B => laneInt xOr
  | 0x00C => laneInt xXor | 0x00D => laneInt xAndn | 0x00E => laneInt xShl | 0x00F => laneInt xShr
  | 0x010 => laneInt xSar | 0x011 => laneInt xRotr | 0x012 => laneInt xClz | 0x013 => laneInt xPopc
  | 0x014 => laneInt xBrev | 0x015 => laneInt xAbs | 0x016 => laneIntU xAddU | 0x017 => laneIntU xSubU
  | 0x018 => fnBfx | 0x019 => fnBfi | 0x01A => laneInt xSel | 0x01B => laneInt xMov
  | 0x01C => fnDot4 | 0x01D => fnRqz
  | 0x040 => laneFloat oAdd | 0x041 => laneFloat oSub | 0x042 => laneFloat oMul | 0x043 => laneFloat oFma
  | 0x044 => laneFloat oMin | 0x045 => laneFloat oMax | 0x046 => laneFloat oAbs | 0x047 => laneFloat oNeg
  | 0x048 => laneFloat oRnd | 0x049 => fnClass
  | 0x04A => laneNarrow oAdd | 0x04B => laneNarrow oMul | 0x04C => laneNarrow oFma
  | 0x04D => laneNarrow oMax | 0x04E => laneNarrow oMin
  | 0x050 => laneFloat oDiv | 0x051 => laneFloat oSqrt | 0x052 => laneFloat oRcp | 0x053 => laneFloat oRsq
  | 0x054 => laneFloat oExp2 | 0x055 => laneFloat oLog2 | 0x056 => laneFloat oSin | 0x057 => laneFloat oCos
  | 0x058 => laneFloat oTanh
  | 0x080 => fnCvt | 0x081 => fnCvtd | 0x082 => fnCvtnf
  | _ => fun _ _ a _ _ => { val := a, o := false, n := false }

/-- The instruction rounds with ordered dither, and so counts a tile (10 R223). -/
def usesDither (op : Nat) (f : LArith) : Bool :=
  op == 0x081 || (f.rnd == 5 && (match arithRow op with | some r => r.dth | none => false))

/-! ## Block scales (11 R242 to R245) -/

/-- The largest finite value of an element format. -/
def elemMax (el : Elem) : Num :=
  match el with
  | .int w sg => Num.ofInt (intMax w sg)
  | .flt f => decodeF f (maxFinite f)

def Elem.hasSpecial : Elem → Bool
  | .int _ _ => false
  | .flt f => f.nzr

/-- Ceiling of log2 of n/d. -/
def ceilLog2 (n d : Nat) : Int :=
  let e := log2Rat n d
  let exact := if 0 ≤ e then n == d * 2 ^ e.toNat else n * 2 ^ (-e).toNat == d
  if exact then e else e + 1

/-- A positive finite number as a fraction. -/
def Num.frac : Num → Nat × Nat
  | .fin _ m e => scaleRat m 1 (-e)
  | _ => (0, 1)

/-- The scale pair of a block: S, V, and whether N is set (11 R243). -/
def blockScale (el : Elem) (vals : List Num) : Nat × Nat × Bool :=
  if vals.any fun v => match v with | .fin _ _ _ => false | _ => true then (0xFF, 0, true)
  else
    let amax := vals.foldl (fun m v => m.max (absNum v)) (Num.fin false 0 0)
    let S : Nat :=
      if amax.isZero then 127
      else
        let (n, d) := amax.frac
        let (fn, fd) := (elemMax el).frac
        let e := 127 + ceilLog2 (n * fd) (d * fn)
        if e < 0 then 0 else if 254 < e then 254 else e.toNat
    let V := if el.hasSpecial then (roundF e4m3 .rtz false 0 (amax.scale (127 - (S : Int))).exact).code else 0
    (S, V, false)

/-- The canonical NaN of an element format, or 0 where it has none. -/
def elemNan (el : Elem) : Nat :=
  match el with
  | .int _ _ => 0
  | .flt f => canonNan f

/-- Distance of two finite numbers, as a fraction. -/
def numDist (a b : Num) : Nat × Nat := (absNum (a.add .rne b.negate)).frac

def fracLt (a b : Nat × Nat) : Bool := decide (a.1 * b.2 < b.1 * a.2)

/-- The magnitude of `a` lies below that of `b`. -/
def Num.absLt (a b : Num) : Bool := (absNum a).ieeeLt (absNum b)

/-- The special value is the better member of the block's set for x in a mode, over the ordinary result r (11 R244). -/
def specialBetter (mode : RMode) (x r sv : Num) : Bool :=
  match sv, r with
  | .fin _ _ _, .fin _ _ _ =>
    match mode with
    | .rne => fracLt (numDist x sv) (numDist x r)
    | .rna => fracLt (numDist x sv) (numDist x r)
    | .rup => !sv.ieeeLt x && (sv.ieeeLt r || r.ieeeLt x)
    | .rdn => !x.ieeeLt sv && (r.ieeeLt sv || x.ieeeLt r)
    | .rtz => (sv.isNeg == x.isNeg || sv.isZero) && !(absNum x).ieeeLt (absNum sv) && (absNum r).ieeeLt (absNum sv)
    | .dth => false
  | _, _ => false

/-- The code of an FP32 value in a block whose set holds the special value `sv` beside the ordinary elements (11 R244). Where
the special value lies farther out than every ordinary one on its side, it is the set's largest there, and what overflows
writes it (10 R219; log 23). -/
def quantiseSpecial (f : FFmt) (mode : RMode) (sat : Bool) (y sv : Num) (r : Rounded) : Rounded :=
  let special : Rounded := { code := 2 ^ (f.expW + f.manW), o := false, n := false }
  let better := fun (r : Num) => specialBetter mode y r sv
  let largest : Rounded := { code := maxFinite f + signBit f y.isNeg, o := false, n := false }
  match y.exact, sv with
  | .rat neg n d, .fin _ _ _ =>
    if n = 0 ∨ r.o = false then if better (decodeF f r.code) then special else r
    else if sv.isNeg != neg || !(decodeF f largest.code).absLt sv then r
    else if !sv.absLt y then if better (decodeF f largest.code) then special else largest
    else if better (magValue f neg (roundMagnitude f mode neg 0 n d)) then special
    else overflowCode f mode sat neg special.code
  | .inf neg, .fin _ _ _ =>
    if f.inf || sv.isNeg != neg || !(decodeF f largest.code).absLt sv then r else overflowCode f mode sat neg special.code
  | _, _ => r

/-- Quantise one FP32 element with its scale pair (11 R244). Under dither the special code is never chosen. -/
def quantise (el : Elem) (mode : RMode) (sat : Bool) (S V t : Nat) (x : Num) : Rounded :=
  if S = 0xFF then { code := elemNan el, o := false, n := true }
  else
    let y := x.scale (127 - (S : Int))
    let r := roundElem el mode sat t y.exact
    match el with
    | .flt f => if f.nzr && mode != .dth then quantiseSpecial f mode sat y (decodeF e4m3 V) r else r
    | _ => r

/-- Dequantise one element (11 R245). -/
def dequantise (el : Elem) (mode : RMode) (sat : Bool) (S V c : Nat) : Rounded :=
  roundF fp32 mode sat 0 (decodeScaled el S V c).exact

end Sys2Proof.Machine
end

