-- ==== Sys2Proof/Machine/LaneInfo.lean ====
section
/-!
DEFINITION. Which registers, masks and flags a word names: lane words by class (01 R26 to R34), what each lane word reads and
writes (09 R190, R200, 01 R37), and the scalar registers of a scalar word (14 R292).
-/
namespace Sys2Proof.Machine

/-- A lane word by its class and opcode (01 R34). -/
inductive LaneView where
  | arith (op : Nat) (f : LArith)
  | mask (op : Nat) (f : LMask)
  | cross (op : Nat) (f : LCross)
  | mem (op : Nat) (f : LMem)
  | mat (op : Nat) (f : LMat)
  | ctl (op : Nat) (f : LCtl)
  | pair (a b : Half)
  /-- no lane word -/
  | other
  deriving DecidableEq, Repr

/-- The class of a lane word. -/
def laneView : Instr → LaneView
  | .lanePair a b => .pair a b
  | .vadd f => .arith 0x000 f
  | .vsub f => .arith 0x001 f
  | .vmul f => .arith 0x002 f
  | .vmulh f => .arith 0x003 f
  | .vmulhu f => .arith 0x004 f
  | .vmad f => .arith 0x005 f
  | .vmin f => .arith 0x006 f
  | .vmax f => .arith 0x007 f
  | .vminu f => .arith 0x008 f
  | .vmaxu f => .arith 0x009 f
  | .vand f => .arith 0x00A f
  | .vor f => .arith 0x00B f
  | .vxor f => .arith 0x00C f
  | .vandn f => .arith 0x00D f
  | .vshl f => .arith 0x00E f
  | .vshr f => .arith 0x00F f
  | .vsar f => .arith 0x010 f
  | .vrotr f => .arith 0x011 f
  | .vclz f => .arith 0x012 f
  | .vpopc f => .arith 0x013 f
  | .vbrev f => .arith 0x014 f
  | .vabs f => .arith 0x015 f
  | .vaddsat f => .arith 0x016 f
  | .vsubsat f => .arith 0x017 f
  | .vbfx f => .arith 0x018 f
  | .vbfi f => .arith 0x019 f
  | .vsel f => .arith 0x01A f
  | .vmov f => .arith 0x01B f
  | .vdot4 f => .arith 0x01C f
  | .vrqz f => .arith 0x01D f
  | .vfadd f => .arith 0x040 f
  | .vfsub f => .arith 0x041 f
  | .vfmul f => .arith 0x042 f
  | .vfma f => .arith 0x043 f
  | .vfmin f => .arith 0x044 f
  | .vfmax f => .arith 0x045 f
  | .vfabs f => .arith 0x046 f
  | .vfneg f => .arith 0x047 f
  | .vfrnd f => .arith 0x048 f
  | .vfclass f => .arith 0x049 f
  | .vnadd f => .arith 0x04A f
  | .vnmul f => .arith 0x04B f
  | .vnfma f => .arith 0x04C f
  | .vnmax f => .arith 0x04D f
  | .vnmin f => .arith 0x04E f
  | .vfdiv f => .arith 0x050 f
  | .vfsqrt f => .arith 0x051 f
  | .vrcp f => .arith 0x052 f
  | .vrsq f => .arith 0x053 f
  | .vexp2 f => .arith 0x054 f
  | .vlog2 f => .arith 0x055 f
  | .vsin f => .arith 0x056 f
  | .vcos f => .arith 0x057 f
  | .vtanh f => .arith 0x058 f
  | .vcvt f => .arith 0x080 f
  | .vcvtd f => .arith 0x081 f
  | .vcvtnf f => .arith 0x082 f
  | .vpack f => .arith 0x083 f
  | .vunpack f => .arith 0x084 f
  | .vbsc f => .arith 0x085 f
  | .vbq f => .arith 0x086 f
  | .vbdq f => .arith 0x087 f
  | .vcmp f => .mask 0x0A0 f
  | .vfcmp f => .mask 0x0A1 f
  | .vmlog f => .mask 0x0A2 f
  | .vmpop f => .mask 0x0A3 f
  | .vmfirst f => .mask 0x0A4 f
  | .vif f => .mask 0x0A5 f
  | .velse f => .mask 0x0A6 f
  | .vendif f => .mask 0x0A7 f
  | .vbreak f => .mask 0x0A8 f
  | .vshfl f => .cross 0x0C0 f
  | .vbcast f => .cross 0x0C1 f
  | .vrot f => .cross 0x0C2 f
  | .vvote f => .cross 0x0C3 f
  | .vred f => .cross 0x0C4 f
  | .vfred f => .cross 0x0C5 f
  | .vscan f => .cross 0x0C6 f
  | .vfscan f => .cross 0x0C7 f
  | .vmatch f => .cross 0x0C8 f
  | .vcompact f => .cross 0x0C9 f
  | .vexpand f => .cross 0x0CA f
  | .vld f => .mem 0x0E0 f
  | .vst f => .mem 0x0E1 f
  | .vldp f => .mem 0x0E2 f
  | .vstp f => .mem 0x0E3 f
  | .vldb f => .mem 0x0E4 f
  | .vstb f => .mem 0x0E5 f
  | .vldrow f => .mem 0x0E6 f
  | .vtst f => .mem 0x0E7 f
  | .vpref f => .mem 0x0E8 f
  | .vatom f => .mem 0x0E9 f
  | .vcas f => .mem 0x0EA f
  | .vrowatom f => .mem 0x0EB f
  | .vwst f => .mat 0x100 f
  | .vqput f => .mat 0x101 f
  | .vadr f => .mat 0x102 f
  | .vaclr f => .mat 0x103 f
  | .vnrred f => .mat 0x110 f
  | .vnrld f => .mat 0x111 f
  | .vnrst f => .mat 0x112 f
  | .vnrclone f => .mat 0x113 f
  | .vnop f => .ctl 0x120 f
  | .vend f => .ctl 0x121 f
  | _ => .other

/-- The registers of a field: an even register names a pair in the 64-bit format (01 R12). -/
def regsOf (fmt : BitVec 5) (v : BitVec 7) : List Nat := if fmt = 0x1C then [v.toNat, v.toNat + 1] else [v.toNat]

/-- The even register of an address field and the odd one after it (06 R127). -/
def pairOf (v : BitVec 7) : List Nat := [v.toNat, v.toNat + 1]

/-- What a lane word touches. -/
structure Touch where
  /-- lane registers named, in the order of R37: of vd, va, vb, vc, then implied ranges -/
  named : List Nat
  /-- lane registers read -/
  srcs : List Nat
  /-- lane registers written -/
  dsts : List Nat
  /-- masks read, the governing mask among them -/
  masks : List Nat
  /-- masks written -/
  mdsts : List Nat
  /-- it can set a flag; it writes RDX -/
  flags : Bool
  rdx : Bool
  deriving DecidableEq, Repr

def Touch.none : Touch := { named := [], srcs := [], dsts := [], masks := [], mdsts := [], flags := false, rdx := false }

/-- Elements of a packed register in the format of a word (10 R209). An NF register with the malformed WID 3 gives no width: the range that
`vpack` or `vunpack` names is then checked as that of 10-bit elements, three registers, before the word faults NFFMT (log 127,
DESIGN CHOICE). -/
def elemsOf (nf : List Word64) (fmt : BitVec 5) : Nat := elemsPerLane (widthOfCode nf fmt.toNat)

/-- The source registers of an arithmetic word. -/
def arithSrcs (op : Nat) (f : LArith) : List Nat :=
  match arithRow op with
  | Option.none => []
  | some r => (if r.va then [f.va.toNat] else []) ++ (if r.vb && !f.imm && !f.spc then [f.vb.toNat] else [])
      ++ (if r.vc then [f.vc.toNat] else [])

/-- The flags an arithmetic word can set (10 R221). -/
def arithFlags (op : Nat) (f : LArith) : Bool :=
  if op < 0x40 then f.sat || op == 0x016 || op == 0x017 || op == 0x01D
  else !(op == 0x049 || op == 0x083 || op == 0x084)

def touchArith (nf : List Word64) (op : Nat) (f : LArith) : Touch :=
  let extra := List.range (elemsOf nf f.fmt)
  let srcs := if op = 0x083 then extra.map fun j => f.va.toNat + j else arithSrcs op f
  let dsts := if op = 0x084 then extra.map fun j => f.vd.toNat + j else [f.vd.toNat]
  { Touch.none with
    named := f.vd.toNat :: (arithSrcs op f ++ (if op = 0x083 then srcs else []) ++ (if op = 0x084 then dsts else []))
    srcs := srcs, dsts := dsts, masks := [f.mask.toNat], flags := arithFlags op f }

def touchMask (op : Nat) (f : LMask) : Touch :=
  let d := f.vd.toNat
  let a := f.va.toNat
  let second := if f.imm || f.spc then [] else [f.vb.toNat]
  let t := Touch.none
  match op with
  | 0x0A0 => { t with named := a :: second, srcs := a :: second, masks := [f.mask.toNat], mdsts := [d] }
  | 0x0A1 => { t with named := a :: second, srcs := a :: second, masks := [f.mask.toNat], mdsts := [d] }
  | 0x0A2 => { t with masks := [a, f.vb.toNat], mdsts := [d] }
  | 0x0A3 => { t with named := [d], dsts := [d], masks := [f.mask.toNat, a], flags := true, rdx := true }
  | 0x0A4 => { t with named := [d], dsts := [d], masks := [f.mask.toNat, a], flags := true, rdx := true }
  | 0x0A5 => { t with masks := [0, a], mdsts := [d, 0] }
  | 0x0A6 => { t with masks := [0, d], mdsts := [0] }
  | 0x0A7 => { t with masks := [d], mdsts := [0] }
  | _ => { t with masks := 0 :: a :: (List.range (16 - d)).map fun i => d + i, mdsts := 0 :: (List.range (16 - d)).map fun i => d + i }

def touchCross (op : Nat) (f : LCross) : Touch :=
  let d := regsOf f.fmt f.vd
  let a := regsOf f.fmt f.va
  let c := if decide (op ≤ 0x0C2) || op == 0x0C9 then regsOf f.fmt f.vc else []
  let b := if op = 0x0C0 ∧ f.spc = false then [f.vb.toNat] else []
  let member := if op = 0x0C0 ∧ f.imm32.toNat < 16 then [f.imm32.toNat] else []
  let sums := decide (0x0C3 ≤ op) && op != 0x0C8
  { Touch.none with
    named := d ++ a ++ b ++ c, srcs := a ++ b ++ c, dsts := d, masks := f.mask.toNat :: member, flags := sums, rdx := sums }

def touchMem (op : Nat) (f : LMem) : Touch :=
  let d := regsOf f.fmt f.vd
  let b := regsOf f.fmt f.vb
  let a := [f.va.toNat]
  let p := pairOf f.va
  let t := { Touch.none with masks := [f.mask.toNat] }
  match op with
  | 0x0E0 => { t with named := d ++ p, srcs := p, dsts := d }
  | 0x0E1 => { t with named := p ++ b, srcs := p ++ b }
  | 0x0E2 => { t with named := d ++ a, srcs := a, dsts := d }
  | 0x0E3 => { t with named := a ++ b, srcs := a ++ b }
  | 0x0E4 => { t with named := d ++ a, srcs := a, dsts := d }
  | 0x0E5 => { t with named := a ++ b, srcs := a ++ b }
  | 0x0E6 => { t with named := d, dsts := d }
  | 0x0E7 => { t with named := p ++ b, srcs := p ++ b }
  | 0x0E8 => { t with named := p, srcs := p }
  | 0x0E9 => { t with named := d ++ p ++ b, srcs := p ++ b, dsts := d }
  | 0x0EA => { t with named := d ++ p ++ b ++ regsOf f.fmt f.vc, srcs := p ++ b ++ regsOf f.fmt f.vc, dsts := d }
  | _ => { t with named := b, srcs := b }

def touchMat (op : Nat) (f : LMat) : Touch :=
  let t := { Touch.none with masks := [f.mask.toNat] }
  let d := if op = 0x110 ∧ f.cop = 2 then pairOf f.vd else [f.vd.toNat]
  match op with
  | 0x100 => { t with named := [f.va.toNat], srcs := [f.va.toNat] }
  | 0x101 => { t with named := [f.va.toNat], srcs := [f.va.toNat] }
  | 0x102 => { t with named := d, dsts := d, flags := true }
  | 0x103 => Touch.none
  | 0x110 => { t with named := d, dsts := d, flags := true }
  | 0x111 => { t with named := d, dsts := d }
  | 0x112 => { t with named := [f.vb.toNat], srcs := [f.vb.toNat] }
  | _ => t

/-- What a lane word touches, with the number formats it samples. -/
def touch (nf : List Word64) (i : Instr) : Touch :=
  match laneView i with
  | .arith op f => touchArith nf op f
  | .mask op f => touchMask op f
  | .cross op f => touchCross op f
  | .mem op f => touchMem op f
  | .mat op f => touchMat op f
  | .ctl _ _ => Touch.none
  | .pair a b =>
    let ta := touchArith nf a.op7.toNat a.toArith
    let tb := touchArith nf b.op7.toNat b.toArith
    { named := ta.named ++ tb.named, srcs := ta.srcs ++ tb.srcs, dsts := ta.dsts ++ tb.dsts, masks := ta.masks ++ tb.masks
      mdsts := [], flags := ta.flags || tb.flags, rdx := false }
  | .other => Touch.none

/-- The number-format registers a lane word names (01 R37 step 4, 10 R215): half A before half B. -/
def nfNamed (i : Instr) : List Nat :=
  let of := fun (c : BitVec 5) => if isNfCode c.toNat then [c.toNat - 0x18] else []
  match laneView i with
  | .arith _ f => of f.fmt
  | .mat _ f => of f.fmt
  | .pair a b => of a.fmt ++ of b.fmt
  | _ => []

/-- Numbers of scalar registers, without the one that is always available. -/
def xRegs (l : List XReg) : List Nat := (l.filter fun r => r != 0).map (·.toNat)

/-- Scalar registers that a scalar word reads or writes (14 R292). -/
def scalarUses : Instr → List Nat
  | .add d a b => xRegs [d, a, b]
  | .sub d a b => xRegs [d, a, b]
  | .mul d a b => xRegs [d, a, b]
  | .mulh d a b => xRegs [d, a, b]
  | .mulhu d a b => xRegs [d, a, b]
  | .div d a b => xRegs [d, a, b]
  | .divu d a b => xRegs [d, a, b]
  | .rem d a b => xRegs [d, a, b]
  | .remu d a b => xRegs [d, a, b]
  | .and d a b => xRegs [d, a, b]
  | .or d a b => xRegs [d, a, b]
  | .xor d a b => xRegs [d, a, b]
  | .andn d a b => xRegs [d, a, b]
  | .shl d a b => xRegs [d, a, b]
  | .shr d a b => xRegs [d, a, b]
  | .sar d a b => xRegs [d, a, b]
  | .rotr d a b => xRegs [d, a, b]
  | .min d a b => xRegs [d, a, b]
  | .max d a b => xRegs [d, a, b]
  | .minu d a b => xRegs [d, a, b]
  | .maxu d a b => xRegs [d, a, b]
  | .slt d a b => xRegs [d, a, b]
  | .sltu d a b => xRegs [d, a, b]
  | .seq d a b => xRegs [d, a, b]
  | .clz d a => xRegs [d, a]
  | .ctz d a => xRegs [d, a]
  | .popc d a => xRegs [d, a]
  | .addi d a _ => xRegs [d, a]
  | .andi d a _ => xRegs [d, a]
  | .ori d a _ => xRegs [d, a]
  | .xori d a _ => xRegs [d, a]
  | .shli d a _ => xRegs [d, a]
  | .shri d a _ => xRegs [d, a]
  | .sari d a _ => xRegs [d, a]
  | .slti d a _ => xRegs [d, a]
  | .sltui d a _ => xRegs [d, a]
  | .lui d _ => xRegs [d]
  | .apc d _ => xRegs [d]
  | .ldB d a _ => xRegs [d, a]
  | .ldH d a _ => xRegs [d, a]
  | .ldW d a _ => xRegs [d, a]
  | .ldD d a _ => xRegs [d, a]
  | .lduB d a _ => xRegs [d, a]
  | .lduH d a _ => xRegs [d, a]
  | .lduW d a _ => xRegs [d, a]
  | .stB s a _ => xRegs [s, a]
  | .stH s a _ => xRegs [s, a]
  | .stW s a _ => xRegs [s, a]
  | .stD s a _ => xRegs [s, a]
  | .amo d a b _ _ _ => xRegs [d, a, b]
  | .cas d a b _ _ => xRegs [d, a, b]
  | .beq a b _ => xRegs [a, b]
  | .bne a b _ => xRegs [a, b]
  | .blt a b _ => xRegs [a, b]
  | .bge a b _ => xRegs [a, b]
  | .bltu a b _ => xRegs [a, b]
  | .bgeu a b _ => xRegs [a, b]
  | .jmp _ => []
  | .call _ => [30]
  | .ret => [30]
  | .jtab i t => xRegs [i, t]
  | .lpad _ => []
  | .lrun _ _ => []
  | .lwait _ => []
  | .mrd d _ _ => xRegs [d]
  | .mwr _ a _ => xRegs [a]
  | .rel _ _ => []
  | .acq _ => []
  | .fence _ _ => []
  | .tlwait a _ => xRegs [a]
  | .tlread d _ => xRegs [d]
  | .rcopy d a _ _ => xRegs [d, a]
  | .rfeed d a _ _ => xRegs [d, a]
  | .rspill d a _ _ => xRegs [d, a]
  | .evpop d => xRegs [d, d + 1]
  | .evwait => []
  | .mxloop d a => xRegs [d, a, a + 1, a + 2, a + 3]
  | .wset _ a b _ => xRegs [a, b]
  | .wfree _ => []
  | .freeze _ => []
  | .bar _ _ => []
  | .qput d a _ => xRegs [d, a]
  | .qget d a _ => xRegs [d, a]
  | .yield => []
  | .exit _ => []
  | .trap _ => []
  | .svc _ => []
  | .sget d _ => xRegs [d]
  | .sset a _ => xRegs [a]
  | .eret => []
  | .brk _ => []
  | .snap d a => xRegs [d, a]
  | .roll a b => xRegs [a, b]
  | .nop => []
  | .lanePair .. | .vadd .. | .vsub .. | .vmul .. | .vmulh .. | .vmulhu .. | .vmad .. | .vmin .. | .vmax .. | .vminu ..
  | .vmaxu .. | .vand .. | .vor .. | .vxor .. | .vandn .. | .vshl .. | .vshr .. | .vsar .. | .vrotr .. | .vclz ..
  | .vpopc .. | .vbrev .. | .vabs .. | .vaddsat .. | .vsubsat .. | .vbfx .. | .vbfi .. | .vsel .. | .vmov ..
  | .vdot4 .. | .vrqz .. | .vfadd .. | .vfsub .. | .vfmul .. | .vfma .. | .vfmin .. | .vfmax .. | .vfabs .. | .vfneg ..
  | .vfrnd .. | .vfclass .. | .vnadd .. | .vnmul .. | .vnfma .. | .vnmax .. | .vnmin .. | .vfdiv .. | .vfsqrt ..
  | .vrcp .. | .vrsq .. | .vexp2 .. | .vlog2 .. | .vsin .. | .vcos .. | .vtanh .. | .vcvt .. | .vcvtd .. | .vcvtnf ..
  | .vpack .. | .vunpack .. | .vbsc .. | .vbq .. | .vbdq .. | .vcmp .. | .vfcmp .. | .vmlog .. | .vmpop ..
  | .vmfirst .. | .vif .. | .velse .. | .vendif .. | .vbreak .. | .vshfl .. | .vbcast .. | .vrot .. | .vvote ..
  | .vred .. | .vfred .. | .vscan .. | .vfscan .. | .vmatch .. | .vcompact .. | .vexpand .. | .vld .. | .vst ..
  | .vldp .. | .vstp .. | .vldb .. | .vstb .. | .vldrow .. | .vtst .. | .vpref .. | .vatom .. | .vcas .. | .vrowatom ..
  | .vwst .. | .vqput .. | .vadr .. | .vaclr .. | .vnrred .. | .vnrld .. | .vnrst .. | .vnrclone .. | .vnop ..
  | .vend .. | .laneBlockStart .. | .loadDataReturn .. | .homeSliceAtomic .. | .atomicOldValueReturn ..
  | .atomicCollectionClose .. | .psnShareArrival .. | .psnCommit .. | .heldNotice .. | .commitNotice ..
  | .segmentSealTimeout .. | .skimmerCompact .. | .retireNotice .. | .appendResume .. | .spacealarm ..
  | .spillWaitEnd .. | .stalecntFlush .. | .basinStallTimeout .. | .teamRedispatch .. | .teamRestore ..
  | .waitSatisfied .. | .barrierGenerationComplete .. | .yieldEnd .. | .teamPromotion .. | .runnelStart ..
  | .runnelEnd .. | .completionRecordPost .. | .mxloopGrant .. | .matrixStep .. | .matrixUpdateLand ..
  | .cascadeComplete .. | .sealObserved .. | .launchParse .. | .dependenceSatisfied .. | .launchPlace ..
  | .instanceStamp .. | .templateSpreadCopy .. | .stageRebalance .. | .sliceExpiry .. | .launchRestore ..
  | .launchComplete .. | .patrolScrub .. | .slicePauseEnd .. | .dieLinkLoss .. | .tcfWatchdog .. | .coldReset ..
  | .junctionTemperature .. | .powerCapExceeded .. | .coolantFlowLow .. | .refreshWindow .. | .ageCapExpiry ..
  | .scanInterval .. | .scanComplete .. | .pairedTwinTimeout .. | .pairedAtomicTimeout .. | .cxlMemRead ..
  | .cxlMemWrite .. | .hostBatchClose .. | .msixUnmask .. | .xlinvVaRange .. | .xlinvContext .. | .xlinvWindow ..
  | .xlinvAll .. | .xlinvComplete .. | .resumeContinue .. | .resumeKill .. | .devctlEnable .. | .devctlWarmreq ..
  | .dbgHalt .. | .dbgResume .. | .dbgStep .. | .registerWrite .. | .snapfree .. | .exportWindow .. | .takeover ..
  | .mailboxCommand .. | .spdmMeasurement .. | .spdmChallenge .. | .spdmCertificate .. | .spillwayShip ..
  | .spillwayCut .. | .replicaSegmentData .. | .replicaCut .. | .cutEcho .. | .takeoverFlit .. | .hostWindowStoreAck ..
  | .computeRowStoreAtBank .. | .savefull .. => []

end Sys2Proof.Machine
end

