-- ==== Sys2Proof/Machine/LaneCore.lean ====
section
/-!
DEFINITION. How a lane word runs: its checks (01 R37 steps 3 and 4), its passes (09 R195 to R199, 11 R227), and its
retirement (09 R194, 10 R223, 01 R10, 14 R302). One lane turn runs one pass, or the whole of a word that commits all or
nothing.
-/
namespace Sys2Proof.Machine

/-- The lane stream of the issuing team cannot go on yet. A stall for room or for a Basin bank is the team's: it waits, and issues
nothing (02 R72, 04 R102, 15 R310). -/
def stallLane (s : State) (w : WaitFor) : State :=
  let s1 := { s with cur := { s.cur with l := { s.cur.l with stall := some w } } }
  match w with
  | .space => s1.parkCur w
  | .basin => s1.parkCur w
  | _ => s1

/-- The outcome of a lane turn: another wait holds the lane stream, not the team (14 R303). -/
def runLane (m : M Unit) (s : State) : Host.Outcome State Fault Refusal :=
  match m s with
  | .ok _ s' => .next s'
  | .error e s' => settleWith stallLane s.cur.uid e s s'

/-- The block that runs. -/
def LaneBlock.none : LaneBlock :=
  { start := 0, count := 0, xs := [], late := [], dcol := 0, nf := [0, 0, 0, 0], priv := false, pc := 0, stamp := 0 }

def Team.blk (t : Team) : LaneBlock := match t.l.run with | some r => r.blk | Option.none => LaneBlock.none

/-- A scalar register sampled at the `lrun` (09 R198); a lane word waits for one that an atomic has still to give. -/
def sampled (r : Nat) : M Word64 := do
  let b := (← getTeam).blk
  if r = 0 then return 0
  if b.late.any fun p => p.1 == r then waitFor .memory
  return Table.get 0 b.xs r

/-- The checks of R37 that depend on the team: an implied range beyond v127 (11 R241), REGRANGE, NFFMT. -/
def checkLane (i : Instr) : M Unit := do
  let t ← getTeam
  let nf := t.blk.nf
  let named := (touch nf i).named
  if named.any fun r => decide (128 ≤ r) then trapLaneWord Code.illop (wordOf i)
  match named.find? fun r => decide (t.nregs ≤ r) with
  | some r => laneTrap Code.regrange (BitVec.ofNat 64 r) 0
  | Option.none =>
    match (nfNamed i).find? fun k => nfMalformed (nf.getD k 0) with
    | some k => laneTrap Code.nffmt (BitVec.ofNat 64 k) 0
    | Option.none => pure ()

/-- Lane words of the team whose summary bit is set in one of the governing masks (09 R199, 01 R36). -/
def Team.summarySet (t : Team) (masks : List Nat) : BitVec 32 :=
  masks.foldl (fun acc m => acc ||| summaryOf (t.maskReg m)) 0 &&& BitVec.ofNat 32 (2 ^ t.n - 1)

/-- The pass set of a word: that of the summary, but none where no lane is active and not dead (11 R227, 06 R149). -/
def Team.passSet (t : Team) (masks : List Nat) : BitVec 32 :=
  if masks.all fun m => t.activeLanes m == 0 then 0 else t.summarySet masks

/-- The pass set of an instruction: `vwst`, `vadr` and `vqput` take theirs from the summary word alone, as 09 R199 says, since no rule
of their chapter gives them none where every masked lane is dead (log 120). -/
def Team.passesOf (t : Team) (i : Instr) (masks : List Nat) : BitVec 32 :=
  match i with
  | .vwst _ => t.summarySet masks
  | .vadr _ => t.summarySet masks
  | .vqput _ => t.summarySet masks
  | _ => t.passSet masks

/-- The lane words of a pass set, ascending. -/
def passList (p : BitVec 32) : List Nat := setBitsOf p.toNat 32

/-- After its last word a block has retired (01 R10, 14 R302). -/
def LaneRun.next (r : LaneRun) (ends : Bool) : Option LaneRun :=
  let r := { r with lpc := (r.lpc + 1) % 2 ^ 21, done := r.done + 1, word := Option.none }
  if ends || (r.blk.count != 0 && r.done == r.blk.count) then Option.none else some r

/-- A lane word retires: `tiles` of it rounded with dither (10 R223). -/
def retire (tiles : Nat) (ends : Bool) : M Unit :=
  onLane fun l =>
    { l with
      run := l.run.bind fun r => r.next ends
      pix := 0, passes := Option.none, flight := Option.none, stall := Option.none, watched := false
      dph := l.dph + BitVec.ofNat 64 tiles }

/-- The first part of a word: its checks, its pass set, the dither phase (01 R37, 09 R199, 10 R223). -/
def beginPasses (i : Instr) (masks : List Nat) : M (List Nat) := do
  let t ← getTeam
  match t.l.passes with
  | some p => return passList p
  | Option.none =>
    checkLane i
    let p := t.passesOf i masks
    onLane fun l => { l with passes := some p, pix := 0, dphAt := l.dph }
    return passList p

/-- Add flags, which are sticky (10 R221). -/
def addFlags (o n : Bool) : M Unit := onLane fun l => { l with flagO := l.flagO || o, flagN := l.flagN || n }

def setE : M Unit := onLane fun l => { l with flagE := true }

/-- Registers written under one governing mask. -/
def under (m : Nat) (regs : List Nat) : List (Nat × Nat) := regs.map fun r => (r, m)

/-- Lane words of a destination that are expanded: those of the pass set that its mask reaches, but for the ones in which all
32 lanes are active and none is dead (09 R195 step 1). For words that write lanes which their mask does not make active (`vcompact`,
`vbsc`, `vbq`, `vnrred`) the spec does not say which they are: the model counts by the governing mask alone (log 121). -/
def Team.expanded (t : Team) (m : Nat) (ps : List Nat) : Nat :=
  (ps.filter fun w => maskWord (t.maskReg m) w != 0 && t.active m w != BitVec.allOnes 32).length

/-- Before a pass writes, its destinations are expanded, each under its governing mask: at the first pass, or at the first after a
restore has encoded them again (09 R195, R203). `ps` are the passes still to run. A register of a shared page is not the team's to
expand before it is written. -/
def openDsts (dsts : List (Nat × Nat)) (ps : List Nat) : M Unit := do
  let t ← getTeam
  dsts.forM fun d => if Pte.shr (t.pte d.1) then pure () else expandReg d.1 (t.expanded d.2 ps)

/-- The passes that a lane word has still to run. -/
def Team.leftPasses (t : Team) : List Nat := (passList (t.l.passes.getD 0)).drop t.l.pix

/-- The copy faults of destinations that are written, all before any is, and their expansion for the passes `ps` (15 R315). -/
def takeDsts (dsts : List (Nat × Nat)) (ps : List Nat) : M Unit := do
  let t ← getTeam
  let shared := dsts.filter fun d => Pte.shr (t.pte d.1)
  shared.forM fun d => copyFault d.1
  shared.forM fun d => expandReg d.1 (t.expanded d.2 ps)

/-- A pass that does write takes the pages of its destinations. -/
def ownDsts (dsts : List (Nat × Nat)) (writes : Bool) : M Unit := do
  if writes then takeDsts dsts (← getTeam).leftPasses

/-- A word that has written registers encodes them again (09 R194). -/
def reformDsts (dsts : List (Nat × Nat)) : M Unit := do
  let t ← getTeam
  dsts.forM fun d => if Pte.shr (t.pte d.1) then pure () else reform d.1

/-- A pass that stops is run again from its start: what it counted in CORECNT words 6 and 7 does not stand (04 R107, 09 R196). -/
def countedOnce (m : M Unit) : M Unit := fun s =>
  match m s with
  | .ok _ s' => .ok ⟨⟩ s'
  | .error e s' =>
    let k := s.cur.core
    .error e (s'.setCore k { s'.core k with
      cnt := [6, 7].foldl (fun t w => Table.set 0 t w (Table.get 0 (s.core k).cnt w)) (s'.core k).cnt })

/-- One turn of a word that commits pass by pass (11 R227, 06 R151): the next pass, then retirement after the last.
`body` does the pass of a lane word; `dsts` are the registers written, each with its governing mask. -/
def runPasses (i : Instr) (masks : List Nat) (dsts : List (Nat × Nat)) (tiles : Nat) (body : Nat → M Unit) : M Unit := do
  let ps ← beginPasses i masks
  let t ← getTeam
  match ps[t.l.pix]? with
  | Option.none => retire 0 false
  | some w =>
    countedOnce do
      openDsts dsts (ps.drop t.l.pix)
      body w
    bump t.core 3 1
    if t.l.pix + 1 = ps.length then
      reformDsts dsts
      retire tiles false
    else onLane fun l => { l with pix := t.l.pix + 1, stall := Option.none, watched := false }

/-- One word that commits all or nothing (12 R248, 11 R242): `body` is given its pass set and writes every result. -/
def runWhole (i : Instr) (masks : List Nat) (dsts : List (Nat × Nat)) (tiles : Nat) (body : List Nat → M Unit) : M Unit := do
  let ps ← beginPasses i masks
  let t ← getTeam
  countedOnce do
    openDsts dsts ps
    body ps
  bump t.core 3 ps.length
  if ps ≠ [] then reformDsts dsts
  retire (if ps = [] then 0 else tiles) false

/-! ## Operands -/

/-- The special operand of a lane (01 R13). -/
def Team.special (t : Team) (code lane : Nat) : Word32 :=
  BitVec.ofNat 32 (match code with
    | 0 => lane
    | 1 => lane / 32
    | 2 => lane % 32
    | 3 => t.id.slot
    | 4 => t.id.core
    | 5 => t.cluster
    | 6 => t.id.stage
    | 7 => t.id.inst
    | 8 => t.id.ix
    | 9 => t.id.iy
    | _ => t.id.iz)

/-- Read conflicts of one pass (09 R196), counted in CORECNT word 7. -/
def countReads (regs : List Nat) (w : Nat) : M Unit := do
  let t ← getTeam
  bump t.core 7 (t.readConflicts regs w)

/-- Lanes of a pass, ascending. -/
def lanesOf (m : BitVec 32) : List Nat := setBitsOf m.toNat 32

/-- One lane of a register of the issuing team. -/
def readLane (r lane : Nat) : M Word32 := do
  let s ← get
  return (s.cur.regLane (s.core s.cur.core) r lane).1

/-- A register pair of a lane as 64 bits (01 R12). -/
def readLane64 (r lane : Nat) : M Word64 := do
  let lo ← readLane r lane
  let hi ← readLane (r + 1) lane
  return BitVec.ofNat 64 (lo.toNat + hi.toNat * 2 ^ 32)

/-- The row that holds `vals` at its positions, zero elsewhere. -/
def rowWith (vals : List (Nat × Word32)) : BitVec 1024 :=
  rowOf ((List.range 32).map fun p => ((vals.find? fun v => v.1 == p).map (·.2)).getD 0)

/-- Write lanes of a lane word, given by position (09 R195). -/
def writeLanes (r w : Nat) (vals : List (Nat × Word32)) : M Unit :=
  if vals = [] then pure ()
  else putRow r w (BitVec.ofNat 32 (vals.foldl (fun acc v => acc ||| 2 ^ v.1) 0)) (rowWith vals)

/-- Basin address of word `word` of register `r` in lane word `w` (04 R106). -/
def Team.regAddr (t : Team) (r w word : Nat) : Nat :=
  Pte.bank (t.pte r) * 4096 + (Pte.rowBase (t.pte r) + w) * 128 + 4 * word

/-- A poisoned register word that a lane reads kills the lane before it writes (22 R372, R375): the lanes of a pass whose
sources are sound. -/
def soundLanes (regs : List Nat) (w : Nat) (m : BitVec 32) : M (BitVec 32) := do
  let s ← get
  let t := s.cur
  let c := s.core t.core
  let bad := regs.foldl (fun acc r => acc ||| (t.regRow c r w).2) (0 : BitVec 32) &&& m
  if bad = 0 then return m
  (lanesOf bad).forM fun p =>
    let r := (regs.find? fun r => bitAt (t.regRow c r w).2.toNat p).getD 0
    killLane (32 * w + p) (t.regAddr r w p)
  return m &&& ~~~bad

end Sys2Proof.Machine
end

