-- ==== Sys2Proof/Machine/LaneFeed.lean ====
section
/-!
DEFINITION. The scalar words that read tables, feed the lane stream, and move masks and system registers
(14 R297 to R305, 01 R14, R15, 09 R200), the control lane words (01 R34), and the start of a block (14 R301).
-/
namespace Sys2Proof.Machine

/-! ## Returns and jump tables (14 R298, R299) -/

/-- `ret` (14 R297, R298): PCALIGN on a misaligned `x30`. -/
def execRet (s : State) : Host.Outcome State Fault Refusal :=
  if (s.getX 30).toNat % 4 = 0 then .next (s.jumpTo (s.getX 30))
  else runTeam (trapWith Code.pcalign (s.getX 30)) s

/-- A malformed jump-table header (01 R43). -/
def malformedTable (hdr : Nat) : Bool :=
  decide (bits hdr 53 11 ≠ 0) || decide (bits hdr 0 32 = 0) || decide (65536 < bits hdr 0 32)

/-- The word is the landing pad of a label (14 R300). -/
def isPad (w label : Nat) : Bool :=
  match decodeScalar w with
  | .ok (.lpad l) => l.toNat == label
  | _ => false

/-- The steps of `jtab` (14 R299): the alignment of the table comes first. -/
def jumpTable (xi xt : Word64) : M Unit := do
  let t ← getTeam
  let a := { Access.load with priv := t.s.priv }
  checkAlign { a with size := 8 } xt 8
  let hdr ← scalarLoad a t xt 8
  if malformedTable hdr then trapWith Code.jtfmt xt
  if bits hdr 0 32 ≤ xi.toNat then trapWith Code.jtbound xi
  let ent ← scalarLoad a t (xt + 8 + 4 * xi) 4
  let tgt := t.kern.scode + BitVec.ofNat 64 (4 * ent)
  let w ← fetchScalar t tgt
  if !isPad w (bits hdr 32 21) then trapWith Code.lpadmis tgt
  modify fun s => s.jumpTo tgt

/-- `jtab xI, xT` (14 R299). -/
def execJtab (i t : XReg) (s : State) : Host.Outcome State Fault Refusal := runTeam (jumpTable (s.getX i) (s.getX t)) s

/-! ## Blocks (14 R301, R302) -/

/-- Blocks a team may have outstanding: the lane queue holds 16 (14 R301). -/
def maxBlocks : Nat := 16

/-- The scalar file as a block samples it: what outstanding loads have returned, and the registers an outstanding atomic
has still to give (14 R301, 09 R198). -/
def lateRegs (c : Scalar) : List (Nat × Nat) :=
  c.outs.filterMap fun o => if o.kind = .atomic ∧ o.val = none ∧ o.rd ≠ 0 then some (o.rd, o.op) else none

/-- Enqueue a block (14 R301). -/
def enqueueBlock (cnt start : Nat) : M Unit := do
  let t ← getTeam
  waitUnless (decide (t.l.outstanding < maxBlocks)) (.lanes (maxBlocks - 1))
  let st ← nextStamp
  let b : LaneBlock :=
    { start := start, count := cnt, xs := (settleScalar t.s).x, late := lateRegs t.s, dcol := t.ctl.dcol, nf := t.l.nf
      priv := t.s.priv, pc := t.s.pc, stamp := st }
  onLane fun l => { l with queue := l.queue ++ [b] }
  advance

/-- `lrun cnt, target` (14 R301). -/
def execLrun (c : BitVec 5) (i : BitVec 21) (s : State) : Host.Outcome State Fault Refusal :=
  runTeam (enqueueBlock c.toNat i.toNat) s

/-- `lwait n` (14 R302). -/
def execLwait (n : BitVec 16) (s : State) : Host.Outcome State Fault Refusal :=
  runTeam (do
    waitUnless (decide (s.cur.l.outstanding ≤ n.toNat)) (.lanes n.toNat)
    advance) s

/-- LANE_BLOCK_START (14 R301): the block at the head of the queue starts at its index. -/
def blockStart (uid : Nat) : M Unit := do
  match (← get).team? uid with
  | none => enabled false
  | some t =>
    match t.l.queue with
    | [] => enabled false
    | b :: q =>
      enabled (t.l.run.isNone && t.resident)
      onUid uid fun t => { t with l := { t.l with
        queue := q, run := some { blk := b, lpc := b.start, done := 0, word := none }
        stall := none, pix := 0, passes := none, flight := none } }
def execLaneBlockStart (team : Nat) (s : State) : Host.Outcome State Fault Refusal := runEventOf team (blockStart team) s

/-! ## Control lane words (01 R34) -/

/-- `vnop` (01 R34): it does nothing. -/
def execVnop (_f : LCtl) (s : State) : Host.Outcome State Fault Refusal := runLane (retire 0 false) s

/-- `vend` (01 R10, R34): its block ends with it. -/
def execVend (_f : LCtl) (s : State) : Host.Outcome State Fault Refusal := runLane (retire 0 true) s

/-! ## Waits for lane words (09 R200) -/

/-- The word is the last of its block. -/
def LaneRun.isLast (r : LaneRun) : Bool :=
  decide (r.blk.count ≠ 0 ∧ r.done + 1 = r.blk.count) || (match r.word with | some (.vend _) => true | _ => false)

/-- Every lane word enqueued has been decoded, and those that touch what a wait names have retired. -/
def Lane.quiet (l : Lane) (p : Touch → Bool) : Bool :=
  l.queue == [] &&
    (match l.run with
     | none => true
     | some r => match r.word with
       | none => false
       | some i => r.isLast && !p (touch r.blk.nf i))

/-- Wait for the lane words that touch what `p` names. -/
def waitLanes (p : Touch → Bool) : M Unit := do
  let t ← getTeam
  waitUnless (t.l.quiet p) .laneRegs

/-! ## Mask words (14 R304) -/

/-- The value `mrd` gives. -/
def maskRead (m : MaskWord) (k : Nat) : Word64 :=
  if k = 16 then zext64 (summaryOf m) else BitVec.ofNat 64 (bits m.toNat (64 * k) 64)

/-- `mrd xD, mN, k` (14 R304). -/
def execMrd (d : XReg) (n k : BitVec 5) (s : State) : Host.Outcome State Fault Refusal :=
  runTeam (do
    waitLanes fun t => t.mdsts.contains n.toNat
    modify fun s => s.result d (maskRead (s.cur.maskReg n.toNat) k.toNat)) s

/-- A mask register with mask words 2k and 2k + 1 replaced; bits at and above 32n are kept (14 R304, 12 R247). -/
def maskPut (m : MaskWord) (k : Nat) (v : Word64) : MaskWord := BitVec.ofNat 1024 (setBits m.toNat (64 * k) 64 v.toNat)

/-- `mwr mN, xA, k` (14 R304). -/
def execMwr (n : BitVec 5) (a : XReg) (k : BitVec 5) (s : State) : Host.Outcome State Fault Refusal :=
  runTeam (do
    waitLanes fun t => t.masks.contains n.toNat || t.mdsts.contains n.toNat
    onTeam fun t => t.setMask n.toNat (maskPut (t.maskReg n.toNat) k.toNat (s.getX a))
    advance) s

/-! ## System registers (01 R14, R15, 14 R305) -/

/-- TEAMCTL (15 R309). -/
def teamCtlWord (t : Team) : Word64 :=
  let c := t.ctl
  BitVec.ofNat 64 (c.nreg * 2 ^ 21 + (c.nlw - 1) * 2 ^ 16 + c.level * 2 ^ 14 + (if c.paired then 2 ^ 13 else 0)
    + (if c.preempt then 2 ^ 12 else 0) + (if c.gang then 2 ^ 11 else 0) + c.prio * 2 ^ 8 + c.dcol)

/-- TEAMID (15 R307). -/
def teamIdWord (t : Team) : Word64 :=
  let i := t.id
  BitVec.ofNat 64 (i.ctx * 2 ^ 58 + i.tenant * 2 ^ 54 + i.prow * 2 ^ 52 + i.pcol * 2 ^ 48 + i.core * 2 ^ 40 + i.slot * 2 ^ 36
    + i.stage * 2 ^ 33 + i.task)

/-- FLAGS (15 R309). -/
def flagsWord (l : Lane) : Word64 :=
  BitVec.ofNat 64 ((if l.flagE then 1 else 0) + (if l.flagO then 2 else 0) + (if l.flagN then 4 else 0))

/-- PIX of the lane word in flight: passes done, or banks done for a Cascade word (01 R14, 03 R91, 06 R151). -/
def pixWord (l : Lane) : Word64 :=
  match l.run with
  | some r => match r.word with
    | some (.vnrred _) => BitVec.ofNat 64 (32 * l.pix)
    | some (.vnrld _) => BitVec.ofNat 64 (32 * l.pix)
    | some (.vnrst _) => BitVec.ofNat 64 (32 * l.pix)
    | some (.vnrclone _) => BitVec.ofNat 64 (32 * l.pix)
    | _ => BitVec.ofNat 64 l.pix
  | none => 0

/-- The default slice (16 R339). -/
def defaultSlice : Nat := 3125

/-- A system register of the issuing team (01 R14); none for a number the table does not list. The clock counts of CORECNT are
free values (log 1, log 9). -/
def sysReg (n : Nat) : M (Option Word64) := do
  let s ← get
  let t := s.cur
  let c := s.core t.core
  let v := fun (x : Nat) => (some (BitVec.ofNat 64 x) : Option Word64)
  if n = 0x000 then return some (teamCtlWord t)
  else if n = 0x001 then return some (teamIdWord t)
  else if n = 0x002 then return some (flagsWord t.l)
  else if n = 0x003 then return some t.l.rdx
  else if n = 0x004 then return some (pixWord t.l)
  else if n = 0x005 then return some t.l.dph
  else if 0x008 ≤ n ∧ n ≤ 0x00B then return some (t.l.nf.getD (n - 0x008) 0)
  else if 0x010 ≤ n ∧ n ≤ 0x017 then return some (t.faultrec.getD (n - 0x010) 0)
  else if n = 0x020 then return v (Table.get defaultSlice s.dev.tslice t.id.tenant)
  else if n = 0x021 then return some c.stalerd
  else if n = 0x040 ∨ n = 0x04E then return some (← drawFree)
  else if 0x041 ≤ n ∧ n ≤ 0x04F then return some (Table.get 0 c.cnt (n - 0x040))
  else if n = 0x080 then return v t.id.slot
  else if n = 0x081 then return v t.id.core
  else if n = 0x082 then return v t.cluster
  else if n = 0x083 then return v t.id.stage
  else if n = 0x084 then return v t.id.inst
  else if n = 0x085 then return v t.id.ix
  else if n = 0x086 then return v t.id.iy
  else if n = 0x087 then return v t.id.iz
  else if 0x100 ≤ n ∧ n ≤ 0x17F then
    return some (match t.h.stash.find? fun b => b.page == n - 0x100 with
      | some b => BitVec.ofNat 64 b.bank
      | none => BitVec.allOnes 64)
  else return none

/-- `sget xD, NAME` (14 R305): RDX and FLAGS wait for the lane words that write them (01 R15). -/
def execSget (d : XReg) (n : BitVec 11) (s : State) : Host.Outcome State Fault Refusal :=
  runTeam (do
    if n = 0x002 then waitLanes fun t => t.flags
    if n = 0x003 then waitLanes fun t => t.rdx
    match ← sysReg n.toNat with
    | some v => modify fun s => s.result d v
    | none => trapSelf Code.illop (.sget d n)) s

/-- `sset NAME, xA` (14 R305, 01 R15). -/
def writeSysReg (a : XReg) (n : BitVec 11) (v : Word64) : M Unit := do
  let t ← getTeam
  if n = 0x000 then onTeam fun t => { t with ctl := { t.ctl with dcol := v.toNat % 8 } }
  else if n = 0x002 then
    waitLanes fun t => t.flags
    onLane fun l => { l with flagE := bitAt v.toNat 0, flagO := bitAt v.toNat 1, flagN := bitAt v.toNat 2 }
  else if 0x008 ≤ n.toNat ∧ n.toNat ≤ 0x00B then onLane fun l => { l with nf := l.nf.set (n.toNat - 0x008) v }
  else if n = 0x020 then
    if !t.s.priv then trapSelf Code.privop (.sset a n)
    modify fun s => s.onDev fun d => { d with tslice := Table.set defaultSlice d.tslice t.id.tenant (v.toNat % 2 ^ 32) }
  else trapSelf Code.illop (.sset a n)
  advance

/-- `sset NAME, xA` (14 R305). -/
def execSset (a : XReg) (n : BitVec 11) (s : State) : Host.Outcome State Fault Refusal := runTeam (writeSysReg a n (s.getX a)) s

end Sys2Proof.Machine
end

