-- ==== Sys2Proof/Machine/LaneExec.lean ====
section
/-!
DEFINITION. The lane arithmetic instructions: integer, float and format classes (11 R227 to R245), and pairs (01 R36, 11 R237).
-/
namespace Sys2Proof.Machine

/-- What the lane functions of the issuing team's word read (10 R217, R223). -/
def Team.laneCtx (t : Team) (phase lane : Nat) : LaneCtx :=
  { nf := t.blk.nf, dph := t.l.dphAt + BitVec.ofNat 64 phase, lane := lane }

/-- Results of a pass: position, value and flags. -/
structure PassOut where
  vals : List (Nat × Word32)
  o : Bool
  n : Bool
  deriving DecidableEq, Repr

/-- The results of an arithmetic word in the lanes `m` of lane word `w` (11 R227, R228). -/
def arithPass (op : Nat) (f : LArith) (w phase : Nat) (m : BitVec 32) : M PassOut := do
  let s ← get
  let t := s.cur
  let c := s.core t.core
  let used := fun (sel : ArithRow → Bool) => match arithRow op with | some r => sel r | none => false
  let ra := if used (·.va) then (t.regRow c f.va.toNat w).1 else 0
  let rb := if used (·.vb) && !f.imm && !f.spc then (t.regRow c f.vb.toNat w).1 else 0
  let rc := if used (·.vc) then (t.regRow c f.vc.toNat w).1 else 0
  let outs := (lanesOf m).map fun p =>
    let b := if f.imm then f.imm32 else if f.spc then t.special f.vb.toNat (32 * w + p) else rowWord rb p
    (p, arithFn op f (t.laneCtx phase (32 * w + p)) (rowWord ra p) b (rowWord rc p))
  return { vals := outs.map fun q => (q.1, q.2.val), o := outs.any fun q => q.2.o, n := outs.any fun q => q.2.n }

/-- Tiles of an arithmetic word (10 R223). -/
def tilesOf (op : Nat) (f : LArith) : Nat := if usesDither op f then 1 else 0

/-- A single arithmetic word (11 R227). -/
def arithWord (i : Instr) (op : Nat) (f : LArith) : M Unit :=
  runPasses i [f.mask.toNat] (under f.mask.toNat [f.vd.toNat]) (tilesOf op f) fun w => do
    let t ← getTeam
    countReads (arithSrcs op f) w
    let m ← soundLanes (arithSrcs op f) w (t.active f.mask.toNat w)
    let r ← arithPass op f w 0 m
    ownDsts [(f.vd.toNat, f.mask.toNat)] (r.vals != [])
    writeLanes f.vd.toNat w r.vals
    addFlags r.o r.n

/-- A pair (01 R36): both halves read before either writes, and commit together. A lane that dies writes in neither. -/
def pairWord (a b : Half) : M Unit :=
  let fa := a.toArith
  let fb := b.toArith
  let oa := a.op7.toNat
  let ob := b.op7.toNat
  runPasses (.lanePair a b) [fa.mask.toNat, fb.mask.toNat] [(fa.vd.toNat, fa.mask.toNat), (fb.vd.toNat, fb.mask.toNat)] (tilesOf oa fa + tilesOf ob fb) fun w => do
    countReads (arithSrcs oa fa ++ arithSrcs ob fb) w
    let t ← getTeam
    let ma ← soundLanes (arithSrcs oa fa) w (t.active fa.mask.toNat w)
    let mb ← soundLanes (arithSrcs ob fb) w (t.active fb.mask.toNat w)
    let t ← getTeam
    let ra ← arithPass oa fa w 0 (ma &&& t.active fa.mask.toNat w)
    let rb ← arithPass ob fb w (if tilesOf oa fa + tilesOf ob fb = 2 then 1 else 0) (mb &&& t.active fb.mask.toNat w)
    ownDsts ((if ra.vals = [] then [] else [(fa.vd.toNat, fa.mask.toNat)]) ++ if rb.vals = [] then [] else [(fb.vd.toNat, fb.mask.toNat)]) true
    writeLanes fa.vd.toNat w ra.vals
    writeLanes fb.vd.toNat w rb.vals
    addFlags (ra.o || rb.o) (ra.n || rb.n)

/-- `vpack` (11 R241): element `j` from register A + j. -/
def packWord (i : Instr) (f : LArith) : M Unit := do
  let nf := (← getTeam).blk.nf
  let wd := widthOfCode nf f.fmt.toNat
  let e := elemsPerLane wd
  let regs := (List.range e).map fun j => f.va.toNat + j
  runPasses i [f.mask.toNat] (under f.mask.toNat [f.vd.toNat]) 0 fun w => do
    let t ← getTeam
    countReads regs w
    let m ← soundLanes regs w (t.active f.mask.toNat w)
    let s ← get
    let rows := regs.map fun r => (s.cur.regRow (s.core s.cur.core) r w).1
    ownDsts [(f.vd.toNat, f.mask.toNat)] (m != 0)
    writeLanes f.vd.toNat w ((lanesOf m).map fun p =>
      (p, BitVec.ofNat 32 ((rows.take (slotsOfLane wd (32 * w + p))).foldr (fun row acc => (rowWord row p).toNat % 2 ^ wd + 2 ^ wd * acc) 0)))

/-- One element as `vunpack` writes it; where the lane has no such slot (10 R209) the spec states no value, and a function of the
operands that nothing constrains stands for it, so that equal operands give one result (10 R226; log 18). -/
def unpackElem (el : Elem) (j lane : Nat) (v : Word32) : Word32 :=
  if j < slotsOfLane el.width lane then placeElem el (elem el.width j v)
  else placeElem el (Config.absentSlot el.width j lane v % 2 ^ el.width)

/-- `vunpack` (11 R241): element `j` to register D + j. -/
def unpackWord (i : Instr) (f : LArith) : M Unit := do
  let nf := (← getTeam).blk.nf
  let el := elemOfCode nf f.fmt.toNat
  let e := elemsPerLane el.width
  let dsts := (List.range e).map fun j => f.vd.toNat + j
  runPasses i [f.mask.toNat] (under f.mask.toNat dsts) 0 fun w => do
    let t ← getTeam
    countReads [f.va.toNat] w
    let m ← soundLanes [f.va.toNat] w (t.active f.mask.toNat w)
    let s ← get
    let row := (s.cur.regRow (s.core s.cur.core) f.va.toNat w).1
    ownDsts (under f.mask.toNat dsts) (m != 0)
    (List.range e).forM fun j => do
      writeLanes (f.vd.toNat + j) w ((lanesOf m).map fun p => (p, unpackElem el j (32 * w + p) (rowWord row p)))

/-! ## Block scales (11 R242 to R245) -/

/-- Lanes 256k to 256k + 255 of block `k`, within the team. -/
def blockLanes (n k : Nat) : List Nat := (List.range 256).filterMap fun i => if 256 * k + i < 32 * n then some (256 * k + i) else none

/-- Blocks of a team. -/
def numBlocks (n : Nat) : Nat := ceilDiv (32 * n) 256

/-- Scale pair in half `b` of a lane. -/
def scalePair (v : Word32) (b : Nat) : Nat × Nat := (elem 8 (2 * b) v, elem 8 (2 * b + 1) v)

/-- Write lanes of a register, given by lane number. -/
def writeByLane (r : Nat) (vals : List (Nat × Word32)) : M Unit := do
  let n := (← getTeam).n
  (List.range n).forM fun w =>
    writeLanes r w (vals.filterMap fun v => if v.1 / 32 = w then some (v.1 % 32, v.2) else none)

/-- A lane acts under a governing mask: its bit is set and it is not dead (09 R199). -/
def Team.acts (t : Team) (m lane : Nat) : Bool := bitAt (t.activeLanes m).toNat lane

def Team.isDead (t : Team) (lane : Nat) : Bool := bitAt t.l.dead.toNat lane

/-- Kill the lanes of a list whose word of a register is poisoned, and answer the others. -/
def soundOf (r : Nat) (lanes : List Nat) : M (List Nat) := do
  let s ← get
  let t := s.cur
  let c := s.core t.core
  let bad := lanes.filter fun l => (t.regLane c r l).2
  if bad = [] then return lanes
  bad.forM fun l => killLane l (t.regAddr r (l / 32) (l % 32))
  return lanes.filter fun l => !(t.regLane c r l).2

/-- `vbsc` (11 R243). -/
def blockScaleWord (i : Instr) (f : LArith) : M Unit :=
  runWhole i [f.mask.toNat] (under f.mask.toNat [f.vd.toNat]) 0 fun ps => do
    ps.forM fun w => countReads [f.va.toNat] w
    let t ← getTeam
    let el := elemOfCode t.blk.nf f.fmt.toNat
    let res ← (List.range (numBlocks t.n)).mapM fun k => do
      let mine ← soundOf f.va.toNat ((blockLanes t.n k).filter fun l => t.acts f.mask.toNat l)
      if mine = [] then return none
      let vals ← mine.mapM fun l => do return decodeF fp32 (← readLane f.va.toNat l).toNat
      return some (k, blockScale el vals)
    (res.filterMap id).forM fun q => do
      let t ← getTeam
      let (S, V, nan) := q.2
      if !t.isDead q.1 then
        ownDsts [(f.vd.toNat, f.mask.toNat)] true
        let old ← readLane f.vd.toNat q.1
        let b := f.bsel.toNat
        writeByLane f.vd.toNat [(q.1, BitVec.ofNat 32 (setBits old.toNat (16 * b) 16 (S + 256 * V)))]
      addFlags false nan

/-- `vbq` (11 R244): block `k` of lane `kG + i / e`, slot `i mod e`. -/
def quantiseWord (i : Instr) (f : LArith) : M Unit :=
  runWhole i [f.mask.toNat] (under f.mask.toNat [f.vd.toNat]) (tilesOf 0x086 f) fun ps => do
    ps.forM fun w => countReads [f.va.toNat, f.vb.toNat] w
    let t ← getTeam
    let el := elemOfCode t.blk.nf f.fmt.toNat
    let e := elemsPerLane el.width
    let G := laneGroup el.width
    let mode := RMode.ofCode f.rnd.toNat
    let outs ← (List.range (numBlocks t.n)).mapM fun k => do
      let part := (blockLanes t.n k).filter fun l => t.acts f.mask.toNat l
      if part = [] then return []
      let mine ← soundOf f.va.toNat part
      let sc ← readLane f.vb.toNat k
      let s ← get
      let badScale := (s.cur.regLane (s.core s.cur.core) f.vb.toNat k).2
      let (S, V) := scalePair sc f.bsel.toNat
      let codes ← (List.range 256).mapM fun i => do
        let l := 256 * k + i
        if S = 0xFF then return ({ code := elemNan el, o := false, n := true } : Rounded)
        if !mine.contains l then return ({ code := 0, o := false, n := false } : Rounded)
        let x := decodeF fp32 (← readLane f.va.toNat l).toNat
        return quantise el mode f.sat S V (ditherT (i % 256) t.l.dphAt) x
      (List.range G).filterMapM fun g => do
        let l := k * G + g
        let t ← getTeam
        if t.isDead l || decide (32 * t.n ≤ l) then return none
        if badScale then
          killLane l (t.regAddr f.vb.toNat (k / 32) (k % 32))
          return none
        let slots := (List.range e).map fun j => codes.getD (g * e + j) { code := 0, o := false, n := false }
        return some (l, packElems el.width slots)
    let flat := outs.flatten
    ownDsts [(f.vd.toNat, f.mask.toNat)] (flat != [])
    writeByLane f.vd.toNat (flat.map fun q => (q.1, q.2.val))
    addFlags (flat.any fun q => q.2.o) (flat.any fun q => q.2.n)

/-- `vbdq` (11 R245). -/
def dequantiseWord (i : Instr) (f : LArith) : M Unit :=
  runWhole i [f.mask.toNat] (under f.mask.toNat [f.vd.toNat]) 0 fun ps => do
    ps.forM fun w => countReads [f.va.toNat, f.vb.toNat] w
    let t ← getTeam
    let el := elemOfCode t.blk.nf f.fmt.toNat
    let e := elemsPerLane el.width
    let G := laneGroup el.width
    let mode := RMode.ofCode f.rnd.toNat
    let outs ← (List.range (32 * t.n)).filterMapM fun l => do
      if !t.acts f.mask.toNat l then return none
      let k := l / 256
      let i := l % 256
      let src := k * G + i / e
      let s ← get
      let c := s.core t.core
      let data := t.regLane c f.va.toNat src
      let sc := t.regLane c f.vb.toNat k
      if data.2 || sc.2 then
        killLane l (if data.2 then t.regAddr f.va.toNat (src / 32) (src % 32) else t.regAddr f.vb.toNat (k / 32) (k % 32))
        return none
      let (S, V) := scalePair sc.1 f.bsel.toNat
      return some (l, dequantise el mode f.sat S V (elem el.width (i % e) data.1))
    ownDsts [(f.vd.toNat, f.mask.toNat)] (outs != [])
    writeByLane f.vd.toNat (outs.map fun q => (q.1, BitVec.ofNat 32 q.2.code))
    addFlags (outs.any fun q => q.2.o) (outs.any fun q => q.2.n)

/-! ## The instructions -/

/-- `vadd` (11 R230). -/
def execVadd (f : LArith) (s : State) : Host.Outcome State Fault Refusal := runLane (arithWord (.vadd f) 0x000 f) s

/-- `vsub` (11 R230). -/
def execVsub (f : LArith) (s : State) : Host.Outcome State Fault Refusal := runLane (arithWord (.vsub f) 0x001 f) s

/-- `vmul` (11 R230). -/
def execVmul (f : LArith) (s : State) : Host.Outcome State Fault Refusal := runLane (arithWord (.vmul f) 0x002 f) s

/-- `vmulh` (11 R230). -/
def execVmulh (f : LArith) (s : State) : Host.Outcome State Fault Refusal := runLane (arithWord (.vmulh f) 0x003 f) s

/-- `vmulhu` (11 R230). -/
def execVmulhu (f : LArith) (s : State) : Host.Outcome State Fault Refusal := runLane (arithWord (.vmulhu f) 0x004 f) s

/-- `vmad` (11 R230). -/
def execVmad (f : LArith) (s : State) : Host.Outcome State Fault Refusal := runLane (arithWord (.vmad f) 0x005 f) s

/-- `vmin` (11 R230). -/
def execVmin (f : LArith) (s : State) : Host.Outcome State Fault Refusal := runLane (arithWord (.vmin f) 0x006 f) s

/-- `vmax` (11 R230). -/
def execVmax (f : LArith) (s : State) : Host.Outcome State Fault Refusal := runLane (arithWord (.vmax f) 0x007 f) s

/-- `vminu` (11 R230). -/
def execVminu (f : LArith) (s : State) : Host.Outcome State Fault Refusal := runLane (arithWord (.vminu f) 0x008 f) s

/-- `vmaxu` (11 R230). -/
def execVmaxu (f : LArith) (s : State) : Host.Outcome State Fault Refusal := runLane (arithWord (.vmaxu f) 0x009 f) s

/-- `vand` (11 R230). -/
def execVand (f : LArith) (s : State) : Host.Outcome State Fault Refusal := runLane (arithWord (.vand f) 0x00A f) s

/-- `vor` (11 R230). -/
def execVor (f : LArith) (s : State) : Host.Outcome State Fault Refusal := runLane (arithWord (.vor f) 0x00B f) s

/-- `vxor` (11 R230). -/
def execVxor (f : LArith) (s : State) : Host.Outcome State Fault Refusal := runLane (arithWord (.vxor f) 0x00C f) s

/-- `vandn` (11 R230). -/
def execVandn (f : LArith) (s : State) : Host.Outcome State Fault Refusal := runLane (arithWord (.vandn f) 0x00D f) s

/-- `vshl` (11 R230). -/
def execVshl (f : LArith) (s : State) : Host.Outcome State Fault Refusal := runLane (arithWord (.vshl f) 0x00E f) s

/-- `vshr` (11 R230). -/
def execVshr (f : LArith) (s : State) : Host.Outcome State Fault Refusal := runLane (arithWord (.vshr f) 0x00F f) s

/-- `vsar` (11 R230). -/
def execVsar (f : LArith) (s : State) : Host.Outcome State Fault Refusal := runLane (arithWord (.vsar f) 0x010 f) s

/-- `vrotr` (11 R230). -/
def execVrotr (f : LArith) (s : State) : Host.Outcome State Fault Refusal := runLane (arithWord (.vrotr f) 0x011 f) s

/-- `vclz` (11 R230). -/
def execVclz (f : LArith) (s : State) : Host.Outcome State Fault Refusal := runLane (arithWord (.vclz f) 0x012 f) s

/-- `vpopc` (11 R230). -/
def execVpopc (f : LArith) (s : State) : Host.Outcome State Fault Refusal := runLane (arithWord (.vpopc f) 0x013 f) s

/-- `vbrev` (11 R230). -/
def execVbrev (f : LArith) (s : State) : Host.Outcome State Fault Refusal := runLane (arithWord (.vbrev f) 0x014 f) s

/-- `vabs` (11 R230). -/
def execVabs (f : LArith) (s : State) : Host.Outcome State Fault Refusal := runLane (arithWord (.vabs f) 0x015 f) s

/-- `vaddsat` (11 R230). -/
def execVaddsat (f : LArith) (s : State) : Host.Outcome State Fault Refusal := runLane (arithWord (.vaddsat f) 0x016 f) s

/-- `vsubsat` (11 R230). -/
def execVsubsat (f : LArith) (s : State) : Host.Outcome State Fault Refusal := runLane (arithWord (.vsubsat f) 0x017 f) s

/-- `vbfx` (11 R231). -/
def execVbfx (f : LArith) (s : State) : Host.Outcome State Fault Refusal := runLane (arithWord (.vbfx f) 0x018 f) s

/-- `vbfi` (11 R231). -/
def execVbfi (f : LArith) (s : State) : Host.Outcome State Fault Refusal := runLane (arithWord (.vbfi f) 0x019 f) s

/-- `vsel` (11 R230). -/
def execVsel (f : LArith) (s : State) : Host.Outcome State Fault Refusal := runLane (arithWord (.vsel f) 0x01A f) s

/-- `vmov` (11 R230). -/
def execVmov (f : LArith) (s : State) : Host.Outcome State Fault Refusal := runLane (arithWord (.vmov f) 0x01B f) s

/-- `vdot4` (11 R232). -/
def execVdot4 (f : LArith) (s : State) : Host.Outcome State Fault Refusal := runLane (arithWord (.vdot4 f) 0x01C f) s

/-- `vrqz` (11 R233). -/
def execVrqz (f : LArith) (s : State) : Host.Outcome State Fault Refusal := runLane (arithWord (.vrqz f) 0x01D f) s

/-- `vfadd` (11 R234). -/
def execVfadd (f : LArith) (s : State) : Host.Outcome State Fault Refusal := runLane (arithWord (.vfadd f) 0x040 f) s

/-- `vfsub` (11 R234). -/
def execVfsub (f : LArith) (s : State) : Host.Outcome State Fault Refusal := runLane (arithWord (.vfsub f) 0x041 f) s

/-- `vfmul` (11 R234). -/
def execVfmul (f : LArith) (s : State) : Host.Outcome State Fault Refusal := runLane (arithWord (.vfmul f) 0x042 f) s

/-- `vfma` (11 R234). -/
def execVfma (f : LArith) (s : State) : Host.Outcome State Fault Refusal := runLane (arithWord (.vfma f) 0x043 f) s

/-- `vfmin` (11 R234). -/
def execVfmin (f : LArith) (s : State) : Host.Outcome State Fault Refusal := runLane (arithWord (.vfmin f) 0x044 f) s

/-- `vfmax` (11 R234). -/
def execVfmax (f : LArith) (s : State) : Host.Outcome State Fault Refusal := runLane (arithWord (.vfmax f) 0x045 f) s

/-- `vfabs` (11 R234). -/
def execVfabs (f : LArith) (s : State) : Host.Outcome State Fault Refusal := runLane (arithWord (.vfabs f) 0x046 f) s

/-- `vfneg` (11 R234). -/
def execVfneg (f : LArith) (s : State) : Host.Outcome State Fault Refusal := runLane (arithWord (.vfneg f) 0x047 f) s

/-- `vfrnd` (11 R234). -/
def execVfrnd (f : LArith) (s : State) : Host.Outcome State Fault Refusal := runLane (arithWord (.vfrnd f) 0x048 f) s

/-- `vfclass` (11 R234). -/
def execVfclass (f : LArith) (s : State) : Host.Outcome State Fault Refusal := runLane (arithWord (.vfclass f) 0x049 f) s

/-- `vnadd` (11 R235). -/
def execVnadd (f : LArith) (s : State) : Host.Outcome State Fault Refusal := runLane (arithWord (.vnadd f) 0x04A f) s

/-- `vnmul` (11 R235). -/
def execVnmul (f : LArith) (s : State) : Host.Outcome State Fault Refusal := runLane (arithWord (.vnmul f) 0x04B f) s

/-- `vnfma` (11 R235). -/
def execVnfma (f : LArith) (s : State) : Host.Outcome State Fault Refusal := runLane (arithWord (.vnfma f) 0x04C f) s

/-- `vnmax` (11 R235). -/
def execVnmax (f : LArith) (s : State) : Host.Outcome State Fault Refusal := runLane (arithWord (.vnmax f) 0x04D f) s

/-- `vnmin` (11 R235). -/
def execVnmin (f : LArith) (s : State) : Host.Outcome State Fault Refusal := runLane (arithWord (.vnmin f) 0x04E f) s

/-- `vfdiv` (11 R236). -/
def execVfdiv (f : LArith) (s : State) : Host.Outcome State Fault Refusal := runLane (arithWord (.vfdiv f) 0x050 f) s

/-- `vfsqrt` (11 R236). -/
def execVfsqrt (f : LArith) (s : State) : Host.Outcome State Fault Refusal := runLane (arithWord (.vfsqrt f) 0x051 f) s

/-- `vrcp` (11 R236). -/
def execVrcp (f : LArith) (s : State) : Host.Outcome State Fault Refusal := runLane (arithWord (.vrcp f) 0x052 f) s

/-- `vrsq` (11 R236). -/
def execVrsq (f : LArith) (s : State) : Host.Outcome State Fault Refusal := runLane (arithWord (.vrsq f) 0x053 f) s

/-- `vexp2` (11 R236). -/
def execVexp2 (f : LArith) (s : State) : Host.Outcome State Fault Refusal := runLane (arithWord (.vexp2 f) 0x054 f) s

/-- `vlog2` (11 R236). -/
def execVlog2 (f : LArith) (s : State) : Host.Outcome State Fault Refusal := runLane (arithWord (.vlog2 f) 0x055 f) s

/-- `vsin` (11 R236). -/
def execVsin (f : LArith) (s : State) : Host.Outcome State Fault Refusal := runLane (arithWord (.vsin f) 0x056 f) s

/-- `vcos` (11 R236). -/
def execVcos (f : LArith) (s : State) : Host.Outcome State Fault Refusal := runLane (arithWord (.vcos f) 0x057 f) s

/-- `vtanh` (11 R236). -/
def execVtanh (f : LArith) (s : State) : Host.Outcome State Fault Refusal := runLane (arithWord (.vtanh f) 0x058 f) s

/-- `vcvt` (11 R238). -/
def execVcvt (f : LArith) (s : State) : Host.Outcome State Fault Refusal := runLane (arithWord (.vcvt f) 0x080 f) s

/-- `vcvtd` (11 R239). -/
def execVcvtd (f : LArith) (s : State) : Host.Outcome State Fault Refusal := runLane (arithWord (.vcvtd f) 0x081 f) s

/-- `vcvtnf` (11 R240). -/
def execVcvtnf (f : LArith) (s : State) : Host.Outcome State Fault Refusal := runLane (arithWord (.vcvtnf f) 0x082 f) s

/-- `vpack` (11 R241). -/
def execVpack (f : LArith) (s : State) : Host.Outcome State Fault Refusal := runLane (packWord (.vpack f) f) s

/-- `vunpack` (11 R241). -/
def execVunpack (f : LArith) (s : State) : Host.Outcome State Fault Refusal := runLane (unpackWord (.vunpack f) f) s

/-- `vbsc` (11 R243). -/
def execVbsc (f : LArith) (s : State) : Host.Outcome State Fault Refusal := runLane (blockScaleWord (.vbsc f) f) s

/-- `vbq` (11 R244). -/
def execVbq (f : LArith) (s : State) : Host.Outcome State Fault Refusal := runLane (quantiseWord (.vbq f) f) s

/-- `vbdq` (11 R245). -/
def execVbdq (f : LArith) (s : State) : Host.Outcome State Fault Refusal := runLane (dequantiseWord (.vbdq f) f) s

/-- A pair of lane words (01 R36). -/
def execLanePair (a b : Half) (s : State) : Host.Outcome State Fault Refusal := runLane (pairWord a b) s

end Sys2Proof.Machine
end

