-- ==== Sys2Proof/Machine/LaneMem.lean ====
section
/-!
DEFINITION. The lane memory instructions: gathers and scatters, private slices, the Basin, prefetch, lane atomics and rows
(06 R127 to R129, R136 to R151, 04 R105 to R107, 05 R121, 15 R314).
-/
namespace Sys2Proof.Machine

/-! ## Formats (06 R128) -/

/-- Bits a format moves. -/
def memBits (fmt : BitVec 5) : Nat :=
  match fmt.toNat with
  | 0x09 => 8 | 0x0A => 8 | 0x0F => 8 | 0x10 => 8
  | 0x0B => 16 | 0x03 => 16 | 0x04 => 16
  | 0x1C => 64
  | 0x0D => 30 | 0x0E => 30
  | _ => 32

/-- Element width of a format narrower than a byte. -/
def memNarrow (fmt : BitVec 5) : Option Nat :=
  match fmt.toNat with
  | 0x06 => some 2
  | 0x07 => some 4 | 0x08 => some 4 | 0x0C => some 4
  | 0x0D => some 6 | 0x0E => some 6
  | _ => none

/-- The lane value of loaded bits. -/
def memExtend (fmt : BitVec 5) (v : Nat) : Nat :=
  match fmt.toNat with
  | 0x09 => lowBits 32 (sintOf 8 v)
  | 0x0B => lowBits 32 (sintOf 16 v)
  | _ => v

/-! ## Addresses (06 R127, 05 R121) -/

/-- One part of a lane's access, within a sector and a page: its address, place, bytes and offset in the access. -/
structure Piece where
  va : Word64
  place : Place64
  n : Nat
  off : Nat
  deriving DecidableEq, Repr

/-- A lane's access: its address, starting bit, and parts. -/
structure LaneAcc where
  lane : Nat
  va : Word64
  bit : Nat
  pieces : List Piece
  deriving DecidableEq, Repr

/-- Virtual byte address and starting bit of a lane's operand (06 R127). -/
def laneAddr (v : Word64) (imm32 : Word32) (narrow : Bool) : Word64 × Nat :=
  if narrow then
    let a := v + 8 * sext64 imm32
    (a >>> 3, a.toNat % 8)
  else (v + sext64 imm32, 0)

/-- Parts of an access of `n` bytes: one, or two where it goes on in another sector. -/
def splitBytes (va : Word64) (n : Nat) : List (Word64 × Nat × Nat) :=
  let first := 32 - va.toNat % 32
  if n ≤ first then [(va, n, 0)] else [(va, first, 0), (va + BitVec.ofNat 64 first, n - first, first)]

/-- Bytes that an access of a format reaches from a starting bit. -/
def accessBytes (fmt : BitVec 5) (bit : Nat) : Nat := (bit + memBits fmt + 7) / 8

/-- The parts of a lane's access (06 R127, R129). -/
def laneParts (fmt : BitVec 5) (v : Word64) (imm32 : Word32) : List (Word64 × Nat × Nat) :=
  let q := laneAddr v imm32 (memNarrow fmt).isSome
  splitBytes q.1 (accessBytes fmt q.2)

/-- Format and alignment of a lane's address, of both parts where it has two (05 R108, 06 R127, R153). -/
def checkLaneVa (a : Access) (fmt : BitVec 5) (v : Word64) (imm32 : Word32) : M Unit := do
  let (va, bit) := laneAddr v imm32 (memNarrow fmt).isSome
  reportAt va ((laneParts fmt v imm32).forM fun p => checkVa a p.1)
  match memNarrow fmt with
  | some w => if ((v + 8 * sext64 imm32).toNat) % w ≠ 0 then checkAlign a 1 2 |> reportAt va
  | none => checkAlign a va (accessBytes fmt bit)

/-- A computation with its fault as a value: a pass goes on until every lane has been asked. -/
def caught {α : Type} (m : M α) : M (Except TrapReq α) :=
  tryCatch (do return Except.ok (← m)) fun e => match e with
    | .trap r => pure (Except.error r)
    | e => throw e

/-- An access as a lane makes it. -/
def Access.ofLane (a : Access) (t : Team) (lane : Nat) : Access := { a with src := 1, lane := lane, priv := t.blk.priv }

/-- Translations of a pass: each distinct page once, its leaf or its fault (05 R121, R123). -/
abbrev Pages := List (Nat × Except TrapReq TlbLeaf)

def Pages.leaf (p : Pages) (ctx va : Nat) : Option (Except TrapReq TlbLeaf) :=
  (List.find? (fun (q : Nat × Except TrapReq TlbLeaf) => match q.2 with
    | .ok l => l.covers ctx va
    | .error _ => q.1 == va / 4096) p).map (·.2)

/-- Pages whose translation failed. -/
def Pages.failed (p : Pages) : Nat :=
  (List.filter (fun (q : Nat × Except TrapReq TlbLeaf) => match q.2 with | .ok _ => false | .error _ => true) p).length

/-- Translate the distinct pages that the lanes of a pass touch, lanes ascending, lower part first. A page whose translation fails
counts its miss once, however often the pass waits (01 R16). -/
def passPages (a : Access) (t : Team) (fmt : BitVec 5) (imm32 : Word32) (vs : List (Nat × Word64)) : M Pages := do
  let sound ← vs.filterM fun q => do
    match ← caught (checkLaneVa (a.ofLane t q.1) fmt q.2 imm32) with
    | .ok _ => return true
    | .error _ => return false
  (sound.flatMap fun q => (laneParts fmt q.2 imm32).map fun p => (q.1, p.1)).foldlM (fun (memo : Pages) q => do
    if (memo.leaf t.id.ctx q.2.toNat).isSome then return memo
    let r ← tryCatch (caught (findLeaf (a.ofLane t q.1) t q.2)) fun e => do
      onCore t.core fun c => { c with cnt := Table.set 0 c.cnt 10 (Table.get 0 c.cnt 10 - BitVec.ofNat 64 memo.failed) }
      throw e
    return memo ++ [(q.2.toNat / 4096, r)]) []

/-- The record of a translation fault that another lane of the pass met first, as this lane reports it (05 R120, R121). -/
def TrapReq.ofLane (r : TrapReq) (lane : Nat) : TrapReq :=
  { r with w3 := BitVec.ofNat 64 (setBits r.w3.toNat 39 10 lane) }

/-- The place of one part of a lane's access, from the translations of its pass (05 R121). A compute-row address is checked here,
before any lane of the pass commits (03 R79, 06 R138). -/
def placePart (a : Access) (t : Team) (pages : Pages) (p : Word64 × Nat × Nat) : M Piece := do
  let a := { a with size := p.2.1 }
  let pl ← (match pages.leaf t.id.ctx p.1.toNat with
    | some (.ok l) => placeIn a t p.1 l
    | some (.error r) => throw (.trap (r.ofLane a.lane))
    | none => translate a t p.1)
  let paged := match t.pageKind p.1 with | .template _ => true | _ => false
  if Win.crow pl.desc && !paged then checkCra a p.1 (craOf pl.la)
  return { va := p.1, place := pl, n := p.2.1, off := p.2.2 }

/-- Form, check and place the access of one lane (06 R127, R138, R153). -/
def laneAccess (a : Access) (t : Team) (pages : Pages) (fmt : BitVec 5) (v : Word64) (imm32 : Word32) (lane : Nat) : M LaneAcc := do
  let a := a.ofLane t lane
  checkLaneVa a fmt v imm32
  let (va, bit) := laneAddr v imm32 (memNarrow fmt).isSome
  let ps ← reportAt va ((laneParts fmt v imm32).mapM fun p => placePart a t pages p)
  return { lane := lane, va := va, bit := bit, pieces := ps }

/-- Run a check for every lane of a pass; where one or more fault none commits: a fatal fault before NOTPRESENT, then the
lowest lane (05 R121). -/
def eachLane {α : Type} (lanes : List Nat) (f : Nat → M α) : M (List α) := do
  let outs ← lanes.mapM fun l => caught (f l)
  let bad := outs.filterMap fun o => match o with | .error r => some r | .ok _ => none
  match bad.find? fun (r : TrapReq) => !r.recov, bad.head? with
  | some r, _ => throw (.trap r)
  | none, some r => throw (.trap r)
  | none, none => return outs.filterMap fun o => match o with | .ok x => some x | .error _ => none

/-- The address operands of a pass, by lane. -/
def laneVas (va w : Nat) (m : BitVec 32) : M (List (Nat × Word64)) :=
  (lanesOf m).mapM fun p => do return (32 * w + p, ← readLane64 va (32 * w + p))

/-- Addresses and translations of a pass (05 R121); `check` is what the instruction asks of each lane beside them. -/
def passAccesses (a : Access) (fmt : BitVec 5) (va : Nat) (imm32 : Word32) (w : Nat) (m : BitVec 32)
    (check : Team → LaneAcc → M Unit) : M (List LaneAcc) := do
  let t ← getTeam
  let vs ← laneVas va w m
  let pages ← passPages a t fmt imm32 vs
  eachLane (vs.map (·.1)) fun l => do
    let x ← laneAccess a t pages fmt (((vs.find? fun q => q.1 == l).map (·.2)).getD 0) imm32 l
    check t x
    return x

/-- An instruction that asks nothing more of a lane's address. -/
def noCheck (_ : Team) (_ : LaneAcc) : M Unit := pure ()

/-- The access kind of a lane load or store. -/
def laneLoad : Access := { Access.load with src := 1 }
def laneStore : Access := { Access.store with src := 1 }
def laneAtomic : Access := { Access.atomic with src := 1 }

/-! ## Gather (06 R138) -/

/-- Read a lane's access: its bytes, poison, and the sectors that were stale. -/
def readPieces (a : Access) (t : Team) (x : LaneAcc) (hint : Nat) : M ReadRes :=
  x.pieces.foldlM (fun (acc : ReadRes) p => do
    let r ← readAt { a with lane := x.lane } t p.va p.place p.n hint
    return { value := acc.value + r.value * 2 ^ (8 * p.off), poison := acc.poison || r.poison, stale := acc.stale ++ r.stale })
    { value := 0, poison := false, stale := [] }

/-- Logical address an access starts at. -/
def LaneAcc.la (x : LaneAcc) : Nat := match x.pieces with | p :: _ => p.place.la | [] => 0

/-- Write a lane value of a pass, or a pair of registers in the 64-bit format. -/
def writeValues (fmt : BitVec 5) (vd mask w : Nat) (vals : List (Nat × Nat)) : M Unit := do
  ownDsts (under mask (if fmt = 0x1C then [vd, vd + 1] else [vd])) (vals != [])
  writeLanes vd w (vals.map fun v => (v.1 % 32, BitVec.ofNat 32 v.2))
  if fmt = 0x1C then writeLanes (vd + 1) w (vals.map fun v => (v.1 % 32, BitVec.ofNat 32 (v.2 / 2 ^ 32)))

/-- Kill the lanes that would take poison; answer the values of the others (06 R150). -/
def killPoisoned (got : List (Nat × Nat × Bool × Nat)) : M (List (Nat × Nat)) := do
  got.forM fun g => if g.2.2.1 then killLane g.1 g.2.2.2 else pure ()
  return got.filterMap fun g => if g.2.2.1 then none else some (g.1, g.2.1)

/-- `vld` (06 R138). -/
def gatherWord (i : Instr) (f : LMem) : M Unit :=
  runPasses i [f.mask.toNat] (under f.mask.toNat (regsOf f.fmt f.vd)) 0 fun w => do
    countReads (pairOf f.va) w
    let t ← getTeam
    let st := (← get).stamp
    let m ← soundLanes (pairOf f.va) w (t.active f.mask.toNat w)
    let xs ← passAccesses laneLoad f.fmt f.va.toNat f.imm32 w m noCheck
    let got ← xs.mapM fun x => do
      let r ← readPieces laneLoad t x f.hint.toNat
      return (x, r)
    let vals ← killPoisoned (got.map fun g =>
      (g.1.lane, memExtend f.fmt (bits g.2.value g.1.bit (memBits f.fmt)), g.2.poison, g.1.la))
    writeValues f.fmt f.vd.toNat f.mask.toNat w vals
    let stale := (got.flatMap fun g => g.2.stale).eraseDups
    stale.forM fun q => countStale t q.1 1
    match t.l.run with
    | some r => markFills t st (.word t.uid r.lpc)
    | none => pure ()

/-- `vld` (06 R138). -/
def execVld (f : LMem) (s : State) : Host.Outcome State Fault Refusal := runLane (gatherWord (.vld f) f) s

/-! ## Scatter (06 R129, R138) -/

/-- The bits a lane stores. -/
def storeBits (fmt : BitVec 5) (vb lane : Nat) : M Nat := do
  if fmt = 0x1C then return (← readLane64 vb lane).toNat
  return (← readLane vb lane).toNat % 2 ^ memBits fmt

/-- The colour of a lane store (06 R137, R136). -/
def storeColour (f : LMem) (t : Team) : Nat := if f.cov then f.col.toNat else t.blk.dcol

/-- The bits that one part of a lane's store puts in place: from bit `lo` of its first byte, `len` of them. -/
structure Part where
  lane : Nat
  va : Word64
  place : Place64
  n : Nat
  lo : Nat
  len : Nat
  val : Nat
  deriving DecidableEq, Repr

/-- The parts of a lane that stores the bits `v` (06 R129). -/
def LaneAcc.parts (x : LaneAcc) (v nbits : Nat) : List Part :=
  x.pieces.map fun p =>
    let total := x.bit + nbits
    let lo := if p.off = 0 then x.bit else 8 * p.off
    let hi := if total < 8 * (p.off + p.n) then total else 8 * (p.off + p.n)
    { lane := x.lane, va := p.va, place := p.place, n := p.n, lo := lo - 8 * p.off, len := hi - lo, val := bits v (lo - x.bit) (hi - lo) }

/-- A part covers its bytes whole. -/
def Part.whole (q : Part) : Bool := decide (q.lo = 0 ∧ q.len = 8 * q.n)

/-- A part's first bit within its sector. -/
def Part.bit (q : Part) : Nat := 8 * (q.place.la % 32) + q.lo

/-- A part put into its sector. -/
def Part.put (q : Part) (sector : Nat) : Nat := setBits sector q.bit q.len q.val

/-- Parts put into one sector, a later one over an earlier one (06 R138). -/
def putAll (l : List Part) (sector : Nat) : Nat := l.foldl (fun d q => q.put d) sector

/-- The bits of a sector that parts cover. -/
def covered (l : List Part) : Nat := l.foldl (fun d q => setBits d q.bit q.len (2 ^ q.len - 1)) 0

/-- The page of the task's own that serves a part. -/
def Part.page (t : Team) (q : Part) : PageKind := t.pageKind q.va

/-- The dirty sectors of a task take the part: logged memory, or a stash page over it (04 R103). -/
def Part.toLog (t : Team) (q : Part) : Bool :=
  Win.logged q.place.desc && (match q.page t with | .template _ => false | _ => true)

/-- The sector a part lies in, as the task addresses it. -/
def Part.sector (t : Team) (q : Part) : Nat × Nat :=
  match q.page t with
  | .template _ => (256, q.va.toNat / 32)
  | _ => (q.place.win, q.place.la / 32)

/-- The distinct sectors of parts, in order. -/
def sectorsOf (t : Team) (l : List Part) : List (Nat × Nat) := (l.map fun q => q.sector t).eraseDups

/-- A logged sector with its parts of a pass put into it: one that they cover whole is not read (02 R59). -/
def mergedSector (t : Team) (sec : Nat × Nat) (l : List Part) (hint : Nat) : M (BitVec 256 × Bool) := do
  if covered l = 2 ^ 256 - 1 then return (BitVec.ofNat 256 (putAll l 0), false)
  let (d, _) ← viewSector t sec.1 sec.2 hint
  return (BitVec.ofNat 256 (putAll l d.data.toNat), d.poison)

/-- A stash row takes a sector that the task has stored: other stash pages of the cluster lose the row (04 R103, R104). -/
def stashSector (t : Team) (pb : PageBank) (win sec : Nat) (d : BitVec 256) (bad : Bool) : M Unit := do
  let row := sec / 4 % 32
  onStash t.uid pb.bank fun b => b.renew row (sec % 4)
  onCore t.core fun c =>
    let c1 := c.putBytes pb.bank row (32 * (sec % 4)) 32 d.toNat
    c1.setRowPoison pb.bank row (BitVec.ofNat 32 (setBits (c1.rowPoison pb.bank row).toNat (8 * (sec % 4)) 8 (if bad then 255 else 0)))
  invalidateStash t win (32 * sec / 128 * 128)

/-- The bytes of a part that is stored elsewhere: its own bits over the bytes that the task sees, with the parts of earlier lanes of
the pass (06 R129). -/
def storedBytes (a : Access) (t : Team) (before : List Part) (q : Part) : M Nat := do
  let old ← (if q.whole then pure 0 else do return (← readAt { a with lane := q.lane } t q.va q.place q.n 0).value)
  let mine := before.filter fun p => p.sector t == q.sector t
  return bits (q.put (putAll mine (old * 2 ^ (8 * (q.place.la % 32))))) (8 * (q.place.la % 32)) (8 * q.n)

/-- The pages of the task's own that its parts fall in are allocated, and their rows filled, before anything is stored (04 R103,
15 R314): the bank of a stash page, by the part's page. -/
def openPages (a : Access) (t : Team) (l : List Part) (hint : Nat) : M (List (Nat × PageBank)) :=
  l.foldlM (fun (acc : List (Nat × PageBank)) q => do
    match q.page t with
    | .template page =>
      let _ ← ownTemplatePage t page
      return acc
    | .stash page =>
      if !Win.logged q.place.desc then return acc
      let pb ← stashPage t page a.src q.place
      fillRow t pb (q.va.toNat % 4096 / 128) hint
      return acc ++ [(page, pb)]
    | .memory => return acc) []

/-- Store the parts of a pass, lanes ascending (06 R138): what is read is read first; then the logged sectors, each once; then the
stores to other windows, lane by lane. -/
def storeParts (a : Access) (t : Team) (l : List Part) (colour hint : Nat) : M Unit := do
  let pages ← openPages a t l hint
  let logged := l.filter fun q => q.toLog t
  let other := l.filter fun q => !q.toLog t
  let secs ← (sectorsOf t logged).mapM fun sec => do
    return (sec, ← mergedSector t sec (logged.filter fun q => q.sector t == sec) hint)
  let bytes ← (other.mapIdx fun i q => (i, q)).mapM fun e => do
    return (e.2, ← storedBytes a t (other.take e.1) e.2)
  secs.forM fun e => do
    inStream a (putDirty t e.1.1 e.1.2 colour hint e.2.1 e.2.2)
    let bank := (logged.find? fun q => q.sector t == e.1).bind fun q => pages.find? fun b => q.page t == .stash b.1
    dropOwnRow t e.1.1 (32 * e.1.2) (bank.map (·.2.bank))
    match bank with
    | some b => stashSector t b.2 e.1.1 e.1.2 e.2.1 e.2.2
    | none => pure ()
  bytes.forM fun e => writeAt { a with lane := e.1.lane } t e.1.va e.1.place e.1.n e.2 colour hint

/-- A scatter of one pass; `check` is what the instruction checks of each lane beside translation. -/
def scatterWord (i : Instr) (f : LMem) (check : Team → LaneAcc → M Unit) : M Unit :=
  runPasses i [f.mask.toNat] [] 0 fun w => do
    let srcs := pairOf f.va ++ regsOf f.fmt f.vb
    countReads srcs w
    let t ← getTeam
    let m ← soundLanes srcs w (t.active f.mask.toNat w)
    let xs ← passAccesses laneStore f.fmt f.va.toNat f.imm32 w m check
    let parts ← xs.mapM fun x => do return x.parts (← storeBits f.fmt f.vb.toNat x.lane) (memBits f.fmt)
    storeParts { laneStore with priv := t.blk.priv } t parts.flatten (storeColour f t) f.hint.toNat

/-- `vst` (06 R138). -/
def execVst (f : LMem) (s : State) : Host.Outcome State Fault Refusal :=
  runLane (scatterWord (.vst f) f noCheck) s

/-- A `vtst` is refused below its template, and outside the template image (06 R142, 15 R314). -/
def checkTemplateStore (t : Team) (x : LaneAcc) : M Unit := do
  let a := { laneStore with lane := x.lane }
  let fail := fun (code : Nat) => match x.pieces with
    | p :: _ => (xlateFault a code x.va 7 (some p.place.win) 0 p.place.la : M Unit)
    | [] => pure ()
  if t.ctl.level = 0 then fail Code.tstfrozen
  if x.pieces.any fun p => match t.pageKind p.va with | .template _ => false | _ => true then fail Code.tstrange

/-- `vtst` (06 R142). -/
def execVtst (f : LMem) (s : State) : Host.Outcome State Fault Refusal :=
  runLane (scatterWord (.vtst f) f checkTemplateStore) s

/-! ## Prefetch (06 R143) -/

/-- A computation that leaves nothing behind where it faults (`trap`) or would wait (05 R118, 06 R143). -/
def dropped {α : Type} (trap : Bool) (m : M α) : M (Option α) := fun s =>
  match m s with
  | .ok x s' => .ok (some x) s'
  | .error (.trap r) s' => if trap then .ok none s else .error (.trap r) s'
  | .error (.wait _) _ => .ok none s
  | .error e s' => .error e s'

/-- The sector of a compute row comes to its home slice as a read-only copy (03 R82). -/
def prefetchCrow (win la hint : Nat) : M Unit := do
  let _ ← readCrow none win la 1 hint
  pure ()

/-- A sector and the IXB entry of its granule come into the cluster (06 R143). -/
def prefetchSector (t : Team) (win sec hint : Nat) : M Unit := do
  let _ ← viewSector t win sec hint
  if (((← get).cluster t.cluster).entryOf win (sec / 32)).isNone then
    let _ ← ixbFill t win (sec / 32)

/-- Prefetch one part of a lane's access (06 R143): nothing of it is counted as a load's miss. The first access to a stash page allocates
its bank, with the fault of 04 R102 where none is FREE. -/
def prefetchPart (t : Team) (p : Piece) (hint : Nat) : M Unit := do
  let miss := Table.get 0 ((← get).core t.core).cnt 11
  match t.pageKind p.va, Win.logged p.place.desc with
  | .template _, _ => pure ()
  | _, false => if Win.crow p.place.desc then prefetchCrow p.place.win p.place.la hint
  | .stash page, true =>
    let pb ← stashPage t page 1 p.place
    fillRow t pb (p.va.toNat % 4096 / 128) hint
    prefetchSector t p.place.win (p.place.la / 32) hint
  | .memory, true => prefetchSector t p.place.win (p.place.la / 32) hint
  onCore t.core fun k => { k with cnt := Table.set 0 k.cnt 11 miss }

/-- The prefetch of a pass: a lane that is misaligned or fails a check of its translation is dropped without any effect, and what
would wait is left out (05 R118, 06 R143; log 48). -/
def prefetchWord (f : LMem) (t : Team) (w : Nat) (m : BitVec 32) : M Unit := do
  (← laneVas f.va.toNat w m).forM fun q => do
    match ← dropped true (laneAccess laneLoad t [] f.fmt q.2 f.imm32 q.1) with
    | some x => x.pieces.forM fun p => do
      let _ ← dropped false (prefetchPart t p f.hint.toNat)
      pure ()
    | none => pure ()

/-- `vpref` (06 R143). -/
def execVpref (f : LMem) (s : State) : Host.Outcome State Fault Refusal :=
  runLane (runPasses (.vpref f) [f.mask.toNat] [] 0 fun w => do
    countReads (pairOf f.va) w
    let t ← getTeam
    let m ← soundLanes (pairOf f.va) w (t.active f.mask.toNat w)
    prefetchWord f t w m) s

/-! ## Private slices (04 R105, 06 R140) -/

/-- A private or Basin fault (06 R154): word 2 is the offset or Basin address. -/
def basinFault {α : Type} (code addr acc lane : Nat) : M α :=
  laneTrap code (BitVec.ofNat 64 addr) (BitVec.ofNat 64 (7 * 2 ^ 61 + acc * 2 ^ 58 + lane * 2 ^ 39))

/-- Bank, row and word of word `j` of a lane's private slice (04 R105). -/
def privateWord (base g n lane j : Nat) : Nat × Nat × Nat :=
  let t := lane / 32 * (1024 / n) + j / g
  (base + 32 * (j % g) + lane % 32, t / 32, t % 32)

/-- The offset of a lane, checked (06 R140). -/
def privateOffset (t : Team) (v imm32 : Word32) (size acc lane : Nat) : M Nat := do
  let o := (v + imm32).toNat
  if o % size ≠ 0 then basinFault Code.misalign o acc lane
  if t.h.privBase.isNone ∨ 4 * (t.kern.g * (1024 / t.n)) < o + size then basinFault Code.privrange o acc lane
  return o

/-- Words `j` of an access of `size` bytes at offset `o`, with the bytes of each. -/
def accessWords (o size : Nat) : List (Nat × Nat × Nat) :=
  if size = 8 then [(o / 4, 0, 4), (o / 4 + 1, 0, 4)] else [(o / 4, o % 4, size)]

/-- Read bytes of Basin words given as (bank, row, word, byte, bytes), low first: value and poison. -/
def readWords (c : Core) (l : List (Nat × Nat × Nat × Nat × Nat)) : Nat × Bool :=
  l.foldr (fun x acc =>
    let (b, r, w, o, n) := x
    (c.rowBytes b r (4 * w + o) n + acc.1 * 2 ^ (8 * n), acc.2 || bitAt (c.rowPoison b r).toNat w)) (0, false)

/-- Places of a private access. -/
def privatePlaces (t : Team) (lane o size : Nat) : List (Nat × Nat × Nat × Nat × Nat) :=
  (accessWords o size).map fun x =>
    let p := privateWord (t.h.privBase.getD 0) t.kern.g t.n lane x.1
    (p.1, p.2.1, p.2.2, x.2.1, x.2.2)

/-- Basin address of a place. -/
def placeAddr (l : List (Nat × Nat × Nat × Nat × Nat)) : Nat :=
  match l with
  | (b, r, w, o, _) :: _ => b * 4096 + r * 128 + 4 * w + o
  | [] => 0

/-- `vldp` (06 R140). -/
def execVldp (f : LMem) (s : State) : Host.Outcome State Fault Refusal :=
  runLane (runPasses (.vldp f) [f.mask.toNat] (under f.mask.toNat (regsOf f.fmt f.vd)) 0 fun w => do
    countReads [f.va.toNat] w
    let t ← getTeam
    let m ← soundLanes [f.va.toNat] w (t.active f.mask.toNat w)
    let size := memBits f.fmt / 8
    let offs ← eachLane ((lanesOf m).map fun p => 32 * w + p) fun l => do
      return (l, ← privateOffset t (← readLane f.va.toNat l) f.imm32 size 0 l)
    let c := (← get).core t.core
    let vals ← killPoisoned (offs.map fun q =>
      let pl := privatePlaces t q.1 q.2 size
      let r := readWords c pl
      (q.1, memExtend f.fmt r.1, r.2, placeAddr pl))
    writeValues f.fmt f.vd.toNat f.mask.toNat w vals) s

/-- `vstp` (06 R140). -/
def execVstp (f : LMem) (s : State) : Host.Outcome State Fault Refusal :=
  runLane (runPasses (.vstp f) [f.mask.toNat] [] 0 fun w => do
    let srcs := f.va.toNat :: regsOf f.fmt f.vb
    countReads srcs w
    let t ← getTeam
    let m ← soundLanes srcs w (t.active f.mask.toNat w)
    let size := memBits f.fmt / 8
    let offs ← eachLane ((lanesOf m).map fun p => 32 * w + p) fun l => do
      return (l, ← privateOffset t (← readLane f.va.toNat l) f.imm32 size 1 l)
    -- every source of the pass is read before anything is written (09 R197)
    let vals ← offs.mapM fun q => do return (privatePlaces t q.1 q.2 size, ← storeBits f.fmt f.vb.toNat q.1)
    vals.forM fun q =>
      onCore t.core fun c => (q.1.foldl (fun (acc : Core × Nat) x =>
        let (b, r, w, o, n) := x
        (acc.1.putBytes b r (4 * w + o) n (acc.2 % 2 ^ (8 * n)), acc.2 / 2 ^ (8 * n))) (c, q.2)).1) s

/-! ## The Basin by address (04 R106, R107, 06 R141) -/

/-- What a bank is to a team that names it (04 R106). -/
inductive BankUse where
  | own
  /-- the page of registers held there -/
  | regs (page : Nat)
  /-- a stash page -/
  | stash (b : PageBank)
  /-- a shared template page -/
  | template (page : Nat)
  /-- a stationary region of a template above -/
  | fixed
  | no
  deriving DecidableEq, Repr

/-- The role of a shared bank in the images a team stands on. -/
def State.sharedRole (s : State) (t : Team) (b : Nat) : Option ImageRole :=
  match t.image with
  | none => none
  | some i => match s.image? i, s.copyOn i t.core with
    | some im, some c => (im.banks.zip c.banks).findSome? fun q => if q.2 = b then some q.1.role else none
    | _, _ => none

/-- A register page whose entries name a bank. -/
def Team.pageOfBank (t : Team) (b : Nat) : Option Nat :=
  ((List.range t.nregs).find? fun r => Pte.bank (t.pte r) == b).map fun r => r % t.npg

def State.bankUse (s : State) (t : Team) (b : Nat) : BankUse :=
  let c := s.core t.core
  match t.pageOfBank b with
  | some p => .regs p
  | none =>
    match t.h.stash.find? fun q => q.bank == b with
    | some q => .stash q
    | none =>
      if (c.bank b).owner = some t.uid then .own
      else match s.sharedRole t b with
        | some (.regPage p) => .regs p
        | some (.tmplPage p) => .template p
        | some (.region _ _) => .fixed
        | none => .no

/-- A Basin address, checked (04 R106, 06 R141). -/
def basinAddress (t : Team) (v imm32 : Word32) (size acc lane : Nat) : M Nat := do
  let b := (v + imm32).toNat
  if 2 ^ 21 ≤ b ∨ numBanks ≤ b / 4096 then basinFault Code.basinrange b acc lane
  if b % size ≠ 0 then basinFault Code.basinalign b acc lane
  match (← get).bankUse t (b / 4096) with
  | .no => basinFault Code.basinperm b acc lane
  | .fixed => if acc = 1 then basinFault Code.basinperm b acc lane else return b
  | _ => return b

/-- Conflict cycles of a pass (04 R107): distinct rows of the busiest bank, less one. -/
def basinConflicts (addrs : List Nat) : Nat :=
  let rows := (addrs.map fun b => (b / 4096, b / 128)).eraseDups
  (rows.foldl (fun m r =>
    let k := (rows.filter fun q => q.1 == r.1).length
    if m < k then k else m) 1) - 1

/-- The page of registers a team stands on that a bank holds, and the table that gives their forms: its own, or its image's. -/
def State.regTable (s : State) (t : Team) (b : Nat) : Option (Nat × Table Word64) :=
  match t.pageOfBank b with
  | some p => some (p, t.l.pt)
  | none => match s.sharedRole t b, t.image.bind s.image? with
    | some (.regPage p), some im => some (p, im.pt)
    | _, _ => none

/-- Poison of a row of a bank as a team that names it sees it: the rows of a register show the lane words of its full form
(04 R106, 09 R193). -/
def State.seenPoison (s : State) (t : Team) (b row : Nat) : BitVec 32 :=
  let c := s.core t.core
  match s.regTable t b with
  | none => c.rowPoison b row
  | some (p, pt) =>
    let r := row / t.n * t.npg + p
    if t.nregs ≤ r then c.rowPoison b row
    else if t.pageOfBank b = some p ∧ t.l.badRegs.contains r = true then BitVec.allOnes 32
    else formPoison (Pte.form (Table.get 0 pt r)) (row % t.n) fun k => c.rowPoison b (row / t.n * t.n + k)

/-- The rows of a stash page that addresses read are filled (04 R103); a sector with an atomic of the task in flight waits (07 R166). -/
def fillNamed (t : Team) (b : Nat) : M Unit := do
  match (← get).bankUse (← current t) (b / 4096) with
  | .stash q =>
    if (← get).atomicInFlight t.uid q.win ((q.la + b % 4096) / 32) then waitFor .memory
    fillRow t q (b % 4096 / 128) 0
  | _ => pure ()

/-- The stale sectors that loads by Basin address read from filled rows of stash pages, each once (02 R70). -/
def State.staleNamed (s : State) (addrs : List Nat) : List (Nat × Nat) :=
  (addrs.filterMap fun b => match s.bankUse s.cur (b / 4096) with
    | .stash q => if s.rowStale s.cur q (b % 4096 / 128) (b % 128 / 32) then some (q.win, (q.la + b % 4096) / 32) else none
    | _ => none).eraseDups

/-- The bank a store by Basin address goes to: a shared page of registers or of template data is copied first, and the register
whose slot holds the row is in full form from then on (04 R106, 15 R314, R315). -/
def storeBank (t : Team) (b : Nat) : M Nat := do
  match (← get).bankUse (← current t) (b / 4096) with
  | .regs p =>
    copyFault p
    let r := b % 4096 / 128 / t.n * t.npg + p
    if r < t.nregs then setForm r (Form.full, 0)
    return Pte.bank ((← getTeam).pte p)
  | .template page => ownTemplatePage t page
  | _ => return b / 4096

/-- Places of a Basin access in a bank. -/
def basinPlaces (bank b size : Nat) : List (Nat × Nat × Nat × Nat × Nat) :=
  (accessWords (b % 4096) size).map fun x => (bank, x.1 / 32, x.1 % 32, x.2.1, x.2.2)

/-- Read bytes of Basin words as a team sees them: value and poison. -/
def seenWords (s : State) (t : Team) (l : List (Nat × Nat × Nat × Nat × Nat)) : Nat × Bool :=
  ((readWords (s.core t.core) l).1, l.any fun x => bitAt (s.seenPoison t x.1 x.2.1).toNat x.2.2.1)

/-- The Basin addresses of a pass, checked (05 R121, 06 R141); their conflict cycles are counted (04 R107). -/
def basinPass (f : LMem) (t : Team) (w : Nat) (m : BitVec 32) (acc : Nat) : M (List (Nat × Nat)) := do
  let addrs ← eachLane ((lanesOf m).map fun p => 32 * w + p) fun l => do
    return (l, ← basinAddress t (← readLane f.va.toNat l) f.imm32 (memBits f.fmt / 8) acc l)
  bump t.core 6 (basinConflicts (addrs.map (·.2)))
  return addrs

/-- `vldb` (06 R141). -/
def execVldb (f : LMem) (s : State) : Host.Outcome State Fault Refusal :=
  runLane (runPasses (.vldb f) [f.mask.toNat] (under f.mask.toNat (regsOf f.fmt f.vd)) 0 fun w => do
    countReads [f.va.toNat] w
    let t ← getTeam
    let m ← soundLanes [f.va.toNat] w (t.active f.mask.toNat w)
    let size := memBits f.fmt / 8
    let addrs ← basinPass f t w m 0
    addrs.forM fun q => fillNamed t q.2
    let s ← get
    let vals ← killPoisoned (addrs.map fun q =>
      let pl := basinPlaces (q.2 / 4096) q.2 size
      let r := seenWords s s.cur pl
      (q.1, memExtend f.fmt r.1, r.2, placeAddr pl))
    writeValues f.fmt f.vd.toNat f.mask.toNat w vals
    (s.staleNamed (addrs.map (·.2))).forM fun q => countStale t q.1 1) s

/-- The part that a store by Basin address puts into a stash page (04 R103). -/
def stashPart (s : State) (q : PageBank) (lane b size v : Nat) : Part :=
  { lane := lane, va := BitVec.ofNat 64 (b % 4096), n := size, lo := 0, len := 8 * size, val := v
    place := { la := q.la + b % 4096, win := q.win, desc := s.window q.win } }

/-- The stores of a pass by Basin address into stash pages are stores of the task: its dirty sectors take them in the colour sampled
at the `lrun`, and the rows with them (04 R103, 09 R198). -/
def stashStores (t : Team) (l : List (PageBank × Part)) : M Unit := do
  let secs ← ((l.map fun e => (e.1.win, e.2.place.la / 32)).eraseDups).mapM fun sec => do
    return (sec, ← mergedSector t sec ((l.filter fun e => e.1.win == sec.1 && e.2.place.la / 32 == sec.2).map (·.2)) 0)
  secs.forM fun e => do
    inStream laneStore (putDirty t e.1.1 e.1.2 t.blk.dcol 0 e.2.1 e.2.2)
    dropOwnRow t e.1.1 (32 * e.1.2) ((l.find? fun p => p.1.win == e.1.1 && p.2.place.la / 32 == e.1.2).map (·.1.bank))
    match l.find? fun p => p.1.win == e.1.1 && p.2.place.la / 32 == e.1.2 with
    | some p => stashSector t p.1 e.1.1 e.1.2 e.2.1 e.2.2
    | none => pure ()

/-- The stores of a `vstb` pass, lanes ascending: lane, address, value (06 R141). -/
def basinStores (t : Team) (size : Nat) (l : List (Nat × Nat × Nat)) : M Unit := do
  l.forM fun q => fillNamed t q.2.1
  let s ← get
  let stash := l.filterMap fun q => match s.bankUse s.cur (q.2.1 / 4096) with
    | .stash b => some (b, stashPart s b q.1 q.2.1 size q.2.2)
    | _ => none
  stashStores t stash
  l.forM fun q => do
    match s.bankUse s.cur (q.2.1 / 4096) with
    | .stash _ => pure ()
    | _ =>
      let bank ← storeBank t q.2.1
      onCore t.core fun c => ((basinPlaces bank q.2.1 size).foldl (fun (acc : Core × Nat) x =>
        let (b, r, w, o, n) := x
        (acc.1.putBytes b r (4 * w + o) n (acc.2 % 2 ^ (8 * n)), acc.2 / 2 ^ (8 * n))) (c, q.2.2)).1

/-- `vstb` (06 R141). -/
def execVstb (f : LMem) (s : State) : Host.Outcome State Fault Refusal :=
  runLane (runPasses (.vstb f) [f.mask.toNat] [] 0 fun w => do
    let srcs := f.va.toNat :: regsOf f.fmt f.vb
    countReads srcs w
    let t ← getTeam
    let m ← soundLanes srcs w (t.active f.mask.toNat w)
    let addrs ← basinPass f t w m 1
    -- every source of the pass is read before anything is written (09 R197)
    let vals ← addrs.mapM fun q => do return (q.1, q.2, ← storeBits f.fmt f.vb.toNat q.1)
    basinStores t (memBits f.fmt / 8) vals) s

/-! ## Lane atomics (06 R144 to R146) -/

/-- A store of the task to the 8-byte word of a host window has not arrived (07 R172). -/
def State.hostPending (s : State) (t : Team) (p : Place64) : Bool :=
  Win.host p.desc && s.postedTo t.uid .host (p.la % 2 ^ 45 / 8 * 8) 8

/-- The 32-byte sector of host memory at a place is poisoned (22 R373). -/
def State.hostPoison (s : State) (p : Place64) : Bool := Table.get false s.hostBad (p.la % 2 ^ 45 / 32)

/-- Template pages admit no atomic (15 R314). -/
def checkNoTemplate (t : Team) (x : LaneAcc) : M Unit :=
  match t.pageKind x.va with
  | .template _ => tmplAcc { laneAtomic with lane := x.lane } x.va
  | _ => pure ()

/-- Atomics of one pass: sent in ascending lane order; the pass ends when the last old value has returned (06 R146). -/
def atomicWord (i : Instr) (f : LMem) (what : Nat → M AtomOp) : M Unit :=
  runPasses i [f.mask.toNat] (under f.mask.toNat (regsOf f.fmt f.vd)) 0 fun w => do
    let t ← getTeam
    let srcs := (touch t.blk.nf i).srcs
    countReads srcs w
    match t.l.flight with
    | some fl => waitUnless (decide (fl.left = 0)) .memory
    | none =>
      let m ← soundLanes srcs w (t.active f.mask.toNat w)
      let xs ← passAccesses laneAtomic f.fmt f.va.toNat f.imm32 w m checkNoTemplate
      let s ← get
      if xs.any fun x => x.pieces.any fun p => s.hostPending t p.place then waitFor .memory
      ownDsts (under f.mask.toNat (regsOf f.fmt f.vd)) (xs != [])
      let wide := f.fmt == 0x1C
      let sent ← xs.foldlM (fun (n : Nat) x => do
        match x.pieces with
        | p :: _ =>
          let op ← what x.lane
          if Win.logged p.place.desc then
            let _ ← sendAtomic t p.place op (.lane f.vd.toNat x.lane wide) (f.scope == 5) x.va
            return n + 1
          else
            if (← get).hostPoison p.place then killLane x.lane p.place.la
            else
              let old ← hostRmw (p.place.la % 2 ^ 45) (memBits f.fmt / 8) op.apply
              writeValues f.fmt f.vd.toNat f.mask.toNat w [(x.lane, old)]
            return n
        | [] => return n) 0
      onLane fun l => { l with flight := if sent = 0 then none else some { pass := w, left := sent } }
      waitUnless (decide (sent = 0)) .memory
    onLane fun l => { l with flight := none }

/-- The operand of a lane atomic. -/
def atomOperand (f : LMem) (r : BitVec 7) (lane : Nat) : M Word64 := do
  if f.fmt = 0x1C then readLane64 r.toNat lane else do return zext64 (← readLane r.toNat lane)

/-- `vatom` (06 R144). -/
def execVatom (f : LMem) (s : State) : Host.Outcome State Fault Refusal :=
  runLane (atomicWord (.vatom f) f fun l => do return .lane f.aop.toNat f.fmt.toNat (← atomOperand f f.vb l)) s

/-- `vcas` (06 R145). -/
def execVcas (f : LMem) (s : State) : Host.Outcome State Fault Refusal :=
  runLane (atomicWord (.vcas f) f fun l => do
    return .laneCas (memBits f.fmt) (← atomOperand f f.vc l) (← atomOperand f f.vb l)) s

/-! ## Rows (06 R147, R148) -/

/-- The address of a row, checked and translated whole (06 R147, R153). The record of its fault holds LANE 0, as that of a scalar
access: one address serves the whole row, and 06 R154 names no lane for it (log 122). -/
def locateRow (a : Access) (t : Team) (va : Word64) (n : Nat) : M Place64 := do
  let a := { a with size := 128 * n, priv := t.blk.priv }
  checkVa a va
  if va.toNat % (128 * n) ≠ 0 ∨ t.n < n then xlateFault a Code.rowfmt va 7 none 0 0
  match t.pageKind va with
  | .template _ =>
    let _ ← translate a t va
    tmplAcc a va
  | _ => translate a t va

/-- Granules a run of bytes lies in. -/
def granulesOf (la bytes : Nat) : List Nat :=
  (List.range ((la + bytes - 1) / 1024 - la / 1024 + 1)).map fun i => la / 1024 + i

/-- An entry of a row: the one held where it is Valid, else a fresh one (06 R147). -/
def rowEntry (t : Team) (win gran : Nat) (refill : Bool) : M IxbEntry := do
  let c := (← get).cluster t.cluster
  match c.ixb.find? fun e => e.isFor win gran with
  | some e =>
    if e.heldBy ≠ [] then waitFor .memory
    if e.superseded || refill || ownNewer t e || c.raisedNewer t e then ixbFill t win gran else return e
  | none =>
    bump t.core 11 1
    ixbFill t win gran

/-- Entries that show one PSN: where a committed publication lies between what two of them show, both are read again
(06 R147). -/
def rowEntries (t : Team) (win : Nat) (grans : List Nat) : M (List IxbEntry) := do
  let es ← grans.mapM fun g => rowEntry t win g false
  let top := es.foldl (fun m e => if m < e.psn then e.psn else m) 0
  let s ← get
  let torn := es.any fun e => s.pubs.any fun p =>
    p.committed && p.touches win e.gran && decide (e.psn < p.psn ∧ p.psn ≤ top)
  if torn then grans.mapM fun g => rowEntry t win g true else return es

/-- A sector of a row in the task's view (06 R147, 07 R163). -/
def rowSector (t : Team) (es : List IxbEntry) (win sec hint : Nat) : M Delivered := do
  let s ← get
  let c := s.cluster t.cluster
  if c.paused || s.atomicInFlight t.uid win sec then waitFor .memory
  match c.dirtyOf t.uid win sec with
  | some d =>
    useDirty t win sec hint
    return { data := d.data, poison := d.poison }
  | none =>
    match c.ownPending t.uid win sec with
    | some p => readThrough t win sec (p.posOf sec) hint (p.mates (p.posOf sec))
    | none =>
      match c.clusterPending t win sec with
      | some p => readThrough t win sec (p.posOf sec) hint (p.mates (p.posOf sec))
      | none =>
        match es.find? fun e => e.gran == sec / 32 with
        | some e => match ← findSector win sec t.taskNum e.entry with
          | some p => readThrough t win sec p hint ((← get).entryMates e.entry p)
          | none => return unwritten
        | none => return unwritten

/-- Sectors of a row, in order. -/
def rowSectorsOf (a : Access) (t : Team) (va : Word64) (p : Place64) (n hint : Nat) : M (List Delivered) := do
  if Win.logged p.desc then
    let es ← rowEntries t p.win (granulesOf p.la (128 * n))
    (List.range (4 * n)).mapM fun i => rowSector t es p.win (p.la / 32 + i) hint
  else
    (List.range (4 * n)).mapM fun i => do
      let r ← readPlace a t (va + BitVec.ofNat 64 (32 * i)) { p with la := p.la + 32 * i } 32 hint sysRead
      return { data := BitVec.ofNat 256 r.value, poison := r.poison }

/-- Lanes of a pass set that are active, not dead, and below `32 n`. -/
def Team.rowLanes (t : Team) (mask n : Nat) (ps : List Nat) : List Nat :=
  (ps.filter fun w => decide (w < n)).flatMap fun w => (lanesOf (t.active mask w)).map fun p => 32 * w + p

/-- `vldrow` (06 R147): it writes its destination only where a lane below `32 n` takes its word. -/
def execVldrow (f : LMem) (s : State) : Host.Outcome State Fault Refusal :=
  runLane (runWhole (.vldrow f) [f.mask.toNat] [] 0 fun ps => do
    let t ← getTeam
    if ps.any fun w => t.active f.mask.toNat w != 0 then
      let n := f.vc.toNat
      let va := (← sampled f.va.toNat) + sext64 f.imm32
      let p ← locateRow laneLoad t va n
      let ds ← rowSectorsOf laneLoad t va p n f.hint.toNat
      let got := (t.rowLanes f.mask.toNat n ps).map fun l =>
        let d := ds.getD (l / 8) unwritten
        (l, secBytes d.data (4 * (l % 8)) 4, d.poison, p.la + 4 * l)
      let vals ← killPoisoned got
      let ws := ps.filter fun w => decide (w < n)
      let dsts := under f.mask.toNat (regsOf f.fmt f.vd)
      if vals ≠ [] then
        takeDsts dsts ws
        openDsts dsts ws
        ws.forM fun w => writeValues f.fmt f.vd.toNat f.mask.toNat w (vals.filter fun v => v.1 / 32 == w)
        reformDsts dsts) s

/-- `vrowatom` (06 R148): the row update of a logged window goes to its home slice; a host window is updated word by word. -/
def rowAtomic (f : LMem) (ps : List Nat) : M Unit := do
  let t ← getTeam
  match t.l.flight with
  | some fl => waitUnless (decide (fl.left = 0)) .memory
  | none =>
    if ps.any fun w => t.active f.mask.toNat w != 0 then
      let n := f.vc.toNat
      ps.forM fun w => countReads [f.vb.toNat] w
      let va := (← sampled f.va.toNat) + sext64 f.imm32
      let p ← locateRow laneAtomic t va n
      ps.forM fun w => if w < n then do let _ ← soundLanes [f.vb.toNat] w (t.active f.mask.toNat w) else pure ()
      let t ← getTeam
      let lanes := t.rowLanes f.mask.toNat n ps
      let ops ← lanes.mapM fun l => do return (l, ← readLane f.vb.toNat l)
      if Win.logged p.desc then
        let _ ← sendAtomic t p (.row f.aop.toNat n ops) .none false va
        onLane fun l => { l with flight := some { pass := 0, left := 1 } }
        waitFor .memory
      else
        let s ← get
        if (List.range (16 * n)).any fun i => s.hostPending t { p with la := p.la + 8 * i } then waitFor .memory
        ops.forM fun o => if s.hostPoison { p with la := p.la + 4 * o.1 } then killLane o.1 (p.la + 4 * o.1) else do
          let _ ← hostRmw ((p.la + 4 * o.1) % 2 ^ 45) 4 fun old => rowNew f.aop.toNat old o.2.toNat

def execVrowatom (f : LMem) (s : State) : Host.Outcome State Fault Refusal :=
  runLane (runWhole (.vrowatom f) [f.mask.toNat] [] 0 (rowAtomic f)) s

end Sys2Proof.Machine
end

