-- ==== Sys2Proof/Machine/Traps.lean ====
section
/-!
DEFINITION. Service code and traps of the scalar stream (21 R361 to R366), and the debug comparators (21 R367, R368).
-/
namespace Sys2Proof.Machine

/-! ## Service calls (21 R363, R364) -/

/-- The steps of `svc` (21 R363). -/
def serviceCall (n : Nat) : M Unit := do
  let t ← getTeam
  if t.s.priv then trapWith Code.svcnest (BitVec.ofNat 64 n)
  waitUnless (decide (t.l.outstanding = 0)) (.lanes 0)
  let tab := Ctx.svctab ((← get).context t.id.ctx)
  if tab = 0 then trapWith Code.svcnum (BitVec.ofNat 64 n)
  let hdr ← loadPriv64 t (BitVec.ofNat 64 tab)
  if malformedHeader hdr then trapWith Code.svctab (BitVec.ofNat 64 tab)
  if bits hdr 0 16 ≤ n then trapWith Code.svcnum (BitVec.ofNat 64 n)
  let at_ := tab + 16 + 8 * n
  let e ← loadPriv64 t (BitVec.ofNat 64 at_)
  if e = 0 ∨ e % 4 ≠ 0 then trapWith Code.svctab (BitVec.ofNat 64 at_)
  onScalar fun c => { c with srpc := c.pc + 4, priv := true, pc := BitVec.ofNat 64 e, phase := .none, counted := false }

/-- `svc n` (21 R363). -/
def execSvc (n : BitVec 16) (s : State) : Host.Outcome State Fault Refusal := runTeam (serviceCall n.toNat) s

/-- The steps of `eret` (21 R364): back from a service, or the end of the trap hook. -/
def serviceReturn : M Unit := do
  let t ← getTeam
  if !t.s.priv then trapSelf Code.privop .eret
  waitUnless (decide (t.l.outstanding = 0)) (.lanes 0)
  match t.s.hook with
  | none => onScalar fun c => { c with pc := c.srpc, priv := false, phase := .none, counted := false }
  | some h =>
    releaseAll Scope.system 0xFF 0 0
    fatalEnd t.uid h.saved 0

/-- `eret` (21 R364). -/
def execEret (s : State) : Host.Outcome State Fault Refusal := runTeam serviceReturn s

/-- `trap code` (21 R366): the fatal path with code TRAP. -/
def execTrap (c : BitVec 16) (s : State) : Host.Outcome State Fault Refusal := runTeam (trapWith Code.trap (zext64 c)) s

/-- `brk code` (21 R366): it halts the team where the context is debugged, and traps otherwise. -/
def breakPoint (c : Nat) : M Unit := do
  let t ← getTeam
  if Ctx.dbgen ((← get).context t.id.ctx) then haltTeam t.uid 4 0 0 c
  else trapWith Code.brk (BitVec.ofNat 64 c)

/-- `brk code` (21 R366). -/
def execBrk (c : BitVec 16) (s : State) : Host.Outcome State Fault Refusal := runTeam (breakPoint c.toNat) s

/-! ## Comparators (21 R367, R368) -/

/-- Double word `k` of comparator `i` of a table. -/
def cmpWord (t : Table Word64) (i k : Nat) : Nat := (Table.get 0 t (3 * i + k)).toNat

/-- A comparator is enabled and names the team (21 R367). -/
def cmpNames (a : Nat) (t : Team) : Bool :=
  bitAt a 63 && decide (bits a 55 6 = t.id.ctx) && (!bitAt a 54 || decide (bits a 0 32 = t.id.task % 2 ^ 32))

/-- Lanes a comparator qualifies in a lane word. -/
def cmpLanes (c w : Nat) (m : BitVec 32) : BitVec 32 :=
  if bitAt c 58 then (if bits c 53 5 = w then m &&& BitVec.ofNat 32 (bits c 0 32) else 0) else m

/-- The governing masks of a lane word have a qualified lane (21 R368). -/
def cmpQualified (t : Team) (masks : List Nat) (c : Nat) : Bool :=
  if bitAt c 58 then masks.any fun m => cmpLanes c (bits c 53 5) (t.active m (bits c 53 5)) != 0 else true

/-- PC comparators that match: the scalar word at an address, or a lane word by its index, as a bit set. -/
def pcMatches (s : State) (t : Team) (lane : Option (Nat × List Nat)) : Nat :=
  let tab := (s.core t.core).dbgpc
  (List.range 8).foldl (fun acc i =>
    let a := cmpWord tab i 0
    let b := cmpWord tab i 1
    let hit := match lane with
      | none => !bitAt a 62 && decide (b = t.s.pc.toNat)
      | some (n, masks) => bitAt a 62 && decide (b = n) && cmpQualified t masks (cmpWord tab i 2)
    if cmpNames a t && hit then acc + 2 ^ i else acc) 0

/-- Accesses a unit makes: lane (none for the scalar stream), address, bytes, whether it reads, whether it writes. -/
structure Watch where
  lane : Option Nat
  va : Nat
  size : Nat
  r : Bool
  w : Bool
  deriving DecidableEq, Repr

/-- Data comparators that match accesses, as a bit set. -/
def dataMatches (s : State) (t : Team) (l : List Watch) : Nat :=
  let tab := (s.core t.core).dbgda
  (List.range 4).foldl (fun acc i =>
    let a := cmpWord tab i 0
    let b := cmpWord tab i 1
    let c := cmpWord tab i 2
    let base := bits b 0 57
    let top := base + 2 ^ bits b 57 6
    let hit := l.any fun x =>
      ((bitAt a 61 && x.r) || (bitAt a 62 && x.w)) && decide (x.va < top ∧ base < x.va + x.size)
        && (match x.lane with
            | none => true
            | some n => bitAt (cmpLanes c (n / 32) (BitVec.ofNat 32 (2 ^ (n % 32)))).toNat (n % 32))
    if cmpNames a t && hit then acc + 2 ^ i else acc) 0

/-- What a scalar word accesses. A table or an entry is watched before the word runs, whether the word comes to read it or not: a
`svc` beyond NSVC, a `qget` of an empty queue (log 113, DESIGN CHOICE). -/
def scalarWatch (s : State) (i : Instr) : List Watch :=
  let at_ := fun (a : XReg) (o : BitVec 16) (n : Nat) (r w : Bool) =>
    [({ lane := none, va := (effAddr s a o).toNat, size := n, r := r, w := w } : Watch)]
  match i with
  | .ldB _ a o => at_ a o 1 true false
  | .ldH _ a o => at_ a o 2 true false
  | .ldW _ a o => at_ a o 4 true false
  | .ldD _ a o => at_ a o 8 true false
  | .lduB _ a o => at_ a o 1 true false
  | .lduH _ a o => at_ a o 2 true false
  | .lduW _ a o => at_ a o 4 true false
  | .stB _ a o => at_ a o 1 false true
  | .stH _ a o => at_ a o 2 false true
  | .stW _ a o => at_ a o 4 false true
  | .stD _ a o => at_ a o 8 false true
  | .amo _ a _ _ z _ => at_ a 0 (atomBytes z) true true
  | .cas _ a _ _ z => at_ a 0 (atomBytes z) true true
  | .jtab i t =>
    at_ t 0 8 true false ++ [{ lane := none, va := (s.getX t + 8 + 4 * s.getX i).toNat, size := 4, r := true, w := false }]
  | .svc n =>
    let tab := Ctx.svctab (s.context s.cur.id.ctx)
    if tab = 0 then []
    else [{ lane := none, va := tab, size := 8, r := true, w := false }, { lane := none, va := tab + 16 + 8 * n.toNat, size := 8, r := true, w := false }]
  | .qput _ a _ => at_ a 0 64 true false
  | .qget _ a _ => at_ a 0 64 false true
  | .rcopy _ a _ _ => at_ a 0 64 true false
  | .rfeed _ a _ _ => at_ a 0 64 true false
  | .rspill _ a _ _ => at_ a 0 64 true false
  | _ => []

/-- A gather, scatter or lane atomic watches each lane of a pass. -/
def laneWatch (s : State) (t : Team) (f : LMem) (w : Nat) (r wr : Bool) : List Watch :=
  let c := s.core t.core
  (setBitsOf (t.active f.mask.toNat w).toNat 32).map fun p =>
    let l := 32 * w + p
    let v := BitVec.ofNat 64 ((t.regLane c f.va.toNat l).1.toNat + 2 ^ 32 * (t.regLane c (f.va.toNat + 1) l).1.toNat)
    let (va, bit) := laneAddr v f.imm32 (memNarrow f.fmt).isSome
    { lane := some l, va := va.toNat, size := (bit + memBits f.fmt + 7) / 8, r := r, w := wr }

/-- A Cascade command counts by its address, for the lanes of the pass (21 R368). -/
def cascadeWatch (t : Team) (mask w : Nat) (va : Word64) (r wr : Bool) : List Watch :=
  (setBitsOf (t.active mask w).toNat 32).map fun p => { lane := some (32 * w + p), va := va.toNat, size := 1, r := r, w := wr }

/-- A row runs its passes as one (06 R151): each lane of it that takes part watches its own four bytes. -/
def rowWatch (t : Team) (mask n : Nat) (va : Word64) (r wr : Bool) : List Watch :=
  (List.range n).flatMap fun w => (setBitsOf (t.active mask w).toNat 32).map fun p =>
    { lane := some (32 * w + p), va := va.toNat + 4 * (32 * w + p), size := 4, r := r, w := wr }

/-- Scalar registers whose sampled value a lane word's address is formed from. -/
def addressRegs : Instr → List Nat
  | .vldrow f => [f.va.toNat]
  | .vrowatom f => [f.va.toNat]
  | .vnrld f => [f.va.toNat]
  | .vnrred f => [f.va.toNat]
  | .vnrst f => [f.va.toNat]
  | .vnrclone f => [f.vd.toNat]
  | _ => []

/-- What a pass of a lane word accesses: lane word `w`. -/
def passWatch (s : State) (t : Team) (i : Instr) (w : Nat) : List Watch :=
  let x := fun (r : BitVec 7) (o : Word32) => (if r = 0 then 0 else Table.get 0 t.blk.xs r.toNat) + sext64 o
  match i with
  | .vld f => laneWatch s t f w true false
  | .vst f => laneWatch s t f w false true
  | .vtst f => laneWatch s t f w false true
  | .vatom f => laneWatch s t f w true true
  | .vcas f => laneWatch s t f w true true
  | .vldrow f => rowWatch t f.mask.toNat f.vc.toNat (x f.va f.imm32) true false
  | .vrowatom f => rowWatch t f.mask.toNat f.vc.toNat (x f.va f.imm32) true true
  | .vnrld f => cascadeWatch t f.mask.toNat w (x f.va f.imm32) true false
  | .vnrred f => cascadeWatch t f.mask.toNat w (x f.va f.imm32) true false
  | .vnrst f => cascadeWatch t f.mask.toNat w (x f.va f.imm32) false true
  | .vnrclone f => cascadeWatch t f.mask.toNat w (x f.vd 0) false true
  | _ => []

/-- Bits of a set that another set lacks. -/
def without (a b : Nat) : Nat := (a ||| b) ^^^ b

/-- The comparators that pass over the next unit of a stream, which they have halted before (21 R368). -/
def Debug.over (d : Debug) (lane : Bool) : PassOver := (d.skips.find? fun o => o.lane == lane).getD { lane := lane, pcm := 0, dam := 0 }

/-- The next unit of a stream runs: what passed over it has done so. -/
def Debug.ran (d : Debug) (lane : Bool) : Debug := { d with skips := d.skips.filter fun o => o.lane != lane }

/-- A unit of a stream is about to run: the team halts where a comparator matches that does not pass over it. After a resume the
comparators that halted the team pass over that one unit, whatever the other stream does meanwhile (21 R368). Answers whether the
team halted. -/
def comparatorHalt (lane : Bool) (pcm dam : Nat) : M Bool := do
  let t ← getTeam
  if !Ctx.dbgen ((← get).context t.id.ctx) then return false
  let o := t.dbg.over lane
  let p := without pcm o.pcm
  let d := without dam o.dam
  if p = 0 ∧ d = 0 then return false
  haltTeam t.uid ((if p = 0 then 0 else 8) + (if d = 0 then 0 else 16)) p d 0
  onTeam fun t => { t with dbg := { t.dbg.ran lane with
    skips := (t.dbg.ran lane).skips ++ [{ lane := lane, pcm := pcm ||| o.pcm, dam := dam ||| o.dam }] } }
  return true

/-- What a computation would answer, with no effect; none where it would stop. -/
def peek {α : Type} (m : M α) : M (Option α) := fun s =>
  match m s with
  | .ok x _ => .ok (some x) s
  | .error _ _ => .ok none s

end Sys2Proof.Machine
end

