-- ==== Sys2Proof/Machine/Issue.lean ====
section
/-!
DEFINITION. Issue of scalar and lane words: when a team may issue, the fetch and decode of its next word, and what follows
a word (14 R292, R301, 01 R37, 21 R368, R369).
-/
namespace Sys2Proof.Machine

/-- What a turn of a team comes to before its word executes. -/
inductive Issued where
  /-- the word to execute, and the state it executes in -/
  | word (i : Instr) (s : State)
  /-- no word executes: the outcome -/
  | done (o : Host.Outcome State Fault Refusal)
  deriving Repr

/-- Run the part of a turn before its word; its stops are the team's. -/
def issueOf (m : M (Option Instr)) (park : State → WaitFor → State) (s : State) : Issued :=
  match m s with
  | .ok (some i) s' => .word i s'
  | .ok none s' => .done (.next s')
  | .error e s' => .done (settleWith park s.cur.uid e s s')

/-! ## The scalar stream -/

/-- A team may issue a scalar word (15 R310, 21 R369). -/
def Team.mayIssue (t : Team) : Bool := t.status == .ready && !t.yielding && !t.dbg.halted && (!t.dbg.stepping || t.dbg.stepS)

/-- Registers of the issuing word that outstanding accesses have still to write are written first (14 R292, R293); an atomic
whose value has not come holds the word back. -/
def settleUses (rs : List Nat) : M Unit := do
  let t ← getTeam
  let due := t.s.outs.filter fun o =>
    (o.rd != 0 && rs.contains o.rd) || (o.val2.isSome && rs.contains (o.rd + 1))
  if due.any fun o => o.val.isNone then waitFor .memory
  due.forM fun o => onScalar fun c => deliverOut c o.op

/-- The scalar word at the PC, decoded (14 R298, 21 R352). -/
def fetchWord : M Instr := do
  let t ← getTeam
  let w ← fetchScalar t t.s.pc
  match decodeScalar w with
  | .ok i => return i
  | .error r => trapScalarWord (rejectCode r) w

/-- A team ranks before another (16 R338): promoted ones by promotion, then by priority, then by stamp. -/
def ranksBefore (promoted : Team → Nat) (a b : Team) : Bool :=
  if promoted a ≠ 0 ∧ promoted b ≠ 0 then decide (promoted a < promoted b)
  else if promoted a ≠ 0 then true
  else if promoted b ≠ 0 then false
  else decide (b.ctl.prio < a.ctl.prio) || (a.ctl.prio == b.ctl.prio && decide (a.age < b.age))

/-- The team stands in a stall that is the team's, whichever stream met it: it issues nothing (02 R72, 04 R102). -/
def Team.stalled (t : Team) : Bool := t.status == .waiting && (t.waits == some .space || t.waits == some .basin)

/-- The stall is one that the team's lane word met: that word goes on first. -/
def Team.laneStalled (t : Team) : Bool := t.stalled && t.waits == t.l.stall

/-- A team's lane stream may go on (14 R303, 21 R369, 22 R384). -/
def Team.mayLane (t : Team) : Bool :=
  t.resident && (!t.stalled || t.laneStalled) && !t.yielding && !t.dbg.halted && t.l.run.isSome && (!t.dbg.stepping || t.dbg.stepL) && t.paired.at_.isNone
    && t.rfault.isNone

/-- A team is ready for scalar issue, or for lane issue (16 R338). -/
def Team.readyFor (t : Team) (lane : Bool) : Bool := if lane then t.mayLane && t.l.stall.isNone else t.mayIssue

/-- The promotion of a team for a kind of issue. -/
def Team.promotion (lane : Bool) (t : Team) : Nat := if lane then t.lanePromoted else t.promoted

/-- Ready teams of the core that rank before a team. -/
def State.ahead (s : State) (t : Team) (lane : Bool) : Nat :=
  (s.allTeams.filter fun u => u.core == t.core && u.uid != t.uid && u.readyFor lane && !s.stopsNow u lane && ranksBefore (Team.promotion lane) u t).length

/-- Issue takes the first two teams of a core's ranking for the scalar streams, and the first for the lane streams (16 R338). A team that
stops for a pre-emption is not of the ranking. -/
def State.inRank (s : State) (t : Team) (lane : Bool) : Bool := !s.stopsNow t lane && decide (s.ahead t lane < if lane then 1 else 2)

/-- A team issues, which ends its promotion; the other teams of its core that stand ready have been passed over once more
(16 R338, log 2). -/
def countHeld (lane : Bool) : M Unit :=
  modify fun s =>
    let up := fun (u : Team) =>
      if u.core ≠ s.cur.core then u
      else if lane then { u with laneHeld := if u.readyFor true then u.laneHeld + 1 else 0 }
      else { u with held := if u.readyFor false then u.held + 1 else 0 }
    { s with
      lastCore := s.cur.core
      cur := if lane then { s.cur with lanePromoted := 0, laneHeld := 0 } else { s.cur with promoted := 0, held := 0 }
      teams := s.teams.map up }

/-- The template pages of a launch template take the kernel's image before the team's first word (15 R311, R314). -/
def fillTemplate : M Unit := do
  let t ← getTeam
  if t.s.phase = .filling then
    t.h.copies.forM fun q => do
      let d ← deviceRead t.id.ctx t.cluster (t.kern.tsrc.toNat + 4096 * q.page) 4096
      let _ ← d.foldlM (fun (off : Nat) x => do
        onCore t.core fun c =>
          (c.putBytes q.bank (off / 128) (off % 128) x.size x.value).poisonBytes x.poison q.bank (off / 128) (off % 128) x.size
        return off + x.size) 0
      pure ()
    onScalar fun c => { c with phase := .none }

/-- The word at the PC with the registers it reads. -/
def readyWord : M Instr := do
  let i ← fetchWord
  settleUses (scalarUses i)
  return i

/-- The data comparators that the issuing team's word matches. -/
def wordData (i : Instr) : M Nat := do
  let s ← get
  return dataMatches s s.cur (scalarWatch s i)

/-- A PC comparator halts the team before its word is fetched, so that a fault of the word arises only after the resume (21 R370); the data
comparators that it would match halt it with that. -/
def scalarPcHalt : M Bool := do
  let s ← get
  let t := s.cur
  let pcm := pcMatches s t none
  if t.s.counted || without pcm (t.dbg.over false).pcm = 0 then return false
  let dam ← peek (do wordData (← readyWord))
  comparatorHalt false pcm (dam.getD 0)

/-- The part of a scalar turn before its word executes: the word itself, or none where a comparator halts the team. -/
def issueScalar : M (Option Instr) := do
  fillTemplate
  if ← scalarPcHalt then return none
  let i ← readyWord
  let s ← get
  let t := s.cur
  if !t.s.counted then
    if ← comparatorHalt false (pcMatches s t none) (← wordData i) then return none
    bump t.core 1 1
    countHeld false
    onTeam fun t => { t with s := { t.s with counted := true }, dbg := t.dbg.ran false }
  return some i

/-- A fatal fault of one of the team's engines comes before its next word (08 R184). -/
def engineFaultFirst : M Unit := do
  match (← getTeam).efault with
  | some r =>
    if (← getTeam).s.phase.boundary then
      onTeam fun t => { t with efault := none }
      throw (.trap r)
  | none => pure ()

/-- A scalar turn of a team that its rank admits; a device held hot issues nothing (26 R421). -/
def scalarTurn (uid : Nat) (s : State) : Issued :=
  let s1 := s.focus uid
  if s1.cur.uid = uid ∧ s1.cur.mayIssue = true ∧ s1.inRank s1.cur false = true ∧ s.dev.hot = false then
    issueOf (do engineFaultFirst; issueScalar) (parkTeam uid) s1
  else .done (.next s)

/-! ## The lane stream -/

/-- The lane word at the lane PC, decoded once (01 R37, 14 R303). CORECNT word 2 counts it here, as started, whether or not it then fails the
checks of its registers and formats: the spec does not say (log 57, DESIGN CHOICE). -/
def fetchLaneWord : M Instr := do
  let t ← getTeam
  match t.l.run with
  | none => waitFor (.lanes 0)
  | some r =>
    match r.word with
    | some i => return i
    | none =>
      let w ← fetchLane t r.blk.priv r.lpc
      match decodeLane w with
      | .error e => trapLaneWord (rejectCode e) w
      | .ok i =>
        bump t.core 2 1
        onLane fun l => { l with run := l.run.map fun r => { r with word := some i } }
        return i

/-- The lane word of the next pass: that of the pass set fixed, or the first the masks reach. -/
def Team.nextPass (t : Team) (masks : List Nat) : Option Nat :=
  let ps := match t.l.passes with | some p => passList p | none => passList (t.passSet masks)
  ps[t.l.pix]?

/-- A PC comparator halts the team before a lane word whose fetch or decode would stop, so that its fault arises only after the resume
(21 R370). No governing mask is known then, so a comparator that asks for a lane of it does not match. -/
def lanePcHalt : M Bool := do
  let s ← get
  match s.cur.l.run with
  | none => return false
  | some r =>
    let pcm := pcMatches s s.cur (some (r.lpc, []))
    if r.word.isSome || without pcm (s.cur.dbg.over true).pcm = 0 then return false
    if (← peek fetchLaneWord).isSome then return false
    comparatorHalt true pcm 0

/-- The part of a lane turn before its pass runs. The comparators are asked once of each pass (21 R368), and only when the registers
that form the pass's address have been sampled. -/
def issueLane : M (Option Instr) := do
  if ← lanePcHalt then return none
  let i ← fetchLaneWord
  let t ← getTeam
  if !t.l.watched then
    if (addressRegs i).any fun r => t.blk.late.any fun q => q.1 == r then waitFor .memory
    let masks := (touch t.blk.nf i).masks
    let n := match t.l.run with | some r => r.lpc | none => 0
    let s ← get
    let pcm := if t.l.passes.isNone then pcMatches s t (some (n, masks)) else 0
    let dam := match t.nextPass masks with | some w => dataMatches s t (passWatch s t i w) | none => 0
    if ← comparatorHalt true pcm dam then return none
    countHeld true
    onTeam fun t => { t with dbg := t.dbg.ran true }
  if (← getTeam).laneStalled then
    modify fun s => s.unstall (.team t.uid)
    onTeam fun t => { t with status := .ready, waits := none }
  onLane fun l => { l with stall := none, watched := true }
  return some i

/-- A lane word that stalls for room in the log is tried in its turn (02 R72). -/
def State.laneTurnDue (s : State) (t : Team) : Bool := t.l.stall != some .space || s.mayResume (.team t.uid)

/-- A lane turn of a team that its rank admits. -/
def laneTurn (uid : Nat) (s : State) : Issued :=
  let s1 := s.focus uid
  if s1.cur.uid = uid ∧ s1.cur.mayLane = true ∧ s1.laneTurnDue s1.cur = true ∧ s1.inRank s1.cur true = true ∧ s.dev.hot = false then issueOf issueLane stallLane s1
  else .done (.next s)

/-! ## After a word -/

/-- The team's scalar word has only parked: it is still to be done. -/
def Team.parked (t : Team) : Bool := t.status == .waiting && t.waits.isSome && !t.dbg.halted

/-- What follows a word of a team: the part of a step it was (21 R369), a fault of an engine (08 R184), and a halt that is due. -/
def afterWord (uid : Nat) (lane : Bool) : M Unit := do
  onUid uid fun t =>
    if t.dbg.stepping then
      { t with dbg := if lane then { t.dbg with stepL := t.dbg.stepL && t.l.stall.isSome } else { t.dbg with stepS := t.dbg.stepS && t.parked } }
    else t
  takeEngineFault uid
  haltIfDue uid

/-- The outcome of a turn with what follows its word. -/
def finishTurn (uid : Nat) (lane : Bool) (o : Host.Outcome State Fault Refusal) : Host.Outcome State Fault Refusal :=
  match o with
  | .next s => .next (runM (afterWord uid lane) s)
  | o => o

end Sys2Proof.Machine
end

