-- ==== Sys2Proof/Machine/Runnels.lean ====
section
/-!
DEFINITION. Runnels: the stream pattern record (08 R176, R177), the walk and the conversions (R178, R179), the start
instructions (R180 to R182), errors (R184), and the event queue (R185 to R188).
-/
namespace Sys2Proof.Machine

/-! ## The stream pattern record (08 R176) -/

def Rec.gbase (r : BitVec 512) : Word64 := BitVec.ofNat 64 (Rec.word r 0)
def Rec.laddr (r : BitVec 512) : Nat := Rec.word r 1
/-- Stride of dimension `k`, signed. -/
def Rec.stride (r : BitVec 512) (k : Nat) : Word64 :=
  sextN 32 (bits (Rec.word r (2 + k / 2)) (if k % 2 = 0 then 32 else 0) 32)
def Rec.cnt (r : BitVec 512) (k : Nat) : Nat := bits (Rec.word r 4) (48 - 16 * k) 16
def Rec.idxBase (r : BitVec 512) : Nat := Rec.word r 5
def Rec.esz (r : BitVec 512) : Nat := bits (Rec.word r 6) 61 3
def Rec.conv (r : BitVec 512) : Nat := bits (Rec.word r 6) 57 2
def Rec.cfmt (r : BitVec 512) : Nat := bits (Rec.word r 6) 52 5
def Rec.dqf (r : BitVec 512) : Bool := bitAt (Rec.word r 6) 51
def Rec.ind (r : BitVec 512) : Bool := bitAt (Rec.word r 6) 50
def Rec.idim (r : BitVec 512) : Nat := bits (Rec.word r 6) 48 2
def Rec.isz (r : BitVec 512) : Nat := bits (Rec.word r 6) 46 2
def Rec.hint (r : BitVec 512) : Nat := bits (Rec.word r 6) 41 2
def Rec.scaleBase (r : BitVec 512) : Nat := Rec.word r 7

/-- Units of an operation. -/
def Rec.total (r : BitVec 512) : Nat := Rec.cnt r 0 * Rec.cnt r 1 * Rec.cnt r 2 * Rec.cnt r 3

/-- Bytes of a unit without conversion. -/
def Rec.unit (r : BitVec 512) : Nat := if Rec.esz r = 4 then 32 else 2 ^ Rec.esz r

/-- Block formats a conversion takes (08 R177). -/
def convFmt (conv cfmt : Nat) : Bool :=
  match conv with
  | 0 => decide (cfmt = 0)
  | 3 => decide (0x11 ≤ cfmt ∧ cfmt ≤ 0x17) || decide (cfmt = 0x0C)
  | _ => decide (0x06 ≤ cfmt ∧ cfmt ≤ 0x1B)

/-- The kinds match the instruction (08 R177): 0 `rcopy`, 1 `rfeed`, 2 `rspill`. -/
def kindsMatch (kind lkind conv : Nat) : Bool :=
  match kind with
  | 0 => decide (lkind ≠ 1) && decide (conv ≠ 2)
  | 1 => decide (lkind = 1)
  | _ => decide (lkind = 0 ∧ conv = 0)

/-- A malformed record (08 R177). -/
def Rec.malformed (r : BitVec 512) (kind : Nat) : Bool :=
  let cv := Rec.conv r
  decide (bits (Rec.word r 6) 0 41 ≠ 0)
    || (!Rec.ind r && decide (Rec.idxBase r ≠ 0))
    || (decide (cv ≠ 3) && (Rec.dqf r || decide (Rec.scaleBase r ≠ 0)))
    || (decide (cv ≠ 0) && decide (Rec.esz r ≠ 0))
    || (decide (Rec.lkind r = 0) && decide (2 ^ 32 ≤ Rec.laddr r)) || (decide (Rec.lkind r = 1) && decide (4 ≤ Rec.laddr r))
    || decide (Rec.total r = 0) || decide (16777216 < Rec.total r)
    || decide (4 < Rec.esz r) || decide (Rec.isz r = 3) || !convFmt cv (Rec.cfmt r)
    || !kindsMatch kind (Rec.lkind r) cv

/-! ## Start instructions (08 R174, R181) -/

/-- The record at an address, copied: MISALIGN first, then the translation faults and POISONLD, all precise (08 R181). -/
def loadRecord (t : Team) (xa : Word64) : M (BitVec 512) := do
  let a := { Access.load with priv := t.s.priv, size := 64 }
  checkAlign a xa 64
  let p ← locate a t xa 64
  let half := fun (i : Nat) => (do
    let q := { p with la := p.la + 32 * i }
    let r ← readAt a t (xa + BitVec.ofNat 64 (32 * i)) q 32 0
    r.stale.forM fun x => countStale t x.1 1
    if r.poison then poisonLoad a xa q
    return r.value : M Nat)
  let lo ← half 0
  let hi ← half 1
  return BitVec.ofNat 512 (lo + hi * 2 ^ 256)

/-- The steps of `rcopy`, `rfeed` and `rspill` (08 R181). Word 2 of the record of a RECFMT holds the record's address (log 106,
DESIGN CHOICE: the spec gives that fault no words). -/
def startRunnel (kind : Nat) (d a : XReg) (post : Bool) (ctx : Nat) : M Unit := do
  let t ← getTeam
  let xa := (← get).getX a
  let record ← loadRecord t xa
  if Rec.malformed record kind then trapWith Code.recfmt xa
  let ops := ((← get).core t.core).runnels
  waitUnless (decide (ops.length < 192 ∧ (ops.filter fun r => r.uid == t.uid).length < 64)) .engine
  let n ← timelineNext ctx
  let st ← nextStamp
  let r : Runnel :=
    { id := st, uid := t.uid, kind := kind, ctxNum := ctx, num := n, post := post, record := record, pc := t.s.pc
      priv := t.s.priv, stamp := st, nf := t.l.nf, started := false, done := 0, bytes := 0, status := 0, ended := false, out := [], used := [] }
  onCore t.core fun c => { c with runnels := c.runnels ++ [r] }
  modify fun s => s.result d (BitVec.ofNat 64 n)

/-- `rcopy xD, (xA), tlN` (08 R180). -/
def execRcopy (d a : XReg) (p : BitVec 1) (n : BitVec 3) (s : State) : Host.Outcome State Fault Refusal :=
  runTeam (startRunnel 0 d a (p == 1) n.toNat) s

/-- `rfeed xD, (xA), tlN` (08 R180). -/
def execRfeed (d a : XReg) (p : BitVec 1) (n : BitVec 3) (s : State) : Host.Outcome State Fault Refusal :=
  runTeam (startRunnel 1 d a (p == 1) n.toNat) s

/-- `rspill xD, (xA), tlN` (08 R180). -/
def execRspill (d a : XReg) (p : BitVec 1) (n : BitVec 3) (s : State) : Host.Outcome State Fault Refusal :=
  runTeam (startRunnel 2 d a (p == 1) n.toNat) s

/-! ## Order (08 R175, R182, 13 R276) -/

/-- Every lane word enqueued before an order stamp has been decoded, and those that `p` names have retired (09 R200). -/
def Lane.quietBefore (l : Lane) (stamp : Nat) (p : List Word64 → Instr → Bool) : Bool :=
  l.queue.all (fun b => decide (stamp ≤ b.stamp))
    && (match l.run with
        | none => true
        | some r => decide (stamp ≤ r.blk.stamp) ||
            (match r.word with
             | none => false
             | some i => r.isLast && !p r.blk.nf i))

/-- A lane word that writes memory, the Basin or a FIFO (08 R182). -/
def writesOut (nf : List Word64) (i : Instr) : Bool :=
  (touch nf i).dsts != [] ||
    (match i with
     | .vst _ => true
     | .vtst _ => true
     | .vstp _ => true
     | .vstb _ => true
     | .vatom _ => true
     | .vcas _ => true
     | .vrowatom _ => true
     | .vwst _ => true
     | .vqput _ => true
     | .vaclr _ => true
     | .vnrst _ => true
     | .vnrclone _ => true
     | _ => false)

/-- Bytes of the Basin that an operation may write: its packed local side. -/
def Runnel.basinSpan (r : Runnel) : Option (Nat × Nat) :=
  let c := r.record
  if r.kind = 2 ∨ Rec.lkind c ≠ 0 then none
  else
    let unit := if Rec.conv c = 0 then Rec.unit c else if Rec.conv c = 3 then (if Rec.dqf c then 1024 else 512)
      else 32 * widthOfCode r.nf (Rec.cfmt c)
    some (Rec.laddr c, Rec.laddr c + Rec.total c * unit)

/-- Two operations may write the same byte: their Basin ranges meet, or both write global memory, where two addresses may name
one byte. -/
def Runnel.clash (a b : Runnel) : Bool :=
  (a.writesGlobal && b.writesGlobal) ||
    (match a.basinSpan, b.basinSpan with
     | some (x, y), some (x', y') => decide (x < y' ∧ x' < y)
     | _, _ => false)

/-- An engine holds the operation. -/
def Runnel.running (r : Runnel) : Bool := r.started && !r.ended

/-- An operation has begun and has not ended: an engine holds it, or a swap-out stopped it part-done. -/
def Runnel.underway (r : Runnel) : Bool := (r.started || r.done != 0) && !r.ended

/-- An operation that feeds a FIFO of a team. -/
def Runnel.feeds (r : Runnel) (uid q : Nat) : Bool := r.kind == 1 && r.uid == uid && Rec.laddr r.record == q

/-- An engine may take an operation (08 R174, R175, R182): one of its context in issue order, and none that may write a byte of one
that is under way, so that what both write ends wholly as one of them. -/
def mayStart (c : Core) (t : Team) (r : Runnel) : Bool :=
  let mine := c.runnels.filter fun o => o.uid == r.uid
  let before := mine.filter fun o => decide (o.stamp < r.stamp)
  decide ((c.runnels.filter Runnel.running).length < 4)
    && before.all (fun o => o.ctxNum != r.ctxNum || o.ended || (o.started && !o.clash r))
    && mine.all (fun o => o.id == r.id || !o.underway || !o.clash r)
    && (r.kind != 1 || before.all fun o => o.ended || !o.feeds r.uid (Rec.laddr r.record))
    && t.l.quietBefore r.stamp writesOut

/-! ## Accesses of an engine -/

/-- An engine's access (08 R184, 05 R120). -/
def engineAccess (r : Runnel) (write : Bool) : Access :=
  { Access.load with acc := 5, r := !write, w := write, priv := r.priv, src := 2, pc := some r.pc, op := r.id }

/-- An operation reaches a page through a window (05 R125). -/
def usePage (t : Team) (r : Runnel) (va : Word64) (win : Nat) : M Unit :=
  onCore t.core fun c => { c with runnels := c.runnels.map fun o =>
    if o.id = r.id ∧ !o.used.contains (va.toNat / 4096, win) then { o with used := (va.toNat / 4096, win) :: o.used } else o }

/-- Offsets and lengths of the parts of `n` bytes from an address, one per 32-byte sector. -/
def sectorParts (a : Nat) : Nat → Nat → Nat → List (Nat × Nat)
  | 0, _, _ => []
  | fuel + 1, o, n =>
    if n = 0 then []
    else
      let k := if n < 32 - (a + o) % 32 then n else 32 - (a + o) % 32
      (o, k) :: sectorParts a fuel (o + k) (n - k)

/-- The bytes of a number, low first, each with one mark. -/
def bytesOf (v n : Nat) (bad : Bool) : List (Byte × Bool) := (List.range n).map fun i => (BitVec.ofNat 8 (v / 2 ^ (8 * i)), bad)

/-- The number that bytes hold, low first, and whether any is marked. -/
def ofBytes (l : List (Byte × Bool)) : Nat × Bool :=
  (l.foldr (fun b acc => b.1.toNat + 256 * acc) 0, l.any (·.2))

/-- Read bytes of memory for an operation: stash rows are not asked (04 R103), template pages refuse (15 R314). -/
def engineRead (r : Runnel) (t : Team) (va : Word64) (n align : Nat) (moved : Bool) : M (List (Byte × Bool)) := do
  let a := engineAccess r false
  checkVa a va
  checkAlign a va align
  let parts ← (sectorParts va.toNat (n + 1) 0 n).mapM fun x => do
    let v := va + BitVec.ofNat 64 x.1
    let p ← locate { a with size := x.2 } t v 1
    match t.pageKind v with
    | .template _ => tmplAcc a v
    | _ => pure ()
    usePage t r v p.win
    let q ← readPlace a t v p x.2 (Rec.hint r.record) sysRead
    q.stale.forM fun y => countStale t y.1 1
    if moved then bump t.core 5 1
    return bytesOf q.value x.2 q.poison
  return parts.flatten

/-- Bytes of one sector put into memory, or into a stash page of the task: in a sector of logged memory with the rest of the sector as the
task sees it (08 R182). -/
def enginePut (r : Runnel) (t : Team) (o : OutSector) (stash : Bool) : M Unit := do
  let a := engineAccess r true
  let bytes := setBitsOf o.mask.toNat 32
  let lo := bytes.headD 0
  let n := bytes.getLastD 0 + 1 - lo
  let v := BitVec.ofNat 64 (o.va + lo)
  let p ← locate { a with size := n } t v 1
  usePage t r v p.win
  let hint := Rec.hint r.record
  let col := Rec.col r.record
  if Win.logged p.desc then
    let v := BitVec.ofNat 64 o.va
    let p := { p with la := p.la / 32 * 32 }
    let old ← (if bytes.length = 32 then pure { value := 0, poison := false, stale := [] }
      else if stash then readAt a t v p 32 hint else readPlace a t v p 32 hint sysRead)
    let new := bytes.foldl (fun w i => setBits w (8 * i) 8 (bits o.data.toNat (8 * i) 8)) old.value
    if stash then writeAt a t v p 32 new col hint (o.poison || old.poison)
    else writePlace a t v p 32 new col hint (o.poison || old.poison)
  else
    let only := if bytes.length = n then none else some (o.mask >>> lo)
    writePlace a t v p n (bits o.data.toNat (8 * lo) (8 * n)) col hint o.poison only
  bump t.core 5 1

/-- The bytes of a sector with bytes written later over them. -/
def OutSector.join (o new : OutSector) : OutSector :=
  { o with
    mask := o.mask ||| new.mask
    data := BitVec.ofNat 256 ((setBitsOf new.mask.toNat 32).foldl (fun w i => setBits w (8 * i) 8 (bits new.data.toNat (8 * i) 8)) o.data.toNat)
    poison := o.poison || new.poison }

/-- Bytes of a sector join those that the operation holds of it. -/
def Runnel.gather (r : Runnel) (new : OutSector) : Runnel :=
  { r with out := if r.out.any fun o => o.va == new.va then r.out.map fun o => if o.va = new.va then o.join new else o else r.out ++ [new] }

/-- Store bytes for an operation: to memory, or to the task's stash pages (08 R182). A sector written whole goes to memory at once; the
bytes of another are checked now, and stay with the operation until it has moved its last unit, so that its sector never shows a
part of them (07 R170, 08 R175; log 112). -/
def engineWrite (r : Runnel) (t : Team) (va : Word64) (data : List (Byte × Bool)) (align : Nat) (stash : Bool) : M Unit := do
  let a := engineAccess r true
  checkVa a va
  checkAlign a va align
  (sectorParts va.toNat (data.length + 1) 0 data.length).forM fun x => do
    let v := va + BitVec.ofNat 64 x.1
    let d := ofBytes ((data.drop x.1).take x.2)
    let inStash := (match t.pageKind v with | .stash _ => true | _ => false)
    if stash && !inStash then xlateFault a Code.stashmap v 7 none 0 0
    let p ← locate { a with size := x.2 } t v 1
    match t.pageKind v with
    | .template _ => tmplAcc a v
    | _ => pure ()
    usePage t r v p.win
    let o := v.toNat % 32
    let new : OutSector :=
      { va := v.toNat / 32 * 32, mask := BitVec.ofNat 32 ((2 ^ x.2 - 1) * 2 ^ o), data := BitVec.ofNat 256 (d.1 * 2 ^ (8 * o)), poison := d.2 }
    if x.2 = 32 then
      enginePut r t new stash
      onCore t.core fun c => { c with runnels := c.runnels.map fun q =>
        if q.id = r.id then { q with out := q.out.filter fun o => o.va != new.va } else q }
    else onCore t.core fun c => { c with runnels := c.runnels.map fun q => if q.id = r.id then q.gather new else q }

/-- A Basin fault of an operation (08 R184). -/
def engineBasinFault {α : Type} (r : Runnel) (code addr : Nat) : M α :=
  throw (.trap { noTrap with
    code := code, src := 2, w2 := BitVec.ofNat 64 addr, w3 := BitVec.ofNat 64 (7 * 2 ^ 61 + 5 * 2 ^ 58)
    pc := some r.pc, priv := some r.priv })

/-- Banks that `n` bytes from a Basin address reach. -/
def banksOf (a n : Nat) : List Nat := (List.range ((a + n - 1) / 4096 - a / 4096 + 1)).map fun i => a / 4096 + i

/-- A bank an engine may write: the team's own unshared ACC, PRIV or REG bank, or a STAT bank of the team's own template before its
`freeze` (08 R182). -/
def BankState.engineMayWrite (b : BankState) (t : Team) : Bool :=
  match b with
  | .acc o => o == t.uid
  | .priv o => o == t.uid
  | .reg o => o == t.uid
  | .stat o => o == t.uid && decide (t.ctl.level ≠ 0) && !t.h.frozen
  | _ => false

/-- The checks of R106 on `n` bytes at a Basin address. R106 names the alignment of accesses of 4 and of 8 bytes alone: the model aligns
one of another size to its bytes, and to 8 from 8 bytes on (log 123, DESIGN CHOICE). -/
def checkBasin (r : Runnel) (t : Team) (a n : Nat) (write : Bool) : M Unit := do
  if numBanks * 4096 < a + n then engineBasinFault r Code.basinrange a
  if a % (if n < 8 then n else 8) ≠ 0 then engineBasinFault r Code.basinalign a
  let s ← get
  let ok := (banksOf a n).all fun b =>
    if write then ((s.core t.core).bank b).engineMayWrite t else s.bankUse t b != .no
  if !ok then engineBasinFault r Code.basinperm a

/-- Write bytes at Basin addresses, word by word, with their poison. -/
def Core.putEngine (c : Core) (a : Nat) : Nat → List (Byte × Bool) → Core
  | 0, _ => c
  | fuel + 1, l =>
    match l with
    | [] => c
    | _ =>
      let k := if l.length < 4 - a % 4 then l.length else 4 - a % 4
      let d := ofBytes (l.take k)
      let c1 := (c.putBytes (a / 4096) (a % 4096 / 128) (a % 128) k d.1).poisonBytes d.2 (a / 4096) (a % 4096 / 128) (a % 128) k
      Core.putEngine c1 (a + k) fuel (l.drop k)

/-- A register whose row an engine writes is in full form from then on (04 R106). -/
def fullForm (t : Team) (a n : Nat) : M Unit :=
  (List.range ((a + n - 1) / 128 - a / 128 + 1)).forM fun i => do
    let row := a / 128 + i
    match t.pageOfBank (row / 32) with
    | none => pure ()
    | some p =>
      let r := row % 32 / t.n * t.npg + p
      if r < t.nregs then setForm r (Form.full, 0)

/-- Put the bytes of a unit into the Basin. -/
def engineBasinWrite (r : Runnel) (t : Team) (a : Nat) (data : List (Byte × Bool)) : M Unit := do
  checkBasin r t a data.length true
  fullForm t a data.length
  onCore t.core fun c => c.putEngine a data.length data

/-- A byte of the Basin as a team that names its bank sees it (04 R106). -/
def seenByte (s : State) (t : Team) (a : Nat) : Byte × Bool :=
  let o := a % 4096
  (BitVec.ofNat 8 ((s.core t.core).rowBytes (a / 4096) (o / 128) (o % 128) 1), bitAt (s.seenPoison t (a / 4096) (o / 128)).toNat (o % 128 / 4))

/-- Take the bytes of a unit from the Basin. -/
def engineBasinRead (r : Runnel) (t : Team) (a n : Nat) : M (List (Byte × Bool)) := do
  checkBasin r t a n false
  (List.range n).forM fun i => if i = 0 ∨ (a + i) % 128 = 0 then fillNamed t (a + i) else pure ()
  let s ← get
  return (List.range n).map fun i => seenByte s s.cur (a + i)

/-! ## FIFOs (13 R274) -/

def fifoCap : Nat := 4096

def Core.fifo (c : Core) (uid q : Nat) : Fifo :=
  (c.fifos.find? fun f => f.uid == uid && f.q == q).getD { uid := uid, q := q, bytes := [], carry := 0, nbits := 0 }

def Core.setFifo (c : Core) (f : Fifo) : Core :=
  { c with fifos := (c.fifos.filter fun g => !(g.uid == f.uid && g.q == f.q)) ++
      (if f.bytes = [] ∧ f.nbits = 0 then [] else [f]) }

/-- Append bytes to a FIFO; the engine stalls while they do not fit (08 R182). -/
def feedFifo (t : Team) (q : Nat) (data : List (Byte × Bool)) : M Unit := do
  let f := ((← get).core t.core).fifo t.uid q
  waitUnless (decide (f.bytes.length + data.length ≤ fifoCap)) .engine
  onCore t.core fun c => c.setFifo { f with bytes := f.bytes ++ data }

/-! ## The walk (08 R178) and the conversions (08 R179) -/

/-- Product of the counts below dimension `k`. -/
def Rec.below (r : BitVec 512) (k : Nat) : Nat := (List.range k).foldl (fun n j => n * Rec.cnt r j) 1

/-- Iteration of dimension `k` at unit `u`. -/
def Rec.iter (r : BitVec 512) (u k : Nat) : Nat := u / Rec.below r k % Rec.cnt r k

/-- Address that the iterations of the four dimensions give (08 R178). -/
def Rec.address (c : BitVec 512) (idx : Nat → Word64) : Word64 :=
  (List.range 4).foldl (fun a k => a + idx k * Rec.stride c k) (Rec.gbase c)

/-- Address of unit `u` where no dimension is indirect. -/
def Rec.plain (c : BitVec 512) (u : Nat) : Word64 := Rec.address c fun k => BitVec.ofNat 64 (Rec.iter c u k)

/-- Address of unit `u`; none where its index is poisoned (08 R178, R184). -/
def unitAddr (r : Runnel) (t : Team) (u : Nat) : M (Option Word64) := do
  let c := r.record
  if !Rec.ind c then return some (Rec.plain c u)
  let n := 2 ^ (Rec.isz c + 1)
  let va := BitVec.ofNat 64 (Rec.idxBase c + n * (u / Rec.below c (Rec.idim c)))
  let e := ofBytes (← engineRead r t va n n false)
  if e.2 then return none
  return some (Rec.address c fun k => if k = Rec.idim c then BitVec.ofNat 64 e.1 else BitVec.ofNat 64 (Rec.iter c u k))

/-- The 256 elements of a sparse slot (02 R75): code and poison of each, from its bitmap and its stored values. -/
def expandSlot (w : Nat) (bitmap vals : List (Byte × Bool)) : List (Nat × Bool) :=
  let bm := ofBytes bitmap
  let v := (ofBytes vals).1
  (List.range 256).map fun i =>
    if bitAt bm.1 i then
      let k := popCount bm.1 i
      let bad := (List.range ((w * k + w - 1) / 8 - w * k / 8 + 1)).any fun j => (vals.getD (w * k / 8 + j) (0, false)).2
      (bits v (w * k) w, bm.2 || bad)
    else (0, bm.2)

/-- Elements packed least significant bit first (06 R129): each byte is poisoned where an element it holds bits of is. -/
def packBytes (w : Nat) (l : List (Nat × Bool)) : List (Byte × Bool) :=
  let v := l.foldr (fun e acc => e.1 % 2 ^ w + 2 ^ w * acc) 0
  (List.range (ceilDiv (w * l.length) 8)).map fun j =>
    (BitVec.ofNat 8 (v / 2 ^ (8 * j)), (List.range 8).any fun b => (l.getD ((8 * j + b) / w) (0, false)).2)

/-- Elements of a dense block from its bytes. -/
def blockElems (w : Nat) (data : List (Byte × Bool)) : List (Nat × Bool) :=
  let v := (ofBytes data).1
  (List.range 256).map fun i =>
    (bits v (w * i) w, (List.range ((w * i + w - 1) / 8 - w * i / 8 + 1)).any fun j => (data.getD (w * i / 8 + j) (0, false)).2)

/-- The alignment of a global access of a unit (08 R178). -/
def unitAlign (n : Nat) : Nat := if n < 8 then n else 8

/-- Bytes of a unit on the local side; a `CONV` 2 unit without its bitmap counts as an empty slot. -/
def Runnel.localUnit (r : Runnel) : Nat :=
  let c := r.record
  match Rec.conv c with
  | 0 => Rec.unit c
  | 1 => 32 * widthOfCode r.nf (Rec.cfmt c)
  | 2 => 32
  | _ => if Rec.dqf c then 1024 else 512

/-- The bytes of a sparse slot that hold something. -/
def readSlot (r : Runnel) (t : Team) (a : Word64) : M (List (Byte × Bool) × List (Byte × Bool)) := do
  let w := widthOfCode r.nf (Rec.cfmt r.record)
  let bm ← engineRead r t a 32 32 true
  let n := popCount (ofBytes bm).1 256
  let vals ← engineRead r t (a + 32) (32 * ceilDiv (n * w) 256) 32 true
  return (bm, vals)

/-- The local bytes of unit `u` read from its address (08 R179). -/
def readUnit (r : Runnel) (t : Team) (u : Nat) (a : Word64) : M (List (Byte × Bool)) := do
  let c := r.record
  let w := widthOfCode r.nf (Rec.cfmt c)
  match Rec.conv c with
  | 0 => engineRead r t a (Rec.unit c) (unitAlign (Rec.unit c)) true
  | 1 => do
    let (bm, vals) ← readSlot r t a
    return packBytes w (expandSlot w bm vals)
  | 2 => do
    let (bm, vals) ← readSlot r t a
    return bm ++ vals
  | _ => do
    let data ← engineRead r t a (32 * w) 32 true
    let sp := ofBytes (← engineRead r t (BitVec.ofNat 64 (Rec.scaleBase c + 2 * u)) 2 2 false)
    let el := elemOfCode r.nf (Rec.cfmt c)
    let f := if Rec.dqf c then fp32 else bf16
    return packBytes f.width ((blockElems w data).map fun e =>
      ((roundF f .rne false 0 (decodeScaled el (sp.1 % 256) (sp.1 / 256) e.1).exact).code, e.2 || sp.2))

/-- Put units on the local side, packed from that of unit `u`. -/
def putUnit (r : Runnel) (t : Team) (u : Nat) (data : List (Byte × Bool)) : M Unit := do
  let c := r.record
  let off := u * r.localUnit
  match Rec.lkind c with
  | 0 => engineBasinWrite r t (Rec.laddr c + off) data
  | 1 => feedFifo t (Rec.laddr c) data
  | k => engineWrite r t (BitVec.ofNat 64 (Rec.laddr c + off)) data (unitAlign r.localUnit) (k == 2)

/-- Where unit `u` goes in global memory, where that is known without its index. -/
def Runnel.dest (r : Runnel) (u : Nat) : Option Nat :=
  let c := r.record
  if r.kind = 2 then (if Rec.ind c then none else some (Rec.plain c u).toNat)
  else if Rec.lkind c = 2 ∨ Rec.lkind c = 3 then some (Rec.laddr c + u * r.localUnit)
  else none

/-- The units that one step moves: the next, and those after it that go on in its 32-byte sector of global memory, which so ends
wholly as written by one operation without waiting for its end (08 R175, log 112). -/
def Runnel.nextUnits (r : Runnel) : List Nat :=
  ((List.range 32).takeWhile fun i => decide (r.done + i < Rec.total r.record) && (i == 0 ||
    (match r.dest r.done, r.dest (r.done + i) with
     | some a, some b => b == a + i * r.localUnit && b / 32 == a / 32
     | _, _ => false))).map fun i => r.done + i

/-- The local bytes of a unit, poison where its index is poisoned (08 R184). -/
def localBytes (r : Runnel) (t : Team) (u : Nat) : M (List (Byte × Bool)) := do
  match ← unitAddr r t u with
  | none => return bytesOf 0 r.localUnit true
  | some va => readUnit r t u va

/-- Move the units of a step: bytes written, and whether poison was delivered. CORECNT word 5 counts a sector that is read for every unit
that reads it, and one that is written once each time it is put (log 57, DESIGN CHOICE). -/
def moveUnits (r : Runnel) (t : Team) (us : List Nat) : M (Nat × Bool) := do
  let c := r.record
  let u := us.headD 0
  if r.kind = 2 then
    match ← unitAddr r t u with
    | none => return (0, true)
    | some va =>
      let n := Rec.unit c
      let data ← us.mapM fun u => engineBasinRead r t (Rec.laddr c + u * n) n
      engineWrite r t va data.flatten (unitAlign n) false
      return (data.flatten.length, data.flatten.any (·.2))
  else
    let data ← us.mapM (localBytes r t)
    putUnit r t u data.flatten
    return (data.flatten.length, data.flatten.any (·.2))

/-! ## Steps of an operation -/

/-- The core that holds an operation, and the operation. -/
def State.runnel? (s : State) (id : Nat) : Option (Nat × Runnel) :=
  s.cores.findSome? fun p => (p.2.runnels.find? fun r => r.id == id).map fun r => (p.1, r)

def onRunnel (core id : Nat) (f : Runnel → Runnel) : M Unit :=
  onCore core fun c => { c with runnels := c.runnels.map fun r => if r.id = id then f r else r }

/-- A fatal fault stops an operation, which puts what it holds of sectors where that goes: its counter advances, and the task takes the
fault at its next scalar word boundary (08 R184). -/
def engineFault (core : Nat) (r : Runnel) (q : TrapReq) : M Unit := do
  match (← get).runnel? r.id with
  | some (_, now) => now.out.forM fun o => do
    let _ ← dropped true (do enginePut now (← getTeam) o (Rec.lkind r.record == 2))
    pure ()
  | none => pure ()
  timelineEnd r.uid r.ctxNum r.num
  onCore core fun c => { c with runnels := c.runnels.filter fun o => o.id != r.id }
  if (← getTeam).s.phase.boundary then throw (.trap q)
  onTeam fun t => { t with efault := t.efault.orElse fun _ => some q }

/-- One step of an engine that holds an operation: it moves the next units, or after the last puts one more of the sectors it holds. -/
def engineWork (r : Runnel) (t : Team) : M (Nat × Bool) := do
  if r.done < Rec.total r.record then moveUnits r t r.nextUnits
  else
    match r.out with
    | [] => waitFor .engine
    | o :: rest =>
      enginePut r t o (Rec.lkind r.record == 2)
      onRunnel t.core r.id fun r => { r with out := rest }
      return (0, false)

/-- RUNNEL_START (08 R182): the engine takes the operation, and then moves the units of one step at each further step. An append of it
that stalls resumes in its turn (02 R72, 08 R183). -/
def runnelStep (id : Nat) : M Unit := do
  match (← get).runnel? id with
  | none => enabled false
  | some (core, r) =>
    modify fun s => s.focus r.uid
    let t ← getTeam
    enabled (t.uid == r.uid && t.resident && t.rfault.isNone && t.dbg.pendf.isNone && !r.ended)
    if !r.started then
      enabled (mayStart ((← get).core core) t r)
      onRunnel core id fun r => { r with started := true }
    else
      enabled (!(← get).stallers.contains (.engine id) || (← get).mayResume (.engine id))
      match ← tryCatch (do return Except.ok (← engineWork r t)) (fun e => match e with
          | .trap q => if q.recov then throw e else pure (Except.error q)
          | e => throw e) with
      | .ok (n, bad) =>
        onRunnel core id fun r =>
          { r with done := r.done + (if r.done < Rec.total r.record then r.nextUnits.length else 0), bytes := r.bytes + n, status := if bad then 1 else r.status }
      | .error q => engineFault core r q

/-- The team an operation belongs to. -/
def State.runnelTeam (s : State) (id : Nat) : Nat := match s.runnel? id with | some p => p.2.uid | none => 0


/-- An engine's step: where it waits, nothing of it stands but its place in the queue of a pseudo-channel and among the stalled appends
(02 R72, 03 R76, 08 R183). -/
def runEngine (id : Nat) (m : M Unit) (s : State) : Host.Outcome State Fault Refusal :=
  match m s with
  | .ok _ s' => .next (s'.unstall (.engine id))
  | .error (.wait .space) _ => .next (if s.stallers.contains (.engine id) then s else s.stall (.engine id))
  | .error (.wait _) s' =>
    .next (if s'.dev.rowWaits = s.dev.rowWaits then s
      else { s with stamp := s'.stamp, dev := { s.dev with rowWaits := s'.dev.rowWaits } })
  | .error e s' => settle (s.runnelTeam id) e s s'

def execRunnelStart (op : Nat) (s : State) : Host.Outcome State Fault Refusal := runEngine op (runnelStep op) s

/-- The completion record of an operation (08 R185). -/
def completionRecord (r : Runnel) (slot : Nat) : EventRec :=
  { lo := BitVec.ofNat 64 r.num
    hi := BitVec.ofNat 64 (2 ^ 63 + r.ctxNum * 2 ^ 60 + r.status * 2 ^ 56 + slot * 2 ^ 52 + r.bytes % 2 ^ 32)
    uid := r.uid }

/-- RUNNEL_END (08 R183, 07 R169): the counter advances; a record asked for waits to be posted. -/
def runnelEnd (id : Nat) : M Unit := do
  match (← get).runnel? id with
  | none => enabled false
  | some (core, r) =>
    enabled (r.started && !r.ended && decide (r.done = Rec.total r.record ∧ r.out = []))
    timelineEnd r.uid r.ctxNum r.num
    let slot := (((← get).team? r.uid).map fun t => t.id.slot).getD 0
    onCore core fun c =>
      if r.post then
        { c with
          runnels := c.runnels.map fun o => if o.id = id then { o with ended := true } else o
          waitingEvents := c.waitingEvents ++ [completionRecord r slot] }
      else { c with runnels := c.runnels.filter fun o => o.id != id }
def execRunnelEnd (op : Nat) (s : State) : Host.Outcome State Fault Refusal := runEventOf 0 (runnelEnd op) s

/-- A record of a team finds room in a core's event queue (08 R186). -/
def Core.eventRoom (c : Core) (uid : Nat) : Bool :=
  decide (c.events.length < 256) && decide ((c.events.filter fun e => e.uid == uid).length < 64)

/-- COMPLETION_RECORD_POST (08 R186): the first waiting record that finds room is posted; its operation gives back its slot. -/
def completionPost (core : Nat) : M Unit := do
  let c := (← get).core core
  match c.waitingEvents.find? fun e => c.eventRoom e.uid with
  | none => enabled false
  | some e =>
    onCore core fun c =>
      { c with
        events := c.events ++ [e]
        waitingEvents := c.waitingEvents.erase e
        runnels := c.runnels.filter fun r =>
          !(r.ended && r.post && decide (r.uid = e.uid ∧ r.num = e.lo.toNat ∧ r.ctxNum = bits e.hi.toNat 60 3)) }
def execCompletionRecordPost (core : Nat) (s : State) : Host.Outcome State Fault Refusal := runEventOf 0 (completionPost core) s

/-! ## The event queue (08 R187, R188) -/

/-- The team's oldest record. -/
def State.oldestEvent (s : State) : Option EventRec := (s.core s.cur.core).events.find? fun e => e.uid == s.cur.uid

/-- `evpop xD` (08 R187). -/
def popEvent (d : XReg) (s : State) : State :=
  match s.oldestEvent with
  | none => (s.setX d 0).result (d + 1) 0
  | some e =>
    let c := s.core s.cur.core
    ((s.setCore s.cur.core { c with events := c.events.erase e }).setX d e.lo).result (d + 1) e.hi

/-- `evpop xD` (08 R187). -/
def execEvpop (d : XReg) (s : State) : Host.Outcome State Fault Refusal := .next (popEvent d s)

/-- Nothing for `evwait` to wait for: a record is there, or no operation in flight asked for one (08 R188). -/
def State.eventReady (s : State) : Bool :=
  s.oldestEvent.isSome || (s.core s.cur.core).runnels.all fun r => !(r.uid == s.cur.uid && r.post)

/-- `evwait` (08 R188). -/
def execEvwait (s : State) : Host.Outcome State Fault Refusal :=
  runTeam (do
    waitUnless s.eventReady .event
    advance) s

/-- The team's operations that its `exit` waits for (08 R189): those not ended, or whose record still finds room. -/
def runnelsDone (s : State) (t : Team) : Bool :=
  let c := s.core t.core
  c.runnels.all fun r => r.uid != t.uid || (r.ended && !c.eventRoom t.uid)

end Sys2Proof.Machine
end

