-- ==== Sys2Proof/Machine/Matrix.lean ====
section
/-!
DEFINITION. Matrix computation in the Basin (13 R266 to R291): stationary regions, accumulator tiles, streaming FIFOs, the
loop descriptor, and the sequencer's steps.
-/
namespace Sys2Proof.Machine

/-! ## The loop descriptor (13 R277) -/

def Mx.word (d : List Word64) (k : Nat) : Nat := (d.getD k 0).toNat
def Mx.acc (d : List Word64) : Nat := bits (Mx.word d 0) 60 4
def Mx.wreg (d : List Word64) : Nat := bits (Mx.word d 0) 57 3
def Mx.fifo (d : List Word64) : Nat := bits (Mx.word d 0) 55 2
def Mx.sparse (d : List Word64) : Bool := bitAt (Mx.word d 0) 54
def Mx.reuse (d : List Word64) : Bool := bitAt (Mx.word d 0) 53
def Mx.span (d : List Word64) : Bool := bitAt (Mx.word d 0) 52
def Mx.sati (d : List Word64) : Bool := bitAt (Mx.word d 0) 51
def Mx.wscl (d : List Word64) : Bool := bitAt (Mx.word d 0) 50
def Mx.sscl (d : List Word64) : Bool := bitAt (Mx.word d 0) 49
def Mx.wfmt (d : List Word64) : Nat := bits (Mx.word d 0) 44 5
def Mx.sfmt (d : List Word64) : Nat := bits (Mx.word d 0) 39 5
def Mx.m (d : List Word64) : Nat := bits (Mx.word d 0) 16 6
def Mx.k (d : List Word64) : Nat := bits (Mx.word d 0) 0 9
def Mx.binc (d : List Word64) : Nat := bits (Mx.word d 1) 56 8
def Mx.boff (d : List Word64) : Nat := bits (Mx.word d 1) 48 8
def Mx.coloff (d : List Word64) : Nat := bits (Mx.word d 1) 0 10
def Mx.wscale (d : List Word64) : Nat := bits (Mx.word d 2) 0 32
def Mx.sstride (d : List Word64) : Nat := bits (Mx.word d 3) 32 16
def Mx.sscale (d : List Word64) : Nat := bits (Mx.word d 3) 0 32

/-- Slab columns and slot bits of a width class (13 R266). -/
def classCols (cls : Nat) : Nat := 256 / 2 ^ cls
def classSlot (cls : Nat) : Nat := 4 * 2 ^ cls

/-- Width class of a weight format (13 R266). -/
def weightClass (nf : List Word64) (f : Nat) : Option Nat :=
  if f ∈ [0x06, 0x07, 0x08, 0x0C, 0x11, 0x16] then some 0
  else if f ∈ [0x09, 0x0A, 0x0D, 0x0E, 0x0F, 0x10, 0x12, 0x13, 0x14, 0x15, 0x17] then some 1
  else if f ∈ [0x03, 0x04, 0x0B] then some 2
  else if isNfCode f then some (if widthOfCode nf f = 4 then 0 else 1)
  else none

/-- The 24 matrix operand formats (13 R266). -/
def matrixFmt (f : Nat) : Bool := decide (f = 0x03 ∨ f = 0x04 ∨ (0x06 ≤ f ∧ f ≤ 0x1B))

/-- A scale flag agrees with its format (13 R278, reason 4). -/
def sclAgrees (scl : Bool) (f : Nat) : Bool :=
  if isBlockCode f then scl else if isNfCode f || f == 0x0C then true else !scl

/-- The region a team names (13 R267): its own or one set by its templates. -/
def Team.region (t : Team) (n : Nat) : Option Region := t.h.regions.find? fun r => r.num == n
def Team.tile (t : Team) (n : Nat) : Option Tile := t.h.tiles.find? fun q => q.num == n
def Tile.banks (q : Tile) : Nat := ceilDiv (q.rows * q.cols) 1024

/-- The formats give an INT32 tile (13 R278, reason 6). -/
def intFmts (d : List Word64) : Bool :=
  decide (0x06 ≤ Mx.wfmt d ∧ Mx.wfmt d ≤ 0x0B ∧ 0x06 ≤ Mx.sfmt d ∧ Mx.sfmt d ≤ 0x0B)

/-- Checked fields and ranges (13 R278, reason 1). -/
def fieldsBad (d : List Word64) : Bool :=
  decide (bits (Mx.word d 0) 22 17 ≠ 0) || decide (bits (Mx.word d 0) 9 7 ≠ 0) || decide (bits (Mx.word d 1) 10 38 ≠ 0)
    || decide (bits (Mx.word d 2) 32 32 ≠ 0) || decide (bits (Mx.word d 3) 48 16 ≠ 0)
    || (!Mx.wscl d && decide (Mx.wscale d ≠ 0)) || (!Mx.sscl d && decide (Mx.sstride d ≠ 0 ∨ Mx.sscale d ≠ 0))
    || decide (Mx.m d = 0 ∨ 32 < Mx.m d ∨ Mx.k d = 0 ∨ 256 < Mx.k d)
    || (Mx.wscl d && decide (Mx.wscale d % 64 ≠ 0)) || (Mx.sscl d && decide (Mx.sstride d % 2 ≠ 0))

/-- The latch serves a reusing loop (13 R283). -/
def latchServes (t : Team) (d : List Word64) : Bool :=
  match t.h.latch with
  | none => false
  | some l => decide (l.m = Mx.m d ∧ l.k = Mx.k d ∧ l.sfmt = Mx.sfmt d ∧ l.fifo = Mx.fifo d ∧ Mx.m d * Mx.k d ≤ 64)
      && l.sscl == Mx.sscl d && l.sparse == Mx.sparse d

/-- The region is a template's and stands on every core of the cluster, in the same banks with the same contents (13 R284). -/
def State.spans (s : State) (t : Team) (r : Region) : Bool :=
  r.inherited && (List.range 4).all fun k => (List.range r.count).all fun i =>
    (s.core (4 * t.cluster + k)).bank (r.first + i) == (s.core t.core).bank (r.first + i)

/-- The lowest reason a descriptor is malformed for; none when it is well formed (13 R278). -/
def mxReason (s : State) (t : Team) (nf : List Word64) (d : List Word64) : Option Nat :=
  let reg := t.region (Mx.wreg d)
  let cls := (reg.map (·.cls)).getD 0
  let n := classCols cls * (if Mx.span d then 4 else 1)
  if fieldsBad d then some 1
  else if reg.isNone ∨ weightClass nf (Mx.wfmt d) ≠ some cls then some 2
  else if !matrixFmt (Mx.sfmt d) then some 3
  else if !(sclAgrees (Mx.wscl d) (Mx.wfmt d) && sclAgrees (Mx.sscl d) (Mx.sfmt d)) then some 4
  else if (reg.map (·.count)).getD 0 ≤ Mx.boff d + (Mx.k d - 1) * Mx.binc d then some 5
  else if (match t.tile (Mx.acc d) with
      | none => true
      | some q => (q.float == intFmts d) || decide (q.rows < Mx.m d ∨ Mx.coloff d % 32 ≠ 0 ∨ q.cols < Mx.coloff d + n)) then some 6
  else if Mx.sparse d && decide (Mx.k d % 8 ≠ 0) then some 7
  else if Mx.reuse d && !latchServes t d then some 8
  else if Mx.span d && !(match reg with | some r => s.spans t r | none => false) then some 9
  else none

/-- Address of the pair of weight row `k` of region bank `i` (13 R277, R280). -/
def weightPairAddr (d : List Word64) (cls i k : Nat) : Nat := Mx.wscale d + 64 * i + 2 * (if cls = 0 then k else k / 2)

/-- Address of the streaming pair of step (m, s) (13 R277). -/
def streamPairAddr (d : List Word64) (m s : Nat) : Nat := Mx.sscale d + m * Mx.sstride d + 2 * (s / 8)

/-- Basin addresses a loop's scale tables reach: both bytes of the pairs, since a streaming table may begin at an odd address. They stand in
the order in which BASINPERM looks for the one that it reports, which the spec leaves open: the weight table's first, by ascending
step, then the streaming table's (log 125, DESIGN CHOICE). -/
def scaleAddrs (d : List Word64) (cls : Nat) : List Nat :=
  List.flatMap (fun a => [a, a + 1]) <| (if Mx.wscl d then
    (List.range (Mx.k d)).flatMap fun s => [0, 31].map fun k => weightPairAddr d cls (Mx.boff d + s * Mx.binc d) k else [])
    ++ (if Mx.sscl d then
      (List.range (Mx.m d)).flatMap fun m => (List.range (ceilDiv (Mx.k d) 8)).map fun b => streamPairAddr d m (8 * b) else [])

/-! ## Posting (13 R279, R283, R285) -/

/-- The steps of `mxloop` (13 R279). -/
def postLoop (d a : XReg) : M Unit := do
  let s ← get
  let t := s.cur
  let desc := [s.getX a, s.getX (a + 1), s.getX (a + 2), s.getX (a + 3)]
  let nf := t.l.nf
  let named := ([Mx.wfmt desc, Mx.sfmt desc].filter isNfCode).map fun f => f - 0x18
  match named.find? fun k => nfMalformed (nf.getD k 0) with
  | some k => trapWith Code.nffmt (BitVec.ofNat 64 k)
  | none => pure ()
  match mxReason s t nf desc with
  | some k => throw (.trap { noTrap with code := Code.mxdesc, w2 := s.getX a, w3 := BitVec.ofNat 64 k })
  | none => pure ()
  let cls := ((t.region (Mx.wreg desc)).map (·.cls)).getD 0
  match (scaleAddrs desc cls).find? fun x => s.bankUse t (x / 4096) == .no with
  | some x => trapWith Code.basinperm (BitVec.ofNat 64 x)
  | none => pure ()
  waitUnless (decide (s.tableUse t.cluster < 32)) .engine
  let n ← timelineNext 6
  let st ← nextStamp
  let rows := List.replicate (Mx.m desc) 0
  let l : Loop :=
    { id := st, uid := t.uid, num := n, desc := desc, nf := nf, pc := t.s.pc, stamp := st, entry := true, granted := false, old := false
      started := rows, done := rows, frags := [], removed := 0, sums := [], flagO := false, flagN := false }
  onCluster t.cluster fun c => { c with loops := c.loops ++ [l] }
  let key : List Fragment → Latch := fun fr =>
    { m := Mx.m desc, k := Mx.k desc, sfmt := Mx.sfmt desc, sscl := Mx.sscl desc, sparse := Mx.sparse desc
      fifo := Mx.fifo desc, frags := fr }
  onHold fun h => { h with latch := some (key ((h.latch.map (·.frags)).getD [])) }
  modify fun s => s.result d (BitVec.ofNat 64 n)

/-- `mxloop xD, xA` (13 R279). -/
def execMxloop (d a : XReg) (s : State) : Host.Outcome State Fault Refusal := runTeam (postLoop d a) s

/-- Loops of a team that name a region or a tile, posted before an order stamp, have completed. -/
def loopsDone (s : State) (t : Team) (before : Nat) (p : List Word64 → Bool) : Bool :=
  (s.cluster t.cluster).loops.all fun l => l.uid != t.uid || decide (before ≤ l.stamp) || !p l.desc

/-! ## Regions (13 R268, R269, R270) -/

/-- The steps of `wset` (13 R268). -/
def setRegion (n cls F C : Nat) : M Unit := do
  let s ← get
  let t := s.cur
  let c := s.core t.core
  let w2 := BitVec.ofNat 64 n
  if t.h.frozen then trapWith Code.wfrozen w2
  if C = 0 ∨ 256 < C ∨ 384 < F + C ∨ (t.region n).isSome = true then trapWith Code.wsetbad w2
  let banks := (List.range C).map fun i => F + i
  if banks.any fun b => (c.bank b).owner == some t.uid then trapWith Code.wsetbad w2
  if banks.any (fun b => c.bank b != .free) || decide (256 < c.countBanks BankState.isStat + C) then
    throw (.trap { noTrap with code := Code.basinexh, recov := true, w2 := BitVec.ofNat 64 C, named := some (F, C) })
  onCore t.core fun c => c.take F C (.stat t.uid)
  onHold fun h => { h with regions := h.regions ++ [{ num := n, first := F, count := C, cls := cls, inherited := false }] }
  advance

/-- `wset.wc wN, xA, xB` (13 R268). -/
def execWset (n : BitVec 3) (a b : XReg) (c : BitVec 2) (s : State) : Host.Outcome State Fault Refusal :=
  runTeam (setRegion n.toNat c.toNat (s.getX a).toNat (s.getX b).toNat) s

/-- The steps of `wfree` (13 R269). -/
def freeRegion (n : Nat) : M Unit := do
  let s ← get
  let t := s.cur
  let w2 := BitVec.ofNat 64 n
  if t.h.frozen || ((t.region n).map (·.inherited)).getD false then trapWith Code.wfrozen w2
  match t.region n with
  | none => trapWith Code.wsetbad w2
  | some r =>
    waitUnless (loopsDone s t s.stamp fun d => Mx.wreg d == n) .engine
    onCore t.core fun c => c.release r.first r.count
    onHold fun h => { h with regions := h.regions.filter fun q => q.num != n }
    advance

/-- `wfree wN` (13 R269). -/
def execWfree (n : BitVec 3) (s : State) : Host.Outcome State Fault Refusal := runTeam (freeRegion n.toNat) s

/-- The highest active lane of a mask; none where no lane acts. -/
def Team.topLane (t : Team) (m : Nat) : Option Nat :=
  ((List.range (32 * t.n)).filter fun l => bitAt (t.activeLanes m).toNat l).getLast?

/-- What `vwst` checks at its first pass (13 R270). -/
def checkWeights (t : Team) (f : LMat) : M Region := do
  let n := f.vd.toNat
  let off := f.imm32.toNat
  waitUnless (loopsDone (← get) t t.blk.stamp fun d => Mx.wreg d == n) .engine
  if t.h.frozen || ((t.region n).map (·.inherited)).getD false then laneTrap Code.wfrozen (BitVec.ofNat 64 n) 0
  match t.region n with
  | none => laneTrap Code.wsetbad (BitVec.ofNat 64 n) 0
  | some r =>
    let past := (match t.topLane f.mask.toNat with | some l => decide (4096 * r.count < off + 4 * l + 4) | none => false)
    if off % 4 ≠ 0 ∨ past = true then laneTrap Code.wstrange (BitVec.ofNat 64 off) 0
    return r

/-- `vwst.i32 wN, vA, off` (13 R270). -/
def execVwst (f : LMat) (s : State) : Host.Outcome State Fault Refusal :=
  runLane (runPasses (.vwst f) [f.mask.toNat] [] 0 fun w => do
    let t ← getTeam
    let r ← (do
      if t.l.pix = 0 then checkWeights t f
      else match t.region f.vd.toNat with
        | some r => pure r
        | none => laneTrap Code.wsetbad (zext64 f.vd) 0)
    countReads [f.va.toNat] w
    let m ← soundLanes [f.va.toNat] w (t.active f.mask.toNat w)
    let s ← get
    let row := (t.regRow (s.core t.core) f.va.toNat w).1
    onCore t.core fun c => (lanesOf m).foldl (fun (c : Core) p =>
      let o := f.imm32.toNat + 4 * (32 * w + p)
      c.putBytes (r.first + o / 4096) (o % 4096 / 128) (o % 128) 4 (rowWord row p).toNat) c) s

/-! ## Tiles (13 R272, R273) -/

/-- ACCFMT: the tile and off (13 R291). -/
def accFmt {α : Type} (n off : Nat) : M α := laneTrap Code.accfmt (BitVec.ofNat 64 n) (BitVec.ofNat 64 off)

/-- The steps of `vaclr` (13 R272). It has no off operand: word 3 of its ACCFMT record is 0 (log 126, DESIGN CHOICE). -/
def clearTile (n rows cols : Nat) (float : Bool) : M Unit := do
  let s ← get
  let t := s.cur
  waitUnless (loopsDone s t t.blk.stamp fun d => Mx.acc d == n) .engine
  let old := t.tile n
  let free := fun (c : Core) => match old with | some q => c.release q.first q.banks | none => c
  let drop := fun (h : Holdings) => { h with tiles := h.tiles.filter fun q => q.num != n }
  if rows = 0 ∧ cols = 0 then
    if old.isNone then accFmt n 0
    onCore t.core free
    onHold drop
  else if rows = 0 ∨ 32 < rows ∨ cols % 32 ≠ 0 ∨ cols = 0 ∨ 1024 < cols then accFmt n 0
  else
    let q0 : Tile := { num := n, first := 0, rows := rows, cols := cols, float := float }
    match old with
    | some q =>
      if q.rows = rows ∧ q.cols = cols ∧ q.float = float then
        onCore t.core fun c => c.take q.first q.banks (.acc t.uid)
        return
    | none => pure ()
    match (free (s.core t.core)).freeRun q0.banks 1 with
    | none => basinExhausted q0.banks 1
    | some b =>
      onCore t.core fun c => (free c).take b q0.banks (.acc t.uid)
      onHold fun h => { drop h with tiles := (drop h).tiles ++ [{ q0 with first := b }] }

/-- `vaclr.fmt aN, TR, TC` (13 R272): one operation; lanes and masks play no part. -/
def execVaclr (f : LMat) (s : State) : Host.Outcome State Fault Refusal :=
  runLane (do
    clearTile f.vd.toNat (bits f.imm32.toNat 0 6) (bits f.imm32.toNat 16 16) (f.fmt == 2)
    retire 0 false) s

/-- Bank, row and word of element `e` of a tile (13 R271). -/
def Tile.place (q : Tile) (e : Nat) : Nat × Nat × Nat := (q.first + e / 1024, e % 1024 / 32, e % 32)

/-- What `vadr` checks at its first pass (13 R273). -/
def checkDrain (t : Team) (f : LMat) : M Unit := do
  let n := f.va.toNat
  let off := f.imm32.toNat
  match t.tile n with
  | none => accFmt n off
  | some q =>
    let past := (match t.topLane f.mask.toNat with | some l => decide (q.rows * q.cols < off + 32 * (l / 32 + 1)) | none => false)
    if off % 32 ≠ 0 ∨ past = true ∨ q.float = (f.fmt == 0) then accFmt n off

/-- A drained element converted (13 R273): code and flags; a NaN passed unchanged is a written NaN (10 R221). -/
def drainElem (nf : List Word64) (f : LMat) (t v : Nat) : Rounded :=
  if f.fmt = 0 ∨ f.fmt = 2 then { code := v, o := false, n := f.fmt == 2 && (decodeF fp32 v).isNan }
  else convertElem (.flt fp32) (elemOfCode nf f.fmt.toNat) (RMode.ofCode f.rnd.toNat) f.sat t v

/-- `vadr.fmt[.rnd][.sat] vD, aN, off` (13 R273). -/
def execVadr (f : LMat) (s : State) : Host.Outcome State Fault Refusal :=
  runLane (runPasses (.vadr f) [f.mask.toNat] (under f.mask.toNat [f.vd.toNat]) (if f.rnd = 5 then 1 else 0) fun w => do
    let t ← getTeam
    if t.l.pix = 0 then checkDrain t f
    match t.tile f.va.toNat with
    | none => accFmt f.va.toNat f.imm32.toNat
    | some q =>
      let c := (← get).core t.core
      let lanes := (lanesOf (t.active f.mask.toNat w)).map fun p => 32 * w + p
      let got := lanes.map fun l =>
        let (b, r, k) := q.place (f.imm32.toNat + l)
        (l, (c.word b r k).toNat, bitAt (c.rowPoison b r).toNat k, b * 4096 + r * 128 + 4 * k)
      let vals ← killPoisoned got
      let outs := vals.map fun v => (v.1, drainElem t.blk.nf f (ditherT ((f.imm32.toNat + v.1) % 256) t.l.dphAt) v.2)
      ownDsts [(f.vd.toNat, f.mask.toNat)] (outs != [])
      writeLanes f.vd.toNat w (outs.map fun o => (o.1 % 32, BitVec.ofNat 32 o.2.code))
      addFlags (outs.any fun o => o.2.o) (outs.any fun o => o.2.n)) s

/-! ## `vqput` (13 R275, R276) -/

/-- Elements a lane appends: the used slots of its lane (10 R209). -/
def usedSlots (w lane : Nat) : Nat :=
  if w = 6 then (if lane % 64 < 51 then 5 else if lane % 64 = 51 then 1 else 0) else elemsPerLane w

/-- Append values of given widths to a bit string: its value and its length. -/
def appendBits (acc : Nat × Nat) (l : List (Nat × Nat)) : Nat × Nat :=
  l.foldl (fun a x => (a.1 + x.1 % 2 ^ x.2 * 2 ^ a.2, a.2 + x.2)) acc

/-- `vqput.fmt qN, vA` (13 R275): a dead lane whose mask bit is 1 appends zeros; the last byte is padded. -/
def execVqput (f : LMat) (s : State) : Host.Outcome State Fault Refusal :=
  runLane (runPasses (.vqput f) [f.mask.toNat] [] 0 fun w => do
    let t ← getTeam
    let c := (← get).core t.core
    let q := f.vd.toNat
    waitUnless (c.runnels.all fun r => r.ended || !r.feeds t.uid q || decide (t.blk.stamp ≤ r.stamp)) .engine
    countReads [f.va.toNat] w
    let m ← soundLanes [f.va.toNat] w (t.active f.mask.toNat w)
    let row := (t.regRow c f.va.toNat w).1
    let ew := if f.fmt = 0 then 32 else widthOfCode t.blk.nf f.fmt.toNat
    let vals := (lanesOf (maskWord (t.maskReg f.mask.toNat) w)).flatMap fun p =>
      let n := usedSlots ew (32 * w + p)
      [(if bitAt m.toNat p then (rowWord row p).toNat else 0, n * ew)]
    let fi := c.fifo t.uid q
    let acc := appendBits (fi.carry, fi.nbits) vals
    let last := (match t.l.passes with | some ps => decide (t.l.pix + 1 = (passList ps).length) | none => true)
    let nb := if last then ceilDiv acc.2 8 else acc.2 / 8
    waitUnless (decide (fi.bytes.length + nb ≤ fifoCap)) .engine
    onCore t.core fun c => c.setFifo
      { fi with
        bytes := fi.bytes ++ bytesOf acc.1 nb false
        carry := if last then 0 else acc.1 / 2 ^ (8 * nb)
        nbits := if last then 0 else acc.2 % 8 }) s

/-! ## Grants (13 R285, R286) -/

/-- A lane word that may write what a loop reads (13 R279). A store whose place its passes decide counts where the loop could
read that place. -/
def writesLoop (t : Team) (d : List Word64) (tables : List Nat) (nf : List Word64) (i : Instr) : Bool :=
  let scaled := Mx.wscl d || Mx.sscl d
  ((touch nf i).dsts.any fun r => tables.contains (Pte.bank (t.pte r)))
    || (match i with
        | .vwst f => f.vd.toNat == Mx.wreg d
        | .vaclr f => f.vd.toNat == Mx.acc d
        | .vqput f => f.vd.toNat == Mx.fifo d
        | .vstb _ => true
        | .vstp _ => scaled
        | .vst _ => scaled
        | .vtst _ => true
        | _ => false)

/-- Banks that hold a part of a loop's scale tables. -/
def tableBanks (t : Team) (d : List Word64) : List Nat :=
  ((scaleAddrs d (((t.region (Mx.wreg d)).map (·.cls)).getD 0)).map (· / 4096)).eraseDups

/-- A loop may be granted (13 R279, R285): one that spans the cluster finds its region on every core (13 R284). -/
def mayGrant (s : State) (l : Loop) : Bool :=
  match s.team? l.uid with
  | none => false
  | some t =>
    l.entry && !l.granted && t.resident && !t.dbg.halted && !s.stopsNow t true
      && (!Mx.span l.desc || (t.region (Mx.wreg l.desc)).any fun r => s.spans t r)
      && (s.cluster t.cluster).loops.all (fun o =>
        o.uid != l.uid || decide (l.stamp ≤ o.stamp) || (!Mx.reuse o.desc && o.removed == Mx.m o.desc * Mx.k o.desc))
      && t.l.quietBefore l.stamp (writesLoop t l.desc (tableBanks t l.desc))

/-- Rank of a loop: old ones first by age, then by launch priority, then by age (13 R285). -/
def loopBefore (s : State) (a b : Loop) : Bool :=
  let prio := fun (l : Loop) => match s.team? l.uid with | some t => t.ctl.prio | none => 0
  if a.old && b.old then decide (a.stamp < b.stamp)
  else if a.old || b.old then a.old
  else decide (prio b < prio a) || (prio a == prio b && decide (a.stamp < b.stamp))

/-- The loop to grant next. -/
def State.grantNext (s : State) (cl : Nat) : Option Loop :=
  ((s.cluster cl).loops.filter fun l => mayGrant s l).foldl (fun best l =>
    match best with
    | none => some l
    | some b => if loopBefore s l b then some l else some b) none

def onLoop (cl id : Nat) (f : Loop → Loop) : M Unit :=
  onCluster cl fun c => { c with loops := c.loops.map fun l => if l.id = id then f l else l }

/-- The oldest loop that stands outside the table of its cluster, though its team runs: it was halted or swapped out (13 R288). -/
def State.reenterNext (s : State) (cl : Nat) : Option Loop :=
  ((s.cluster cl).loops.filter fun l =>
    !l.entry && (match s.team? l.uid with | some t => t.resident && !t.dbg.halted && !s.stopsNow t true | none => false)).foldl (fun best l =>
      match best with
      | none => some l
      | some b => if l.stamp < b.stamp then some l else some b) none

/-- Loops re-enter the table while it has a free entry, the oldest first (13 R285, R288). The spec does not say how old a loop is that
re-enters: it has not stood in the table for 1,024 cycles then, and ranks by when it was posted (log 124, DESIGN CHOICE). -/
def reenterLoops (cl : Nat) : Nat → M Unit
  | 0 => pure ()
  | fuel + 1 => do
    let s ← get
    if ((s.cluster cl).loops.filter (·.entry)).length < 32 then
      match s.reenterNext cl with
      | none => pure ()
      | some l =>
        onLoop cl l.id fun l => { l with entry := true, old := false }
        reenterLoops cl fuel

/-- MXLOOP_GRANT (13 R285): loops that stand outside the table take its free entries; up to 16 loops are granted at once; a loop that
is not a reusing one begins the latch anew. -/
def grantLoop (cl : Nat) : M Unit := do
  reenterLoops cl 32
  let s ← get
  enabled (decide (((s.cluster cl).loops.filter (·.granted)).length < 16))
  match s.grantNext cl with
  | none => enabled false
  | some l =>
    onLoop cl l.id fun l => { l with granted := true }
    if !Mx.reuse l.desc && l.removed == 0 then
      onUid l.uid fun t => { t with h := { t.h with latch := t.h.latch.map fun x => { x with frags := [] } } }
def execMxloopGrant (cluster : Nat) (s : State) : Host.Outcome State Fault Refusal := runEventOf 0 (grantLoop cluster) s

/-! ## Fragments (13 R274, R281, R283) -/

/-- A dense fragment from its bytes. -/
def denseFragment (w : Nat) (l : List (Byte × Bool)) : Fragment :=
  let v := ofBytes l
  { codes := (List.range 32).map fun i => bits v.1 (w * i) w, poison := v.2 }

/-- The eight fragments of a sparse block (13 R281). -/
def slotFragments (w : Nat) (bitmap vals : List (Byte × Bool)) : List Fragment :=
  let e := expandSlot w bitmap vals
  (List.range 8).map fun j =>
    let part := (e.drop (32 * j)).take 32
    { codes := part.map (·.1), poison := part.any (·.2) }

/-- Fragments taken from the head of a FIFO: one, or the eight of a sparse block, with the bytes left; none where the FIFO
lacks them. -/
def takeFragments (w : Nat) (sparse : Bool) (bytes : List (Byte × Bool)) : Option (List Fragment × List (Byte × Bool)) :=
  if sparse then
    if bytes.length < 32 then none
    else
      let bm := bytes.take 32
      let n := 32 * ceilDiv (popCount (ofBytes bm).1 256 * w) 256
      if bytes.length < 32 + n then none else some (slotFragments w bm ((bytes.drop 32).take n), bytes.drop (32 + n))
  else if bytes.length < 4 * w then none
  else some ([denseFragment w (bytes.take (4 * w))], bytes.drop (4 * w))

/-- Remove fragments from a loop's FIFO until `idx` has been removed (13 R280). -/
def removeTo (cl id : Nat) (t : Team) (idx : Nat) : Nat → M Unit
  | 0 => pure ()
  | fuel + 1 => do
    match (((← get).cluster cl).loops.find? fun l => l.id == id) with
    | none => enabled false
    | some l =>
      if idx < l.removed then return
      let f := ((← get).core t.core).fifo t.uid (Mx.fifo l.desc)
      match takeFragments (widthOfCode l.nf (Mx.sfmt l.desc)) (Mx.sparse l.desc) f.bytes with
      | none => enabled false
      | some (fr, rest) =>
        onCore t.core fun c => c.setFifo { f with bytes := rest }
        onLoop cl id fun l =>
          { l with frags := l.frags ++ fr.mapIdx fun i x => (l.removed + i, x), removed := l.removed + fr.length }
        if Mx.m l.desc * Mx.k l.desc ≤ 64 then
          onUid t.uid fun t => { t with h := { t.h with latch := t.h.latch.map fun x => { x with frags := x.frags ++ fr } } }
        removeTo cl id t idx fuel

/-- Fragment `idx` of a loop, from the FIFO or the latch. -/
def fragmentOf (cl id : Nat) (t : Team) (l : Loop) (idx : Nat) : M Fragment := do
  let none_ : Fragment := { codes := [], poison := false }
  if Mx.reuse l.desc then
    return ((t.h.latch.map fun x => x.frags.getD idx none_).getD none_)
  removeTo cl id t idx (idx + 1 - l.removed)
  let got := (((← get).cluster cl).loops.find? fun l => l.id == id).bind fun l => (l.frags.find? fun p => p.1 == idx).map (·.2)
  onLoop cl id fun l => { l with frags := l.frags.filter fun p => p.1 != idx }
  return got.getD none_

/-! ## Steps (13 R280, R282, R284, R287) -/

/-- A byte of a scale table with its poison, as the team sees it by Basin address (04 R106). -/
def readScaleByte (t : Team) (a : Nat) : M (Nat × Bool) := do
  fillNamed t a
  let s ← get
  let o := a % 4096
  return ((s.core t.core).rowBytes (a / 4096) (o / 128) (o % 128) 1,
    bitAt (s.seenPoison s.cur (a / 4096) (o / 128)).toNat (o % 128 / 4))

/-- A scale pair read from the Basin: S, V and its poison; V may lie in the next row or the next bank (13 R277). -/
def readPair (t : Team) (a : Nat) : M (Nat × Nat × Bool) := do
  let lo ← readScaleByte t a
  let hi ← readScaleByte t (a + 1)
  return (lo.1, hi.1, lo.2 || hi.2)

/-- An operand decoded, with its pair where one applies (13 R280). -/
def decodeOperand (el : Elem) (pair : Option (Nat × Nat)) (c : Nat) : Num :=
  match pair with
  | some p => decodeScaled el p.1 p.2 c
  | none => decodeElem el c

/-- The N exact sums of one slab (13 R280). -/
def slabSums (xs : List Num) (rows : List (BitVec 1024)) (slot width n : Nat) (el : Elem) (pairs : List (Option (Nat × Nat))) :
    List Num :=
  (List.range n).map fun c =>
    ((xs.zip (rows.zip pairs)).foldl (fun (acc : Option Num) q =>
      let p := q.1.mul (decodeOperand el q.2.2 (bits q.2.1.toNat (slot * c) width))
      match acc with
      | none => some p
      | some a => some (a.add .rne p)) none).getD (.fin false 0 0)

/-- Bank of step `x` of a row, counted from the region's first bank (13 R280). -/
def Mx.bankOf (d : List Word64) (x : Nat) : Nat := Mx.boff d + x * Mx.binc d

/-- Cores whose banks a loop uses (13 R284). -/
def loopCores (t : Team) (d : List Word64) : List Nat :=
  if Mx.span d then (List.range 4).map fun k => 4 * t.cluster + k else [t.core]

/-- The next step of a row of a granted loop may start as far as the loop itself goes (13 R282): the row is not finished, and the
rows before it have taken the bank. -/
def stepDue (t : Team) (l : Loop) (row : Nat) : Bool :=
  let d := l.desc
  let st := l.started.getD row 0
  t.uid == l.uid && t.resident && !t.dbg.halted && l.granted && decide (row < Mx.m d ∧ st < Mx.k d)
    && (List.range row).all fun m => (List.range (Mx.k d)).all fun x =>
      Mx.bankOf d x != Mx.bankOf d st || decide (x < l.started.getD m 0)

/-- The FIFO or the latch has a fragment of a loop. -/
def State.hasFragment (s : State) (cl : Nat) (t : Team) (l : Loop) (idx : Nat) : Bool :=
  match fragmentOf cl l.id t l idx s with
  | .ok _ _ => true
  | .error _ _ => false

/-- A loop that ranks before `l` has a step ready on a bank that a step of `l` needs: the bank takes that step first (13 R286). -/
def State.outranked (s : State) (cl : Nat) (l : Loop) (cores : List Nat) (bank : Nat) : Bool :=
  (s.cluster cl).loops.any fun o =>
    o.id != l.id && o.granted && loopBefore s o l
      && (match s.team? o.uid with
          | none => false
          | some u => (loopCores u o.desc).any cores.contains
              && (match u.region (Mx.wreg o.desc) with
                  | none => false
                  | some reg => (List.range (Mx.m o.desc)).any fun row =>
                      let st := o.started.getD row 0
                      reg.first + Mx.bankOf o.desc st == bank && stepDue u o row && s.hasFragment cl u o (row * Mx.k o.desc + st)))

/-- The scale pairs of step (row, st): the streaming pair, and the 32 weight pairs, each with its poison; none where the loop has no
such table (13 R277, R280). -/
def stepPairs (t : Team) (d : List Word64) (cls row st : Nat) : M ((Option (Nat × Nat) × Bool) × List (Option (Nat × Nat) × Bool)) := do
  let sp ← (if Mx.sscl d then do
      let p ← readPair t (streamPairAddr d row st)
      pure (some (p.1, p.2.1), p.2.2)
    else pure (none, false))
  let wp ← (if Mx.wscl d then (List.range 32).mapM fun k => do
      let p ← readPair t (weightPairAddr d cls (Mx.bankOf d st) k)
      return (some (p.1, p.2.1), p.2.2)
    else pure (List.replicate 32 (none, false)))
  return (sp, wp)

/-- The sums of a step on the cores of a loop, core by core, and whether an operand was poisoned (13 R280, R284, R287). -/
def stepSums (s : State) (l : Loop) (cls bank : Nat) (cores : List Nat) (fr : Fragment) (sp : Option (Nat × Nat) × Bool)
    (wp : List (Option (Nat × Nat) × Bool)) : List (Num × Bool) :=
  let sel := elemOfCode l.nf (Mx.sfmt l.desc)
  let wel := elemOfCode l.nf (Mx.wfmt l.desc)
  let xs := fr.codes.map fun c => decodeOperand sel sp.1 c
  cores.flatMap fun k =>
    let c := s.core k
    let rows := (List.range 32).map fun r => c.row bank r
    let bad := fr.poison || sp.2 || wp.any (·.2) || (List.range 32).any fun r => c.rowPoison bank r != 0
    (slabSums xs rows (classSlot cls) (widthOfCode l.nf (Mx.wfmt l.desc)) (classCols cls) wel (wp.map (·.1))).map fun x => (x, bad)

/-- MATRIX_STEP (13 R282, R286): the next step of a row of a granted loop starts; its sums are those of the fragment and the slab. -/
def matrixStep (id row : Nat) : M Unit := do
  let s ← get
  match s.clusters.findSome? fun p => (p.2.loops.find? fun l => l.id == id).map fun l => (p.1, l) with
  | none => enabled false
  | some (cl, l) =>
    modify fun s => s.focus l.uid
    let t ← getTeam
    let d := l.desc
    let st := l.started.getD row 0
    enabled (stepDue t l row)
    match t.region (Mx.wreg d) with
    | none => enabled false
    | some reg =>
      let cores := loopCores t d
      let bank := reg.first + Mx.bankOf d st
      enabled (!s.outranked cl l cores bank)
      let fr ← fragmentOf cl id t l (row * Mx.k d + st)
      let pairs ← stepPairs t d reg.cls row st
      let sums := stepSums (← get) l reg.cls bank cores fr pairs.1 pairs.2
      cores.forM fun k => bump k 4 1
      onLoop cl id fun l => { l with started := l.started.set row (st + 1), sums := l.sums ++ [(row, st, sums)] }
def execMatrixStep (loop row : Nat) (s : State) : Host.Outcome State Fault Refusal := runEventOf 0 (matrixStep loop row) s

/-- The integer an exact sum of integers is. -/
def Num.toInt : Num → Int
  | .fin neg m e => (if neg then -1 else 1) * (m * 2 ^ e.toNat : Nat)
  | _ => 0

/-- An accumulator element after a sum is added (13 R280): value and flags. -/
def accumulate (float sati : Bool) (a : Nat) (t : Num) : Rounded :=
  if float then
    let r := roundF fp32 .rne false 0 ((decodeF fp32 a).add .rne t).exact
    { code := r.code, o := r.o, n := r.n }
  else
    let x := sintOf 32 a + t.toInt
    let r := if sati then clampInt 32 true x else (x, false)
    { code := lowBits 32 r.1, o := r.2, n := false }

/-- Add the sums of a step to a row of the tile: the core and the flags it sets. -/
def landSums (c : Core) (q : Tile) (sati : Bool) (row col : Nat) (sums : List (Num × Bool)) : Core × Bool × Bool :=
  (sums.mapIdx fun i x => (i, x)).foldl (fun (acc : Core × Bool × Bool) p =>
    let (b, r, k) := q.place (row * q.cols + col + p.1)
    let out := accumulate q.float sati (acc.1.word b r k).toNat p.2.1
    let bad := p.2.2 || bitAt (acc.1.rowPoison b r).toNat k
    let c1 := (acc.1.putBytes b r (4 * k) 4 out.code).poisonBytes bad b r (4 * k) 4
    (c1, acc.2.1 || (out.o && !bad), acc.2.2 || (out.n && !bad))) (c, false, false)

/-- MATRIX_UPDATE_LAND (13 R282): the next sums of a row land; the loop completes with its last update. -/
def updateLand (id row : Nat) : M Unit := do
  let s ← get
  match s.clusters.findSome? fun p => (p.2.loops.find? fun l => l.id == id).map fun l => (p.1, l) with
  | none => enabled false
  | some (cl, l) =>
    match s.team? l.uid, l.sums.find? fun q => q.1 == row && q.2.1 == l.done.getD row 0 with
    | some t, some (_, st, sums) =>
      match t.tile (Mx.acc l.desc) with
      | none => enabled false
      | some q =>
        let (c, o, n) := landSums (s.core t.core) q (Mx.sati l.desc) row (Mx.coloff l.desc) sums
        modify fun s => s.setCore t.core c
        let l1 : Loop :=
          { l with
            done := l.done.set row (st + 1), sums := l.sums.filter fun q => !(q.1 == row && q.2.1 == st)
            flagO := l.flagO || o, flagN := l.flagN || n }
        if l1.done.all fun x => x == Mx.k l.desc then
          onCluster cl fun c => { c with loops := c.loops.filter fun x => x.id != id }
          timelineEnd l.uid 6 l.num
          onUid l.uid fun t => { t with l := { t.l with flagO := t.l.flagO || l1.flagO, flagN := t.l.flagN || l1.flagN } }
        else onLoop cl id fun _ => l1
    | _, _ => enabled false
def execMatrixUpdateLand (loop row : Nat) (s : State) : Host.Outcome State Fault Refusal := runEventOf 0 (updateLand loop row) s

end Sys2Proof.Machine
end

