-- ==== Sys2Proof/Machine/Teams.lean ====
section
/-!
DEFINITION. The life of a team (15 R310 to R326): freezing and stamping, barriers, stage queues, yield and exit, and the
events that wake and promote teams.
-/
namespace Sys2Proof.Machine

/-! ## Freezing (15 R312) -/

/-- One bank of a template's image, from a bank of its core: a bank it shares keeps its content's number (20 R350). -/
def imageBank (core bank : Nat) (role : ImageRole) (shared : Bool) : M ImageBank := do
  let c := (← get).core core
  let id ← (do
    match (if shared then (c.bank bank).owner else none) with
    | some o => pure o
    | none => nextStamp)
  return { id := id, role := role, rows := c.bankRows bank, poison := c.bankPoison bank }

/-- The banks of a template's image with where they stand: register pages, template pages, regions (15 R312). -/
def imageBanks (t : Team) : M (List (ImageBank × Nat)) := do
  let s ← get
  let pages ← (List.range t.npg).mapM fun p => do
    let e := t.pte p
    return (← imageBank t.core (Pte.bank e) (.regPage p) (Pte.shr e), Pte.bank e)
  let tmpl ← ((List.range t.kern.tpages).filterMap fun p => (s.templateBank t p).map fun b => (p, b)).mapM fun q => do
    let own := t.h.copies.any fun b => b.page == q.1
    return (← imageBank t.core q.2 (.tmplPage q.1) (!own), q.2)
  let regs ← (t.h.regions.flatMap fun r => (List.range r.count).map fun i => (r, i)).mapM fun q => do
    return (← imageBank t.core (q.1.first + q.2) (.region q.1.num q.2) q.1.inherited, q.1.first + q.2)
  return pages ++ tmpl ++ regs

/-- The state a bank of an image has. -/
def ImageBank.state (b : ImageBank) : BankState :=
  match b.role with
  | .regPage _ => .reg b.id
  | .tmplPage _ => .stash b.id
  | .region _ _ => .stat b.id

/-- The image of a template team (15 R312). -/
def imageOf (t : Team) (id level cluster : Nat) (parent : Option Nat) (banks : List ImageBank) : Image :=
  { id := id, launch := t.id.launch, stage := t.id.stage, level := level, cluster := cluster, parent := parent
    x := t.s.x, pc := t.s.pc + 4, m := t.l.m, dead := t.l.dead, pt := t.l.pt, nf := t.l.nf, ctl := t.ctl, kern := t.kern
    ident := t.id, regions := t.h.regions, banks := banks }

/-- The team becomes Frozen: its image's banks are shared from now on, the rest of what it held is free (15 R312). The cores of its
stage stay as placement and rebalancing have left them (16 R336, R337). -/
def becomeFrozen (t : Team) (k : Nat) : M Unit := do
  let bs ← imageBanks t
  let id ← nextStamp
  let top := imageOf t id t.ctl.level t.cluster (if t.ctl.level = 1 then t.image else none) (bs.map (·.1))
  onCore t.core fun c => bs.foldl (fun (c : Core) q => c.setBank q.2 q.1.state) c
  let clusters := (match (← get).launch? t.id.launch with | some l => (l.stage t.id.stage).clusters | none => [])
  let subs ← (if k = 0 then clusters.mapM fun cl => do
      let n ← nextStamp
      return imageOf t n 1 cl (some id) (bs.map (·.1))
    else pure [])
  let here := id :: (subs.filter fun i => i.cluster == t.cluster).map (·.id)
  modify fun s =>
    { (s.onLaunch t.id.launch fun l => l.onStage t.id.stage fun g =>
        match k with
        | 2 => { g with top := 1, opening := g.clusters }
        | 0 => { g with top := 2, opening := [] }
        | _ => { g with opening := g.opening.filter fun c => c != t.cluster }) with
      images := s.images ++ top :: subs
      copies := s.copies ++ here.map fun i => (ImageCopy.mk i t.core (bs.map (·.2))) }
  endTeam t

/-- The steps of `freeze` (15 R312). -/
def freezeTeam (k : Nat) : M Unit := do
  let t ← getTeam
  if !(decide (t.ctl.level = 2 ∧ (k = 2 ∨ k = 0)) || decide (t.ctl.level = 1 ∧ k = 1)) then
    trapWith Code.freezelvl (BitVec.ofNat 64 k)
  drain
  let t ← getTeam
  waitUnless (timelinesDone t && runnelsDone (← get) t) .drain
  cancelEngines t
  onHold fun h => { h with latch := none, tiles := [], privBase := none, frozen := true }
  onCore t.core fun c =>
    ((List.range numBanks).filter fun b => c.bank b == .acc t.uid || c.bank b == .priv t.uid).foldl (fun c b => c.release b 1) c
  releaseAll Scope.device 0xFF 0 0
  becomeFrozen (← getTeam) k

/-- `freeze k` (15 R312). -/
def execFreeze (k : BitVec 2) (s : State) : Host.Outcome State Fault Refusal := runTeam (freezeTeam k.toNat) s

/-! ## Starting a child (15 R313) -/

/-- Every bank of a region is FREE on a core or already holds the region (20 R349). -/
def State.regionsFit (s : State) (i : Image) (core : Nat) : Bool :=
  i.banks.all fun b => match b.role with
    | .region num idx =>
      let at_ := ((i.regions.find? fun r => r.num == num).map (·.first)).getD 0 + idx
      (s.core core).bank at_ == .free || (s.core core).bank at_ == .stat b.id
    | _ => true

/-- Banks of an image that a core does not hold yet. -/
def State.missingBanks (s : State) (i : Image) (core : Nat) : Nat :=
  (i.banks.filter fun b => (s.contentBank core b.id).isNone).length

/-- A core has a slot and the banks of a team's private region beside `pages` more (16 R335). -/
def State.hasRoom (s : State) (core g pages : Nat) : Bool :=
  let c := s.core core
  decide (0 < s.freeSlots core) && (c.freeRun (32 * g) 32).isSome && decide (pages + 32 * g ≤ c.freeBanks.length)

/-- Row and column of a cluster from the placement's origin (15 R307). -/
def relRow (origin cl : Nat) : Nat := cl / 12 - origin / 12
def relCol (origin cl : Nat) : Nat := cl % 12 - origin % 12

/-- A team of a launch before it has anything of its own. -/
def newTeam (l : Launch) (uid core slot stage task level : Nat) (kern : KernelMap) (ctl : TeamCtl) : Team :=
  let inst := if level = 0 then task else 0
  { Team.vacant with
    uid := uid, status := .ready, age := uid, kern := kern, ctl := { ctl with level := level }
    id := { ctx := l.ctx, tenant := l.tenant, prow := relRow l.origin (core / 4), pcol := relCol l.origin (core / 4), core := core
            slot := slot, stage := stage, task := task, inst := inst, ix := inst % l.nx, iy := inst / l.nx % l.ny
            iz := inst / (l.nx * l.ny), launch := l.id } }

/-- Start a child of an image on a core that holds it (15 R313). -/
def startChild (l : Launch) (i : Image) (core task level : Nat) (paired : Paired) : M Nat := do
  let s ← get
  let g := i.kern.g
  waitUnless (decide (0 < s.freeSlots core)) .basin
  match s.freeSlot core, (s.core core).freeRun (32 * g) 32, s.copyOn i.id core with
  | some slot, some b, some cp =>
    let uid ← nextStamp
    onCore core fun c => c.take b (32 * g) (.priv uid)
    let t0 := newTeam l uid core slot i.stage task level i.kern i.ctl
    let bankOf := fun (p : Nat) =>
      ((i.banks.zip cp.banks).findSome? fun q => if q.1.role = .regPage p then some q.2 else none).getD 0
    let t : Team :=
      { t0 with
        image := some i.id, paired := { paired with sig := BitVec.allOnes 64 }
        s := { Scalar.init with x := i.x, pc := i.pc }
        l := { Lane.init t0.n with
          m := i.m, dead := i.dead, nf := i.nf, pt := pageTable t0.nregs t0.npg t0.n bankOf true i.pt }
        h := { Holdings.init with regions := i.regions.map fun r => { r with inherited := true }, privBase := some b } }
    modify fun s => { s with teams := s.teams ++ [t] }
    acquireDevice t
    return uid
  | _, _, _ => waitFor .basin

/-! ## Spread (15 R313, 16 R337, 20 R349) -/

/-- Task id of a level-1 template (15 R307). -/
def levelOneTask (cl : Nat) : Nat := 0xFFFFFF00 + cl

/-- The core of a cluster that a launch template's child starts on, of those that have a free slot and take the regions: one that
holds the image, then the most FREE banks, then the lowest core (15 R313). -/
def State.levelOneCore (s : State) (i : Image) (cl : Nat) : Option Nat :=
  let ok := ((List.range 4).map fun k => 4 * cl + k).filter fun c => decide (0 < s.freeSlots c) && s.regionsFit i c
  let rank := fun (c : Nat) => ((if s.missingBanks i c = 0 then 0 else 1), numBanks - (s.core c).freeBanks.length)
  ok.foldl (fun best c => match best with
    | none => some c
    | some b => if (rank c).1 < (rank b).1 ∨ ((rank c).1 = (rank b).1 ∧ (rank c).2 < (rank b).2) then some c else some b) none

/-- Mesh distance between clusters, those of another die last (16 R337: the nearest cluster, its own die first). -/
def clusterDistance (a b : Nat) : Nat :=
  (if dieOfCluster a = dieOfCluster b then 0 else 1000)
    + (if a / 12 < b / 12 then b / 12 - a / 12 else a / 12 - b / 12)
    + (if a % 12 < b % 12 then b % 12 - a % 12 else a % 12 - b % 12)

/-- Cluster templates of a stage. -/
def State.clusterImages (s : State) (launch stage : Nat) : List Image :=
  s.images.filter fun i => i.launch == launch && i.stage == stage && i.level == 1

/-- The cluster template whose children a core runs: its own cluster's; for a core that another stage gave up, the nearest
(16 R337). -/
def State.imageFor (s : State) (launch stage core : Nat) : Option Image :=
  let all := s.clusterImages launch stage
  let native := match s.launch? launch with | some l => (l.stage stage).clusters.contains (core / 4) | none => false
  if native then all.find? fun i => i.cluster == core / 4
  else all.foldl (fun best i => match best with
    | none => some i
    | some b => if clusterDistance (core / 4) i.cluster < clusterDistance (core / 4) b.cluster then some i else some b) none

/-- TEMPLATE_SPREAD_COPY (15 R313): a copy of an image to a core completes; a cluster's level-1 team starts there. -/
def spreadCopy (image core : Nat) : M Unit := do
  let s ← get
  match s.image? image with
  | none => enabled false
  | some i =>
    match s.launch? i.launch with
    | none => enabled false
    | some l =>
      let g := l.stage i.stage
      let cl := core / 4
      enabled (decide (core < 192) && l.status == .running)
      if i.level = 2 then
        enabled (g.opening.contains cl && s.levelOneCore i cl == some core
          && !(s.allTeams.any fun t => t.id.launch == l.id && t.id.stage == i.stage && t.ctl.level == 1 && t.status != .ended && t.cluster == cl))
        spreadTo i core
        let _ ← startChild l i core (levelOneTask cl) 1 Paired.init
      else
        enabled (g.cores.contains core && (s.copyOn i.id core).isNone && (decide (g.next < l.total) || g.again != [])
          && (s.imageFor l.id i.stage core).map (·.id) == some i.id && decide (0 < s.freeSlots core) && s.regionsFit i core)
        spreadTo i core
def execTemplateSpreadCopy (image core : Nat) (s : State) : Host.Outcome State Fault Refusal := runEventOf 0 (spreadCopy image core) s

/-! ## Stamping (16 R337, 22 R383, R386) -/

/-- Teams of a launch resident on a core. -/
def State.launchOn (s : State) (launch core : Nat) : List Team := (s.residents core).filter fun t => t.id.launch == launch

/-- A core may take an instance of a stage (16 R337): it holds the cluster template's image, a slot, the banks of R335, and no
team of the stage it was moved from; the launch does not stop for a pre-emption. -/
def State.mayStamp (s : State) (l : Launch) (stage core : Nat) : Bool :=
  match s.imageFor l.id stage core with
  | none => false
  | some i => !l.stopping && (s.copyOn i.id core).isSome && s.hasRoom core i.kern.g (pagesFor (8 * i.ctl.nreg) i.ctl.nlw)
      && (s.launchOn l.id core).all fun t => t.id.stage == stage

/-- The core that goes first among those that may: fewest resident teams of the launch, then the lowest (16 R337). -/
def State.stampCore (s : State) (l : Launch) (stage : Nat) (cores : List Nat) : Option Nat :=
  (cores.filter fun c => s.mayStamp l stage c).foldl (fun best c => match best with
    | none => some c
    | some b =>
      let nc := (s.launchOn l.id c).length
      let nb := (s.launchOn l.id b).length
      if nc < nb ∨ (nc = nb ∧ c < b) then some c else some b) none

/-- Clusters that a primary copy may stand on: the left half (22 R383). -/
def Launch.isLeft (l : Launch) (cl : Nat) : Bool := decide (relCol l.origin cl < l.pcols / 2)

/-- The cluster of the twin. -/
def Launch.twinCluster (l : Launch) (cl : Nat) : Nat := cl + l.pcols / 2

/-- Cores of a stage for an instance, without clusters it may not run on. -/
def Launch.coresFor (l : Launch) (stage : Nat) (bar : List Nat) : List Nat :=
  (l.stage stage).cores.filter fun c =>
    !bar.contains (c / 4) && (!l.paired || (l.isLeft (c / 4) && !bar.contains (l.twinCluster (c / 4))))

/-- Stamp one instance; a paired one with its twin on the paired cluster (22 R383). -/
def stampInstance (l : Launch) (stage core inst : Nat) : M Unit := do
  let s ← get
  match s.imageFor l.id stage core with
  | none => enabled false
  | some i =>
    let uid ← startChild l i core inst 0 Paired.init
    if l.paired then
      let cl := l.twinCluster (core / 4)
      match (← get).stampCore l stage ((List.range 4).map fun k => 4 * cl + k) with
      | none => enabled false
      | some c2 =>
        match (← get).imageFor l.id stage c2 with
        | none => enabled false
        | some i2 =>
          let u2 ← startChild l i2 c2 inst 0 { Paired.init with role := 2, twin := uid }
          onUid uid fun t => { t with paired := { t.paired with role := 1, twin := u2 } }

/-- The lowest instance still to stamp: its number and the clusters that may not run it. -/
def Launch.nextInstance (l : Launch) (stage : Nat) : Option (Nat × List Nat) :=
  let g := l.stage stage
  let fresh := if g.next < l.total then some (g.next, []) else none
  g.again.foldl (fun best a => match best with
    | none => some a
    | some b => if a.1 < b.1 then some a else some b) fresh

/-- Take an instance from its stage's pool. -/
def takeInstance (launch stage inst : Nat) : M Unit :=
  modify fun s => s.onLaunch launch fun l => l.onStage stage fun g =>
    if g.again.any fun a => a.1 == inst then { g with again := g.again.filter fun a => a.1 != inst } else { g with next := inst + 1 }

/-- Stamp the next instance of a stage on the core that goes first. -/
def stampNext (launch stage : Nat) (core : Option Nat) : M Unit := do
  match (← get).launch? launch with
  | none => enabled false
  | some l =>
    match l.nextInstance stage with
    | none => enabled false
    | some (inst, bar) =>
      match (← get).stampCore l stage (l.coresFor stage bar) with
      | none => enabled false
      | some c =>
        enabled (core.isNone || core == some c)
        stampInstance l stage c inst
        takeInstance launch stage inst

/-- INSTANCE_STAMP (16 R337): a qualifying core receives the lowest unstamped instance; a gang is stamped in one step. -/
def instanceStamp (launch core : Nat) : M Unit := do
  match (← get).launch? launch with
  | none => enabled false
  | some l =>
    enabled (l.status == .running)
    match (List.range l.nstage).find? fun k => (l.stage k).cores.contains core with
    | none => enabled false
    | some k =>
      stampNext launch k (some core)
      if l.gang then
        (List.range (l.total - (l.stage k).next - 1)).forM fun _ => stampNext launch k none
      -- cores on which no child remains to be stamped give their copies up (15 R317)
      freeImages
def execInstanceStamp (launch core : Nat) (s : State) : Host.Outcome State Fault Refusal := runEventOf 0 (instanceStamp launch core) s

/-! ## Barriers (15 R319 to R321) -/

/-- Participants of a barrier of a team: the instances of its cluster template, or of its stage. -/
def State.participants (s : State) (t : Team) (scope : Nat) : List Team :=
  s.allTeams.filter fun u => u.id.launch == t.id.launch && u.id.stage == t.id.stage && u.ctl.level == 0 && u.status != .ended
    && (scope != 1 || u.image == t.image)

/-- A generation is complete: every participant has arrived that often or has ended (15 R321). -/
def State.barrierDone (s : State) (t : Team) (key gen : Nat) : Bool :=
  (s.participants t (key / 16)).all fun u => decide (gen ≤ Table.get 0 u.arrived key)

/-- The steps of `bar` (15 R320, R321). -/
def barrier (scope id : Nat) : M Unit := do
  let t ← getTeam
  if scope = 0 then
    drain
    let t ← getTeam
    waitUnless (timelinesDone t) .drain
    advance
  else
    if t.ctl.level ≠ 0 ∨ t.ctl.gang = false then trapWith Code.barlevel (BitVec.ofNat 64 (id * 16 + scope))
    let key := scope * 16 + id
    let sc := if scope = 1 then Scope.cluster else Scope.device
    let gen ← (match t.s.phase with
      | .arrived _ g => pure g
      | _ => do
        releaseAll sc 0xFF 0 0
        let g := Table.get 0 t.arrived key + 1
        onTeam fun t => { t with arrived := Table.set 0 t.arrived key g }
        setPhase t.uid (.arrived key g)
        pure g)
    let t ← getTeam
    waitUnless ((← get).barrierDone t key gen) .barrier
    acquire sc
    advance

/-- `bar.scope id` (15 R319). -/
def execBar (i : BitVec 4) (c : BitVec 2) (s : State) : Host.Outcome State Fault Refusal := runTeam (barrier c.toNat i.toNat) s

/-- A waiting team goes on: a fault held is served, else the team becomes Ready and its word runs again (15 R310, 21 R360). -/
def wake (uid : Nat) : M Unit := do
  modify fun s => s.unstall (.team uid)
  match ((← get).team? uid).bind fun t => t.rfault with
  | some r => serveFault uid r
  | none => onUid uid fun t => { t with status := .ready, waits := none }

/-- The barrier generation a team waits for is complete. -/
def State.barrierOpen (s : State) (t : Team) : Bool :=
  t.waits == some .barrier && (match t.s.phase with | .arrived key gen => s.barrierDone t key gen | _ => false)

/-- BARRIER_GENERATION_COMPLETE (15 R321): every waiting participant of the generation becomes Ready. -/
def barrierComplete (uid : Nat) : M Unit := do
  let s ← get
  match s.team? uid with
  | none => enabled false
  | some t =>
    enabled (t.status == .waiting && s.barrierOpen t)
    match t.s.phase with
    | .arrived key gen =>
      ((s.participants t (key / 16)).filter fun u =>
          u.status == .waiting && !u.dbg.halted && u.waits == some .barrier && u.s.phase == .arrived key gen).forM fun u => wake u.uid
    | _ => pure ()
def execBarrierGenerationComplete (team : Nat) (s : State) : Host.Outcome State Fault Refusal := runEventOf 0 (barrierComplete team) s

/-! ## Waits (15 R310) -/

/-- What a team waits for may hold: the waits that a look decides; any other is decided by running the word again. A stall that the
lane word met ends with that word's next turn. -/
def State.waitHolds (s : State) (t : Team) : Bool :=
  if t.laneStalled then false
  else match t.waits with
  | none => false
  | some w => match w with
    | .lanes n => decide (t.l.outstanding ≤ n)
    | .timeline tl v => decide (v ≤ t.h.tl.getD tl 0)
    | .event => let c := s.core t.core
      c.events.any (fun e => e.uid == t.uid) || c.runnels.all fun r => !(r.uid == t.uid && r.post)
    | .commit psn => decide (psn ≤ s.commitPoint)
    | .commitNotices => decide (s.commitPoint ≤ (s.cluster t.cluster).noticed)
    | .barrier => s.barrierOpen t
    | .twin => t.paired.at_.isNone
    | .space => s.mayResume (.team t.uid)
    | .basin => let c := s.core t.core
      c.freeBanks != [] && c.stashRoom
    | _ => true

/-- WAIT_SATISFIED (15 R310): a Waiting team whose condition holds becomes Ready. -/
def waitSatisfied (uid : Nat) : M Unit := do
  let s ← get
  match s.team? uid with
  | none => enabled false
  | some t =>
    enabled (t.status == .waiting && !t.dbg.halted && s.waitHolds t)
    wake uid
def execWaitSatisfied (team : Nat) (s : State) : Host.Outcome State Fault Refusal := runEventOf 0 (waitSatisfied team) s

/-! ## Stage queues (15 R322, R323) -/

/-- QSTAGE and MISALIGN of a stage-queue word (15 R323). -/
def checkQueue (t : Team) (va : Word64) (bad : Bool) : M Unit := do
  if t.ctl.level ≠ 0 ∨ bad = true then trapWith Code.qstage (BitVec.ofNat 64 t.id.stage)
  if va.toNat % 64 ≠ 0 then checkAlign { Access.load with size := 64 } va 64

def State.queue? (s : State) (t : Team) (k : Nat) : Option StageQueue := (s.launch? t.id.launch).bind fun l => l.queues[k]?

/-- Queue `k` is closed: its producers have ended (15 R322). -/
def State.queueClosed (s : State) (t : Team) (k : Nat) : Bool :=
  match s.launch? t.id.launch with
  | none => true
  | some l => let g := l.stage k
    decide (l.total ≤ g.ended) && g.top != 0 && g.opening == []

/-- Stage-queue entries of launches that way 15 of a cluster holds (04 R96). -/
def wayEntries (ls : List Launch) (cl : Nat) : Nat :=
  ls.foldl (fun n l => l.queues.foldl (fun n q => n + (q.places.filter fun k => k == cl).length) n) 0

/-- Entries that way 15 of a cluster has room for: two in each set whose way is not quarantined (04 R96, 22 R378). -/
def State.wayRoom (s : State) (cl : Nat) : Nat := 4096 - 2 * ((s.cluster cl).quar.filter fun q => q % 16 == 15).length

/-- The cluster of the next stage that takes an entry of a team: the first whose way 15 has room, over every launch that is there (15
R322, 04 R96; log 129, DESIGN CHOICE). -/
def State.queuePlace (s : State) (t : Team) : Option Nat :=
  match s.launch? t.id.launch with
  | none => none
  | some l => (l.stage (t.id.stage + 1)).clusters.find? fun cl => decide (wayEntries s.launches cl < s.wayRoom cl)

def onQueue (t : Team) (k : Nat) (f : StageQueue → StageQueue) : M Unit :=
  modify fun s => s.onLaunch t.id.launch fun l => { l with queues := l.queues.mapIdx fun i q => if i = k then f q else q }

/-- The 64 bytes at an address as a load of the task (15 R323). -/
def loadEntry (t : Team) (va : Word64) : M (BitVec 512) := do
  let a := { Access.load with priv := t.s.priv, size := 64 }
  let p ← locate a t va 64
  let half := fun (i : Nat) => (do
    let q := { p with la := p.la + 32 * i }
    let r ← readAt a t (va + BitVec.ofNat 64 (32 * i)) q 32 0
    r.stale.forM fun x => countStale t x.1 1
    if r.poison then poisonLoad a va q
    return r.value : M Nat)
  let lo ← half 0
  let hi ← half 1
  return BitVec.ofNat 512 (lo + hi * 2 ^ 256)

/-- The steps of `qput` (15 R323). A queue whose clusters have no room left in way 15 is full (log 129). -/
def queuePut (d : XReg) (va : Word64) (nb : Bool) : M Unit := do
  let t ← getTeam
  let last := (match (← get).launch? t.id.launch with | some l => decide (l.nstage ≤ t.id.stage + 1) | none => true)
  checkQueue t va last
  releaseAll Scope.device 0xFF 0 0
  -- its publication stands: what follows may fault and be taken up again
  setPhase t.uid .released
  let e ← loadEntry (← getTeam) va
  let s ← get
  match s.queue? t t.id.stage with
  | none => waitFor .queue
  | some q =>
    match if q.entries.length < q.cap then s.queuePlace t else none with
    | some cl =>
      onQueue t t.id.stage fun q => { q with entries := q.entries ++ [e], places := q.places ++ [cl] }
      modify fun s => s.result d 0
    | none =>
    if nb then modify fun s => s.result d 1
    else
      -- it runs again from its start (15 R323)
      setPhase t.uid .none
      waitFor .queue

/-- `qput xD, (xA)` (15 R323). -/
def execQput (d a : XReg) (b : BitVec 1) (s : State) : Host.Outcome State Fault Refusal := runTeam (queuePut d (s.getX a) (b == 1)) s

/-- Store 64 bytes at an address as stores of the task in colour DCOL (15 R323). -/
def storeEntry (t : Team) (va : Word64) (e : BitVec 512) : M Unit := do
  let a := { Access.store with priv := t.s.priv, size := 64 }
  let p ← locate a t va 64
  let half := fun (i : Nat) =>
    writeAt a t (va + BitVec.ofNat 64 (32 * i)) { p with la := p.la + 32 * i } 32 (bits e.toNat (256 * i) 256) t.ctl.dcol 0
  half 0
  half 1

/-- The steps of `qget` (15 R323): the entry leaves the queue once its stores stand. -/
def queueGet (d : XReg) (va : Word64) (nb : Bool) : M Unit := do
  let t ← getTeam
  checkQueue t va (decide (t.id.stage = 0))
  let k := t.id.stage - 1
  let finish : M Unit := do
    drain
    acquire Scope.device
    modify fun s => s.result d 0
  match t.s.phase with
  | .queued => finish
  | _ =>
    match (← get).queue? t k with
    | none => waitFor .queue
    | some q =>
      match q.entries with
      | e :: r =>
        storeEntry t va e
        onQueue t k fun q => { q with entries := r, places := q.places.drop 1 }
        setPhase t.uid .queued
        finish
      | [] =>
        if (← get).queueClosed t k then modify fun s => s.result d 2
        else if nb then modify fun s => s.result d 1
        else waitFor .queue

/-- `qget xD, (xA)` (15 R323). -/
def execQget (d a : XReg) (b : BitVec 1) (s : State) : Host.Outcome State Fault Refusal := runTeam (queueGet d (s.getX a) (b == 1)) s

/-! ## Yield and exit (15 R324, R325) -/

/-- `yield` (15 R324): the team stays Ready and issues nothing until its 16 cycles have passed. -/
def execYield (s : State) : Host.Outcome State Fault Refusal :=
  let s1 := s.advance
  .next { s1 with cur := { s1.cur with yielding := true } }

/-- YIELD_END (15 R324): the team competes again as the youngest of its priority. -/
def yieldEnd (uid : Nat) : M Unit := do
  match (← get).team? uid with
  | none => enabled false
  | some t =>
    enabled t.yielding
    let st ← nextStamp
    onUid uid fun t => { t with yielding := false, age := st }
def execYieldEnd (team : Nat) (s : State) : Host.Outcome State Fault Refusal := runEventOf 0 (yieldEnd team) s

/-- TEAM_PROMOTION (16 R338): a team ready for 64 cycles without issuing is promoted, for scalar or for lane issue. -/
def promote (uid : Nat) (lane : Bool) : M Unit := do
  match (← get).team? uid with
  | none => enabled false
  | some t =>
    enabled (t.readyFor lane && Team.promotion lane t == 0)
    let st ← nextStamp
    onUid uid fun t => if lane then { t with lanePromoted := st } else { t with promoted := st }
def execTeamPromotion (team : Nat) (lane : Bool) (s : State) : Host.Outcome State Fault Refusal := runEventOf 0 (promote team lane) s

/-- The steps of `exit` (15 R325). -/
def exitTeam (status : Nat) : M Unit := do
  drain
  let t ← getTeam
  waitUnless (timelinesDone t && runnelsDone (← get) t) .drain
  releaseAll Scope.system 0xFF 1 status
  let t ← getTeam
  countEnd t false status
  endTeam t

/-- `exit status` (15 R325). -/
def execExit (s : BitVec 16) (st : State) : Host.Outcome State Fault Refusal := runTeam (exitTeam s.toNat) st

end Sys2Proof.Machine
end

