-- ==== Sys2Proof/Machine/Load.lean ====
section
/-!
DEFINITION. A program of one word placed for the host's probe (log 22): a context, a window, its tables, and a team that is
about to issue the word. It stands for what firmware, system software and a launch set up before a first word runs.
-/
namespace Sys2Proof.Machine

/-- The first segment frame that is not reserved (02 R71), and the position of its first sector. -/
def probeSeg : Nat := 8192
def probePos : Nat := probeSeg * secsPerSeg

/-- The window of the probe: window 0, logged, of context 0, 64 granules from logical address 0 (02 R52). -/
def probeWindow : BitVec 512 := BitVec.ofNat 512 (2 ^ 45 + 2 ^ 44 + 64 * 2 ^ 128)

/-- The context of the probe: context 0 in use, its tables in window 0 from logical address 0 (24 R400). -/
def probeContext : BitVec 512 := BitVec.ofNat 512 ((2 ^ 63 + 4 * 2 ^ 52) * 2 ^ 64)

/-- A sector of the probe: the first of a granule, at place `i` of the segment, with its entry in the root node. -/
def probeSector (gran i : Nat) (v : Nat) (s : State) : State :=
  (s.putSector (probePos + i) (granSec gran) { data := BitVec.ofNat 256 v, poison := false }).setNodeEntry 0 gran
    (mkGranule 1 0 (probePos + i) 1)

/-- Where the probe's word lies. -/
def probeCode : Nat := 0x2000

/-- The tables: the level-4 entry points at the level-3 table, whose first leaf maps 512 GiB with R, W and X (05 R112). They stand in HBM
without an access of the device's own: no row is opened for them. -/
def probeMemory (w : Nat) (s : State) : State :=
  let s1 := probeSector 0 0 (0x1000 + 3) s
  let s2 := probeSector 4 1 (2 ^ 3 + 2 ^ 4 + 2 ^ 5 + 1) s1
  let s3 := probeSector 8 2 w s2
  { s3 with
    dev := s.dev
    windows := Table.set 0 s3.windows 0 probeWindow
    contexts := Table.set 0 s3.contexts 0 probeContext
    ixUsed := insertSorted s3.ixUsed 0
    segs := Table.set Segment.dflt s3.segs probeSeg { Segment.dflt with used := 3 }
    logs := Table.set LogState.init s3.logs 0 { seg := some probeSeg, off := 3 } }

/-- The team of the probe on core 0, with register pages in banks 0 to 3 and its private region in banks 32 to 63. -/
def probeTeam (uid : Nat) (lane : Bool) : Team :=
  let code := BitVec.ofNat 64 probeCode
  let blk : LaneBlock := { start := 0, count := 1, xs := [], late := [], dcol := 0, nf := [0, 0, 0, 0], priv := false, pc := 0, stamp := uid }
  { Team.vacant with
    uid := uid, status := .ready, age := uid
    kern := { KernelMap.init with scode := code, lcode := code }
    s := { Scalar.init with pc := code }
    l := { Lane.init 1 with
      pt := freshTable 64 4 1 (fun p => p)
      run := if lane then some { blk := blk, lpc := 0, done := 0, word := none } else none }
    h := { Holdings.init with privBase := some 32 } }

/-- The word placed and its team at the point of issuing it. -/
def State.withProbe (s : State) (lane : Bool) (w : Nat) : State :=
  let uid := s.stamp
  let s1 := probeMemory w s
  let c := s1.core 0
  let c1 := (List.range 4).foldl (fun (c : Core) b => c.setBank b (.reg uid)) c
  let c2 := (List.range 32).foldl (fun (c : Core) b => c.setBank (32 + b) (.priv uid)) c1
  let s2 := s1.setCore 0 c2
  { s2 with
    stamp := uid + 1
    cur := probeTeam uid lane
    teams := if s2.cur.uid = 0 then s2.teams else s2.cur :: s2.teams
    turns := [if lane then .lane uid else .scalar uid] }

end Sys2Proof.Machine
end

