-- ==== Sys2Proof/Machine/LaneMask.lean ====
section
/-!
DEFINITION. The mask class: compares, mask logic, counts, structured control (12 R247 to R254).
-/
namespace Sys2Proof.Machine

/-- An integer comparison of 32-bit lanes (12 R251). -/
def intCond (cnd : Nat) (a b : Word32) : Bool :=
  match cnd with
  | 0 => a == b
  | 1 => a != b
  | 2 => a.slt b
  | 3 => !b.slt a
  | 4 => b.slt a
  | 5 => !a.slt b
  | 6 => a.ult b
  | 7 => !b.ult a
  | 8 => b.ult a
  | _ => !a.ult b

/-- A float comparison: unordered is false but for `.ne` and `.uno` (12 R251). -/
def floatCond (cnd : Nat) (a b : Num) : Bool :=
  let uno := a.isNan || b.isNan
  match cnd with
  | 0 => !uno && a.ieeeEq b
  | 1 => uno || !a.ieeeEq b
  | 2 => !uno && a.ieeeLt b
  | 3 => !uno && (a.ieeeLt b || a.ieeeEq b)
  | 4 => !uno && b.ieeeLt a
  | 5 => !uno && (b.ieeeLt a || a.ieeeEq b)
  | 6 => uno
  | _ => !uno

/-- A mask from its lanes. -/
def maskOfLanes (l : List Nat) : MaskWord := BitVec.ofNat 1024 (l.foldl (fun acc k => acc ||| 2 ^ k) 0)

/-- Write a mask of the issuing team; instructions of this class write 0 at and above 32n (12 R247). -/
def putMask (m : Nat) (v : MaskWord) : M Unit := onTeam fun t => t.setMask m (v &&& allLanes t.n)

/-- A compare: each active lane that is not dead gives its bit, every other bit is 0 (12 R251). -/
def compareWord (i : Instr) (f : LMask) (cond : Word32 → Word32 → Bool) : M Unit :=
  runWhole i [f.mask.toNat] [] 0 fun ps => do
    let srcs := f.va.toNat :: (if f.imm || f.spc then [] else [f.vb.toNat])
    let hits ← ps.flatMapM fun w => do
      countReads srcs w
      let t ← getTeam
      let m ← soundLanes srcs w (t.active f.mask.toNat w)
      (lanesOf m).filterMapM fun p => do
        let l := 32 * w + p
        let a ← readLane f.va.toNat l
        let b ← (if f.imm then pure f.imm32 else if f.spc then pure (t.special f.vb.toNat l) else readLane f.vb.toNat l)
        return if cond a b then some l else none
    putMask f.vd.toNat (maskOfLanes hits)

/-- `vcmp` (12 R251). -/
def execVcmp (f : LMask) (s : State) : Host.Outcome State Fault Refusal :=
  runLane (compareWord (.vcmp f) f (intCond f.cnd.toNat)) s

/-- `vfcmp` (12 R251): FP16 and BF16 read bits [15:0]. -/
def execVfcmp (f : LMask) (s : State) : Host.Outcome State Fault Refusal :=
  let ft := if f.fmt = 0x02 then fp32 else if f.fmt = 0x03 then fp16 else bf16
  runLane (compareWord (.vfcmp f) f fun a b =>
    floatCond f.cnd.toNat (decodeF ft (a.toNat % 2 ^ ft.width)) (decodeF ft (b.toNat % 2 ^ ft.width))) s

/-- Truth table of two masks (12 R252). -/
def maskLogic (tt : BitVec 4) (a b : MaskWord) : MaskWord :=
  (if tt.getLsbD 0 then ~~~a &&& ~~~b else 0) ||| (if tt.getLsbD 1 then ~~~a &&& b else 0)
    ||| (if tt.getLsbD 2 then a &&& ~~~b else 0) ||| (if tt.getLsbD 3 then a &&& b else 0)

/-- `vmlog` (12 R252): the governing mask and the dead set are ignored. -/
def execVmlog (f : LMask) (s : State) : Host.Outcome State Fault Refusal :=
  runLane (runWhole (.vmlog f) [] [] 0 fun _ => do
    let t ← getTeam
    putMask f.vd.toNat (maskLogic f.cnd (t.maskReg f.va.toNat) (t.maskReg f.vb.toNat))) s

/-- Write one value into every active lane that is not dead, and RDX. -/
def writeAllActive (r mask : Nat) (v : Word32) : M Unit := do
  let t ← getTeam
  ownDsts [(r, mask)] (t.activeLanes mask != 0)
  writeByLane r ((setBitsOf (t.activeLanes mask).toNat 1024).map fun l => (l, v))

def setRdx (v : Nat) : M Unit := onLane fun l => { l with rdx := BitVec.ofNat 64 v }

/-- `vmpop` (12 R253). -/
def execVmpop (f : LMask) (s : State) : Host.Outcome State Fault Refusal :=
  runLane (runWhole (.vmpop f) [f.mask.toNat] (under f.mask.toNat [f.vd.toNat]) 0 fun _ => do
    let t ← getTeam
    let act := t.activeLanes f.mask.toNat
    if act = 0 then
      setRdx 0
      setE
    else
      let q := popCount (act &&& t.maskReg f.va.toNat).toNat 1024
      writeAllActive f.vd.toNat f.mask.toNat (BitVec.ofNat 32 q)
      setRdx q) s

/-- `vmfirst` (12 R253): it writes its destination only where a lane is found. -/
def execVmfirst (f : LMask) (s : State) : Host.Outcome State Fault Refusal :=
  runLane (runWhole (.vmfirst f) [f.mask.toNat] [] 0 fun ps => do
    let t ← getTeam
    match setBitsOf (t.activeLanes f.mask.toNat &&& t.maskReg f.va.toNat).toNat 1024 with
    | [] =>
      setRdx 0xFFFFFFFF
      setE
    | l :: _ =>
      openDsts (under f.mask.toNat [f.vd.toNat]) ps
      writeAllActive f.vd.toNat f.mask.toNat (BitVec.ofNat 32 l)
      reformDsts (under f.mask.toNat [f.vd.toNat])
      setRdx l) s

/-- `vif` (12 R254). -/
def execVif (f : LMask) (s : State) : Host.Outcome State Fault Refusal :=
  runLane (runWhole (.vif f) [] [] 0 fun _ => do
    let t ← getTeam
    let m0 := t.maskReg 0
    let c := t.maskReg f.va.toNat
    putMask f.vd.toNat m0
    putMask 0 (m0 &&& c)) s

/-- `velse` (12 R254). -/
def execVelse (f : LMask) (s : State) : Host.Outcome State Fault Refusal :=
  runLane (runWhole (.velse f) [] [] 0 fun _ => do
    let t ← getTeam
    putMask 0 (t.maskReg f.vd.toNat &&& ~~~(t.maskReg 0))) s

/-- `vendif` (12 R254). -/
def execVendif (f : LMask) (s : State) : Host.Outcome State Fault Refusal :=
  runLane (runWhole (.vendif f) [] [] 0 fun _ => do
    let t ← getTeam
    putMask 0 (t.maskReg f.vd.toNat)) s

/-- `vbreak` (12 R254): the leaving lanes go from `m0` and from every mask from D to 15. -/
def execVbreak (f : LMask) (s : State) : Host.Outcome State Fault Refusal :=
  runLane (runWhole (.vbreak f) [] [] 0 fun _ => do
    let t ← getTeam
    let a := t.maskReg f.va.toNat
    putMask 0 (t.maskReg 0 &&& ~~~a)
    (List.range (16 - f.vd.toNat)).forM fun j => putMask (f.vd.toNat + j) (t.maskReg (f.vd.toNat + j) &&& ~~~a)) s

end Sys2Proof.Machine
end

