-- ==== Sys2Proof/Machine/LaneCross.lean ====
section
/-!
DEFINITION. The cross-lane class: moves, votes, matches, reductions and scans (12 R256 to R264, 09 R201, 10 R225).
-/
namespace Sys2Proof.Machine

/-- Lanes of the team that act under a mask, ascending. -/
def Team.actors (t : Team) (m : Nat) : List Nat := setBitsOf (t.activeLanes m).toNat 1024

/-- Lanes of the team that are not dead, ascending. -/
def Team.live (t : Team) : List Nat := setBitsOf (allLanes t.n &&& ~~~t.l.dead).toNat 1024

/-- A lane's value of a register or register pair, and whether a word of it is poisoned: its registers and the address of the
poisoned word. -/
def readMove (wide : Bool) (r lane : Nat) : M (List Word32 × Option Nat) := do
  let s ← get
  let t := s.cur
  let c := s.core t.core
  let rs := if wide then [r, r + 1] else [r]
  let vs := rs.map fun r => t.regLane c r lane
  let bad := (rs.zip vs).find? fun v => v.2.2
  return (vs.map (·.1), bad.map fun v => t.regAddr v.1 (lane / 32) (lane % 32))

/-- Deliver values to lanes of a register or pair, all at once; a reader of a poisoned value dies (09 R201, 22 R375). -/
def deliver (wide : Bool) (vd mask : Nat) (moves : List (Nat × Nat × Nat)) : M Unit := do
  let got ← moves.mapM fun m => do return (m.1, ← readMove wide m.2.1 m.2.2)
  (got.filterMap fun g => g.2.2.map fun a => (g.1, a)).forM fun q => killLane q.1 q.2
  let ok := got.filter fun g => g.2.2.isNone
  ownDsts (under mask (if wide then [vd, vd + 1] else [vd])) (ok != [])
  writeByLane vd (ok.map fun g => (g.1, g.2.1.getD 0 0))
  if wide then writeByLane (vd + 1) (ok.map fun g => (g.1, g.2.1.getD 1 0))

/-- Registers a move writes. -/
def crossDsts (f : LCross) : List Nat := regsOf f.fmt f.vd
def crossWide (f : LCross) : Bool := f.fmt == 0x1C

/-- Read every source lane word (09 R202). -/
def countSources (regs : List Nat) : M Unit := do
  let n := (← getTeam).n
  (List.range n).forM fun w => countReads regs w

/-- A move that gives each acting reader the value of a source lane, or its own fallback (12 R258). A reader whose index, in `index`, is
poisoned dies (22 R375). -/
def shuffleWord (i : Instr) (f : LCross) (index : List Nat) (source : Team → Nat → M Nat) (member : Team → Nat → Bool) : M Unit :=
  runWhole i [f.mask.toNat] (under f.mask.toNat (crossDsts f)) 0 fun _ => do
    let t ← getTeam
    if t.actors f.mask.toNat = [] then return
    countSources (regsOf f.fmt f.va)
    let acting ← index.foldlM (fun ls r => soundOf r ls) (t.actors f.mask.toNat)
    let t ← getTeam
    let moves ← acting.mapM fun l => do
      let s ← source t l
      return if decide (s < 32 * t.n) && member t s && !t.isDead s then (l, f.va.toNat, s) else (l, f.vc.toNat, l)
    deliver (crossWide f) f.vd.toNat f.mask.toNat moves

/-- `vshfl` (12 R258). -/
def execVshfl (f : LCross) (s : State) : Host.Outcome State Fault Refusal :=
  runLane (shuffleWord (.vshfl f) f (if f.spc then [] else [f.vb.toNat])
    (fun t l => if f.spc then pure (t.special f.vb.toNat l).toNat else do return (← readLane f.vb.toNat l).toNat)
    (fun t q => f.imm32.toNat == 16 || bitAt (t.maskReg f.imm32.toNat).toNat q)) s

/-- `vbcast` (12 R258). -/
def execVbcast (f : LCross) (s : State) : Host.Outcome State Fault Refusal :=
  runLane (shuffleWord (.vbcast f) f [] (fun _ _ => pure (f.imm32.toNat % 1024)) (fun _ _ => true)) s

/-- `vrot` (12 R258). -/
def execVrot (f : LCross) (s : State) : Host.Outcome State Fault Refusal :=
  runLane (shuffleWord (.vrot f) f [] (fun t l => pure ((l + f.imm32.toNat) % (32 * t.n))) (fun _ _ => true)) s

/-- `vcompact` (12 R259). -/
def execVcompact (f : LCross) (s : State) : Host.Outcome State Fault Refusal :=
  runLane (runWhole (.vcompact f) [f.mask.toNat] (under f.mask.toNat (crossDsts f)) 0 fun _ => do
    let t ← getTeam
    let S := t.actors f.mask.toNat
    if S = [] then
      setRdx 0
      setE
    else
      countSources (regsOf f.fmt f.va)
      deliver (crossWide f) f.vd.toNat f.mask.toNat (t.live.mapIdx fun i d =>
        match S[i]? with
        | some q => (d, f.va.toNat, q)
        | none => (d, f.vc.toNat, d))
      setRdx S.length) s

/-- `vexpand` (12 R259). -/
def execVexpand (f : LCross) (s : State) : Host.Outcome State Fault Refusal :=
  runLane (runWhole (.vexpand f) [f.mask.toNat] (under f.mask.toNat (crossDsts f)) 0 fun _ => do
    let t ← getTeam
    let S := t.actors f.mask.toNat
    if S = [] then
      setRdx 0
      setE
    else
      countSources (regsOf f.fmt f.va)
      let D := t.live
      deliver (crossWide f) f.vd.toNat f.mask.toNat (S.mapIdx fun i l => (l, f.va.toNat, D.getD i l))
      setRdx S.length) s

/-! ## Votes and matching -/

/-- The lanes a combining instruction takes: acting, their own source word sound (22 R375). -/
def takers (f : LCross) : M (List Nat) := do
  let t ← getTeam
  countSources [f.va.toNat]
  soundOf f.va.toNat (t.actors f.mask.toNat)

/-- `vvote` (12 R260). -/
def execVvote (f : LCross) (s : State) : Host.Outcome State Fault Refusal :=
  runLane (runWhole (.vvote f) [f.mask.toNat] (under f.mask.toNat (crossDsts f)) 0 fun _ => do
    let q ← takers f
    let kind := f.vk.toNat
    if q = [] then
      setRdx (if kind = 1 ∨ kind = 2 then 1 else 0)
      setE
    else
      let vals ← q.mapM fun l => do return (l, ← readLane f.va.toNat l)
      let holds := (vals.filter fun v => v.2 != 0).map (·.1)
      let flag := fun (b : Bool) => if b then 1 else 0
      let one : Nat := match kind with
        | 0 => flag (holds != [])
        | 1 => flag (holds.length == q.length)
        | _ => flag (vals.all fun v => v.2 == (vals.map (·.2)).headD 0)
      ownDsts (under f.mask.toNat (crossDsts f)) true
      if kind = 3 then
        let m := maskOfLanes holds
        writeByLane f.vd.toNat (q.map fun l => (l, maskWord m (l / 32)))
        setRdx holds.length
      else
        writeByLane f.vd.toNat (q.map fun l => (l, BitVec.ofNat 32 one))
        setRdx one) s

/-- `vmatch` (12 R261). -/
def execVmatch (f : LCross) (s : State) : Host.Outcome State Fault Refusal :=
  runLane (runWhole (.vmatch f) [f.mask.toNat] (under f.mask.toNat (crossDsts f)) 0 fun _ => do
    let q ← takers f
    let vals ← q.mapM fun l => do return (l, ← readLane f.va.toNat l)
    ownDsts (under f.mask.toNat (crossDsts f)) (vals != [])
    writeByLane f.vd.toNat (vals.map fun v =>
      (v.1, BitVec.ofNat 32 (vals.foldl (fun acc u => if u.1 / 32 = v.1 / 32 ∧ u.2 = v.2 then acc ||| 2 ^ (u.1 % 32) else acc) 0)))) s

/-! ## Reductions and scans (12 R262 to R264) -/

/-- Width and elements of a format of reductions: two for the packed pairs, else one. -/
def redShape (fmt : Nat) : Nat × Nat := if fmt = 0x01 ∨ fmt = 0x05 then (16, 2) else if fmt = 0x03 ∨ fmt = 0x04 then (16, 1) else (32, 1)

/-- The float format of a reduction. -/
def redFmt (fmt : Nat) : FFmt := if fmt = 0x02 then fp32 else if fmt = 0x03 then fp16 else bf16

/-- An integer operator on elements of `w` bits (12 R262). -/
def redInt (rop w a b : Nat) : Nat :=
  match rop with
  | 0 => (a + b) % 2 ^ w
  | 1 => a &&& b
  | 2 => a ||| b
  | 3 => a ^^^ b
  | 4 => if sintOf w a < sintOf w b then b else a
  | 5 => if sintOf w a < sintOf w b then a else b
  | 6 => if a < b then b else a
  | _ => if a < b then a else b

/-- An element with the flags its combining raised. -/
structure RedVal where
  code : Nat
  o : Bool
  n : Bool
  deriving DecidableEq, Repr

/-- A float operator, rounded to nearest even (12 R262, 10 R225). -/
def redFloat (rop : Nat) (ft : FFmt) (a b : Nat) : Rounded :=
  let x := decodeF ft a
  let y := decodeF ft b
  match rop with
  | 8 => roundF ft .rne false 0 (x.add .rne y).exact
  | 9 => roundF ft .rne false 0 (x.max y).exact
  | _ => roundF ft .rne false 0 (x.min y).exact

/-- Combine two elements, keeping the flags. -/
def combineRed (float : Bool) (rop fmt : Nat) (a b : RedVal) : RedVal :=
  if float then
    let r := redFloat rop (redFmt fmt) a.code b.code
    { code := r.code, o := a.o || b.o || r.o, n := false }
  else { code := redInt rop (redShape fmt).1 a.code b.code, o := false, n := false }

/-- Combine where either may be empty. -/
def combineOpt {α : Type} (g : α → α → α) : Option α → Option α → Option α
  | none, y => y
  | x, none => x
  | some x, some y => some (g x y)

/-- One level of the pairwise tree over lane positions (10 R225, 03 R84). -/
def treeLevel {α : Type} (g : α → α → α) : List (Option α) → List (Option α)
  | x :: y :: r => combineOpt g x y :: treeLevel g r
  | l => l

/-- The five-level tree of 32 inputs. -/
def tree32 {α : Type} (g : α → α → α) (l : List (Option α)) : Option α :=
  ((treeLevel g (treeLevel g (treeLevel g (treeLevel g (treeLevel g l))))).headD none)

/-- The input of each position of lane word `w` from the lanes that take part, below a bound. -/
def inputs (vals : List (Nat × Nat)) (w bound : Nat) : List (Option RedVal) :=
  (List.range 32).map fun p =>
    if 32 * w + p < bound then
      (vals.find? fun v => v.1 == 32 * w + p).map fun v => ({ code := v.2, o := false, n := false } : RedVal)
    else none

/-- The combination of the lanes below a bound, in tree and lane-word order (10 R225). -/
def combineBelow (g : RedVal → RedVal → RedVal) (vals : List (Nat × Nat)) (n bound : Nat) : Option RedVal :=
  (List.range n).foldl (fun acc w => combineOpt g acc (tree32 g (inputs vals w bound))) none

/-- The identity of an operator in an element (12 R264). -/
def redIdentity (rop fmt : Nat) : Nat :=
  let w := (redShape fmt).1
  match rop with
  | 1 => 2 ^ w - 1
  | 7 => 2 ^ w - 1
  | 4 => 2 ^ (w - 1)
  | 5 => 2 ^ (w - 1) - 1
  | 9 => signBit (redFmt fmt) true + infCode (redFmt fmt)
  | 10 => infCode (redFmt fmt)
  | _ => 0

/-- Place elements in a lane. -/
def placeRed (w : Nat) (l : List Nat) : Nat := l.foldr (fun c acc => c % 2 ^ w + 2 ^ w * acc) 0

/-- A code is NaN. -/
def redNan (float : Bool) (fmt code : Nat) : Bool := float && (decodeF (redFmt fmt) code).isNan

/-- A reduction or scan: `bounds` gives for each taking lane the bound of what it combines (12 R262, R263). -/
def reduceWord (i : Instr) (f : LCross) (float : Bool) (bound : Option (Nat → Nat)) : M Unit :=
  runWhole i [f.mask.toNat] (under f.mask.toNat (crossDsts f)) 0 fun _ => do
    let q ← takers f
    let n := (← getTeam).n
    let rop := f.rop.toNat
    let fmt := f.fmt.toNat
    let (w, e) := redShape fmt
    let g := combineRed float rop fmt
    let ident := redIdentity rop fmt
    if q = [] then
      setRdx (placeRed w (List.replicate e ident))
      setE
    else
      let vals ← q.mapM fun l => do return (l, ← readLane f.va.toNat l)
      let canon := fun (c : Nat) => if float then (roundF (redFmt fmt) .rne false 0 (decodeF (redFmt fmt) c).exact).code else c
      let cols := (List.range e).map fun j => vals.map fun v => (v.1, canon (elem w j v.2))
      let total := cols.map fun c => (combineBelow g c n (32 * n)).getD { code := ident, o := false, n := false }
      let lane := fun (l : Nat) => match bound with
        | none => total
        | some b => cols.map fun c => (combineBelow g c n (b l)).getD { code := ident, o := false, n := false }
      let outs := q.map fun l => (l, lane l)
      ownDsts (under f.mask.toNat (crossDsts f)) true
      writeByLane f.vd.toNat (outs.map fun o => (o.1, BitVec.ofNat 32 (placeRed w (o.2.map (·.code)))))
      setRdx (placeRed w (total.map (·.code)))
      let all := total ++ outs.flatMap (·.2)
      addFlags (all.any (·.o)) (all.any fun r => redNan float fmt r.code)

/-- `vred` (12 R262). -/
def execVred (f : LCross) (s : State) : Host.Outcome State Fault Refusal := runLane (reduceWord (.vred f) f false none) s

/-- `vfred` (12 R262). -/
def execVfred (f : LCross) (s : State) : Host.Outcome State Fault Refusal := runLane (reduceWord (.vfred f) f true none) s

/-- The bound of a scan: up to the lane, or strictly below it (12 R263). -/
def scanBound (exc : Bool) (l : Nat) : Nat := if exc then l else l + 1

/-- `vscan` (12 R263). -/
def execVscan (f : LCross) (s : State) : Host.Outcome State Fault Refusal :=
  runLane (reduceWord (.vscan f) f false (some (scanBound f.exc))) s

/-- `vfscan` (12 R263). -/
def execVfscan (f : LCross) (s : State) : Host.Outcome State Fault Refusal :=
  runLane (reduceWord (.vfscan f) f true (some (scanBound f.exc))) s

end Sys2Proof.Machine
end

