-- ==== Sys2Proof/Machine/Cascade.lean ====
section
/-!
DEFINITION. The Cascade: reductions, loads, stores and clones of compute rows (03 R84 to R91).
-/
namespace Sys2Proof.Machine

/-! ## Operators (03 R85) -/

/-- An element of the tree: its value, or the pair (m, s), and whether a node overflowed. -/
structure CascVal where
  m : Nat
  s : Nat
  o : Bool
  deriving DecidableEq, Repr

/-- `s × 2^(mi − m)`: the power is rounded to FP32, the product is exact. -/
def scaledPart (mi m s : Num) : Num :=
  if mi.ieeeEq m then s
  else s.mul (decodeF fp32 (roundF fp32 .rne false 0 (exp2Exact (mi.add .rne m.negate))).code)

/-- COP 2 on two pairs. -/
def cascXsum (a b : CascVal) : CascVal :=
  let m1 := decodeF fp32 a.m
  let m2 := decodeF fp32 b.m
  let s1 := decodeF fp32 a.s
  let s2 := decodeF fp32 b.s
  if m1.isNan || m2.isNan || s1.isNan || s2.isNan then { m := canonNan fp32, s := canonNan fp32, o := a.o || b.o }
  else
    let m := m1.max m2
    let r := roundF fp32 .rne false 0 ((scaledPart m1 m s1).add .rne (scaledPart m2 m s2)).exact
    { m := (roundF fp32 .rne false 0 m.exact).code, s := r.code, o := a.o || b.o || r.o }

/-- Combine(a, b) of a command (03 R85). -/
def cascCombine (cop : Nat) (float sat : Bool) (a b : CascVal) : CascVal :=
  if cop = 2 then cascXsum a b
  else if float then
    let r := redFloat (if cop = 0 then 8 else 9) fp32 a.m b.m
    { m := r.code, s := 0, o := a.o || b.o || (cop == 0 && r.o) }
  else if cop = 1 then { m := redInt 4 32 a.m b.m, s := 0, o := false }
  else if sat then
    let r := clampInt 32 true (sintOf 32 a.m + sintOf 32 b.m)
    { m := lowBits 32 r.1, s := 0, o := a.o || b.o || r.2 }
  else { m := (a.m + b.m) % 2 ^ 32, s := 0, o := false }

/-! ## Checks (03 R88) -/

/-- Bytes from one pseudo-channel to the next. -/
def chanBytes : Nat := 0x400000

/-- A fault of a Cascade command: the address, and its compute-row address when it was formed. -/
def cascFault {α : Type} (code : Nat) (va : Word64) (cra : Nat) : M α := laneTrap code va (BitVec.ofNat 64 cra)

/-- What a command's compute-row address must not be, by the kind of the command (03 R88 check 4). -/
inductive CascKind where
  | word | reduce | pairs | clone
  deriving DecidableEq, Repr

def badCra (k : CascKind) (cra : Nat) : Bool :=
  decide (bits cra 10 5 ≠ 0) ||
    (match k with
     | .word => decide (cra % 4 ≠ 0)
     | .reduce => decide (cra % 128 ≠ 0)
     | .pairs => decide (cra % 128 ≠ 0) || bitAt cra 9
     | .clone => decide (cra % 1024 ≠ 0))

/-- Checks 1 to 4 of an address; `last` is the last lane word the mask reaches. Its whole row of 32 banks must lie in the window,
whichever of them take part (log 100, DESIGN CHOICE). Template pages admit no command (15 R314). The answer is the compute-row
address, with the page and window it came through (05 R125). -/
def checkCascade (a : Access) (t : Team) (va : Word64) (k : CascKind) (last : Nat) : M (Nat × Nat × Nat) := do
  let a := { a with src := 1, priv := t.blk.priv, size := 1 }
  checkVa a va
  let p ← translate a t va
  match t.pageKind va with
  | .template _ => tmplAcc a va
  | _ => pure ()
  if Win.enc p.desc then cascFault Code.enccmd va 0
  if !Win.crow p.desc then cascFault Code.notcrow va 0
  let cra := craOf p.la
  let top := p.la / 32768 * 32768 + last * chanBytes + 32768
  if 11 < cra / 2 ^ 28 ∨ 11 < (cra + last * chanBytes) / 2 ^ 28 ∨ Win.lbase p.desc + Win.lsize p.desc * 1024 < top
      ∨ badCra k cra = true then cascFault Code.craddr va cra
  return (cra, va.toNat / 4096, p.win)

/-! ## Commands (03 R87, R89) -/

/-- The command of the team whose passes are still to come. -/
def State.growingCascade (s : State) (uid : Nat) : Option Cascade := s.cascades.find? fun c => c.uid == uid && c.growing

/-- An operation number for a command without a pass (03 R89): it is complete at once. -/
def emptyCommand : M Unit := do
  let n ← timelineNext 7
  let t ← getTeam
  timelineEnd t.uid 7 n

/-- Compute rows that a command names: those of its active banks in every lane word of its pass set, and the rows a clone copies
(03 R81). -/
def Team.cascadeRows (t : Team) (mask base : Nat) (src : Option Nat) : List Nat :=
  (match t.l.passes with | some p => passList p | none => []).flatMap fun w =>
    (lanesOf (t.active mask w)).flatMap fun k =>
      let row := fun (c : Nat) => (c + w * chanBytes + k * 1024) / 1024
      row base :: (match src with | some c => [row c] | none => [])

/-- What a command's checks find (03 R86, R88): its address, a clone's source, and the pages and windows they came through. -/
abbrev CascPlace := Nat × Option Nat × List (Nat × Nat)

/-- The command in flight, issued at its first pass once its checks have passed (03 R88, R89). -/
def command (mask : Nat) (checks : Team → Nat → M CascPlace) : M Cascade := do
  let t ← getTeam
  match (← get).growingCascade t.uid with
  | some c => return c
  | none =>
    let ps := match t.l.passes with | some p => passList p | none => []
    let (base, src, via) ← checks t (ps.getLast?.getD 0)
    let n ← timelineNext 7
    let c : Cascade := { uid := t.uid, ctx := t.id.ctx, num := n, base := base, src := src.getD 0, queue := [], growing := true, via := via
                         named := (t.cascadeRows mask base src).eraseDups }
    modify fun s => { s with cascades := s.cascades ++ [c] }
    return c

def Cascade.is (c : Cascade) (uid num : Nat) : Bool := decide (c.uid = uid ∧ c.num = num)

/-- Change a command. -/
def onCascade (uid num : Nat) (f : Cascade → Cascade) : M Unit :=
  modify fun s => { s with cascades := s.cascades.map fun c => if c.is uid num then f c else c }

/-- A command is complete at every bank: its number ends on tl7 (03 R89). -/
def endCascade (uid num : Nat) : M Unit := do
  modify fun s => { s with cascades := s.cascades.filter fun c => !c.is uid num }
  timelineEnd uid 7 num

/-- Sectors of compute rows that an effect writes, by their first bytes. -/
def RowEffect.writes : RowEffect → List Nat
  | .bytes a _ _ => [a]
  | .fill a _ => (List.range 32).map fun i => a + 32 * i
  | .copy _ dst => (List.range 32).map fun i => dst + 32 * i

/-- The home-slice copies of what effects will write are invalidated (03 R83). -/
def State.dropWritten (s : State) (es : List RowEffect) : State := (es.flatMap RowEffect.writes).foldl State.dropCopies s

/-- The pseudo-channel's queue accepts a pass, after the invalidation (03 R83, R89). -/
def acceptPass (c : Cascade) (chan : Nat) (effects : List RowEffect) : M Unit := do
  let st ← nextStamp
  modify fun s => s.dropWritten effects
  onCascade c.uid c.num fun d => { d with queue := d.queue ++ [{ chan := chan, stamp := st, effects := effects }] }

/-- A pass of a command reads rows of a pseudo-channel, as a request of its queue (03 R76, R77). -/
def readRows (c : Cascade) (chan : Nat) (rows : List Nat) : M Unit := do
  rowRead (laneLoad.asker (← getTeam)) chan rows (some (c.uid, c.num))

/-- The last pass is done: a load or reduction has its data and is complete; a store or clone completes at its banks. -/
def lastPass (c : Cascade) (loads : Bool) : M Unit := do
  let t ← getTeam
  let ps := match t.l.passes with | some p => passList p | none => []
  if t.l.pix + 1 = ps.length then
    onCascade c.uid c.num fun d => { d with growing := false }
    if loads || (match (← get).cascades.find? fun d => d.is c.uid c.num with | some d => d.queue == [] | none => false) then
      endCascade c.uid c.num

/-- A Cascade word: `body` does the pass of a lane word at its compute-row address (03 R87). -/
def cascadeWord (i : Instr) (f : LMat) (dsts : List Nat) (loads : Bool) (checks : Team → Nat → M CascPlace)
    (body : Cascade → Nat → Nat → M Unit) : M Unit := do
  let ps ← beginPasses i [f.mask.toNat]
  if ps = [] then emptyCommand
  runPasses i [f.mask.toNat] (under f.mask.toNat dsts) 0 fun w => do
    let c ← command f.mask.toNat checks
    let cw := c.base + w * chanBytes
    if loads then readRows c (chanOf cw) ((lanesOf ((← getTeam).active f.mask.toNat w)).map fun k => cw / 1024 + k)
    body c w cw
    lastPass c loads

/-- The address a command samples (03 R86). -/
def cascadeAddr (f : LMat) : M Word64 := do return (← sampled f.va.toNat) + sext64 f.imm32

/-- Checks of a command with one address. -/
def oneAddress (a : Access) (f : LMat) (k : CascKind) (t : Team) (last : Nat) : M CascPlace := do
  let (base, via) ← checkCascade a t (← cascadeAddr f) k last
  return (base, none, [via])

/-- A compute-row sector is poisoned. -/
def State.rowBad (s : State) (cra : Nat) : Bool := Table.get false s.crowBad (cra / 32)

/-- `vnrld` (03 R87). -/
def execVnrld (f : LMat) (s : State) : Host.Outcome State Fault Refusal :=
  runLane (cascadeWord (.vnrld f) f [f.vd.toNat] true (oneAddress laneLoad f .word) fun _ w cw => do
    let t ← getTeam
    let s ← get
    let got := (lanesOf (t.active f.mask.toNat w)).map fun p =>
      let a := cw + p * 1024
      (32 * w + p, s.crow.readN a 4, s.rowBad a, a)
    let vals ← killPoisoned got
    writeValues 0 f.vd.toNat f.mask.toNat w vals) s

/-- `vnrst` (03 R87). -/
def execVnrst (f : LMat) (s : State) : Host.Outcome State Fault Refusal :=
  runLane (cascadeWord (.vnrst f) f [] false (oneAddress laneStore f .word) fun c w cw => do
    countReads [f.vb.toNat] w
    let t ← getTeam
    let m ← soundLanes [f.vb.toNat] w (t.active f.mask.toNat w)
    let es ← (lanesOf m).mapM fun p => do
      return RowEffect.bytes (cw + p * 1024) 4 (← readLane f.vb.toNat (32 * w + p)).toNat
    acceptPass c (chanOf cw) es) s

/-- Checks of a clone: the source's first, then the destination's, then CRCLONE (03 R88). -/
def cloneChecks (f : LMat) (t : Team) (last : Nat) : M CascPlace := do
  let dst ← sampled f.vd.toNat
  if f.cop = 0 then
    let (src, from_) ← checkCascade laneLoad t (← sampled f.va.toNat) .clone last
    let (base, into) ← checkCascade laneStore t dst .clone last
    if bits base 22 10 ≠ bits src 22 10 ∨ base / 1024 = src / 1024 then cascFault Code.crclone dst base
    return (base, some src, [from_, into])
  else
    let (base, into) ← checkCascade laneStore t dst .clone last
    return (base, none, [into])

/-- `vnrclone` (03 R87). -/
def execVnrclone (f : LMat) (s : State) : Host.Outcome State Fault Refusal :=
  runLane (cascadeWord (.vnrclone f) f [] false (cloneChecks f) fun c w cw => do
    let t ← getTeam
    let es := (lanesOf (t.active f.mask.toNat w)).map fun k =>
      if f.cop = 0 then RowEffect.copy (c.src + w * chanBytes + k * 1024) (cw + k * 1024)
      else RowEffect.fill (cw + k * 1024) (f.cop == 2)
    acceptPass c (chanOf cw) es) s

/-- The inputs of element `j` of a reduction: the banks that take part (03 R87). -/
def cascadeInputs (s : State) (cop : Nat) (m : BitVec 32) (cw j : Nat) : List (Option CascVal) :=
  (List.range 32).map fun k =>
    if bitAt m.toNat k then
      let a := cw + k * 1024 + 4 * j
      some { m := s.crow.readN a 4, s := if cop = 2 then s.crow.readN (a + 512) 4 else 0, o := false }
    else none

/-- The address of a poisoned element that would go into element `j`. -/
def cascadePoison (s : State) (cop : Nat) (m : BitVec 32) (cw j : Nat) : Option Nat :=
  (lanesOf m).findSome? fun k =>
    let a := cw + k * 1024 + 4 * j
    if s.rowBad a then some a else if cop = 2 ∧ s.rowBad (a + 512) = true then some (a + 512) else none

/-- A reduction of one lane word (03 R87): every lane that is not dead receives its element. -/
def reducePass (f : LMat) (w cw : Nat) : M Unit := do
  let t ← getTeam
  let s ← get
  let cop := f.cop.toNat
  let float := f.fmt == 0x02
  let m := t.active f.mask.toNat w
  let live := (List.range 32).filter fun j => !bitAt t.l.dead.toNat (32 * w + j)
  if m = 0 then setE
  else
    let got := live.filterMap fun j =>
      (tree32 (cascCombine cop float f.sat) (cascadeInputs s cop m cw j)).map fun v => (j, v, cascadePoison s cop m cw j)
    got.forM fun g => match g.2.2 with | some a => killLane (32 * w + g.1) a | none => pure ()
    let ok := got.filter fun g => g.2.2.isNone
    ownDsts (under f.mask.toNat (if cop = 2 then pairOf f.vd else [f.vd.toNat])) (ok != [])
    writeLanes f.vd.toNat w (ok.map fun g => (g.1, BitVec.ofNat 32 g.2.1.m))
    if cop = 2 then writeLanes (f.vd.toNat + 1) w (ok.map fun g => (g.1, BitVec.ofNat 32 g.2.1.s))
    let isNan := fun (c : Nat) => (decodeF fp32 c).isNan
    addFlags (ok.any fun g => g.2.1.o) (float && ok.any fun g => isNan g.2.1.m || (cop == 2 && isNan g.2.1.s))

/-- `vnrred` (03 R87). -/
def execVnrred (f : LMat) (s : State) : Host.Outcome State Fault Refusal :=
  runLane (cascadeWord (.vnrred f) f (if f.cop = 2 then pairOf f.vd else [f.vd.toNat]) true
    (oneAddress laneLoad f (if f.cop = 2 then .pairs else .reduce)) fun _ w cw => reducePass f w cw) s

/-! ## Completion (03 R89, R83) -/

/-- What a completed pass leaves in the compute rows. A word of a poisoned sector leaves the sector poisoned. -/
def RowEffect.apply (e : RowEffect) (s : State) : State :=
  match e with
  | .bytes a n v => { s with crow := s.crow.writeN a v n }
  | .fill a ones =>
    { s with
      crow := if ones then s.crow.writeN a (2 ^ 8192 - 1) 1024 else Memory.clear s.crow a 1024
      crowBad := s.crowBad.filter fun p => !(decide (a / 32 ≤ p.1 ∧ p.1 < a / 32 + 32)) }
  | .copy src dst =>
    { s with
      crow := Memory.copy s.crow src dst 1024
      crowBad := (List.range 32).foldl (fun (t : Table Bool) i =>
        Table.set false t (dst / 32 + i) (Table.get false s.crowBad (src / 32 + i))) s.crowBad }

/-- The rows of a base die that an effect opens: a store its row; a clone opens its rows at once (03 R77, R87). -/
def RowEffect.activate (e : RowEffect) (s : State) : State :=
  match e with
  | .bytes _ _ _ => s.touchRows e.rows
  | _ => { s with dev := { s.dev with rows := s.dev.rows.multi s.dev.distThr (e.rows.map .compute) } }

/-- A pass of a command as a request to its pseudo-channel. -/
def CascPass.request (q : CascPass) (uid num : Nat) : RowReq :=
  { stamp := q.stamp, rows := (q.effects.flatMap RowEffect.rows).eraseDups, cmd := some (uid, num) }

/-- A pass executes at its banks: copies dropped, rows opened, effects done (03 R77, R83, R87). -/
def CascPass.perform (q : CascPass) (s : State) : State :=
  q.effects.foldl (fun s e => e.apply (e.activate s)) (s.dropWritten q.effects)

/-- CASCADE_COMPLETE (03 R89): the first pass of a command that its pseudo-channel serves now executes at its banks, in the order of
the team's commands at each pseudo-channel; after the last pass of the command its number ends on tl7. -/
def cascadeComplete (team num : Nat) : M Unit := do
  let s ← get
  match s.cascades.find? fun c => c.is team num with
  | none => enabled false
  | some c =>
    match c.queue.find? fun q => s.mayServe q.chan (q.request team num) with
    | none => enabled false
    | some q =>
      modify fun s => s.servedRow q.chan q.stamp
      onCascade team num fun d => { d with queue := d.queue.filter fun o => o.stamp != q.stamp }
      modify q.perform
      if !c.growing && c.queue.length == 1 then endCascade team num
def execCascadeComplete (team num : Nat) (s : State) : Host.Outcome State Fault Refusal := runEventOf team (cascadeComplete team num) s

end Sys2Proof.Machine
end

