-- ==== Sys2Proof/Machine/Launches.lean ====
section
/-!
DEFINITION. From the launch ring to the cores (16 R328 to R339): the sealed slot, the checks of a launch, dependences,
placement, rebalancing, pre-emption and restore of a launch, and its completion.
-/
namespace Sys2Proof.Machine

/-! ## The launch window (16 R328, R329) -/

/-- A launch counts for its queue until it is complete (16 R332). -/
def State.inQueue (s : State) (tenant queue : Nat) : List Launch :=
  s.launches.filter fun l => l.tenant == tenant && l.queue == queue

def Launch.fresh (id tenant queue slot : Nat) (record : BitVec 1024) : Launch :=
  { id := id, tenant := tenant, queue := queue, slot := slot, record := record, kdesc := 0, status := .sealed_, code := 0, reason := 0
    dep0 := false, dep1 := false, placed := false, origin := 0, stages := [], queues := [], failed := 0, nonzero := 0
    first := noTask, held := false, stopping := false, imageAt := [], bound := none, mismatched := [], suspects := [] }

/-- The value of SEAL that seals a slot in a lap (16 R328). -/
def sealValue (lap : Nat) : Byte := if lap % 2 = 0 then 0x80 else 0x81

/-- SEAL_OBSERVED (16 R328): the monitor copies the next slot of a ring once it is sealed, and frees the slot. -/
def sealObserved (tenant queue : Nat) : M Unit := do
  let s ← get
  let r := Table.get Ring.init s.dev.rings (8 * tenant + queue)
  let a := r.base + 128 * r.next
  enabled (s.dev.enable && decide (tenant < 16 ∧ queue < 8 ∧ r.slots ≠ 0) && s.host.read (a + 127) == sealValue r.lap
    && decide (s.launches.length < 256 ∧ (s.inQueue tenant queue).length < 8))
  let id ← nextStamp
  let l := Launch.fresh id tenant queue r.next (BitVec.ofNat 1024 (s.host.readN a 128))
  let wrap := decide (r.next + 1 = r.slots)
  let r' := { r with next := if wrap then 0 else r.next + 1, lap := if wrap then r.lap + 1 else r.lap }
  modify fun s =>
    { s with
      host := s.host.write (a + 127) 0
      launches := s.launches ++ [l]
      dev := { s.dev with rings := Table.set Ring.init s.dev.rings (8 * tenant + queue) r' } }
def execSealObserved (tenant queue : Nat) (s : State) : Host.Outcome State Fault Refusal := runEventOf 0 (sealObserved tenant queue) s

/-! ## The checks of a launch (16 R330, R331, R333) -/

def Launch.dep (l : Launch) (k : Nat) : Nat := l.word (6 + 2 * k)
def Launch.depVal (l : Launch) (k : Nat) : Nat := l.word (7 + 2 * k)

/-- Shares of `C` clusters by weight (16 R336 steps 1 to 3). -/
def dealShares (C : Nat) (ws : List Nat) : List Nat :=
  let W := ws.foldl (· + ·) 0
  let floors := ws.map fun w => C * w / W
  let left := C - floors.foldl (· + ·) 0
  let frac := fun (k : Nat) => C * ws.getD k 0 % W
  let rank := fun (k : Nat) => ((List.range ws.length).filter fun j => decide (frac j > frac k ∨ (frac j = frac k ∧ j < k))).length
  let shares := floors.mapIdx fun k n => if rank k < left then n + 1 else n
  (List.range ws.length).foldl (fun (sh : List Nat) k =>
    if sh.getD k 0 ≠ 0 then sh
    else
      let most := (List.range sh.length).foldl (fun j i => if sh.getD j 0 < sh.getD i 0 then i else j) 0
      (sh.set most (sh.getD most 0 - 1)).set k 1) shares

/-- Clusters of each stage, counted (16 R336). -/
def Launch.shares (l : Launch) : List Nat := dealShares (l.prows * l.pcols) ((List.range l.nstage).map l.swt)

/-- A counter is valid and the tenant's (24 R398); an entry with a non-zero checked field names no counter (log 98). -/
def State.ownsCounter (s : State) (tenant k : Nat) : Bool :=
  let e := s.ctrEntry k
  Ctr.valid e && counterZero e.toNat && Ctr.tenant e == tenant

/-- A context is in use and the tenant's (24 R399); one with a non-zero checked field is not in use (log 98). -/
def State.ownsContext (s : State) (tenant c : Nat) : Bool :=
  let d := s.context c
  Ctx.valid d && Ctx.zeroFields d && Ctx.tenant d == tenant

/-- REASON 1 (16 R330, 22 R383): a checked field is not zero or a field is outside its range. The seal at byte 127 is no
checked field (log 16). -/
def Launch.badRecord (l : Launch) : Bool :=
  let w := l.word
  decide (bits (w 2) 32 32 ≠ 0) || decide (bits (w 3) 0 20 ≠ 0) || decide (bits (w 4) 60 4 ≠ 0) || decide (bits (w 5) 24 40 ≠ 0)
    || decide (bits (w 6) 12 51 ≠ 0) || decide (bits (w 8) 12 51 ≠ 0) || decide (bits (w 10) 12 51 ≠ 0)
    || decide (bits (w 12) 0 46 ≠ 0) || decide (w 14 ≠ 0) || decide (bits (w 15) 8 48 ≠ 0)
    || decide (w 0 % 128 ≠ 0) || decide (w 11 % 32 ≠ 0)
    || decide (l.nx = 0 ∨ l.ny = 0 ∨ l.nz = 0)
    || !decide (1 ≤ l.prows ∧ l.prows ≤ 4) || !decide (1 ≤ l.pcols ∧ l.pcols ≤ 12) || !decide (1 ≤ l.nstage ∧ l.nstage ≤ 8)
    || ((List.range 8).any fun k => if k < l.nstage then decide (l.swt k = 0) else decide (l.swt k ≠ 0))
    || ((List.range 7).any fun k => decide (l.nstage ≤ k + 1) && decide (l.qcap k ≠ 1))
    || (l.paired && decide (l.pcols % 2 ≠ 0 ∨ l.nstage ≠ 1))

/-- REASON 2: ownership. -/
def State.badOwner (s : State) (l : Launch) : Bool :=
  decide (l.recTenant ≠ l.tenant ∨ l.recQueue ≠ l.queue) || !s.ownsContext l.recTenant l.ctx
    || (l.hasCctr && !s.ownsCounter l.recTenant l.cctr)
    || ((List.range 2).any fun k => bitAt (l.dep k) 63 && !s.ownsCounter l.recTenant (bits (l.dep k) 0 12))

/-- The kernel descriptor is malformed (16 R331). -/
def Launch.badKernel (l : Launch) : Bool :=
  let k := l.kword
  let tp := l.tpages
  let sp := bits (k 10) 0 8
  decide (k 0 % 64 ≠ 0) || decide (k 1 % 64 ≠ 0) || decide (k 3 % 4096 ≠ 0) || decide (tp = 0 ∧ k 2 ≠ 0) || decide (64 < tp)
    || !decide (1 ≤ l.nreg8 ∧ l.nreg8 ≤ 16) || decide (bits (k 4) 0 44 ≠ 0)
    || ((List.range 8).any fun i => decide (l.nstage ≤ i ∧ l.stent i ≠ 0))
    || decide (k 9 % 4096 ≠ 0) || decide (sp = 0 ∧ k 9 ≠ 0) || decide (bits (k 10) 8 56 ≠ 0) || decide (128 < sp)
    || ((List.range 5).any fun i => decide (k (11 + i) ≠ 0))
    || decide (tp ≠ 0 ∧ sp ≠ 0 ∧ k 9 < k 3 + 4096 * tp ∧ k 3 < k 9 + 4096 * sp)

/-- The shape checks of REASON 4, 5 and 6, in order; 0 when all pass. -/
def Launch.shapeReason (l : Launch) : Nat :=
  if 2 ^ 32 - 256 ≤ l.total then 4
  else if l.prows * l.pcols < l.nstage then 5
  else if l.gang && l.shares.any (fun n => decide (64 * n < l.total)) then 6
  else 0

/-- The kernel descriptor of a launch; none where the read faults or meets poison (16 R333 reason 3). -/
def readKernel (l : Launch) : M (Option (BitVec 1024)) :=
  tryCatch (do
      let d ← deviceRead l.ctx 0 (l.word 0) 128
      return if d.any (·.poison) then none else some (BitVec.ofNat 1024 (joinBytes d)))
    (fun e => match e with
      | .trap _ => pure none
      | e => throw e)

/-- A launch is refused (16 R332). -/
def refuse (id reason : Nat) : M Unit :=
  modify fun s => s.onLaunch id fun l => { l with status := .completing, code := 1, reason := reason }

/-- LAUNCH_PARSE (16 R333): the checks in order, in ring order. -/
def launchParse (id : Nat) : M Unit := do
  match (← get).launch? id with
  | none => enabled false
  | some l =>
    let s ← get
    enabled (l.status == .sealed_ && (s.inQueue l.tenant l.queue).all fun o => o.status != .sealed_ || decide (l.id ≤ o.id))
    if l.badRecord then refuse id 1
    else if s.badOwner l then refuse id 2
    else match ← readKernel l with
      | none => refuse id 3
      | some k =>
        let l := { l with kdesc := k }
        if l.badKernel then refuse id 3
        else if l.shapeReason ≠ 0 then refuse id l.shapeReason
        else
          modify fun s => s.onLaunch id fun o => { o with kdesc := k, status := .waiting }
          if Ctx.term (s.context l.ctx) then failLaunch id 4 true
def execLaunchParse (launch : Nat) (s : State) : Host.Outcome State Fault Refusal := runEventOf 0 (launchParse launch) s

/-! ## Dependences (16 R332) -/

/-- Dependence `k` is satisfied by the counters as they stand. -/
def State.depMet (s : State) (l : Launch) (k : Nat) : Bool :=
  !bitAt (l.dep k) 63 || decide (l.depVal k ≤ (s.counter (bits (l.dep k) 0 12)).toNat)

/-- The oldest launch of its queue that has not been placed. -/
def State.oldestWaiting (s : State) (l : Launch) : Bool :=
  (s.inQueue l.tenant l.queue).all fun o =>
    decide (l.id ≤ o.id) || !(o.status == .sealed_ || o.status == .waiting || o.status == .ready)

/-- DEPENDENCE_SATISFIED (16 R332): each dependence, once satisfied, stays so; with all of them the launch is Ready. -/
def dependenceSatisfied (id : Nat) : M Unit := do
  match (← get).launch? id with
  | none => enabled false
  | some l =>
    let s ← get
    let d0 := l.dep0 || s.depMet l 0
    let d1 := l.dep1 || s.depMet l 1
    enabled (l.status == .waiting && s.oldestWaiting l && (d0 != l.dep0 || d1 != l.dep1 || (d0 && d1)))
    modify fun s => s.onLaunch id fun l => { l with dep0 := d0, dep1 := d1, status := if d0 && d1 then .ready else .waiting }
def execDependenceSatisfied (launch : Nat) (s : State) : Host.Outcome State Fault Refusal := runEventOf 0 (dependenceSatisfied launch) s

/-! ## Placement (16 R335, R336) -/

/-- The clusters of a rectangle by column, then by row (16 R336). -/
def rectClusters (prows pcols origin : Nat) : List Nat :=
  (List.range pcols).flatMap fun c => (List.range prows).map fun r => origin + 12 * r + c

/-- Clusters dealt to each stage, in order (16 R336 step 4). -/
def dealClusters (cls shares : List Nat) : List (List Nat) :=
  (shares.foldl (fun (acc : List (List Nat) × List Nat) n => (acc.1 ++ [acc.2.take n], acc.2.drop n)) ([], cls)).1

/-- The clusters of each stage of a launch placed at an origin. -/
def Launch.dealt (l : Launch) (origin : Nat) : List (List Nat) := dealClusters (rectClusters l.prows l.pcols origin) l.shares

/-- FREE banks that a team of a launch needs: its register pages and its private banks (16 R335). -/
def Launch.teamBanks (l : Launch) : Nat := pagesFor (8 * l.nreg8) l.lanes + 32 * l.privg

def coresOf (cl : Nat) : List Nat := (List.range 4).map fun i => 4 * cl + i

/-- Free team slots of a cluster. -/
def State.clusterSlots (s : State) (cl : Nat) : Nat := (coresOf cl).foldl (fun n c => n + s.freeSlots c) 0

/-- A rectangle is a candidate for a launch (16 R335). -/
def State.isCandidate (s : State) (l : Launch) (origin : Nat) : Bool :=
  decide (origin / 12 + l.prows ≤ 4 ∧ origin % 12 + l.pcols ≤ 12)
    && ((rectClusters l.prows l.pcols origin).all fun cl => decide (0 < s.clusterSlots cl))
    && (l.dealt origin).all fun cls => (coresOf (cls.headD 0)).any fun c => s.serves c && decide (l.teamBanks ≤ (s.core c).freeBanks.length)

/-- The candidate with the most free team slots, the lowest origin on a tie (16 R335). -/
def State.candidate (s : State) (l : Launch) : Option Nat :=
  let slots := fun (o : Nat) => (rectClusters l.prows l.pcols o).foldl (fun n cl => n + s.clusterSlots cl) 0
  ((List.range 48).filter fun o => s.isCandidate l o).foldl (fun best o => match best with
    | none => some o
    | some b => if slots b < slots o then some o else some b) none

/-- Launches that want a place: Ready, or swapped out and back in Ready (16 R339). -/
def Launch.wants (l : Launch) : Bool := l.status == .ready || l.status == .swapped

/-- Another launch that the dispatcher serves first and can place (16 R335). -/
def State.servedBefore (s : State) (l : Launch) : Bool :=
  s.launches.any fun o => o.wants && decide (l.prio < o.prio ∨ (l.prio = o.prio ∧ o.id < l.id)) && (s.candidate o).isSome

/-! ### The launch template's team (15 R311, 16 R336) -/

def Launch.kernelMap (l : Launch) : KernelMap :=
  let w := fun (i : Nat) => BitVec.ofNat 64 (l.kword i)
  { scode := w 0, lcode := w 1, sbase := w 9, spages := bits (l.kword 10) 0 8, tbase := w 3, tpages := l.tpages, tsrc := w 2, g := l.privg }

def Launch.teamCtl (l : Launch) : TeamCtl :=
  { nreg := l.nreg8, nlw := l.lanes, level := 2, paired := l.paired, preempt := l.preempt, gang := l.gang, prio := l.prio, dcol := 0 }

/-- Where the level-2 team of a stage goes: its core and slot, its register pages, its private region, its template pages. -/
structure TopPlan where
  core : Nat
  slot : Nat
  regs : List Nat
  priv : Nat
  tmpl : List Nat
  deriving DecidableEq, Repr

/-- A core with the banks of a plan taken for a team. -/
def TopPlan.taken (p : TopPlan) (l : Launch) (uid : Nat) (c : Core) : Core :=
  let c1 := (p.regs.foldl (fun (c : Core) b => c.take b 1 (.reg uid)) c).take p.priv (32 * l.privg) (.priv uid)
  p.tmpl.foldl (fun (c : Core) b => c.take b 1 (.stash uid)) c1

/-- The place of a stage's level-2 team on a cluster: the core with the most FREE banks, the lowest on a tie (16 R336); none where that
core has no slot, no run of banks for the private region or no banks for the template pages (log 114). -/
def State.topPlan (s : State) (l : Launch) (cl : Nat) : Option TopPlan :=
  let free := fun (c : Nat) => (s.core c).freeBanks.length
  let best := ((coresOf cl).filter s.serves).foldl (fun (b : Option Nat) c => match b with
    | none => some c
    | some k => if free k < free c then some c else some k) none
  match best with
  | none => none
  | some core =>
    let c := s.core core
    let regs := c.freeBanks.take (pagesFor (8 * l.nreg8) l.lanes)
    let c1 := regs.foldl (fun (c : Core) b => c.take b 1 (.reg 0)) c
    match c1.freeRun (32 * l.privg) 32 with
    | none => none
    | some b =>
      let c2 := c1.take b (32 * l.privg) (.priv 0)
      let tmpl := c2.freeBanks.take l.tpages
      if 0 < s.freeSlots core ∧ l.teamBanks ≤ free core ∧ tmpl.length = l.tpages
          ∧ c2.countBanks BankState.isStash + l.tpages ≤ 128 then
        some { core := core, slot := (s.freeSlot core).getD 0, regs := regs, priv := b, tmpl := tmpl }
      else none

/-- Start the level-2 team of a stage on its first cluster (15 R311, 16 R336); without a plan the placement waits (log 114). -/
def startTop (l : Launch) (stage cl : Nat) : M Unit := do
  match (← get).topPlan l cl with
  | none => waitFor .basin
  | some p =>
    let uid ← nextStamp
    let kern := l.kernelMap
    let t0 := newTeam l uid p.core p.slot stage noTask 2 kern l.teamCtl
    onCore p.core (p.taken l uid)
    let t : Team :=
      { t0 with
        s := { Scalar.init with
          pc := kern.scode + BitVec.ofNat 64 (4 * l.stent stage), phase := if p.tmpl = [] then .none else .filling }
        l := { Lane.init t0.n with pt := freshTable t0.nregs t0.npg t0.n (fun k => p.regs.getD k 0) }
        h := { Holdings.init with
          privBase := some p.priv
          copies := p.tmpl.mapIdx fun i k => (PageBank.mk i k 0 0 (BitVec.allOnes 32) []) } }
    modify fun s => { s with teams := s.teams ++ [t] }
    acquireDevice t

/-- Way 15 of the clusters of a launch with stage queues is theirs now (04 R96). -/
def State.clearWays (s : State) (id : Nat) : State :=
  match s.launch? id with
  | none => s
  | some l =>
    if l.queues = [] then s
    else (l.stages.flatMap (·.clusters)).foldl (fun (s : State) cl => s.setCluster cl (s.cluster cl).trim) s

/-- Place a Ready launch at an origin and start its stages. A stage's cores are those of its clusters that serve (22 R387). -/
def placeAt (l : Launch) (origin : Nat) : M Unit := do
  let dealt := l.dealt origin
  let s ← get
  let l1 := { l with
    status := .running, placed := true, origin := origin, held := false, stopping := false
    stages := dealt.map fun cls => { StageRun.init with clusters := cls, cores := (cls.flatMap coresOf).filter s.inService }
    queues := (List.range (l.nstage - 1)).map fun k => (StageQueue.mk (l.qcap k) [] []) }
  modify fun s => (s.onLaunch l.id fun _ => l1).clearWays l.id
  let _ ← (List.range l.nstage).mapM fun k => startTop l1 k ((dealt.getD k []).headD 0)
  pure ()

/-! ## Pre-emption (16 R339, 21 R358 to R360, R371) -/

/-- Every team of a launch has ended and every image is freed (16 R332). -/
def State.launchDone (s : State) (l : Launch) : Bool :=
  !(s.allTeams.any fun t => t.id.launch == l.id && t.status != .ended) && !(s.images.any fun i => i.launch == l.id)
    && (List.range l.nstage).all fun k => decide (l.total ≤ (l.stage k).ended) && (l.stage k).top != 0 && (l.stage k).opening == []

/-- The PREEMPTED report of a launch (21 R355, R371). -/
def postPreempted (l : Launch) (outcome banks : Nat) : M Unit :=
  let w0 := Code.preempted * 2 ^ 56 + 3 * 2 ^ 54 + noTask
  postFault l.ctx l.origin l.queue l.slot 0
    [BitVec.ofNat 64 w0, 0, BitVec.ofNat 64 outcome, BitVec.ofNat 64 banks, 0, 0, 0]

/-- Banks that the images of a launch take where they lie. -/
def State.imageBankCount (s : State) (launch : Nat) : Nat :=
  ((s.images.filter fun i => i.launch == launch).flatMap fun i => i.banks.map (·.id)).eraseDups.length

/-- A launch whose last team ended before its pre-emption took effect: nothing is saved (21 R371). -/
def preemptNothing (l : Launch) : M Unit := do
  modify fun s => s.onLaunch l.id fun l => { l with held := false, stopping := false }
  postPreempted l 1 0

/-- Swap out every team and template image of a launch (16 R339). It waits for the boundaries of its teams, a release that has its PSN
done first (07 R173), for appends, and for room; the places of its template images are kept (21 R359). -/
def preempt (id : Nat) : M Unit := do
  match (← get).launch? id with
  | none => pure ()
  | some l =>
    if (← get).launchDone l then preemptNothing l
    else
      -- their publications take PSNs in the order of their clusters (18 R344)
      let mine := ascending Team.cluster ((← get).allTeams.filter fun t => t.resident && t.id.launch == id)
      waitUnless (mine.all fun t => !t.s.phase.isPublished) .drain
      mine.forM fun t => swapOut t.uid .preempted
      let s ← get
      let own := mine.foldl (fun n t => n + (match s.team? t.uid with
        | some u => (match u.saved with | some v => v.banks.length | none => 0)
        | none => 0)) 0
      let imgs := (s.images.filter fun i => i.launch == id).map (·.id)
      let copies := s.copies.filter fun c => imgs.contains c.image
      let cores := (copies.map (·.core)).eraseDups
      let s1 : State := { s with copies := s.copies.filter fun (c : ImageCopy) => !imgs.contains c.image }
      set (s1.onLaunch id fun l => { l with
        status := .swapped, placed := false, held := false, stopping := false, imageAt := copies.map fun c => (c.image, c.core) })
      modify fun s => cores.foldl (fun s c => s.freeShared c) s
      savePoolImages
      postPreempted l 0 (own + (← get).imageBankCount id)

/-- The device without a launch: what its rectangle would hold if it were swapped out. -/
def State.without (s : State) (id : Nat) : State :=
  runM (do
    (s.allTeams.filter fun t => t.id.launch == id).forM dropWhole
    dropImages id) s

/-- Launches that a Ready launch may pre-empt by priority, the one to choose first (16 R339): lowest priority, then youngest. -/
def State.victims (s : State) (l : Launch) : List Launch :=
  let can := s.launches.filter fun v =>
    v.status == .running && v.preempt && decide (v.prio < l.prio) && ((s.without v.id).candidate l).isSome
  can.foldl (fun acc v =>
    let before := fun (o : Launch) => decide (o.prio < v.prio ∨ (o.prio = v.prio ∧ v.id < o.id))
    acc.takeWhile before ++ [v] ++ acc.dropWhile before) []

/-- A pre-emption of a launch is under way: its teams issue nothing more, and its loops lose their grants (16 R339, 13 R288). -/
def stopLaunch (id : Nat) (held : Bool) : M Unit :=
  modify fun s =>
    ((s.allTeams.filter fun t => t.resident && t.id.launch == id).foldl
      (fun (s : State) t => s.setCluster t.cluster ((s.cluster t.cluster).ungrant t.uid)) s).onLaunch id
      fun l => { l with held := held, stopping := true }

/-- Pre-empt the first victim whose images fit (21 R360). One that has to wait for the boundaries of its teams, or for appends, stops. -/
def preemptFirst : List Launch → M Unit
  | [] => pure ()
  | v :: r => fun s =>
    if v.stopping then .ok () s
    else match preempt v.id s with
      | .error (.wait .save) _ => preemptFirst r s
      | .error (.wait _) _ => stopLaunch v.id false s
      | o => o

/-! ### Scans (22 R387) -/

/-- Return a core under scan to dispatch, its banks zeroed and its scan to begin again (22 R387). -/
def abortScan (core : Nat) : M Unit := do
  onCore core fun c => { c with scanning := false, basin := [], poison := [] }
  onDev fun d => { d with scanDue := insertSorted d.scanDue core }
  let sig ← drawFree
  logError 10 none (core / 4) noTask core sig.toNat

/-- The device with a core's scan ended. -/
def State.unscanned (s : State) (cores : List Nat) : State :=
  cores.foldl (fun s c => s.setCore c { s.core c with scanning := false }) s

/-- Abort what scans keep a launch of priority 6 or more from its place: one core where one is enough (22 R387). -/
def abortFor (l : Launch) : M Unit := do
  let s ← get
  let busy := (List.range 192).filter fun c => (s.core c).scanning
  if 6 ≤ l.prio then
    match busy.find? fun c => ((s.unscanned [c]).candidate l).isSome with
    | some c => abortScan c
    | none => if ((s.unscanned busy).candidate l).isSome then busy.forM abortScan else pure ()

/-- The place of a launch: a candidate, with the abort of a scan or a pre-emption where there is none (16 R335, R339, 22 R387); none
while the pre-emption that frees it is under way. -/
def findPlace (l : Launch) : M (Option Nat) := do
  if ((← get).candidate l).isNone then abortFor l
  if ((← get).candidate l).isNone then preemptFirst ((← get).victims l)
  return (← get).candidate l

/-- LAUNCH_PLACE (16 R335): the highest priority first, then the earliest sealed. -/
def launchPlace (id : Nat) : M Unit := do
  match (← get).launch? id with
  | none => enabled false
  | some l =>
    enabled (l.status == .ready && !(← get).servedBefore l)
    match ← findPlace l with
    | some o => placeAt l o
    | none => pure ()
def execLaunchPlace (launch : Nat) (s : State) : Host.Outcome State Fault Refusal := runEventOf 0 (launchPlace launch) s

/-! ## Rebalancing (16 R337) -/

/-- Move the highest core of a stage that is not its last to another stage; a core out of LCMAP is of no stage (22 R387). -/
def moveCore (id src dst : Nat) : M Unit :=
  modify fun s => s.onLaunch id fun l =>
    let cores := (l.stage src).cores.filter s.inService
    if cores.length ≤ 1 then l
    else
      let c := cores.foldl (fun m x => if m < x then x else m) 0
      (l.onStage src fun g => { g with cores := g.cores.filter fun x => x != c }).onStage dst fun g => { g with cores := g.cores ++ [c] }

/-- STAGE_REBALANCE (16 R337): for each stage queue, a core goes to the stage that has work. -/
def stageRebalance (id : Nat) : M Unit := do
  match (← get).launch? id with
  | none => enabled false
  | some l =>
    enabled (l.status == .running && !l.gang && !l.stopping)
    (List.range (l.nstage - 1)).forM fun k => do
      match (← get).launch? id with
      | none => pure ()
      | some l =>
        let more := fun (j : Nat) => decide ((l.stage j).next < l.total) || (l.stage j).again != []
        match l.queues[k]? with
        | none => pure ()
        | some q =>
          if decide (3 * q.cap ≤ 4 * q.entries.length) && more (k + 1) then moveCore id k (k + 1)
          else if decide (4 * q.entries.length ≤ q.cap) && more k then moveCore id (k + 1) k
    freeImages
def execStageRebalance (launch : Nat) (s : State) : Host.Outcome State Fault Refusal := runEventOf 0 (stageRebalance launch) s

/-! ## Slices (16 R339, 21 R360, R370) -/

/-- TSLICE of a tenant (16 R339, 01 R14). -/
def State.tslice (s : State) (tenant : Nat) : Nat := Table.get 3125 s.dev.tslice tenant

/-- The slice timer of a launch runs: it holds team slots, and another tenant's launch has found no candidate. -/
def State.sliceRuns (s : State) (l : Launch) : Bool :=
  decide (s.tslice l.tenant ≠ 0) && (s.allTeams.any fun t => t.resident && t.id.launch == l.id) && s.launches.any fun o => o.tenant != l.tenant && o.wants && (s.candidate o).isNone

/-- Some team of a launch is halted. -/
def State.anyHalted (s : State) (id : Nat) : Bool := s.allTeams.any fun t => t.resident && t.id.launch == id && t.dbg.halted

/-- SLICE_EXPIRY (16 R339): the launch is pre-empted, or stops for it; held while a team is halted or its images do not fit (21 R360,
R370). -/
def sliceExpiry (id : Nat) : M Unit := do
  match (← get).launch? id with
  | none => enabled false
  | some l =>
    let s ← get
    enabled (l.status == .running && l.preempt && !l.held && !l.stopping && s.sliceRuns l)
    let hold : M Unit := modify fun s => s.onLaunch id fun l => { l with held := true }
    if s.anyHalted id then hold
    else fun s => match preempt id s with
      | .error (.wait .save) _ => hold s
      | .error (.wait _) _ => stopLaunch id true s
      | o => o
def execSliceExpiry (launch : Nat) (s : State) : Host.Outcome State Fault Refusal := runEventOf 0 (sliceExpiry launch) s

/-! ### Pre-emptions that wait -/

/-- A launch whose images do not fit, or with a team that has halted, goes on; a slice expiry stays held (21 R360, R370). -/
def State.goOn (s : State) (id : Nat) : State := s.onLaunch id fun l => { l with stopping := false }

/-- What a pre-emption that waits does next: it is taken at the first boundary at which nothing holds it (21 R370); none where it still
waits. -/
def State.takeOne (s : State) (l : Launch) : Option (Host.Outcome State Fault Refusal) :=
  let goOn := if l.stopping then some (Host.Outcome.next (s.goOn l.id)) else none
  if l.held && s.anyHalted l.id then goOn
  else match preempt l.id s with
    | .ok _ s' => some (.next s')
    | .error (.wait .save) _ => goOn
    | .error (.wait _) _ => if l.stopping then none else some (.next (runM (stopLaunch l.id l.held) s))
    | .error e s' => some (settle s.cur.uid e s s')

/-- A pre-emption of a running launch waits. -/
def Launch.waits (l : Launch) : Bool := l.status == .running && (l.held || l.stopping)

/-- The first pre-emption that waits and can go on. -/
def State.takeHeld (s : State) : Option (Host.Outcome State Fault Refusal) := (s.launches.filter Launch.waits).findSome? s.takeOne

/-! ### Restore -/

/-- A cluster or core of a placement at the same offset from another origin (21 R359). -/
def moveCluster (a b cl : Nat) : Nat := b + 12 * relRow a cl + relCol a cl
def moveCoreTo (a b c : Nat) : Nat := 4 * moveCluster a b (c / 4) + c % 4

/-- Carry a swapped launch over to a new origin by relative position (21 R359). -/
def State.relocate (s : State) (l : Launch) (o : Nat) : State :=
  let cl := moveCluster l.origin o
  let co := moveCoreTo l.origin o
  let stage := fun (g : StageRun) =>
    { g with
      clusters := g.clusters.map cl, cores := g.cores.map co, opening := g.opening.map cl
      again := g.again.map fun a => (a.1, a.2.map cl) }
  let s1 := s.onLaunch l.id fun l =>
    { l with
      status := .running, placed := true, origin := o, held := false, stopping := false, imageAt := [], stages := l.stages.map stage
      queues := l.queues.map fun q => { q with places := q.places.map cl } }
  let team := fun (t : Team) =>
    if t.id.launch = l.id then
      { t with
        id := { t.id with core := co t.id.core }
        cause := if t.cause = some .preempted then none else t.cause }
    else t
  { s1 with
    cur := team s1.cur, teams := s1.teams.map team
    images := s1.images.map fun i => if i.launch = l.id then { i with cluster := cl i.cluster } else i }

/-- Way 15 of the clusters that a swapped launch would return to has room for its stage-queue entries (21 R359, 04 R96; log 129, DESIGN
CHOICE: the spec names no such condition of a candidate). -/
def State.queuesFit (s : State) (l : Launch) (o : Nat) : Bool :=
  let mine := l.queues.flatMap (·.places)
  let others := s.launches.filter fun k => k.id != l.id
  mine.all fun c =>
    let cl := moveCluster l.origin o c
    decide (wayEntries others cl + (mine.filter fun k => k == c).length ≤ s.wayRoom cl)

/-- A template image returns to a core, where the core has room for it; a team that needs it brings it else (21 R357, R359). -/
def respread (image core : Nat) : M Unit := fun s =>
  match s.image? image with
  | none => .ok () s
  | some i => match (if s.serves core then spreadTo i core else pure ()) s with
    | .ok _ s' => .ok () s'
    | .error _ _ => .ok () s

/-- LAUNCH_RESTORE (16 R339, 21 R359): a swapped launch goes into a candidate rectangle of its shape, its template images and stage-queue
entries at the same offsets; its teams are restored one by one. -/
def launchRestore (id : Nat) : M Unit := do
  match (← get).launch? id with
  | none => enabled false
  | some l =>
    enabled (l.status == .swapped && !(← get).servedBefore l)
    match ← findPlace l with
    | none => pure ()
    | some o =>
      enabled ((← get).queuesFit l o)
      modify fun s => (s.relocate l o).clearWays id
      l.imageAt.forM fun p => respread p.1 (moveCoreTo l.origin o p.2)
def execLaunchRestore (launch : Nat) (s : State) : Host.Outcome State Fault Refusal := runEventOf 0 (launchRestore launch) s

/-! ## Completion (16 R334, 24 R398) -/

/-- The completion summary of a launch. -/
def Launch.summary (l : Launch) : BitVec 256 :=
  let tasks := l.nstage * l.total % 2 ^ 32
  let w1 := l.failed % 2 ^ 32 * 2 ^ 32 + tasks
  let w2 := (if l.code = 1 then l.reason * 2 ^ 40 else 0) + l.code * 2 ^ 32 + l.nonzero % 2 ^ 32
  BitVec.ofNat 256 (l.tag + 2 ^ 64 * w1 + 2 ^ 128 * w2 + 2 ^ 192 * (l.first % 2 ^ 32))

/-- The counter of a launch advances, with its interrupt, where the ring's tenant owns it. -/
def advanceCounter (l : Launch) : M Unit := do
  let s ← get
  if l.hasCctr && s.ownsCounter l.tenant l.cctr then
    onDev fun d => { d with counters := Table.set 0 d.counters l.cctr (s.counter l.cctr + 1) }
    let e := s.ctrEntry l.cctr
    if Ctr.irq e then raiseMsix (l.tenant + 1) (Ctr.vec e)

/-- LAUNCH_COMPLETE (16 R334): the summary is written; once it and every fault-queue entry have committed, the counter
advances. -/
def launchComplete (id : Nat) : M Unit := do
  match (← get).launch? id with
  | none => enabled false
  | some l =>
    match l.bound with
    | some n =>
      enabled (decide (n ≤ (← get).commitPoint) && !(← get).dev.owed.any fun o => o.ctx == l.ctx)
      advanceCounter l
      dropImages id
      modify fun s => { s with launches := s.launches.filter fun o => o.id != id }
    | none =>
      let s ← get
      -- a terminated context's launches complete when the pause of the slice or cluster ends (22 R376, 23 R389)
      enabled (l.status == .completing || (l.status == .running && s.launchDone l))
      enabled (l.code != 4 || !((s.slices.any fun h => h.2.paused) || s.clusters.any fun c => c.2.paused))
      if l.caddr ≠ 0 ∧ (← get).ownsContext l.tenant l.ctx = true then deviceStore l.ctx l.origin l.caddr [l.summary]
      modify fun s => s.onLaunch id fun l => { l with status := .completing, bound := some (s.psnNext - 1) }
def execLaunchComplete (launch : Nat) (s : State) : Host.Outcome State Fault Refusal := runEventOf 0 (launchComplete launch) s

end Sys2Proof.Machine
end

