-- ==== Sys2Proof/Machine/Cistern.lean ====
section
/-!
DEFINITION. The upkeep of the logs (02 R51, R62, R71 to R74): sealing, Skimmers, retire notices, stalled appends, spills.
-/
namespace Sys2Proof.Machine

/-- SEGMENT_SEAL_TIMEOUT (02 R51): 50 microseconds after its first append a segment is sealed. -/
def segmentSealTimeout (log : Nat) : M Unit := do
  let l := (← get).log log
  enabled (l.seg.isSome && decide (0 < l.off))
  modify fun s => s.sealLog log
def execSegmentSealTimeout (log : Nat) (s : State) : Host.Outcome State Fault Refusal := runEventOf 0 (segmentSealTimeout log) s

/-! ## What pins a segment (02 R73, R74, 25 R412) -/

/-- Segment frame of a position. -/
def segOf (pos : Nat) : Nat := pos / secsPerSeg

/-- Frames that an entry names: of its sectors, and of its sector map. -/
def State.entrySegs (s : State) (e : BitVec 128) : List Nat :=
  let secs := (List.range 32).filterMap fun i => match s.resolve e i with | .at_ p => some (segOf p) | _ => none
  if Ent.kind e = 2 then segOf (Ent.pos e) :: secs else secs

/-- Frames that a packed run takes. -/
def runSegs (pos : Nat) : List Nat := [segOf pos]

/-- Segment frames that no Skimmer may compact: those of snapshots, of sectors still to ship or received and not yet published,
of updates that no index names yet, and of what a poisoned line may name. -/
def State.pinned (s : State) : List Nat :=
  let lostIn := fun (root depth : Nat) => (s.lostEntries root false depth).flatMap s.entrySegs
  let snaps := s.snaps.flatMap fun q => (s.indexEntries q.root 0 q.depth).flatMap (fun g => s.entrySegs g.2) ++ lostIn q.root q.depth
  let lost := s.windows.flatMap fun (w : Nat × BitVec 512) =>
    if Win.valid w.2 && Win.logged w.2 then lostIn (Win.root w.2) (Win.depth w.2) else []
  let weir := s.clusters.flatMap fun (c : Nat × Cluster) => c.2.weir.flatMap fun p => runSegs p.pos
  let saved := s.allTeams.flatMap fun t => match t.saved with | some v => v.pend.flatMap fun p => runSegs p.pos | none => []
  let pubs := (s.pubs.filter fun p => !p.committed).flatMap fun p => p.share.flatMap fun u => u.runs.flatMap fun r => runSegs r.pos
  snaps ++ lost ++ weir ++ saved ++ pubs ++ (s.dev.unshipped.filterMap fun u => u.pos.map segOf) ++ s.dev.received.map fun r => segOf r.pos

/-- Every granule entry of every logged window: window, granule, entry. -/
def State.liveEntries (s : State) : List (Nat × Nat × BitVec 128) :=
  s.windows.flatMap fun (w : Nat × BitVec 512) =>
    if Win.valid w.2 && Win.logged w.2 then
      (s.indexEntries (Win.root w.2) 0 (Win.depth w.2)).map fun g => (w.1, Win.lbase w.2 / 1024 + g.1, g.2)
    else []

/-- Sectors of a segment frame that an entry names, by their place in the granule. -/
def State.sectorsIn (s : State) (e : BitVec 128) (seg : Nat) : List Nat :=
  (List.range 32).filter fun i => match s.resolve e i with | .at_ p => segOf p == seg | _ => false

/-- An entry's sector map lies in a segment frame. -/
def mapIn (e : BitVec 128) (seg : Nat) : Bool := Ent.kind e == 2 && segOf (Ent.pos e) == seg

/-- Live sectors of a segment frame. -/
def State.liveCount (s : State) (live : List (Nat × Nat × BitVec 128)) (seg : Nat) : Nat :=
  live.foldl (fun n g => n + (s.sectorsIn g.2.2 seg).length + (if mapIn g.2.2 seg then 5 else 0)) 0

/-- A segment frame contains a retired frame (22 R378). -/
def State.segRetired (s : State) (seg : Nat) : Bool := s.dev.retired.any fun k => k / 32 == seg

/-- A Skimmer may choose a segment: sealed, not pinned, not already retiring. -/
def State.mayCompact (s : State) (pins : List Nat) (seg : Nat) : Bool :=
  let g := Table.get Segment.dflt s.segs seg
  (s.segs.any fun p => p.1 == seg) && g.sealed && g.retiring.isNone && !pins.contains seg

/-- The segment goes first among those of its stack: one with a retired frame, then the fewest live sectors (02 R73, 22 R378). -/
def State.goesFirst (s : State) (seg : Nat) : Bool :=
  let pins := s.pinned
  let live := s.liveEntries
  let rank := fun (f : Nat) => ((if s.segRetired f then 0 else 1), s.liveCount live f)
  let mine := rank seg
  s.mayCompact pins seg && (s.segs.map (·.1)).all fun f =>
    f / segsPerStack != seg / segsPerStack || !s.mayCompact pins f
      || !decide ((rank f).1 < mine.1 ∨ ((rank f).1 = mine.1 ∧ (rank f).2 < mine.2))

/-- Move the sectors of one granule out of a segment and re-point its entry (02 R73 steps 2 to 4). -/
def moveGranule (stack seg win gran : Nat) (e : BitVec 128) : M Unit := do
  if !(← ensureGranule win gran) then return
  let s ← get
  let moved := s.sectorsIn e seg
  let old := s.positions e
  let secs := moved.map fun i => (gran * 32 + i, s.sectorAt ((old.getD i none).getD 0) (gran * 32 + i))
  let occ := Ent.occ e
  let base ← (if secs.isEmpty then pure 0 else appendRun (96 + stack) secs)
  if moved.length = popCount occ 32 then
    modify fun s => s.setGranEntry win gran (mkGranule 1 (96 + stack) base occ)
  else
    let ps := old.mapIdx fun i p => if moved.contains i then some (base + (moved.filter fun j => j < i).length) else p
    let h := sliceOfGran gran
    waitUnless ((← get).mayAppend (48 + h)) .space
    let pos ← appendMap win gran ps
    modify fun s => s.setGranEntry win gran (mkGranule 2 (48 + h) pos occ)

/-- Malformed entries of the indexes of windows whose owners have not been terminated for them: a Skimmer that meets them has their
owners terminated (02 R56). -/
def State.malformedEntries (s : State) : List Malformed :=
  s.windows.flatMap fun (w : Nat × BitVec 512) =>
    if Win.valid w.2 && Win.logged w.2 && !Ctx.term (s.context (Win.owner w.2)) then
      if s.poolFrames ≤ Win.root w.2 then [(w.1, Win.lbase w.2)]
      else (s.badEntries (Win.root w.2) 0 (Win.depth w.2)).map fun g => (w.1, Win.lbase w.2 + g * 1024)
    else []

/-- SKIMMER_COMPACT (02 R73 steps 1 to 5): the live sectors of a segment move to the Skimmer's log; its retire notice goes out. -/
def skimmerCompact (seg : Nat) : M Unit := do
  let s ← get
  enabled (s.goesFirst seg)
  let mine := s.liveEntries.filter fun g => s.sectorsIn g.2.2 seg != [] || mapIn g.2.2 seg
  enabled (mine.all fun g => !s.locked g.1 g.2.1)
  mine.forM fun g => moveGranule (seg / segsPerStack) seg g.1 g.2.1 g.2.2
  endOwners s.malformedEntries
  modify fun s => { s.touchStructure (segmentTableBase + 16 * seg) true with segs := Table.set Segment.dflt s.segs seg { Table.get Segment.dflt s.segs seg with retiring := some 0 } }
def execSkimmerCompact (seg : Nat) (s : State) : Host.Outcome State Fault Refusal := runEventOf 0 (skimmerCompact seg) s

/-- A segment is free again (02 R73 step 6): no cache holds a line of it any more, and the alarms of R71 and R72 may be raised
anew. -/
def State.freeSeg (s : State) (seg : Nat) : State :=
  let s0 := (s.dropFrameLines seg).touchStructure (segmentTableBase + 16 * seg) true
  let s1 := { s0 with segs := s0.segs.erase seg }
  s1.onDev fun d => { d with spaceAlarm := false, spaceLow := d.spaceLow && decide (s1.freeSegs ≤ 15729) }

/-- RETIRE_NOTICE (02 R73 steps 5, 6): an IXB drops its entries pointing into the segment and acknowledges; with the last
acknowledgement the segment is free. -/
def retireNotice (seg cl : Nat) : M Unit := do
  let s ← get
  let g := Table.get Segment.dflt s.segs seg
  match g.retiring with
  | none => enabled false
  | some m =>
    enabled (decide (cl < 48) && !bitAt m cl)
    onCluster cl fun c => { c with ixb := c.ixb.filter fun x => !(s.entrySegs x.entry).contains seg }
    let m' := m ||| 2 ^ cl
    if m' = allSlices then modify fun s => s.freeSeg seg
    else modify fun s => { s with segs := Table.set Segment.dflt s.segs seg { g with retiring := some m' } }
def execRetireNotice (seg cluster : Nat) (s : State) : Host.Outcome State Fault Refusal := runEventOf 0 (retireNotice seg cluster) s

/-! ## Stalled appends (02 R71, R72) -/

/-- A team stands still because its cluster's log may not append. -/
def Team.stalledAppend (t : Team) : Bool := t.status == .waiting && t.waits == some .space

/-- Sectors of consecutive numbers cut at granule boundaries. -/
def byGranule (l : List (Nat × Delivered)) : List (List (Nat × Delivered)) :=
  l.foldl (fun (acc : List (List (Nat × Delivered))) p =>
    match acc.getLast? with
    | some g => (match g.getLast? with
      | some q => if q.1 / 32 = p.1 / 32 then acc.dropLast ++ [g ++ [p]] else acc ++ [[p]]
      | none => acc ++ [[p]])
    | none => [[p]]) []

/-- Sectors of a burst, relative to its window, checked as they come in (24 R402, 25 R414). -/
def burstSectors (b : ReplicaBurst) : List (Nat × Delivered) :=
  (List.range b.data.length).map fun i =>
    let r := b.rel + i
    let v := b.data.getD i 0
    let bad := bitAt b.poison i || (b.checks.getD i 0) != (checkValue v r).toNat
    (r, ({ data := v, poison := bad } : Delivered))

/-- The sectors of a burst that lie in its window are appended to the receive log of its port (24 R402). -/
def receiveBurst (b : ReplicaBurst) : M Unit := do
  let d := (← get).window b.win
  let keep := (burstSectors b).filter fun p => decide (p.1 < Win.lsize d * 32)
  (byGranule (keep.map fun p => (Win.lbase d / 32 + p.1, p.2))).forM fun g => do
    let pos ← appendRun (108 + b.port) g
    onDev fun v => { v with received := v.received ++ g.mapIdx fun i p => (Received.mk b.win p.1 (pos + i)) }

/-- The oldest store that the device owes is made, whichever cluster writes it: entries are written in SEQ order (16 R425, 21 R355). -/
def payOwed : M Unit := do
  match (← get).dev.owed with
  | [] => enabled false
  | o :: r =>
    enabled ((← get).mayAppend o.cluster)
    onDev fun d => { d with owed := r }
    deviceWrite true o.ctx o.cluster o.va o.secs
    -- a launch that has written its summary waits for what its context was still owed (16 R334)
    modify fun s => { s with launches := s.launches.map fun l =>
      if l.ctx = o.ctx ∧ l.bound.isSome = true then { l with bound := some (s.psnNext - 1) } else l }

/-- The stalled append that resumes next: the oldest whose log may append (02 R72). -/
def State.resumeNext (s : State) : Option Staller := s.stallers.find? fun x => s.mayAppend (s.stallerLog x)

/-- APPEND_RESUME (02 R72): the oldest stalled append goes on once free segments exceed the threshold that stopped it. Those of a home
slice and of the host go on with the step that closes their collection or batch, those of an engine with its next step. -/
def appendResume : M Unit := do
  match (← get).resumeNext with
  | some (.team uid) => wake uid
  | some (.device _) => payOwed
  | some (.replica port) =>
    match (← get).dev.arrivals.find? fun b => b.port == port with
    | some b =>
      onDev fun d => { d with arrivals := d.arrivals.erase b }
      receiveBurst b
    | none => enabled false
  | _ => enabled false
def execAppendResume (s : State) : Host.Outcome State Fault Refusal := runEventOf 0 appendResume s

/-- Some append stands stalled (02 R71, R72): of a team, of the device, of a home slice, of the host, or of a replica. -/
def State.appendsStall (s : State) : Bool :=
  (s.allTeams.any fun t => t.stalledAppend && !s.mayAppend t.cluster)
    || (s.slices.any fun h => h.2.coll.isSome && !s.mayAppend (48 + h.1))
    || (s.stallers.any fun x => !s.mayAppend (s.stallerLog x))
    || (s.dev.batchLines != [] && !s.mayAppend 124)

/-- SPACEALARM (02 R72): no segment has been freed for 1 ms while appends stall. -/
def spaceAlarm : M Unit := do
  let s ← get
  enabled (!s.dev.spaceAlarm && s.appendsStall)
  raiseMsix 0 1
  onDev fun d => { d with spaceAlarm := true }
def execSpacealarm (s : State) : Host.Outcome State Fault Refusal := runEventOf 0 spaceAlarm s

/-! ## Spill waits (02 R62) -/

/-- SPILL_WAIT_END (02 R62): 4,096 entries of the spill area are free; the team re-enters the dispatcher. -/
def spillWaitEnd (uid : Nat) : M Unit := do
  let s ← get
  match s.team? uid with
  | none => enabled false
  | some t =>
    enabled (t.status == .swapped && t.cause == some .spill && decide (4096 + (s.cluster t.cluster).inSpill ≤ spillCap))
    onUid uid fun t => { t with cause := none }
def execSpillWaitEnd (team : Nat) (s : State) : Host.Outcome State Fault Refusal := runEventOf team (spillWaitEnd team) s

end Sys2Proof.Machine
end

