-- ==== Sys2Proof/Machine/Recovery.lean ====
section
/-!
DEFINITION. How a stopped team goes on: Basin stalls (04 R102), re-dispatch and restore (21 R356, R357), RESUME (21 R356),
the save pool's alarm (21 R360), and the host's debug commands (21 R369, R370).
-/
namespace Sys2Proof.Machine

/-! ## Basin exhaustion (04 R102) -/

/-- The team stands in the stall of a register copy fault or of a template page's copy. -/
def Team.basinStall (t : Team) : Bool := t.status == .waiting && t.waits == some .basin && t.rfault.isNone

/-- BASIN_STALL_TIMEOUT (04 R102): no bank has become FREE in time; the team is swapped out, and FAULTREC alone records it. Where the
save pool has no room the team waits for it (21 R360). -/
def basinStallTimeout (uid : Nat) : M Unit := do
  let s ← get
  match s.team? uid with
  | none => enabled false
  | some t =>
    enabled (t.basinStall && (s.core t.core).freeBanks == [])
    let src := if t.l.stall = some .basin then 1 else 0
    serveFault uid { noTrap with code := Code.basinexh, src := src, recov := true, w2 := 1 }
def execBasinStallTimeout (team : Nat) (s : State) : Host.Outcome State Fault Refusal := runEventOf team (basinStallTimeout team) s

/-- The core has the banks a swapped team waits for. -/
def State.banksReady (s : State) (t : Team) : Bool :=
  match t.cause with
  | some (.basin n named) =>
    let c := s.core t.core
    decide (n ≤ c.freeBanks.length)
      && (match named with
          | some (first, count) => c.statRoom count && (List.range count).all fun i => c.bank (first + i) == .free
          | none => true)
  | _ => false

/-- TEAM_REDISPATCH (04 R102): the core has the banks; the team re-enters the dispatcher. -/
def teamRedispatch (uid : Nat) : M Unit := do
  let s ← get
  match s.team? uid with
  | none => enabled false
  | some t =>
    enabled (t.status == .swapped && s.banksReady t)
    onUid uid fun t => { t with cause := none }
def execTeamRedispatch (team : Nat) (s : State) : Host.Outcome State Fault Refusal := runEventOf team (teamRedispatch team) s

/-! ## Restore (21 R357) -/

/-- The first of a list of places at which a computation does not have to wait. -/
def firstThat (f : Nat → M Unit) : List Nat → M Unit
  | [] => enabled false
  | c :: r => fun s => match f c s with
    | .error (.wait _) _ => firstThat f r s
    | o => o

/-- Restore a team to its own core, or else to the lowest core of its cluster that has room (21 R356). -/
def restoreSome (uid : Nat) : M Unit := do
  match (← get).team? uid with
  | none => enabled false
  | some t => firstThat (restoreTeam uid) (t.core :: (coresOf t.cluster).filter fun c => c != t.core)

/-- The launch of a team is placed and running. -/
def State.placedTeam (s : State) (t : Team) : Bool :=
  match s.launch? t.id.launch with | some l => l.status == .running | none => false

/-- The fault a swapped team was stopped by, from its FAULTREC, taken as fatal (21 R356). -/
def fatalOf (t : Team) : TrapReq :=
  let w := fun (i : Nat) => t.faultrec.getD i 0
  { code := bits (w 0).toNat 56 8, src := bits (w 0).toNat 54 2, recov := false, w2 := w 2, w3 := w 3, w4 := w 4, w5 := w 5
    w6 := w 6, pc := some (BitVec.ofNat 64 (bits (w 1).toNat 0 57)), priv := some (bitAt (w 1).toNat 63), named := none }

/-- A team is restored only to end by the fatal path (21 R356). -/
def killTeam (uid : Nat) : M Unit := do
  restoreSome uid
  match (← get).team? uid with
  | none => pure ()
  | some t => takeTrap uid (fatalOf t)

/-- TEAM_RESTORE (21 R357): a team in the dispatcher goes back to a core of its cluster. -/
def teamRestore (uid : Nat) : M Unit := do
  let s ← get
  match s.team? uid with
  | none => enabled false
  | some t =>
    enabled (t.status == .swapped && s.placedTeam t)
    match t.cause with
    | none => restoreSome uid
    | some .kill => killTeam uid
    | _ => enabled false
def execTeamRestore (team : Nat) (s : State) : Host.Outcome State Fault Refusal := runEventOf team (teamRestore team) s

/-! ## RESUME (21 R356, 26 R420) -/

/-- The team of a context that waits on a NOTPRESENT with a number. -/
def State.notPresent (s : State) (ctx seq : Nat) : Option Team :=
  s.allTeams.find? fun t => t.id.ctx == ctx && t.status == .swapped && t.cause == some (.notPresent seq)

/-- A write of RESUME by a tenant; one that names another tenant's context, or no waiting team, is ignored. -/
def resumeWrite (tenant ctx seq : Nat) (kill : Bool) : M Unit := do
  let s ← get
  if Ctx.tenant (s.context ctx) ≠ tenant then pure ()
  else match s.notPresent ctx seq with
    | none => pure ()
    | some t =>
      if !kill then onUid t.uid fun t => { t with cause := none }
      else
        onUid t.uid fun t => { t with cause := some .kill }
        if s.placedTeam t then fun s => match killTeam t.uid s with
          | .error (.wait _) _ => .ok () s
          | o => o
def execResumeContinue (tenant ctx seq : Nat) (s : State) : Host.Outcome State Fault Refusal :=
  runEventOf 0 (resumeWrite tenant ctx seq false) s
def execResumeKill (tenant ctx seq : Nat) (s : State) : Host.Outcome State Fault Refusal :=
  runEventOf 0 (resumeWrite tenant ctx seq true) s

/-! ## The save pool's alarm (21 R360) -/

/-- SAVEFULL: raised while a swap-out waits for room. -/
def saveFull : M Unit := do
  let s ← get
  enabled ((s.allTeams.any fun t => t.waits == some .save)
    || s.launches.any fun l => l.held && !l.stopping && l.status == .running && !s.anyHalted l.id)
  raiseMsix 0 1
def execSavefull (s : State) : Host.Outcome State Fault Refusal := runEventOf 0 saveFull s

/-! ## Debug commands (21 R369, R370) -/

/-- The team in a slot of a core. -/
def State.teamIn (s : State) (core slot : Nat) : Option Team := (s.residents core).find? fun t => t.id.slot == slot

/-- DBG_HALT: the team halts at its next boundary. -/
def debugHalt (core slot : Nat) : M Unit := do
  match (← get).teamIn core slot with
  | none => pure ()
  | some t =>
    if !t.dbg.halted then
      onUid t.uid fun t => { t with dbg := { t.dbg with haltReq := true } }
      haltIfDue t.uid
def execDbgHalt (core slot : Nat) (s : State) : Host.Outcome State Fault Refusal := runEventOf 0 (debugHalt core slot) s

/-- A halted team goes on: a pending fault is delivered first and its word does not run again; the `brk` that halted it
completes as a no-op. With `step`, it runs one scalar word and one lane pass and halts again. -/
def debugRun (uid : Nat) (step : Bool) : M Unit := do
  match (← get).team? uid with
  | none => pure ()
  | some t =>
    let onBrk := bitAt t.dbg.reason 2
    onUid uid fun t =>
      { t with
        status := if t.waits.isSome then .waiting else .ready
        s := if onBrk then { t.s with pc := t.s.pc + 4, phase := .none, counted := false } else t.s
        dbg := { t.dbg with
          halted := false, reason := 0, brk := 0, pendf := none
          stepping := step, stepS := step && !onBrk, stepL := step && t.l.run.isSome } }
    match t.dbg.pendf with
    | some r =>
      onUid uid fun t => { t with dbg := { t.dbg with stepping := false, stepS := false, stepL := false } }
      serveFault uid r
    | none => haltIfDue uid

/-- DBG_RESUME. -/
def debugResume (core slot : Nat) (step : Bool) : M Unit := do
  match (← get).teamIn core slot with
  | none => pure ()
  | some t => if t.dbg.halted then debugRun t.uid step
def execDbgResume (core slot : Nat) (s : State) : Host.Outcome State Fault Refusal := runEventOf 0 (debugResume core slot false) s

/-- DBG_STEP. -/
def execDbgStep (core slot : Nat) (s : State) : Host.Outcome State Fault Refusal := runEventOf 0 (debugResume core slot true) s

end Sys2Proof.Machine
end

