-- ==== Sys2Proof/Machine/HostSide.lean ====
section
/-!
DEFINITION. What the host does to the device: CXL.mem accesses and batches (24 R395, R396), register writes (26 R419, R420),
invalidations (05 R124, R125), interrupts (24 R397), and the arrival of posted stores (07 R172).
-/
namespace Sys2Proof.Machine

/-! ## Host access to logged memory (24 R395, R396) -/

/-- The logged window that holds a logical address. -/
def State.windowAt (s : State) (la : Nat) : Option (Nat × BitVec 512) :=
  s.windows.find? fun w => Win.valid w.2 && Win.logged w.2
    && decide (Win.lbase w.2 ≤ la ∧ la < Win.lbase w.2 + Win.lsize w.2 * 1024)

/-- The logical address of a host physical address, to a line. -/
def State.laOf (s : State) (hpa : Nat) : Option Nat :=
  if s.dev.hdmBase ≤ hpa ∧ hpa - s.dev.hdmBase < 2 ^ 45 then some ((hpa - s.dev.hdmBase) / 64 * 64) else none

/-- The window of a host access that the maps admit (24 R395, 25 R414). -/
def State.hostWindow (s : State) (hpa : Nat) (write : Bool) : Option (Nat × Nat) := do
  let la ← s.laOf hpa
  let w ← s.windowAt la
  if bitAt (if write then s.dev.hostWr else s.dev.hostRd).toNat w.1 && !(write && s.isReplica w.1) then some (w.1, la) else none

/-- The newest committed value of a sector as the link delivers it, from its home slice: what a poisoned line leads to is poison, and
nothing else comes of it (23 R391); a malformed index ends its owner (02 R56). -/
def committedSector (win sec : Nat) : M Delivered := do
  enabled (!(← get).locked win (sec / 32))
  tryCatch (readPublished win sec noTask) fun e => match e with
    | .terminate ctx _ la task => do
      let s ← get
      if !s.leadLost (s.window win) sec then terminateContext ctx 0xFF task la
      return { data := 0, poison := true }
    | e => throw e

def refuseHost : M Unit := onDev fun d => { d with hostRefuse := (d.hostRefuse + 1) % 2 ^ 64 }
def send (m : Sent) : M Unit := onDev fun d => { d with sent := d.sent ++ [m] }

/-- CXL_MEM_READ (24 R395). -/
def cxlRead (hpa : Nat) : M Unit := do
  match (← get).hostWindow hpa false with
  | none =>
    refuseHost
    send (.readData hpa 0 true)
  | some (w, la) =>
    let a ← committedSector w (la / 32)
    let b ← committedSector w (la / 32 + 1)
    send (.readData hpa (BitVec.ofNat 512 (a.data.toNat + 2 ^ 256 * b.data.toNat)) (a.poison || b.poison))
def execCxlMemRead (hpa : Nat) (s : State) : Host.Outcome State Fault Refusal := runEventOf 0 (cxlRead hpa) s

/-- Granules of the open batch of host writes. -/
def Device.batchGranules (d : Device) : Nat := ((d.batch.map fun d => (d.win, d.sec / 32)).eraseDups).length

/-- The open batch of host writes becomes a publication of log 124 (24 R396); it stands stalled while host appends stall (02 R71). -/
def closeBatch : M Unit := do
  let s ← get
  enabled (s.dev.batchLines != [])
  if s.mayResume .host then
    modify fun s => s.unstall .host
    let share ← appendSectors 124 s.dev.batch
    let n ← number .host share []
    onDev fun d => { d with batch := [], batchLines := [], batches := d.batches ++ [{ psn := n, lines := d.batchLines }] }
  else modify fun s => s.stall .host

/-- HOST_BATCH_CLOSE (24 R396). -/
def execHostBatchClose (s : State) : Host.Outcome State Fault Refusal := runEventOf 0 closeBatch s

/-- Byte enables of half `i` of a line. -/
def halfEnables (be : BitVec 64) (i : Nat) : Nat := bits be.toNat (32 * i) 32

/-- Merge the enabled bytes of a sector. -/
def mergeEnabled (old new : BitVec 256) (be : Nat) : BitVec 256 :=
  (setBitsOf be 32).foldl (fun (v : BitVec 256) i => mergeBytes v i 1 (secBytes new i 1)) old

/-- One sector of a host write joins the open batch: merged with the batch's value of it, else with the newest committed. -/
def joinBatch (win sec : Nat) (new : BitVec 256) (be : Nat) (poison : Bool) : M Unit := do
  if be = 0 then return
  let s ← get
  let base ← (if be = 2 ^ 32 - 1 then pure unwritten
    else match s.dev.batch.find? fun d => d.win == win && d.sec == sec with
      | some d => pure { data := d.data, poison := d.poison }
      | none => committedSector win sec)
  let d : SectorData := { win := win, sec := sec, data := mergeEnabled base.data new be, poison := base.poison || poison }
  onDev fun v => { v with batch := (v.batch.filter fun o => !(o.win == win && o.sec == sec)) ++ [d] }

/-- CXL_MEM_WRITE (24 R395, R396): checked, merged at the ingress, joined to the open batch, which closes at 256 granules. -/
def cxlWrite (hpa : Nat) (data : BitVec 512) (be : BitVec 64) (poison : Bool) : M Unit := do
  match (← get).hostWindow hpa true with
  | none => refuseHost
  | some (w, la) =>
    -- a full batch that stands stalled takes no further line
    enabled (decide ((← get).dev.batchGranules < 256))
    joinBatch w (la / 32) (data.extractLsb' 0 256) (halfEnables be 0) poison
    joinBatch w (la / 32 + 1) (data.extractLsb' 256 256) (halfEnables be 1) poison
    onDev fun d => { d with batchLines := d.batchLines ++ [hpa] }
    if 256 ≤ (← get).dev.batchGranules then closeBatch
def execCxlMemWrite (hpa : Nat) (data : BitVec 512) (be : BitVec 64) (poison : Bool) (s : State) : Host.Outcome State Fault Refusal :=
  runEventOf 0 (cxlWrite hpa data be poison) s

/-! ## Interrupts (24 R397) -/

/-- MSIX_UNMASK: the vector is unmasked, and its pending message goes out. -/
def unmask (fn vec : Nat) : M Unit :=
  onDev fun d => ({ d with masked := d.masked.filter fun v => v != (fn, vec) } : Device).sendMsix fn vec
def execMsixUnmask (fn vec : Nat) (s : State) : Host.Outcome State Fault Refusal := runEventOf 0 (unmask fn vec) s

/-! ## Registers (26 R419, R420) -/

/-- A write of DBGCTL of a core (21 R369): halt, resume or step the team in a slot. One with a non-zero checked field is ignored, as a
malformed comparator is (log 98); CMD 0 is no command. -/
def debugControl (core : Nat) (v : Word64) : M Unit := do
  let n := v.toNat
  let slot := bits n 0 4
  if bits n 8 56 ≠ 0 ∨ bits n 4 2 ≠ 0 then pure ()
  else match bits n 6 2 with
    | 1 => debugHalt core slot
    | 2 => debugResume core slot false
    | 3 => debugResume core slot true
    | _ => pure ()

/-- REGISTER_WRITE (26 R419, 21 R367, R369): the host writes a management register, a comparator or DBGCTL. -/
def registerWrite (off : Nat) (v : Word64) : M Unit := do
  let core := (off - 0x100000) / 0x200
  let o := (off - 0x100000) % 0x200
  if 0x100000 ≤ off ∧ off < 0x100000 + 0x200 * 192 then
    if o = 0x120 then debugControl core v else writeComparator core o v
  else writeMgmt off v
def execRegisterWrite (off : Nat) (value : Word64) (s : State) : Host.Outcome State Fault Refusal :=
  runEventOf 0 (registerWrite off value) s

/-- DEVCTL_ENABLE (26 R418, R419). -/
def execDevctlEnable (on : Bool) (s : State) : Host.Outcome State Fault Refusal :=
  runEventOf 0 (onDev fun d => { d with enable := on }) s

/-- A privileged store through a system window of a tenant (26 R419, R420): its own functions only. -/
def sysWrite (tenant off : Nat) (v : Word64) : M Unit := do
  if off < 0x01000000 then writeMgmt off v
  else
    let t := (off - 0x01000000) / 0x40000
    let o := (off - 0x01000000) % 0x40000
    if t = tenant ∧ 0x30000 ≤ o ∧ o < 0x30200 ∧ o % 8 = 0 ∧ bits v.toNat 32 31 = 0 then
      resumeWrite tenant ((o - 0x30000) / 8) (bits v.toNat 0 32) (bitAt v.toNat 63)

/-- HOST_WINDOW_STORE_ACK (07 R172): a posted store reaches the host, or the register of a system window. -/
def storeAck (id : Nat) : M Unit := do
  let s ← get
  match s.posted.find? fun p => p.id == id with
  | none => enabled false
  | some p =>
    enabled (s.oldestOfWord p && p.target != .computeRow)
    dropPosted id
    match p.target with
    | .host => modify fun s =>
      -- poison stays with a sector of which not every byte is written (22 R373)
      let bad := p.poison || (p.only.isSome && Table.get false s.hostBad (p.addr / 32))
      s.writeHost p.addr p.size (p.over (s.host.readN p.addr p.size)) bad
    | _ => sysWrite (Ctx.tenant (s.context p.ctx)) p.addr (BitVec.ofNat 64 p.data)
def execHostWindowStoreAck (store : Nat) (s : State) : Host.Outcome State Fault Refusal := runEventOf 0 (storeAck store) s

/-! ## Invalidation (05 R124, R125) -/

/-- A number for a Cascade command of its own, apart from the order stamps that number the other operations. -/
def Cascade.mark (c : Cascade) : Nat := 2 ^ 64 * (c.uid + 1) + c.num

/-- A command drops an entry that covers a page of a context, or that belongs to a window (05 R124): for kind 0 the pages of its range,
and those of every leaf held that overlaps it. -/
def State.xlNames (s : State) (kind ctx wid vpn npages : Nat) (c page win : Nat) : Bool :=
  let leaf := fun (l : TlbLeaf) =>
    decide (l.ctx = ctx ∧ l.vpn < vpn + npages ∧ vpn < l.vpn + l.pages ∧ l.vpn ≤ page ∧ page < l.vpn + l.pages)
  match kind with
  | 0 => c == ctx && (decide (vpn ≤ page ∧ page < vpn + npages) || (s.cores.any fun k => k.2.tlb.any leaf) || s.clusters.any fun k => k.2.tlb.any leaf)
  | 1 => c == ctx
  | 2 => win == wid
  | _ => true

/-- Accesses in flight through translations that `names` holds of, by context, page and window (05 R125): engine operations, posted
stores, atomics, Cascade commands. -/
def State.inFlight (s : State) (names : Nat → Nat → Nat → Bool) : List Nat :=
  let op := fun (r : Runnel) => match s.team? r.uid with | some t => r.used.any fun v => names t.id.ctx v.1 v.2 | none => false
  let runnels := s.cores.flatMap fun (c : Nat × Core) =>
    (c.2.runnels.filter fun r => r.started && !r.ended && op r).map (·.id)
  let posts := (s.posted.filter fun p => names p.ctx p.via.1 p.via.2).map (·.id)
  let atoms := s.slices.flatMap fun (h : Nat × Slice) => (h.2.reqs.filter fun r => names r.ctx (r.va.toNat / 4096) r.win).map (·.id)
  let casc := (s.cascades.filter fun c => c.via.any fun v => names c.ctx v.1 v.2).map Cascade.mark
  runnels ++ posts ++ atoms ++ casc

/-- The command at the head of the queue drops what its kind names. -/
def invalidate (kind : Nat) : M Unit := do
  let s ← get
  match s.dev.xlQueue with
  | [] => enabled false
  | (a, b) :: _ =>
    enabled (decide (bits a.toNat 62 2 = kind) && s.dev.xlBusy.isNone)
    let ctx := bits a.toNat 56 6
    let wid := bits a.toNat 48 8
    let vpn := bits b.toNat 12 45
    let npages := bits a.toNat 0 40
    modify fun s => s.dropTranslations kind ctx wid vpn npages
    onDev fun d => { d with xlBusy := some (s.inFlight (s.xlNames kind ctx wid vpn npages)) }
def execXlinvVaRange (s : State) : Host.Outcome State Fault Refusal := runEventOf 0 (invalidate 0) s
def execXlinvContext (s : State) : Host.Outcome State Fault Refusal := runEventOf 0 (invalidate 1) s
def execXlinvWindow (s : State) : Host.Outcome State Fault Refusal := runEventOf 0 (invalidate 2) s
def execXlinvAll (s : State) : Host.Outcome State Fault Refusal := runEventOf 0 (invalidate 3) s

/-- XLINV_COMPLETE (05 R125): what was in flight at its start has been performed. -/
def invalidateDone : M Unit := do
  let s ← get
  match s.dev.xlBusy with
  | none => enabled false
  | some ops =>
    let now := s.inFlight fun _ _ _ => true
    enabled (!(ops.any fun o => now.contains o))
    onDev fun d => { d with xlBusy := none, xlQueue := d.xlQueue.drop 1, xlDone := (d.xlDone + 1) % 2 ^ 32 }
def execXlinvComplete (s : State) : Host.Outcome State Fault Refusal := runEventOf 0 invalidateDone s

end Sys2Proof.Machine
end

