-- ==== Sys2Proof/Machine/Reliability.lean ====
section
/-!
DEFINITION. Errors of the hardware and their containment (22 R372 to R392), warm and cold reset (22 R379 to R382, 26 R418),
paired timeouts (22 R384, R385), core scans (22 R387), power and heat (26 R421, R422), and refresh (03 R76, R77).
-/
namespace Sys2Proof.Machine

/-! ## Warm reset (22 R379 to R382) -/

/-- Error-log location when there is none (22 R374). -/
def locNone : Nat := 0xFF

/-- Host writes that have no completion yet (22 R382). -/
def State.owedWrites (s : State) : Nat := s.dev.batchLines.length + s.dev.batches.foldl (fun n b => n + b.lines.length) 0

/-- Sectors of a replica whose cut had not committed, as received again (25 R414). -/
def backToReceived (p : Publication) : List Received :=
  match p.who with
  | .fabric _ => p.share.flatMap fun u => u.runs.flatMap fun r =>
      (setBitsOf r.set.toNat 32).map fun i => { win := u.win, sec := u.gran * 32 + i, pos := r.pos + popCount r.set.toNat i }
  | _ => []

/-- Compute rows that Cascade commands in flight name, in every pass (03 R81). -/
def State.rowsInFlight (s : State) : List Nat := (s.cascades.flatMap fun c => c.named).eraseDups

/-- A compute row takes free values (03 R81). -/
def scrambleRow (row : Nat) : M Unit :=
  (List.range 128).forM fun i => do
    let v ← drawFree
    modify fun s => { s with crow := s.crow.writeN (row * 1024 + 8 * i) v.toNat 8 }

/-- Compute-row stores and host stores that are posted have left the core; they arrive, in the order of their issue (07 R172,
03 R82). -/
def arrivePosted (p : Posted) : M Unit :=
  match p.target with
  | .computeRow => do
    dropPosted p.id
    modify p.atBank
  | .host => storeAck p.id
  | .sysReg => dropPosted p.id

/-- Steps 1 to 7 of R380 on the state: what is kept and what is discarded (22 R381, R382). -/
def State.resetLogic (s : State) : State :=
  let cut := s.psnNext - 1
  let lost := s.pubs.filter fun p => !p.committed
  let kill := fun (l : Launch) => { l with status := .completing, code := 3, bound := none, stages := [], queues := [] }
  let cl := fun (k : Nat) => { Cluster.init with quar := (s.cluster k).quar, noticed := cut, acqPsn := cut }
  let sl := fun (k : Nat) => { Slice.init with quar := (s.slice k).quar, prepared := cut }
  let co := fun (k : Nat) => { Core.init with scanFlag := (s.core k).scanFlag }
  { s with
    cur := Team.vacant, teams := []
    clusters := (List.range 48).foldl (fun t k => Table.set Cluster.init t k (cl k)) []
    slices := (List.range 48).foldl (fun t k => Table.set Slice.init t k (sl k)) []
    cores := (List.range 192).foldl (fun t k => Table.set Core.init t k (co k)) []
    pubs := [], commitPoint := cut, posted := [], cascades := [], done := []
    images := [], copies := [], launches := s.launches.map kill
    dev := { s.dev with
      xlQueue := [], xlBusy := none, xlDone := s.dev.xlIssued
      batch := [], batchLines := [], batches := [], echoes := []
      -- what was received before comes before what came in since (25 R414)
      received := lost.flatMap backToReceived ++ s.dev.received
      ageBlock := [], stalls := [], arrivals := [], owed := [], pool := []
      meas := Table.set 0 s.dev.meas 0 (Config.bootMeasure 0) } }

/-- A warm reset with its cause (22 R379, R380). -/
def warmReset (cause : Nat) : M Unit := do
  let s ← get
  let owed := s.owedWrites
  let rows := s.rowsInFlight
  let posted := s.posted.filter fun p => p.target == .host || p.target == .computeRow
  let _ ← posted.mapM fun p => tryCatch (arrivePosted p) fun _ => pure ()
  modify State.resetLogic
  rows.forM scrambleRow
  logError 6 none locNone noTask 0 (cause + owed * 2 ^ 32)

def execDevctlWarmreq (s : State) : Host.Outcome State Fault Refusal := runEventOf 0 (warmReset 6) s
def execDieLinkLoss (s : State) : Host.Outcome State Fault Refusal := runEventOf 0 (warmReset 4) s
def execTcfWatchdog (s : State) : Host.Outcome State Fault Refusal := runEventOf 0 (warmReset 5) s

/-! ## Cold reset (26 R418) -/

/-- A rising list of runs of frames that do not meet, with one more run in it. -/
def mergeRun (r : Nat × Nat) : List (Nat × Nat) → List (Nat × Nat)
  | [] => [r]
  | x :: xs =>
    if r.1 + r.2 < x.1 then r :: x :: xs
    else if x.1 + x.2 < r.1 then x :: mergeRun r xs
    else
      let lo := if r.1 < x.1 then r.1 else x.1
      let hi := if r.1 + r.2 < x.1 + x.2 then x.1 + x.2 else r.1 + r.2
      mergeRun (lo, hi - lo) xs

/-- The segment frames of an area of HBM: its first byte and its length. -/
def framesOf (a : Nat × Nat) : Nat × Nat := (a.1 / 2 ^ 21, (a.1 + a.2 + 2 ^ 21 - 1) / 2 ^ 21 - a.1 / 2 ^ 21)

/-- The areas of reserved HBM that the firmware lays out (02 R71, 26 R419): the index pool, the spill areas, the save pool, the
error-log ring, and the tables, whose places the model fixes (log 5). -/
def bootAreas (b : BootSetup) : List (Nat × Nat) :=
  [(b.ixPoolBase, b.ixPoolFrames * 4096), (b.spillBase, 48 * 2 ^ 24), (b.saveBase, b.saveFrames * 2 ^ 21), (b.errBase, 4096 * 32),
    (windowTableBase, 256 * 64), (contextTableBase, 64 * 64), (snapshotTableBase, 2 ^ 24), (segmentTableBase, 393216 * 16)]

/-- The segment frames that the firmware marks reserved before ENABLE (02 R71). -/
def reservedRuns (b : BootSetup) : List (Nat × Nat) := (bootAreas b).foldl (fun l a => mergeRun (framesOf a) l) []

/-- The firmware's writes of the reserved-area registers: one out of its range is ignored, and the register keeps its value of reset (26
R419). -/
def admittedSetup (b : BootSetup) : BootSetup :=
  let d := Device.init
  let keep := fun (align v old : Nat) => if v < 2 ^ 40 ∧ v % align = 0 then v else old
  { b with
    ixPoolBase := keep (2 ^ 21) b.ixPoolBase d.ixBase, ixPoolFrames := if b.ixPoolFrames < 2 ^ 32 then b.ixPoolFrames else d.ixFrames
    spillBase := keep (2 ^ 24) b.spillBase d.spillBase, saveBase := keep (2 ^ 21) b.saveBase d.saveBase
    saveFrames := if b.saveFrames < 2 ^ 32 then b.saveFrames else d.saveFrames, errBase := keep (2 ^ 17) b.errBase d.errBase }

/-- COLD_RESET: every list and table is cleared, the firmware's choices written, LCMAP built, ENABLE set. -/
def coldReset (boot : BootSetup) (s : State) : State :=
  let b := admittedSetup boot
  let d := { Device.init with
    ixBase := b.ixPoolBase, ixFrames := b.ixPoolFrames, spillBase := b.spillBase, saveBase := b.saveBase
    saveFrames := b.saveFrames, errBase := b.errBase, lcmap := b.lcmap, reserved := reservedRuns b
    meas := [(0, Config.bootMeasure 0), (1, Config.bootMeasure 1), (3, Config.mapMeasure b.lcmap)]
    sent := s.dev.sent }
  { State.reset with turns := s.turns, free := s.free, stamp := s.stamp, lastCore := s.lastCore, host := s.host, hostBad := s.hostBad, dev := d }

/-- The cores whose scan at the cold reset failed are logged, each with the signature that its scan gave (22 R387, 26 R418 step 4). -/
def failedScans (map : BitVec 192) : M Unit :=
  ((List.range 192).filter fun c => !bitAt map.toNat c).forM fun c => do
    let sig ← drawFree
    logError 9 none (c / 4) noTask c sig.toNat
def execColdReset (boot : BootSetup) (s : State) : Host.Outcome State Fault Refusal :=
  .next (runM (failedScans boot.lcmap) (coldReset boot s))

/-! ## Heat and power (26 R421, R422) -/

/-- The level a junction temperature leads to from a level: entered at 95, 100, 105 degrees, left below 92, 97, 102. -/
def thermLevelOf (old deg : Nat) : Nat :=
  let up := if 105 ≤ deg then 3 else if 100 ≤ deg then 2 else if 95 ≤ deg then 1 else 0
  let hold := if 102 ≤ deg then 3 else if 97 ≤ deg then 2 else if 92 ≤ deg then 1 else 0
  if old < up then up else if hold < old then hold else old

/-- JUNCTION_TEMPERATURE (26 R421): the level follows, and at 110 degrees the device takes a warm reset and holds issue until
the junction falls below 90. -/
def junction (deg : Nat) : M Unit := do
  let trip := decide (110 ≤ deg) && !(← get).dev.hot
  onDev fun d => { d with degrees := deg, thermLevel := thermLevelOf d.thermLevel deg, hot := if deg < 90 then false else d.hot || trip }
  if trip then warmReset 7
def execJunctionTemperature (degrees : Nat) (s : State) : Host.Outcome State Fault Refusal := runEventOf 0 (junction degrees) s

/-- The module power is a new value (26 R419). At or below the cap it demands no level any more (26 R421; log 130, DESIGN CHOICE: the spec
says how the level rises, not how it falls). -/
def Device.drawn (d : Device) (watts : Nat) : Device :=
  { d with power := watts % 2 ^ 16, powLevel := if watts % 2 ^ 16 ≤ d.pcap then 0 else d.powLevel }

/-- POWER_CAP_EXCEEDED (26 R421): above PCAP for 10 ms in a row the level rises by one. -/
def powerCap (watts : Nat) : M Unit := do
  enabled (decide ((← get).dev.pcap < watts ∧ watts < 2 ^ 16))
  onDev fun d =>
    let l := d.level
    { d with power := watts, powLevel := if l < 3 then l + 1 else 3 }
def execPowerCapExceeded (watts : Nat) (s : State) : Host.Outcome State Fault Refusal := runEventOf 0 (powerCap watts) s

/-- COOLANT_FLOW_LOW (26 R422): level 3 is held until the flow returns. -/
def execCoolantFlowLow (low : Bool) (s : State) : Host.Outcome State Fault Refusal :=
  runEventOf 0 (onDev fun d => { d with coolantLow := low }) s

/-! ## Refresh (03 R76, R77) -/

/-- REFRESH_WINDOW (03 R77): of the compute rows, every 8 ms, or of the ordinary rows, every 32 ms. -/
def execRefreshWindow (compute : Bool) (s : State) : Host.Outcome State Fault Refusal :=
  runEventOf 0 (onDev fun d => { d with rows := d.rows.fresh (!compute) }) s

/-- AGE_CAP_EXPIRY (03 R76): the oldest request of a channel's queue blocks its younger row hits until it has been served; one that a row's
spacing holds back has no age yet. -/
def ageCapExpiry (channel : Nat) : M Unit := do
  enabled ((← get).oldestFree channel).isSome
  onDev fun d => { d with ageBlock := insertSorted d.ageBlock channel }
def execAgeCapExpiry (channel : Nat) (s : State) : Host.Outcome State Fault Refusal := runEventOf 0 (ageCapExpiry channel) s

/-! ## Retired frames and quarantined ways (22 R378, 23 R390, R392) -/

/-- Pool frames of a 64 KiB frame of HBM. -/
def State.poolFramesIn (s : State) (k : Nat) : List Nat :=
  (List.range 16).filterMap fun i =>
    let b := k * 65536 + 4096 * i
    if s.poolBase ≤ b ∧ (b - s.poolBase) / 4096 < s.poolFrames then some ((b - s.poolBase) / 4096) else none

/-- The index node that holds a byte of HBM: it stays in its frame when it fails (23 R390). -/
def State.nodeAt (s : State) (byte : Nat) : Option Nat :=
  if s.poolBase ≤ byte ∧ (byte - s.poolBase) / 4096 < s.poolFrames then some ((byte - s.poolBase) / 4096) else none

/-- Re-point every entry to a node below a node. -/
def repointBelow (f g node : Nat) : Nat → M Unit
  | 0 => pure ()
  | lvl + 1 =>
    (List.range 256).forM fun i => do
      let s ← get
      let e := s.nodeEntry node i
      if Ent.kind e = 1 ∧ Ent.badInterior s e = false then
        if Ent.frame e = f then modify fun s => s.setNodeEntry node i (mkInterior g (Ent.gen e))
        else repointBelow f g (Ent.frame e) lvl

/-- Copy a node to a fresh frame and re-point what refers to it (23 R390); no slice holds a line of the old frame any more. -/
def relocateNode (f : Nat) : M Unit := do
  let g ← takeFrame (some f)
  let ws := (← get).windows.filter fun w => Win.valid w.2 && Win.logged w.2
  ws.forM fun w => do
    if Win.root w.2 = f then modify fun s => s.setWindow w.1 (setDescWord (s.window w.1) 3 (Win.rootGen w.2 * 2 ^ 32 + g))
    else repointBelow f g (Win.root w.2) (Win.depth w.2)
  let snaps := (← get).snaps
  snaps.forM fun q => if q.root = f then pure () else repointBelow f g q.root q.depth
  modify fun s => { s with
    snaps := s.snaps.map fun q => if q.root = f then { q with root := g } else q
    ixUsed := s.ixUsed.filter fun x => x != f
    slices := Table.mapVals Slice.init (fun c =>
      { c with lines := c.lines.filter fun l => match l.tag with | .node x _ => x != f | _ => true }) s.slices }

/-- Stack of a 64 KiB frame. -/
def stackOfFrame (k : Nat) : Nat := k * 65536 / 2 ^ 36

/-- A frame enters the retired-frame list, which holds up to 4,096, and is logged; whether it was not in it before (22 R378). -/
def enterRetired (ctx : Option Nat) (k stack addr : Nat) : M Bool := do
  let s ← get
  if s.dev.retired.contains k || decide (4096 ≤ s.dev.retired.length) then return false
  onDev fun d => { d with retired := insertSorted d.retired k }
  logError 4 ctx (48 + stack) noTask addr 0
  return true

/-- The number of a compute row's 64 KiB frame in the list: compute rows lie outside the physical bytes (03 R78), so theirs come after
every frame of physical bytes (log 76). -/
def rowFrame (cra : Nat) : Nat := 2 ^ 24 + cra / 65536

/-- Retire a 64 KiB frame: it is logged, and its index nodes but the failing one move (22 R378, 23 R390). -/
def retireFrame (ctx : Option Nat) (k : Nat) (failing : Option Nat) : M Unit := do
  if !(← enterRetired ctx k (stackOfFrame k) (k * 65536)) then return
  let s ← get
  let nodes := (s.poolFramesIn k).filter fun f => s.ixUsed.contains f && failing != some f
  nodes.forM relocateNode

/-- DETAIL of a kind-5 entry (23 R392). -/
def wayDetail (unit id set way : Nat) : Nat := unit * 2 ^ 56 + id * 2 ^ 48 + set * 2 ^ 16 + way

/-- Quarantine a way of a slice or a cluster cache; a 65th request of one raises SPACEALARM as well (22 R378). -/
def quarantine (ctx : Option Nat) (unit id set way addr : Nat) : M Unit := do
  let s ← get
  let old := if unit = 0 then (s.slice id).quar else (s.cluster id).quar
  if 64 ≤ old.length then raiseMsix 0 1
  else if unit = 0 then onSlice id fun c => { c with quar := insertSorted c.quar (set * 16 + way) }
  else onCluster id fun c => { c with quar := insertSorted c.quar (set * 16 + way) }
  logError 5 ctx id noTask addr (wayDetail unit id set way)

/-- Poison the four sectors of a line of HBM. -/
def poisonLine (byte : Nat) : M Unit :=
  modify fun s => { s with bad := (List.range 4).foldl (fun (t : Table Bool) i => Table.set false t (byte / 32 + i) true) s.bad }

/-! ## Patrol scrub (23 R388 to R390, 22 R372, R376) -/

/-- Where the bytes of a home-slice line lie in HBM: its first physical byte. Atomic results have no place there yet (22 R376). -/
def State.backing (s : State) : LineTag → Option Nat
  | .node frame line => some (s.poolBase + frame * 4096 + line * 128)
  | .log _ line => some (line * 128)
  | .phys line => some (line * 128)
  | .result _ _ | .crow _ => none

/-- The address that the error log gives for a line: its physical byte, or the logical address of atomic results (22 R374). -/
def State.lineAddr (s : State) (t : LineTag) : Nat :=
  match t with
  | .result _ line => line * 128
  | t => (s.backing t).getD 0

/-- The index node that a line belongs to: it stays in its frame (23 R390). -/
def LineTag.frame? : LineTag → Option Nat | .node f _ => some f | _ => none

/-- A line leaves its slice, and atomic results that only the line held are gone with it (22 R376). -/
def Slice.loseLine (c : Slice) (t : LineTag) : Slice :=
  let c1 := { c with lines := c.lines.filter fun l => l.tag != t }
  match t, c1.coll with
  | .result win line, some l =>
    let left := l.filter fun d => !(d.win == win && d.sec / 4 == line)
    { c1 with coll := if left = [] then none else some left }
  | _, _ => c1

/-- An uncorrectable error in a dirty line that its tag gives to a context (22 R376, 23 R389): the context is terminated, the slice
pauses, the line is poisoned where it lies in HBM and its frame retired, the way quarantined. In a context that is already
terminated it is logged and has no other effect. -/
def ownedLineError (slice way : Nat) (t : LineTag) (ctx : Nat) : M Unit := do
  let s ← get
  let again := Ctx.term (s.context ctx)
  terminateContext ctx slice noTask (s.lineAddr t)
  if !again then
    onSlice slice fun c => { c.loseLine t with paused := true }
    match s.backing t with
    | some byte =>
      poisonLine byte
      retireFrame (some ctx) (byte / 65536) t.frame?
    | none => pure ()
    quarantine (some ctx) 0 slice t.set way (s.lineAddr t)

/-- The path of an uncorrectable error in a line of a home slice, by its tag (22 R372): a clean line is dropped and refetched; a dirty
one goes the way of its owner, or, without one, is written as poison before a warm reset (22 R379). -/
def homeLineError (slice way n : Nat) : M Unit := do
  let s ← get
  match (s.slice slice).lines[n]? with
  | none => enabled false
  | some l =>
    enabled (decide (slice < 48 ∧ way < 16))
    if !l.dirty then onSlice slice fun c => c.loseLine l.tag
    else match l.own with
      | some ctx => ownedLineError slice way l.tag ctx
      | none =>
        match s.backing l.tag with
        | some byte => poisonLine byte
        | none => pure ()
        warmReset 1

/-- An uncorrectable error in what a task has written and the device has not published: the context of the task ends (22 R376). -/
def ownedTaskError (cl win uid addr : Nat) : M Bool := do
  let s ← get
  let ctx := Win.owner (s.window win)
  let task := match s.team? uid with | some t => t.id.task | none => noTask
  let again := Ctx.term (s.context ctx)
  terminateContext ctx cl task addr
  return !again

/-- The `n`th sector's dirty line of a cluster cache has an uncorrectable error: the cache pauses while its way is quarantined (22 R376). -/
def dirtyLineError (cl way n : Nat) : M Unit := do
  match ((← get).cluster cl).dirty[n]? with
  | none => enabled false
  | some d =>
    enabled (decide (cl < 48 ∧ way < 16))
    if ← ownedTaskError cl d.win d.uid (d.sec / 4 * 128) then
      onCluster cl fun c => { c with paused := true }
      quarantine (some (Win.owner ((← get).window d.win))) 1 cl (clusterSet (dirtyKey d.uid d.win (d.sec / 4))) way (d.sec / 4 * 128)

/-- The `n`th entry of a Weir buffer or of its spill area has an uncorrectable error; a spilled one is poisoned where it lies, and its frame
retired (22 R376, R372). -/
def weirError (cl n : Nat) : M Unit := do
  match ((← get).cluster cl).weir[n]? with
  | none => enabled false
  | some p =>
    enabled (decide (cl < 48))
    if ← ownedTaskError cl p.win p.uid (p.gran * 1024) then
      match p.spilled with
      | none => pure ()
      | some slot =>
        let byte := (← get).dev.spillBase + cl * 2 ^ 24 + 16 * slot
        modify fun s => { s with bad := Table.set false s.bad (byte / 32) true }
        retireFrame (some (Win.owner ((← get).window p.win))) (byte / 65536) none

/-- The path of a finding (22 R372, 23 R388). -/
def scrub (f : ScrubFinding) : M Unit := do
  let s ← get
  match f with
  | .clean => pure ()
  | .corrected addr loc ctx =>
    enabled (decide (loc < 60 ∨ loc = locNone))
    logError 1 ctx loc noTask addr 0
  | .cleanLine cl line => onCluster cl fun c => c.dropLine line
  | .homeLine slice way n => homeLineError slice way n
  | .dirtyLine cl way n => dirtyLineError cl way n
  | .weirEntry cl n => weirError cl n
  | .hbmSector pos =>
    modify fun s => { s with bad := Table.set false s.bad (physSector pos) true }
    retireFrame none (physByte pos / 65536) (s.nodeAt (physByte pos))
  | .rowSector cra =>
    modify fun s => { s with crowBad := Table.set false s.crowBad (cra / 32) true }
    let _ ← enterRetired none (rowFrame cra) (cra / 2 ^ 28) (cra / 65536 * 65536)
  | .basinWord core bank row word =>
    onCore core fun c => c.setRowPoison bank row (c.rowPoison bank row ||| BitVec.ofNat 32 (2 ^ word))
  | .pageEntry team reg => onUid team fun t => { t with l := { t.l with badRegs := insertSorted t.l.badRegs reg } }
  | .teamState team =>
    match s.team? team with
    | none => enabled false
    | some t => terminateContext t.id.ctx t.cluster t.id.task 0
  | .structureState cause =>
    enabled (decide (cause = 2 ∨ cause = 3))
    warmReset cause
def execPatrolScrub (find : ScrubFinding) (s : State) : Host.Outcome State Fault Refusal := runEventOf 0 (scrub find) s

/-- A warm reset whose steps 2 and 3 find errors in home-slice lines: after it, the contexts that own them are terminated, and what those
lines held is poison (22 R381, R376). -/
def resetFinding (cause : Nat) (finds : List (Nat × Nat × Nat)) : M Unit := do
  enabled (decide (1 ≤ cause ∧ cause ≤ 7))
  let s ← get
  let owned := finds.filterMap fun q =>
    match (s.slice q.1).lines[q.2.2]? with
    | some l => if l.dirty && decide (q.1 < 48 ∧ q.2.1 < 16) then l.own.map fun ctx => (q.1, q.2.1, l.tag, ctx) else none
    | none => none
  warmReset cause
  owned.forM fun q => ownedLineError q.1 q.2.1 q.2.2.1 q.2.2.2

/-- SLICE_PAUSE_END (23 R389). -/
def slicePauseEnd (slice : Nat) : M Unit := do
  enabled ((← get).slice slice).paused
  onSlice slice fun c => { c with paused := false }
def execSlicePauseEnd (slice : Nat) (s : State) : Host.Outcome State Fault Refusal := runEventOf 0 (slicePauseEnd slice) s

/-! ## Paired timeouts (22 R384, R385) -/

/-- PAIRED_TWIN_TIMEOUT: a copy has waited too long at its comparison point. -/
def twinTimeout (uid : Nat) : M Unit := do
  let s ← get
  match s.team? uid with
  | none => enabled false
  | some t =>
    match s.twinOf t with
    | none => enabled false
    | some u =>
      enabled (t.paired.at_.isSome && u.paired.at_.isNone)
      pairMismatch t u
def execPairedTwinTimeout (team : Nat) (s : State) : Host.Outcome State Fault Refusal := runEventOf 0 (twinTimeout team) s

/-- PAIRED_ATOMIC_TIMEOUT: the slice refuses the first paired atomic whose twin's request has not come. -/
def atomicTimeout (h : Nat) : M Unit := do
  let s ← get
  let lone := (s.slice h).reqs.find? fun r => match s.team? r.uid with
    | some t => t.paired.role != 0 && (s.twinReq h r).isNone
    | none => false
  match lone with
  | none => enabled false
  | some r =>
    onSlice h fun c => { c with reqs := c.reqs.filter fun q => q.id != r.id }
    match s.team? r.uid with
    | none => pure ()
    | some t => match s.twinOf t with
      | none => pure ()
      | some u => pairMismatch t u
def execPairedAtomicTimeout (slice : Nat) (s : State) : Host.Outcome State Fault Refusal := runEventOf 0 (atomicTimeout slice) s

/-! ## Core scans (22 R387) -/

/-- A core in service is idle: no team, no allocated bank, no engine operation. -/
def State.idleCore (s : State) (c : Nat) : Bool :=
  bitAt s.dev.lcmap.toNat c && !(s.core c).scanning && (s.residents c == []) && ((s.core c).freeBanks.length == numBanks)
    && (s.core c).runnels == []

/-- The core to scan next: a flagged one first, then the lowest that is due. -/
def State.nextScan (s : State) : Option Nat :=
  match (List.range 192).find? fun c => (s.core c).scanFlag && s.idleCore c with
  | some c => some c
  | none => s.dev.scanDue.find? fun c => s.idleCore c

/-- The controller withdraws the next idle core from dispatch and scans it, unless a launch needs it at once. -/
def startScan : M Unit := do
  let s ← get
  if (List.range 192).any fun c => (s.core c).scanning then return
  match s.nextScan with
  | none => pure ()
  | some c =>
    onCore c fun k => { k with scanning := true }
    let s ← get
    match s.launches.find? fun l => l.status == .ready && decide (6 ≤ l.prio) && (s.candidate l).isNone with
    | some l => abortFor l
    | none => pure ()

/-- SCAN_INTERVAL: every core in service is due. -/
def scanInterval : M Unit := do
  onDev fun d => { d with scanDue := (List.range 192).filter fun c => bitAt d.lcmap.toNat c }
  startScan
def execScanInterval (s : State) : Host.Outcome State Fault Refusal := runEventOf 0 scanInterval s

/-- SCAN_COMPLETE: the signature passes, and the core returns to dispatch, or it fails, and the core leaves LCMAP. -/
def scanComplete (core : Nat) (pass : Bool) (sig : Word64) : M Unit := do
  let s ← get
  enabled (decide (core < 192) && ((s.core core).scanning || s.nextScan == some core))
  onCore core fun c => { c with scanning := false, scanFlag := false, basin := [], poison := [] }
  onDev fun d => { d with scanDue := d.scanDue.filter fun c => c != core }
  if !pass then
    logError 9 none (core / 4) noTask core sig.toNat
    onDev fun d =>
      let m := d.lcmap &&& ~~~(BitVec.ofNat 192 (2 ^ core))
      { d with lcmap := m, meas := Table.set 0 d.meas 3 (Config.mapMeasure m) }
  startScan
def execScanComplete (core : Nat) (pass : Bool) (sig : Word64) (s : State) : Host.Outcome State Fault Refusal :=
  runEventOf 0 (scanComplete core pass sig) s

end Sys2Proof.Machine
end

