-- ==== Sys2Proof/Machine/Snapshots.lean ====
section
/-!
DEFINITION. Snapshots and rollback (25 R407 to R412), the Spillway and replicas (25 R413, R414, 24 R401, R402), exports and
takeover (25 R415, R416), the mailbox (24 R403, R404) and attestation (24 R405, R406).
-/
namespace Sys2Proof.Machine

/-! ## Snap and roll (25 R409 to R411) -/

/-- The window a `snap` or a `roll` names, after the checks of R409; xa goes to word 2 and, for `roll`, xb to word 3. -/
def snapWindow (xa xb : Word64) (kindBad : BitVec 512 → Nat → Bool) : M Nat := do
  let s ← get
  let t := s.cur
  let w := xa.toNat
  let d := s.window w
  let fail := fun (code : Nat) => (throw (.trap { noTrap with code := code, w2 := xa, w3 := xb }) : M Unit)
  if 255 < w ∨ Win.valid d = false then fail Code.winvalid
  if Win.owner d ≠ t.id.ctx then fail Code.winown
  if kindBad d w then fail Code.winkind
  return w

/-- Snapshots of a window that are live or numbered. -/
def State.snapCount (s : State) (w : Nat) : Nat :=
  (s.snaps.filter fun q => q.win == w).length
    + (s.pubs.filter fun p => !p.committed && (match p.who with | .snap _ v => v == w | _ => false)).length

/-- Entries of the snapshot table taken. -/
def State.snapTotal (s : State) : Nat :=
  s.snaps.length + (s.pubs.filter fun p => !p.committed && (match p.who with | .snap _ _ => true | _ => false)).length

/-- A privileged SX word in user mode traps PRIVOP (01 R17, 25 R407). -/
def needPriv (i : Instr) : M Unit := do
  if !(← getTeam).s.priv then trapSelf Code.privop i

/-- The steps of `snap` (25 R410). -/
def takeSnapshot (d a : XReg) : M Unit := do
  needPriv (.snap d a)
  let t ← getTeam
  match t.s.phase with
  | .snapped handle => modify fun s => s.result d (BitVec.ofNat 64 handle)
  | .published psn => waitFor (.commit psn)
  | _ =>
    let w ← snapWindow ((← get).getX a) 0 fun d _ => !Win.logged d
    drain
    let s ← get
    if 16 ≤ s.snapCount w ∨ 1024 ≤ s.snapTotal then set (s.result d 0)
    else
      let n ← number (.snap t.uid w) [] []
      setPhase t.uid (.published n)
      waitFor (.commit n)

/-- `snap xD, xA` (25 R410). -/
def execSnap (d a : XReg) (s : State) : Host.Outcome State Fault Refusal := runTeam (takeSnapshot d a) s

/-- The steps of `roll` (25 R411). -/
def rollBack (a b : XReg) : M Unit := do
  needPriv (.roll a b)
  let t ← getTeam
  match t.s.phase with
  | .published psn =>
    waitUnless (decide (psn ≤ (← get).commitPoint)) (.commit psn)
    advance
  | _ =>
    let s ← get
    let xa := s.getX a
    let xb := s.getX b
    let w ← snapWindow xa xb fun d w => !Win.logged d || s.isReplica w
    if !(s.snaps.any fun q => q.handle == xb.toNat && q.win == w) then
      throw (.trap { noTrap with code := Code.winvalid, w2 := xa, w3 := xb })
    drain
    let n ← number (.roll t.uid w xb.toNat) [] []
    setPhase t.uid (.published n)
    waitFor (.commit n)

/-- `roll xA, xB` (25 R411). -/
def execRoll (a b : XReg) (s : State) : Host.Outcome State Fault Refusal := runTeam (rollBack a b) s

/-! ## Release of snapshots (25 R412) -/

/-- Frames of the index pool that a window or a snapshot reaches. -/
def State.reachedFrames (s : State) : List Nat :=
  (s.windows.flatMap fun (w : Nat × BitVec 512) =>
      if Win.valid w.2 && Win.logged w.2 then s.indexFrames (Win.root w.2) (Win.depth w.2) else [])
    ++ s.snaps.flatMap fun q => s.indexFrames q.root q.depth

/-- Give back the index nodes that nothing reaches any more. -/
def State.freeNodes (s : State) : State :=
  let live := s.reachedFrames
  { s.dropNodeLines (s.ixUsed.filter fun f => !live.contains f) with ixUsed := s.ixUsed.filter fun f => live.contains f }

/-- Release the snapshots that a predicate names. -/
def State.dropSnaps (s : State) (p : Snapshot → Bool) : State :=
  if s.snaps.any p then { s with snaps := s.snaps.filter fun q => !p q }.freeNodes else s

/-! ## The mailbox (24 R404, R405) -/

/-- The mailbox answers with a status and its interrupt (24 R397, R404). -/
def answer (status : Nat) : M Unit := do
  send (.mailbox status)
  raiseMsix 0 2

/-- An applied command is measured into M2 (24 R405). -/
def measure (bytes : List Byte) : M Unit :=
  onDev fun d =>
    let m2 := byteList 64 (Table.get 0 d.meas 2).toNat
    { d with meas := Table.set 0 d.meas 2 (BitVec.ofNat 512 (byteNum (sha3 (m2 ++ sha3 bytes)))) }

/-- Sessions: none, the device owner's, a tenant's. -/
def ownerSession : Nat := 1
def tenantSession (t : Nat) : Nat := 2 + t

/-- Bytes of logical data that all windows hold (00 R7). -/
def State.dataHeld (s : State) : Nat := s.liveEntries.foldl (fun n g => n + 32 * popCount (Ent.occ g.2.2) 32) 0

/-- A tenant may make a change to something that is its own, or nobody's, and stays its own (24 R404). -/
def ownChange (session : Nat) (wasValid : Bool) (was now : Nat) : Bool :=
  session == tenantSession now && (!wasValid || session == tenantSession was)

/-- A descriptor takes logical capacity that its window had not mapped (00 R7): it makes the window logged, or larger. -/
def mapsMore (old d : BitVec 512) : Bool :=
  Win.valid d && Win.logged d && !(Win.valid old && Win.logged old && decide (Win.lsize d ≤ Win.lsize old))

/-- No other window holds an address of a descriptor's range: ranges never overlap (05 R117). -/
def State.rangeFree (s : State) (id : Nat) (d : BitVec 512) : Bool :=
  s.windows.all fun w => w.1 == id || !Win.valid w.2
    || decide (Win.lbase d + Win.lsize d * 1024 ≤ Win.lbase w.2 ∨ Win.lbase w.2 + Win.lsize w.2 * 1024 ≤ Win.lbase d)

/-- A context that was terminated may start again: each of its logged windows has been reinstated by a `roll` or rebuilt since
(22 R377, log 110). -/
def State.mayRestart (s : State) (ctx : Nat) : Bool := !s.dev.broken.any fun w => Win.owner (s.window w) == ctx

/-- A window in use names a context (24 R399). -/
def State.windowsOf (s : State) (ctx : Nat) : Bool := s.windows.any fun w => Win.valid w.2 && Win.owner w.2 == ctx

/-- The fault queue and the service table of a descriptor in use are as the table gives them (24 R400; log 132, DEDUCED). -/
def Ctx.inRange (d : BitVec 512) : Bool :=
  !Ctx.valid d || decide (4 ≤ Ctx.fqlog2 d ∧ Ctx.fqlog2 d ≤ 16 ∧ Ctx.fqbase d % 64 = 0 ∧ Ctx.svctab d % 8 = 0)

/-- Every context in use that names a key slot is of the tenant of a session: the slot is that tenant's (24 R400, R404; log 131). -/
def State.ownsKey (s : State) (session slot : Nat) : Bool :=
  s.contexts.all fun c => !(Ctx.valid c.2 && Ctx.keyslot c.2 == slot) || session == tenantSession (Ctx.tenant c.2)

/-- A configuration change is admitted in its session (24 R400, R404); an entry with a non-zero checked field is refused
(log 98). A window lies apart from every other and belongs to a context in use of its tenant, so a context that windows name stays its
tenant's (05 R117, 24 R399; log 132). -/
def State.admits (s : State) (session : Nat) (c : MailChange) : Bool :=
  match c with
  | .window id d =>
    let old := s.window id
    decide (id < 256) && ownChange session (Win.valid old) (Win.tenant old) (Win.tenant d)
      && !(mapsMore old d && decide (576 * 2 ^ 30 ≤ s.dataHeld))
      && (!Win.valid d || (s.rangeFree id d && Ctx.valid (s.context (Win.owner d)) && Ctx.tenant (s.context (Win.owner d)) == Win.tenant d))
  | .context id d =>
    let old := s.context id
    decide (id < 64) && ownChange session (Ctx.valid old) (Ctx.tenant old) (Ctx.tenant d) && Ctx.zeroFields d && Ctx.inRange d
      && (!s.windowsOf id || (Ctx.valid d && Ctx.tenant d == Ctx.tenant old))
      && !(Ctx.term old && !Ctx.term d && !s.mayRestart id) && !(s.allTeams.any fun t => t.resident && t.id.ctx == id)
  | .counter id e _ =>
    let old := s.ctrEntry id
    decide (id < 4096) && ownChange session (Ctr.valid old) (Ctr.tenant old) (Ctr.tenant e) && counterZero e.toNat
  | .peer win e => decide (win < 256) && session == tenantSession (Win.tenant (s.window win)) && peerZero e
  | .ring tenant queue base slots =>
    session == ownerSession && decide (tenant < 16 ∧ queue < 8 ∧ base % 128 = 0)
      && [16, 32, 64, 128, 256, 512, 1024, 2048, 4096].contains slots
  | .route rtid _ => session == ownerSession && decide (rtid < 4096)
  | .rtid _ => session == ownerSession
  | .hostMaps _ _ => session == ownerSession
  | .hdmBase base => session == ownerSession && decide (base % 2 ^ 45 = 0)
  | .key slot => decide (2 ≤ session) && decide (slot < 64) && s.ownsKey session slot
  | .arm rtid => session == ownerSession && decide (rtid < 4096)
  | .tenant id _ => session == ownerSession && decide (id < 16)
  | .reinstate win handle =>
    session == tenantSession (Win.tenant (s.window win)) && Win.valid (s.window win) && s.dev.broken.contains win
      && s.snaps.any fun q => q.handle == handle && q.win == win

/-- A window's descriptor is written: PSNPUB and STALECNT stay the device's, a fresh root is an empty node, and snapshots of a
window that goes or changes its place are released, or that is rebuilt after its context was terminated (02 R52, 25 R412,
22 R377). A window is rebuilt by a descriptor that gives it a fresh root, or none (log 110). -/
def State.writeWindow (s : State) (id : Nat) (d : BitVec 512) : State :=
  let old := s.window id
  let same := Win.valid old && Win.valid d && decide (Win.lbase old = Win.lbase d ∧ Win.lsize old = Win.lsize d ∧ Win.depth old = Win.depth d)
  let d1 := if same then setDescWord (setDescWord d 5 (descWord old 5)) 6 (descWord old 6) else d
  let logged := Win.valid d && Win.logged d
  let fresh := logged && !s.ixUsed.contains (Win.root d) && decide (Win.root d < s.poolFrames)
  let rebuilt := s.dev.broken.contains id && (fresh || !logged)
  let s0 := (s.setWindow id d1).touchStructure (windowTableBase + 64 * id) true
  let s1 := if rebuilt then { s0 with dev := { s0.dev with broken := s0.dev.broken.filter fun w => w != id } } else s0
  let s2 :=
    if fresh then
      { s1.dropNodeLines [Win.root d] with
        ixUsed := insertSorted s1.ixUsed (Win.root d), hbm := Memory.clear s1.hbm (s1.poolBase + Win.root d * 4096) 4096 }
    else s1
  if same && !rebuilt then s2 else (s2.dropSnaps fun q => q.win == id).freeNodes

/-- What an admitted change writes. -/
def applyChange (c : MailChange) : M Unit :=
  match c with
  | .window id d => modify fun s => s.writeWindow id d
  | .context id d => modify fun s => (s.setContext id d).touchStructure (contextTableBase + 64 * id) true
  | .counter id e v => onDev fun d => { d with counterTable := Table.set 0 d.counterTable id e, counters := Table.set 0 d.counters id v }
  | .peer win e => modify fun s => { s with peers := Table.set 0 s.peers win e }
  | .ring tenant queue base slots =>
    onDev fun d => { d with rings := Table.set Ring.init d.rings (8 * tenant + queue) { base := base, slots := slots, next := 0, lap := 0 } }
  | .route rtid ports => onDev fun d => { d with routes := Table.set 0 d.routes rtid ports }
  | .rtid id => onDev fun d => { d with rtid := id }
  | .hostMaps rd wr => onDev fun d => { d with hostRd := rd, hostWr := wr }
  | .hdmBase base => onDev fun d => { d with hdmBase := base }
  | .key _ => pure ()
  | .arm rtid => onDev fun d => { d with armed := insertSorted d.armed rtid }
  | .tenant id on => onDev fun d =>
    { d with tenants := if on then d.tenants ||| BitVec.ofNat 16 (2 ^ id) else d.tenants &&& ~~~(BitVec.ofNat 16 (2 ^ id)) }
  | .reinstate win handle => do
    let _ ← number (.roll 0 win handle) [] []

/-- MAILBOX_COMMAND (24 R404): applied in its session and measured, or refused with status 1. -/
def mailbox (c : MailCmd) : M Unit := do
  if (← get).admits c.session c.change then
    applyChange c.change
    measure c.bytes
    answer 0
  else answer 1
def execMailboxCommand (cmd : MailCmd) (s : State) : Host.Outcome State Fault Refusal := runEventOf 0 (mailbox cmd) s

/-- SNAPFREE (25 R412): in the session of the window's tenant; after the commit of a `roll` to the snapshot. -/
def snapFree (win handle session : Nat) : M Unit := do
  let s ← get
  let live := s.snaps.any fun q => q.handle == handle && q.win == win
  if session ≠ tenantSession (Win.tenant (s.window win)) ∨ live = false then answer 1
  else
    enabled (s.pubs.all fun p => p.committed || (match p.who with | .roll _ _ h => h != handle | _ => true))
    modify fun s => s.dropSnaps fun q => q.handle == handle
    measure (Config.commandBytes 0 [win, handle])
    answer 0
def execSnapfree (win handle session : Nat) (s : State) : Host.Outcome State Fault Refusal := runEventOf 0 (snapFree win handle session) s

/-- The host window of an export is one of the tenant and holds the snapshot's view. -/
def State.exportTarget (s : State) (q : Snapshot) (hostWin : Nat) : Bool :=
  let h := s.window hostWin
  decide (hostWin < 256) && Win.valid h && Win.host h && Win.tenant h == Win.tenant (s.window q.win) && decide (q.lsize ≤ Win.lsize h)

/-- The rows of sectors that the Spillway reads (03 R77). -/
def readLogRows (poss : List Nat) : M Unit := modify fun s => s.touchAll poss

/-- The host memory once a snapshot's view has been written there from `base`: its sectors by their numbers from the start of the window,
poison with the link's indication, and zeros where the snapshot holds none (25 R415, 22 R373). -/
def State.writeView (s : State) (q : Snapshot) (base : Nat) : State :=
  let first := Win.lbase (s.window q.win) / 32
  ((s.indexSectors q.root q.depth).filter fun p => decide (p.1 < q.lsize * 32)).foldl (fun (u : State) p =>
    let d := s.sectorAt p.2 (first + p.1)
    u.writeHost (base + 32 * p.1) 32 d.data.toNat d.poison)
    { s with host := Memory.clear s.host base (q.lsize * 1024), hostBad := s.cleanHost base (q.lsize * 1024) }

/-- EXPORT (25 R415): a snapshot's view goes into host memory, sector by sector from the start of the host window. -/
def exportView (a : ExportArgs) : M Unit := do
  let s ← get
  let mine := match a.session with | some t => decide (t = Win.tenant (s.window a.win)) | none => false
  match s.snaps.find? fun q => q.handle == a.handle && q.win == a.win with
  | none => answer 1
  | some q =>
    if mine && s.exportTarget q a.hostWin then
      modify fun s => s.writeView q (Win.lbase (s.window a.hostWin) % 2 ^ 45)
      readLogRows ((s.indexSectors q.root q.depth).map (·.2))
      measure (Config.commandBytes 1 [a.win, a.handle, a.hostWin])
      answer 0
    else answer 1
def execExportWindow (args : ExportArgs) (s : State) : Host.Outcome State Fault Refusal := runEventOf 0 (exportView args) s

/-! ## The Spillway (25 R413, 24 R401) -/

/-- The sectors of a window still to ship, in order. -/
def State.toShip (s : State) (w : Nat) : List Unshipped := s.dev.unshipped.filter fun u => u.win == w

/-- Consecutive sectors of one publication, in sealed segments, at most 56. -/
def burstOf (s : State) (l : List Unshipped) : List Unshipped :=
  match l with
  | [] => []
  | u :: _ =>
    let ok := fun (p : Unshipped × Nat) => decide (p.1.psn = u.psn ∧ p.1.sec = u.sec + p.2)
      && p.1.pos.all fun pos => (Table.get Segment.dflt s.segs (segOf pos)).sealed
    ((l.zip (List.range 56)).takeWhile ok).map (·.1)

/-- SPILLWAY_SHIP (25 R413): a KIND 1 burst of the next published sectors of a source window, checked at egress. -/
def spillwayShip (w : Nat) : M Unit := do
  let s ← get
  enabled (Peer.isSource (s.peer w))
  let l := s.toShip w
  let b := burstOf s l
  -- a cut owed comes before any later publication
  enabled (b != [] && s.dev.cutOwed.all fun c => c.1 != w || b.all fun u => decide (u.psn ≤ c.2))
  match b with
  | [] => pure ()
  | u :: _ =>
    let d := s.window w
    let rel := fun (v : Unshipped) => v.sec - Win.lbase d / 32
    let secs := b.map fun v => (rel v, v.pos.elim unwritten fun pos => s.sectorAt pos v.sec)
    let poison := (List.range secs.length).foldl (fun m i => if (secs.getD i (0, unwritten)).2.poison then m + 2 ^ i else m) 0
    let checks := secs.flatMap fun p => byteList 4 (checkValue p.2.data p.1).toNat
    let data := (List.range ((secs.length + 7) / 8)).map fun i =>
      let part := ((secs.drop (8 * i)).take 8).flatMap fun p => byteList 32 p.2.data.toNat
      part ++ List.replicate (256 - part.length) 0
    let e := s.peer w
    sendBurst (Peer.rtid e) (Peer.ports e) 1 secs.length (Peer.pwid e)
      (byteList 7 poison ++ List.replicate 7 0 ++ byteList 8 (rel u) ++ checks) data
    readLogRows (b.filterMap (·.pos))
    onDev fun v =>
      { v with
        unshipped := v.unshipped.filter fun x => !b.contains x
        lastShip := Table.set 0 v.lastShip w u.psn }
def execSpillwayShip (win : Nat) (s : State) : Host.Outcome State Fault Refusal := runEventOf 0 (spillwayShip win) s

/-- The source PSN of the next cut of a window: one that a snapshot owes, or the last publication shipped whole. -/
def State.nextCut (s : State) (w : Nat) : Option Nat :=
  let l := s.toShip w
  match s.dev.cutOwed.find? fun c => c.1 == w with
  | some c => if l.all fun u => decide (c.2 < u.psn) then some c.2 else none
  | none =>
    let last := Table.get 0 s.dev.lastShip w
    if last ≠ 0 ∧ (l.all fun u => u.psn != last) = true then some last else none

/-- SPILLWAY_CUT (25 R413). -/
def spillwayCut (w : Nat) : M Unit := do
  let s ← get
  enabled (Peer.isSource (s.peer w))
  match s.nextCut w with
  | none => enabled false
  | some n =>
    let e := s.peer w
    sendCut (Peer.rtid e) (Peer.ports e) (Peer.pwid e) n
    onDev fun d => { d with cutOwed := d.cutOwed.filter fun c => c != (w, n) }
def execSpillwayCut (win : Nat) (s : State) : Host.Outcome State Fault Refusal := runEventOf 0 (spillwayCut win) s

/-! ## Fabric ingress (24 R401, R402, 25 R414) -/

def refuseFabric (n : Nat) : M Unit := onDev fun d => { d with fabRefuse := (d.fabRefuse + n) % 2 ^ 64 }

/-- The entry of a window admits traffic from a source at a port, in a role; one with a non-zero checked field has none (log 98). -/
def State.fromPeer (s : State) (win src port : Nat) (replica : Bool) : Bool :=
  let e := s.peer win
  decide (win < 256) && (if replica then Peer.isReplica e else Peer.isSource e) && Peer.rtid e == src && bitAt (Peer.ports e) port

/-- REPLICA_SEGMENT_DATA (24 R402): the sectors of an accepted burst are checked and appended to the receive log; where appends to it
stall the burst waits its turn (02 R71, R72). -/
def replicaData (b : ReplicaBurst) : M Unit := do
  let s ← get
  let n := b.data.length
  if b.dst ≠ s.dev.rtid.toNat then dropFlits (1 + (n + 7) / 8)
  else if !s.fromPeer b.win b.src b.port true || n = 0 || decide (56 < n) then refuseFabric 1
  else
    let d := s.window b.win
    refuseFabric ((burstSectors b).filter fun p => decide (Win.lsize d * 32 ≤ p.1)).length
    if s.dev.arrivals.all (fun x => x.port != b.port) && s.mayResume (.replica b.port) then receiveBurst b
    else
      onDev fun d => { d with arrivals := d.arrivals ++ [b] }
      modify fun s => s.stall (.replica b.port)
def execReplicaSegmentData (burst : ReplicaBurst) (s : State) : Host.Outcome State Fault Refusal := runEventOf 0 (replicaData burst) s

/-- Received sectors as runs: sectors of one granule at consecutive positions, ascending, make one run. -/
def receivedRuns (l : List Received) : List (Nat × Nat × PubRun) :=
  let step := fun (acc : List (Received × Received × Nat)) (r : Received) =>
    match acc.getLast? with
    | some (f, q, set) =>
      if q.sec / 32 = r.sec / 32 ∧ q.sec + 1 = r.sec ∧ q.pos + 1 = r.pos then acc.dropLast ++ [(f, r, set + 2 ^ (r.sec % 32))]
      else acc ++ [(r, r, 2 ^ (r.sec % 32))]
    | none => [(r, r, 2 ^ (r.sec % 32))]
  (l.foldl step []).map fun q =>
    (q.1.win, q.1.sec / 32, ({ set := BitVec.ofNat 32 q.2.2, live := BitVec.ofNat 32 q.2.2, pos := q.1.pos } : PubRun))

/-- REPLICA_CUT (25 R414): what a replica has received since the last cut becomes one publication; the cut is echoed once it
stands. -/
def replicaCut (port : Nat) (ends : FlitEnds) (win psn : Nat) : M Unit := do
  let s ← get
  let src := ends.src
  if ends.dst ≠ s.dev.rtid.toNat then dropFlits 1
  else if !s.fromPeer win src port true then refuseFabric 1
  else
    -- it follows the sectors that came before it, at its port and, of its window, at the others
    enabled (s.dev.arrivals.all fun b => b.port != port && b.win != win)
    let mine := s.dev.received.filter fun r => r.win == win
    let pwid := Peer.pwid (s.peer win)
    if mine.isEmpty then
      -- an echo owed goes out before it
      match (s.dev.echoes.filter fun e => decide (e.rtid = src ∧ e.pwid = pwid)).getLast? with
      | some e => onDev fun d => { d with echoes := d.echoes ++ [{ e with cut := psn }] }
      | none => sendCut src (2 ^ 16 - 1) pwid psn
    else
      let n ← number (.fabric port) (groupRuns (receivedRuns mine)) []
      onDev fun d =>
        { d with
          received := d.received.filter fun r => r.win != win
          echoes := d.echoes ++ [{ psn := n, rtid := src, pwid := pwid, cut := psn }] }
def execReplicaCut (port : Nat) (ends : FlitEnds) (win psn : Nat) (s : State) : Host.Outcome State Fault Refusal :=
  runEventOf 0 (replicaCut port ends win psn) s

/-- CUT_ECHO (25 R414): the source learns what its replica shows. -/
def cutEcho (port : Nat) (ends : FlitEnds) (win psn : Nat) : M Unit := do
  if ends.dst ≠ (← get).dev.rtid.toNat then dropFlits 1
  else if (← get).fromPeer win ends.src port false then onDev fun d => { d with shipPsn := Table.set 0 d.shipPsn win psn }
  else refuseFabric 1
def execCutEcho (port : Nat) (ends : FlitEnds) (win psn : Nat) (s : State) : Host.Outcome State Fault Refusal :=
  runEventOf 0 (cutEcho port ends win psn) s

/-! ## Takeover (25 R416) -/

/-- TAKEOVER: the replica windows of the lost device become the spare's own, under its RTID. -/
def takeover (a : TakeoverArgs) : M Unit := do
  let s ← get
  let mine := (s.peers.filter fun p => Peer.isReplica p.2 && Peer.rtid p.2 == a.lost).map (·.1)
  if !a.owner || mine == [] then answer 1
  else
    mine.forM fun w => modify fun s =>
      let e := s.peer w
      let d := s.window w
      let own := (a.owners.find? fun o => o.1 == w).map (·.2)
      let d1 := match own with
        | some c => setDescWord d 0 (setBits (setBits (descWord d 0) 58 6 c) 54 4 (Ctx.tenant (s.context c)))
        | none => d
      { s.setWindow w d1 with peers := Table.set 0 s.peers w (BitVec.ofNat 128 (setBits e.toNat 126 1 0)) }
    onDev fun d =>
      let wait := d.arrivals.filter fun b => !mine.contains b.win
      { d with
        rtid := BitVec.ofNat 12 a.lost, received := d.received.filter fun r => !mine.contains r.win
        arrivals := wait
        stalls := d.stalls.filter fun x => match x with | .replica p => wait.any fun b => b.port == p | _ => true }
    let s ← get
    s.dev.routes.forM fun (r : Nat × BitVec 16) => sendBurst r.1 (2 ^ 16 - 1) 3 0 0 [] []
    measure (Config.commandBytes 2 (a.lost :: a.owners.flatMap fun o => [o.1, o.2]))
    answer 0
def execTakeover (args : TakeoverArgs) (s : State) : Host.Outcome State Fault Refusal := runEventOf 0 (takeover args) s

/-- TAKEOVER_FLIT: an armed peer points its route at the arriving port. -/
def takeoverFlit (port : Nat) (ends : FlitEnds) : M Unit := do
  if ends.dst ≠ (← get).dev.rtid.toNat then dropFlits 1
  else if (← get).dev.armed.contains ends.src then
    onDev fun d => { d with routes := Table.set 0 d.routes ends.src (BitVec.ofNat 16 (2 ^ port)) }
  else refuseFabric 1
def execTakeoverFlit (port : Nat) (ends : FlitEnds) (s : State) : Host.Outcome State Fault Refusal := runEventOf 0 (takeoverFlit port ends) s

/-! ## Attestation (24 R406) -/

/-- The report of an SPDM request: head, nonce, M0 to M3, the commit point, and the signature over the digest of the body. -/
def State.report (s : State) (nonce : Nat) : List Byte :=
  let body := byteList 8 (Config.reportHead s.dev.rtid.toNat s.dev.fwVersion).toNat ++ byteList 32 nonce
    ++ (List.range 4).flatMap (fun i => byteList 64 (Table.get 0 s.dev.meas i).toNat) ++ byteList 8 s.commitPoint
  let sig := Config.sign 0 ((sha3 body).map (·.toNat))
  body ++ (List.range 4627).map fun i => sig.getD i 0

def execSpdmMeasurement (nonce : Nat) (s : State) : Host.Outcome State Fault Refusal :=
  runEventOf 0 (do send (.report ((← get).report nonce))) s
def execSpdmChallenge (nonce : Nat) (s : State) : Host.Outcome State Fault Refusal :=
  runEventOf 0 (do send (.report ((← get).report nonce))) s
def execSpdmCertificate (slot : Nat) (s : State) : Host.Outcome State Fault Refusal :=
  runEventOf 0 (send (.chain (Config.certificate slot))) s

end Sys2Proof.Machine
end

