-- ==== Sys2Proof/Machine/Dispatch.lean ====
section
/-!
DEFINITION. One arm per instruction: the call of its meaning.
-/
namespace Sys2Proof.Machine

def exec (i : Instr) (s : State) : Host.Outcome State Fault Refusal :=
  match i with
  | .add d a b => Sys2Proof.Machine.execAdd d a b s
  | .sub d a b => Sys2Proof.Machine.execSub d a b s
  | .mul d a b => Sys2Proof.Machine.execMul d a b s
  | .mulh d a b => Sys2Proof.Machine.execMulh d a b s
  | .mulhu d a b => Sys2Proof.Machine.execMulhu d a b s
  | .div d a b => Sys2Proof.Machine.execDiv d a b s
  | .divu d a b => Sys2Proof.Machine.execDivu d a b s
  | .rem d a b => Sys2Proof.Machine.execRem d a b s
  | .remu d a b => Sys2Proof.Machine.execRemu d a b s
  | .and d a b => Sys2Proof.Machine.execAnd d a b s
  | .or d a b => Sys2Proof.Machine.execOr d a b s
  | .xor d a b => Sys2Proof.Machine.execXor d a b s
  | .andn d a b => Sys2Proof.Machine.execAndn d a b s
  | .shl d a b => Sys2Proof.Machine.execShl d a b s
  | .shr d a b => Sys2Proof.Machine.execShr d a b s
  | .sar d a b => Sys2Proof.Machine.execSar d a b s
  | .rotr d a b => Sys2Proof.Machine.execRotr d a b s
  | .min d a b => Sys2Proof.Machine.execMin d a b s
  | .max d a b => Sys2Proof.Machine.execMax d a b s
  | .minu d a b => Sys2Proof.Machine.execMinu d a b s
  | .maxu d a b => Sys2Proof.Machine.execMaxu d a b s
  | .slt d a b => Sys2Proof.Machine.execSlt d a b s
  | .sltu d a b => Sys2Proof.Machine.execSltu d a b s
  | .seq d a b => Sys2Proof.Machine.execSeq d a b s
  | .clz d a => Sys2Proof.Machine.execClz d a s
  | .ctz d a => Sys2Proof.Machine.execCtz d a s
  | .popc d a => Sys2Proof.Machine.execPopc d a s
  | .addi d a k => Sys2Proof.Machine.execAddi d a k s
  | .andi d a k => Sys2Proof.Machine.execAndi d a k s
  | .ori d a k => Sys2Proof.Machine.execOri d a k s
  | .xori d a k => Sys2Proof.Machine.execXori d a k s
  | .shli d a v => Sys2Proof.Machine.execShli d a v s
  | .shri d a v => Sys2Proof.Machine.execShri d a v s
  | .sari d a v => Sys2Proof.Machine.execSari d a v s
  | .slti d a k => Sys2Proof.Machine.execSlti d a k s
  | .sltui d a k => Sys2Proof.Machine.execSltui d a k s
  | .lui d k => Sys2Proof.Machine.execLui d k s
  | .apc d k => Sys2Proof.Machine.execApc d k s
  | .ldB d a k => Sys2Proof.Machine.execLdB d a k s
  | .ldH d a k => Sys2Proof.Machine.execLdH d a k s
  | .ldW d a k => Sys2Proof.Machine.execLdW d a k s
  | .ldD d a k => Sys2Proof.Machine.execLdD d a k s
  | .lduB d a k => Sys2Proof.Machine.execLduB d a k s
  | .lduH d a k => Sys2Proof.Machine.execLduH d a k s
  | .lduW d a k => Sys2Proof.Machine.execLduW d a k s
  | .stB v a k => Sys2Proof.Machine.execStB v a k s
  | .stH v a k => Sys2Proof.Machine.execStH v a k s
  | .stW v a k => Sys2Proof.Machine.execStW v a k s
  | .stD v a k => Sys2Proof.Machine.execStD v a k s
  | .amo d a b c z o => Sys2Proof.Machine.execAmo d a b c z o s
  | .cas d a b c z => Sys2Proof.Machine.execCas d a b c z s
  | .beq a b o => Sys2Proof.Machine.execBeq a b o s
  | .bne a b o => Sys2Proof.Machine.execBne a b o s
  | .blt a b o => Sys2Proof.Machine.execBlt a b o s
  | .bge a b o => Sys2Proof.Machine.execBge a b o s
  | .bltu a b o => Sys2Proof.Machine.execBltu a b o s
  | .bgeu a b o => Sys2Proof.Machine.execBgeu a b o s
  | .jmp o => Sys2Proof.Machine.execJmp o s
  | .call o => Sys2Proof.Machine.execCall o s
  | .ret => Sys2Proof.Machine.execRet s
  | .jtab k t => Sys2Proof.Machine.execJtab k t s
  | .lpad l => Sys2Proof.Machine.execLpad l s
  | .lrun c k => Sys2Proof.Machine.execLrun c k s
  | .lwait n => Sys2Proof.Machine.execLwait n s
  | .mrd d n k => Sys2Proof.Machine.execMrd d n k s
  | .mwr n a k => Sys2Proof.Machine.execMwr n a k s
  | .rel v m => Sys2Proof.Machine.execRel v m s
  | .acq v => Sys2Proof.Machine.execAcq v s
  | .fence k m => Sys2Proof.Machine.execFence k m s
  | .tlwait a n => Sys2Proof.Machine.execTlwait a n s
  | .tlread d n => Sys2Proof.Machine.execTlread d n s
  | .rcopy d a p n => Sys2Proof.Machine.execRcopy d a p n s
  | .rfeed d a p n => Sys2Proof.Machine.execRfeed d a p n s
  | .rspill d a p n => Sys2Proof.Machine.execRspill d a p n s
  | .evpop d => Sys2Proof.Machine.execEvpop d s
  | .evwait => Sys2Proof.Machine.execEvwait s
  | .mxloop d a => Sys2Proof.Machine.execMxloop d a s
  | .wset n a b c => Sys2Proof.Machine.execWset n a b c s
  | .wfree n => Sys2Proof.Machine.execWfree n s
  | .freeze k => Sys2Proof.Machine.execFreeze k s
  | .bar k v => Sys2Proof.Machine.execBar k v s
  | .qput d a b => Sys2Proof.Machine.execQput d a b s
  | .qget d a b => Sys2Proof.Machine.execQget d a b s
  | .yield => Sys2Proof.Machine.execYield s
  | .exit v => Sys2Proof.Machine.execExit v s
  | .trap c => Sys2Proof.Machine.execTrap c s
  | .svc n => Sys2Proof.Machine.execSvc n s
  | .sget d n => Sys2Proof.Machine.execSget d n s
  | .sset a n => Sys2Proof.Machine.execSset a n s
  | .eret => Sys2Proof.Machine.execEret s
  | .brk c => Sys2Proof.Machine.execBrk c s
  | .snap d a => Sys2Proof.Machine.execSnap d a s
  | .roll a b => Sys2Proof.Machine.execRoll a b s
  | .nop => Sys2Proof.Machine.execNop s
  | .lanePair a b => Sys2Proof.Machine.execLanePair a b s
  | .vadd f => Sys2Proof.Machine.execVadd f s
  | .vsub f => Sys2Proof.Machine.execVsub f s
  | .vmul f => Sys2Proof.Machine.execVmul f s
  | .vmulh f => Sys2Proof.Machine.execVmulh f s
  | .vmulhu f => Sys2Proof.Machine.execVmulhu f s
  | .vmad f => Sys2Proof.Machine.execVmad f s
  | .vmin f => Sys2Proof.Machine.execVmin f s
  | .vmax f => Sys2Proof.Machine.execVmax f s
  | .vminu f => Sys2Proof.Machine.execVminu f s
  | .vmaxu f => Sys2Proof.Machine.execVmaxu f s
  | .vand f => Sys2Proof.Machine.execVand f s
  | .vor f => Sys2Proof.Machine.execVor f s
  | .vxor f => Sys2Proof.Machine.execVxor f s
  | .vandn f => Sys2Proof.Machine.execVandn f s
  | .vshl f => Sys2Proof.Machine.execVshl f s
  | .vshr f => Sys2Proof.Machine.execVshr f s
  | .vsar f => Sys2Proof.Machine.execVsar f s
  | .vrotr f => Sys2Proof.Machine.execVrotr f s
  | .vclz f => Sys2Proof.Machine.execVclz f s
  | .vpopc f => Sys2Proof.Machine.execVpopc f s
  | .vbrev f => Sys2Proof.Machine.execVbrev f s
  | .vabs f => Sys2Proof.Machine.execVabs f s
  | .vaddsat f => Sys2Proof.Machine.execVaddsat f s
  | .vsubsat f => Sys2Proof.Machine.execVsubsat f s
  | .vbfx f => Sys2Proof.Machine.execVbfx f s
  | .vbfi f => Sys2Proof.Machine.execVbfi f s
  | .vsel f => Sys2Proof.Machine.execVsel f s
  | .vmov f => Sys2Proof.Machine.execVmov f s
  | .vdot4 f => Sys2Proof.Machine.execVdot4 f s
  | .vrqz f => Sys2Proof.Machine.execVrqz f s
  | .vfadd f => Sys2Proof.Machine.execVfadd f s
  | .vfsub f => Sys2Proof.Machine.execVfsub f s
  | .vfmul f => Sys2Proof.Machine.execVfmul f s
  | .vfma f => Sys2Proof.Machine.execVfma f s
  | .vfmin f => Sys2Proof.Machine.execVfmin f s
  | .vfmax f => Sys2Proof.Machine.execVfmax f s
  | .vfabs f => Sys2Proof.Machine.execVfabs f s
  | .vfneg f => Sys2Proof.Machine.execVfneg f s
  | .vfrnd f => Sys2Proof.Machine.execVfrnd f s
  | .vfclass f => Sys2Proof.Machine.execVfclass f s
  | .vnadd f => Sys2Proof.Machine.execVnadd f s
  | .vnmul f => Sys2Proof.Machine.execVnmul f s
  | .vnfma f => Sys2Proof.Machine.execVnfma f s
  | .vnmax f => Sys2Proof.Machine.execVnmax f s
  | .vnmin f => Sys2Proof.Machine.execVnmin f s
  | .vfdiv f => Sys2Proof.Machine.execVfdiv f s
  | .vfsqrt f => Sys2Proof.Machine.execVfsqrt f s
  | .vrcp f => Sys2Proof.Machine.execVrcp f s
  | .vrsq f => Sys2Proof.Machine.execVrsq f s
  | .vexp2 f => Sys2Proof.Machine.execVexp2 f s
  | .vlog2 f => Sys2Proof.Machine.execVlog2 f s
  | .vsin f => Sys2Proof.Machine.execVsin f s
  | .vcos f => Sys2Proof.Machine.execVcos f s
  | .vtanh f => Sys2Proof.Machine.execVtanh f s
  | .vcvt f => Sys2Proof.Machine.execVcvt f s
  | .vcvtd f => Sys2Proof.Machine.execVcvtd f s
  | .vcvtnf f => Sys2Proof.Machine.execVcvtnf f s
  | .vpack f => Sys2Proof.Machine.execVpack f s
  | .vunpack f => Sys2Proof.Machine.execVunpack f s
  | .vbsc f => Sys2Proof.Machine.execVbsc f s
  | .vbq f => Sys2Proof.Machine.execVbq f s
  | .vbdq f => Sys2Proof.Machine.execVbdq f s
  | .vcmp f => Sys2Proof.Machine.execVcmp f s
  | .vfcmp f => Sys2Proof.Machine.execVfcmp f s
  | .vmlog f => Sys2Proof.Machine.execVmlog f s
  | .vmpop f => Sys2Proof.Machine.execVmpop f s
  | .vmfirst f => Sys2Proof.Machine.execVmfirst f s
  | .vif f => Sys2Proof.Machine.execVif f s
  | .velse f => Sys2Proof.Machine.execVelse f s
  | .vendif f => Sys2Proof.Machine.execVendif f s
  | .vbreak f => Sys2Proof.Machine.execVbreak f s
  | .vshfl f => Sys2Proof.Machine.execVshfl f s
  | .vbcast f => Sys2Proof.Machine.execVbcast f s
  | .vrot f => Sys2Proof.Machine.execVrot f s
  | .vvote f => Sys2Proof.Machine.execVvote f s
  | .vred f => Sys2Proof.Machine.execVred f s
  | .vfred f => Sys2Proof.Machine.execVfred f s
  | .vscan f => Sys2Proof.Machine.execVscan f s
  | .vfscan f => Sys2Proof.Machine.execVfscan f s
  | .vmatch f => Sys2Proof.Machine.execVmatch f s
  | .vcompact f => Sys2Proof.Machine.execVcompact f s
  | .vexpand f => Sys2Proof.Machine.execVexpand f s
  | .vld f => Sys2Proof.Machine.execVld f s
  | .vst f => Sys2Proof.Machine.execVst f s
  | .vldp f => Sys2Proof.Machine.execVldp f s
  | .vstp f => Sys2Proof.Machine.execVstp f s
  | .vldb f => Sys2Proof.Machine.execVldb f s
  | .vstb f => Sys2Proof.Machine.execVstb f s
  | .vldrow f => Sys2Proof.Machine.execVldrow f s
  | .vtst f => Sys2Proof.Machine.execVtst f s
  | .vpref f => Sys2Proof.Machine.execVpref f s
  | .vatom f => Sys2Proof.Machine.execVatom f s
  | .vcas f => Sys2Proof.Machine.execVcas f s
  | .vrowatom f => Sys2Proof.Machine.execVrowatom f s
  | .vwst f => Sys2Proof.Machine.execVwst f s
  | .vqput f => Sys2Proof.Machine.execVqput f s
  | .vadr f => Sys2Proof.Machine.execVadr f s
  | .vaclr f => Sys2Proof.Machine.execVaclr f s
  | .vnrred f => Sys2Proof.Machine.execVnrred f s
  | .vnrld f => Sys2Proof.Machine.execVnrld f s
  | .vnrst f => Sys2Proof.Machine.execVnrst f s
  | .vnrclone f => Sys2Proof.Machine.execVnrclone f s
  | .vnop f => Sys2Proof.Machine.execVnop f s
  | .vend f => Sys2Proof.Machine.execVend f s
  | .laneBlockStart team => Sys2Proof.Machine.execLaneBlockStart team s
  | .loadDataReturn team op => Sys2Proof.Machine.execLoadDataReturn team op s
  | .homeSliceAtomic slice => Sys2Proof.Machine.execHomeSliceAtomic slice s
  | .atomicOldValueReturn team op => Sys2Proof.Machine.execAtomicOldValueReturn team op s
  | .atomicCollectionClose slice => Sys2Proof.Machine.execAtomicCollectionClose slice s
  | .psnShareArrival psn slice => Sys2Proof.Machine.execPsnShareArrival psn slice s
  | .psnCommit => Sys2Proof.Machine.execPsnCommit s
  | .heldNotice psn route => Sys2Proof.Machine.execHeldNotice psn route s
  | .commitNotice psn cluster => Sys2Proof.Machine.execCommitNotice psn cluster s
  | .segmentSealTimeout log => Sys2Proof.Machine.execSegmentSealTimeout log s
  | .skimmerCompact seg => Sys2Proof.Machine.execSkimmerCompact seg s
  | .retireNotice seg cluster => Sys2Proof.Machine.execRetireNotice seg cluster s
  | .appendResume => Sys2Proof.Machine.execAppendResume s
  | .spacealarm => Sys2Proof.Machine.execSpacealarm s
  | .spillWaitEnd team => Sys2Proof.Machine.execSpillWaitEnd team s
  | .stalecntFlush cluster => Sys2Proof.Machine.execStalecntFlush cluster s
  | .basinStallTimeout team => Sys2Proof.Machine.execBasinStallTimeout team s
  | .teamRedispatch team => Sys2Proof.Machine.execTeamRedispatch team s
  | .teamRestore team => Sys2Proof.Machine.execTeamRestore team s
  | .waitSatisfied team => Sys2Proof.Machine.execWaitSatisfied team s
  | .barrierGenerationComplete team => Sys2Proof.Machine.execBarrierGenerationComplete team s
  | .yieldEnd team => Sys2Proof.Machine.execYieldEnd team s
  | .teamPromotion team lane => Sys2Proof.Machine.execTeamPromotion team lane s
  | .runnelStart op => Sys2Proof.Machine.execRunnelStart op s
  | .runnelEnd op => Sys2Proof.Machine.execRunnelEnd op s
  | .completionRecordPost core => Sys2Proof.Machine.execCompletionRecordPost core s
  | .mxloopGrant cluster => Sys2Proof.Machine.execMxloopGrant cluster s
  | .matrixStep loop row => Sys2Proof.Machine.execMatrixStep loop row s
  | .matrixUpdateLand loop row => Sys2Proof.Machine.execMatrixUpdateLand loop row s
  | .cascadeComplete team num => Sys2Proof.Machine.execCascadeComplete team num s
  | .sealObserved tenant queue => Sys2Proof.Machine.execSealObserved tenant queue s
  | .launchParse launch => Sys2Proof.Machine.execLaunchParse launch s
  | .dependenceSatisfied launch => Sys2Proof.Machine.execDependenceSatisfied launch s
  | .launchPlace launch => Sys2Proof.Machine.execLaunchPlace launch s
  | .instanceStamp launch core => Sys2Proof.Machine.execInstanceStamp launch core s
  | .templateSpreadCopy image core => Sys2Proof.Machine.execTemplateSpreadCopy image core s
  | .stageRebalance launch => Sys2Proof.Machine.execStageRebalance launch s
  | .sliceExpiry launch => Sys2Proof.Machine.execSliceExpiry launch s
  | .launchRestore launch => Sys2Proof.Machine.execLaunchRestore launch s
  | .launchComplete launch => Sys2Proof.Machine.execLaunchComplete launch s
  | .patrolScrub find => Sys2Proof.Machine.execPatrolScrub find s
  | .slicePauseEnd slice => Sys2Proof.Machine.execSlicePauseEnd slice s
  | .dieLinkLoss => Sys2Proof.Machine.execDieLinkLoss s
  | .tcfWatchdog => Sys2Proof.Machine.execTcfWatchdog s
  | .coldReset boot => Sys2Proof.Machine.execColdReset boot s
  | .junctionTemperature degrees => Sys2Proof.Machine.execJunctionTemperature degrees s
  | .powerCapExceeded watts => Sys2Proof.Machine.execPowerCapExceeded watts s
  | .coolantFlowLow low => Sys2Proof.Machine.execCoolantFlowLow low s
  | .refreshWindow compute => Sys2Proof.Machine.execRefreshWindow compute s
  | .ageCapExpiry channel => Sys2Proof.Machine.execAgeCapExpiry channel s
  | .scanInterval => Sys2Proof.Machine.execScanInterval s
  | .scanComplete core pass sig => Sys2Proof.Machine.execScanComplete core pass sig s
  | .pairedTwinTimeout team => Sys2Proof.Machine.execPairedTwinTimeout team s
  | .pairedAtomicTimeout slice => Sys2Proof.Machine.execPairedAtomicTimeout slice s
  | .cxlMemRead hpa => Sys2Proof.Machine.execCxlMemRead hpa s
  | .cxlMemWrite hpa data be poison => Sys2Proof.Machine.execCxlMemWrite hpa data be poison s
  | .hostBatchClose => Sys2Proof.Machine.execHostBatchClose s
  | .msixUnmask fn vec => Sys2Proof.Machine.execMsixUnmask fn vec s
  | .xlinvVaRange => Sys2Proof.Machine.execXlinvVaRange s
  | .xlinvContext => Sys2Proof.Machine.execXlinvContext s
  | .xlinvWindow => Sys2Proof.Machine.execXlinvWindow s
  | .xlinvAll => Sys2Proof.Machine.execXlinvAll s
  | .xlinvComplete => Sys2Proof.Machine.execXlinvComplete s
  | .resumeContinue tenant ctx seq => Sys2Proof.Machine.execResumeContinue tenant ctx seq s
  | .resumeKill tenant ctx seq => Sys2Proof.Machine.execResumeKill tenant ctx seq s
  | .devctlEnable on => Sys2Proof.Machine.execDevctlEnable on s
  | .devctlWarmreq => Sys2Proof.Machine.execDevctlWarmreq s
  | .dbgHalt core slot => Sys2Proof.Machine.execDbgHalt core slot s
  | .dbgResume core slot => Sys2Proof.Machine.execDbgResume core slot s
  | .dbgStep core slot => Sys2Proof.Machine.execDbgStep core slot s
  | .registerWrite off value => Sys2Proof.Machine.execRegisterWrite off value s
  | .snapfree win handle session => Sys2Proof.Machine.execSnapfree win handle session s
  | .exportWindow args => Sys2Proof.Machine.execExportWindow args s
  | .takeover args => Sys2Proof.Machine.execTakeover args s
  | .mailboxCommand cmd => Sys2Proof.Machine.execMailboxCommand cmd s
  | .spdmMeasurement nonce => Sys2Proof.Machine.execSpdmMeasurement nonce s
  | .spdmChallenge nonce => Sys2Proof.Machine.execSpdmChallenge nonce s
  | .spdmCertificate slot => Sys2Proof.Machine.execSpdmCertificate slot s
  | .spillwayShip win => Sys2Proof.Machine.execSpillwayShip win s
  | .spillwayCut win => Sys2Proof.Machine.execSpillwayCut win s
  | .replicaSegmentData burst => Sys2Proof.Machine.execReplicaSegmentData burst s
  | .replicaCut port ends win psn => Sys2Proof.Machine.execReplicaCut port ends win psn s
  | .cutEcho port ends win psn => Sys2Proof.Machine.execCutEcho port ends win psn s
  | .takeoverFlit port ends => Sys2Proof.Machine.execTakeoverFlit port ends s
  | .hostWindowStoreAck store => Sys2Proof.Machine.execHostWindowStoreAck store s
  | .computeRowStoreAtBank store => Sys2Proof.Machine.execComputeRowStoreAtBank store s
  | .savefull => Sys2Proof.Machine.execSavefull s

end Sys2Proof.Machine
end

