-- ==== Sys2Proof/Machine/Sched.lean ====
section
/-!
DEFINITION. Who moves next when the oracle of turns is empty (16 R338; log 2): the machine's own agents first, then the
Ready teams in their ranking, then the waits that are decided by trying again.
-/
namespace Sys2Proof.Machine

/-- The words of the opcode table that are steps of another agent, not words of a stream. -/
def isEvent (i : Instr) : Bool := (encode i).isNone

/-- What a step of an agent, or of a team's stream, does to the machine. -/
abbrev Move := State → Host.Outcome State Fault Refusal

/-- The word of a turn executes, and what follows a word of a team happens. -/
def runIssued (uid : Nat) (lane : Bool) (w : Issued) : Host.Outcome State Fault Refusal :=
  match w with
  | .done o => finishTurn uid lane o
  | .word i s => finishTurn uid lane (exec i s)

/-- The next word of a team's scalar stream, and of its lane stream. -/
def scalarMove (uid : Nat) : Move := fun s => runIssued uid false (scalarTurn uid s)
def laneMove (uid : Nat) : Move := fun s => runIssued uid true (laneTurn uid s)

/-- A step of an agent does something as the machine stands. -/
def State.moves (s : State) (m : Move) : Bool :=
  match m s with
  | .next s' => s' != s
  | _ => true

/-- Steps of the teams' own units. -/
def State.unitSteps (s : State) : List Move :=
  s.allTeams.flatMap fun t =>
    (t.s.outs.map fun o => execLoadDataReturn t.uid o.op) ++ (t.s.outs.map fun o => execAtomicOldValueReturn t.uid o.op)
      ++ (if t.l.flight.isSome then (s.done.filter fun d => d.req.uid == t.uid).map fun d => execAtomicOldValueReturn t.uid d.req.id else [])
      ++ (if t.l.run.isNone && t.l.queue != [] then [execLaneBlockStart t.uid] else [])

/-- The pending message of a vector goes out (24 R397); a cluster cache has quarantined its line (22 R376). -/
def sendMove (fn vec : Nat) : Move := fun s => .next (s.onDev fun d => d.sendMsix fn vec)
def resumeMove (cl : Nat) : Move := fun s => .next (s.setCluster cl { s.cluster cl with paused := false })

/-- Steps of the memories, the home slices and the publications. -/
def State.memorySteps (s : State) : List Move :=
  (s.posted.flatMap fun p => [execHostWindowStoreAck p.id, execComputeRowStoreAtBank p.id])
    ++ ((s.dev.pending.filter fun v => !s.dev.masked.contains v).map fun v => sendMove v.1 v.2)
    ++ (s.clusters.flatMap fun (c : Nat × Cluster) => if c.2.paused then [resumeMove c.1] else [])
    ++ (s.slices.flatMap fun (h : Nat × Slice) =>
        (if h.2.paused then [execSlicePauseEnd h.1] else []) ++ [execHomeSliceAtomic h.1, execAtomicCollectionClose h.1])
    ++ (s.pubs.flatMap fun p =>
        (List.range 48).flatMap fun k =>
          (if s.mayPrepare p.psn k then [execPsnShareArrival p.psn k] else [])
            ++ ((List.range 48).filterMap fun c => if p.mayHold k c then some (execHeldNotice p.psn (NoticeRoute.mk k c)) else none)
            ++ (if s.mayNotice p k then [execCommitNotice p.psn k] else []))
    ++ [execPsnCommit, execAppendResume, execHostBatchClose, execXlinvVaRange, execXlinvContext, execXlinvWindow, execXlinvAll, execXlinvComplete]
    ++ s.segs.flatMap fun (g : Nat × Segment) => if g.2.retiring.isSome then (List.range 48).map fun k => execRetireNotice g.1 k else []

/-- Steps of the engines: Runnels, matrix loops, Cascade commands. -/
def State.engineSteps (s : State) : List Move :=
  (s.cores.flatMap fun (c : Nat × Core) =>
      (c.2.runnels.flatMap fun r => [execRunnelStart r.id, execRunnelEnd r.id])
        ++ (if c.2.waitingEvents != [] then [execCompletionRecordPost c.1] else []))
    ++ (s.clusters.flatMap fun (k : Nat × Cluster) =>
        execMxloopGrant k.1 :: k.2.loops.flatMap fun l =>
          (List.range 1024).flatMap fun m => if m < l.started.length then [execMatrixUpdateLand l.id m, execMatrixStep l.id m] else [])
    ++ s.cascades.map fun c => execCascadeComplete c.uid c.num

/-- The wait of a team is over, where the model can see so without trying its word again. -/
def State.waitOver (s : State) (t : Team) : Bool :=
  t.status == .waiting && !t.dbg.halted && s.waitHolds t
    && (match t.waits with
        | some (.lanes _) => true
        | some (.timeline _ _) => true
        | some .event => true
        | some (.commit _) => true
        | some .commitNotices => true
        | some .barrier => true
        | _ => false)

/-- A team has been ready for a kind of issue and passed over for so many words or passes of its core that 64 cycles have gone by: two
scalar words and one lane pass make a cycle here (16 R338, log 2). -/
def Team.promotionDue (t : Team) (lane : Bool) : Bool :=
  t.readyFor lane && Team.promotion lane t == 0 && decide (if lane then 64 ≤ t.laneHeld else 128 ≤ t.held)

/-- Steps of the dispatcher. -/
def State.dispatchSteps (s : State) : List Move :=
  (s.allTeams.flatMap fun t =>
      (if t.promotionDue false then [execTeamPromotion t.uid false] else [])
        ++ if t.promotionDue true then [execTeamPromotion t.uid true] else [])
    ++ (s.allTeams.flatMap fun t =>
      if s.waitOver t then [execWaitSatisfied t.uid]
      else if t.status = .swapped then [execSpillWaitEnd t.uid, execTeamRedispatch t.uid, execTeamRestore t.uid]
      else if t.waits = some .barrier then [execBarrierGenerationComplete t.uid] else [])
    ++ (s.images.flatMap fun i =>
        (match s.launch? i.launch with
          | some l => (l.stage i.stage).clusters.flatMap coresOf
          | none => []).map fun c => execTemplateSpreadCopy i.id c)
    ++ (s.launches.flatMap fun l =>
        [execLaunchParse l.id, execDependenceSatisfied l.id, execLaunchPlace l.id, execLaunchRestore l.id, execLaunchComplete l.id]
          ++ l.stages.flatMap fun g => g.cores.map fun c => execInstanceStamp l.id c)
    ++ s.dev.rings.map fun (r : Nat × Ring) => execSealObserved (r.1 / 8) (r.1 % 8)

/-- The first step of an agent that does something. -/
def State.agentStep (s : State) : Option Move :=
  (s.unitSteps ++ s.memorySteps ++ s.engineSteps ++ s.dispatchSteps).find? s.moves

/-- The team that a kind of issue takes next: of those that their cores' rankings admit, one of the core that comes first after the
core that issued last; of a core's two for the scalar streams, the one passed over for longer (16 R338, log 2). -/
def State.nextIssue (s : State) (lane : Bool) : Option Team :=
  let far := fun (t : Team) => (t.core + 191 - s.lastCore) % 192
  let count := fun (t : Team) => if lane then t.laneHeld else t.held
  let comes := fun (a b : Team) =>
    decide (far a < far b ∨ (far a = far b ∧ (count b < count a ∨ (count a = count b ∧ ranksBefore (Team.promotion lane) a b = true))))
  if s.dev.hot then none
  else (s.allTeams.filter fun t => t.readyFor lane && s.inRank t lane).foldl (fun (best : Option Team) t => match best with
    | none => some t
    | some b => if comes t b then some t else some b) none

/-- A team's lane stream stands in a stall that it may try again. -/
def State.laneRetry (s : State) (t : Team) : Bool := t.mayLane && t.l.stall.isSome && s.laneTurnDue t && s.inRank t true && !s.dev.hot

/-- What a team that stands still tries again, the one that has stood longest at the back. -/
def State.retry (s : State) : Option Move :=
  let can := s.allTeams.filter fun t => (t.status == .waiting && !t.dbg.halted && s.waitHolds t) || s.laneRetry t || t.yielding
  can.getLast?.map fun t =>
    if s.laneRetry t then laneMove t.uid
    else if t.yielding then execYieldEnd t.uid
    else execWaitSatisfied t.uid

/-- The default order. -/
def State.defaultMove (s : State) : Option Move :=
  match s.agentStep with
  | some m => some m
  | none =>
    match s.nextIssue true with
    | some t => some (laneMove t.uid)
    | none =>
      match s.nextIssue false with
      | some t => some (scalarMove t.uid)
      | none => if s.dev.rows.held ≠ [] then some fun s => .next s.spaceRows else s.retry

/-- The host stores bytes into its own memory; a sector that it fills is poison no more (log 118). -/
def hostStore (addr : Nat) (bytes : List Byte) (s : State) : State :=
  { s with
    host := s.host.writeBytes addr bytes
    hostBad := s.cleanHost addr bytes.length }

/-- The host masks a vector of a function (24 R397). -/
def hostMask (fn vec : Nat) (s : State) : State :=
  s.onDev fun d => if d.masked.contains (fn, vec) then d else { d with masked := d.masked ++ [(fn, vec)] }

/-- A loop has stood in its table for more than 1,024 cycles: it is served before younger ones (13 R285). -/
def ageLoop (cluster loop : Nat) (s : State) : State :=
  let c := s.cluster cluster
  s.setCluster cluster { c with loops := c.loops.map fun (l : Loop) => if l.id = loop then { l with old := true } else l }

/-- The cluster of a team. -/
def State.clusterOf (s : State) (uid : Nat) : Nat := match s.team? uid with | some t => t.cluster | none => 0

/-- The words of one cycle in ascending cluster: that is the order in which the sequencer numbers their releases, and in which a home
slice applies their atomics (18 R344, log 108). -/
def cycleTurns (words : List (Nat × Bool)) (s : State) : List Turn :=
  (ascending (fun (w : Nat × Bool) => s.clusterOf w.1) words).map fun w => if w.2 then .lane w.1 else .scalar w.1

/-- A halt request comes to a team (21 R369). -/
def requestHalt (uid : Nat) (s : State) : State :=
  s.onTeamId uid fun t => if t.dbg.halted then t else { t with dbg := { t.dbg with haltReq := true } }

/-- A turn of the oracle. -/
def runTurn (t : Turn) (s : State) : Host.Outcome State Fault Refusal :=
  match t with
  | .scalar uid => scalarMove uid s
  | .lane uid => laneMove uid s
  | .cycle words => .next { s with turns := cycleTurns words s ++ s.turns }
  | .halting uid lane => (if lane then laneMove uid else scalarMove uid) (requestHalt uid s)
  | .event i => if isEvent i then exec i s else .next s
  | .hostStore addr bytes => .next (hostStore addr bytes s)
  | .hostMask fn vec => .next (hostMask fn vec s)
  | .loopAged cluster loop => .next (ageLoop cluster loop s)
  | .rowsSpaced => .next s.spaceRows
  | .clusterResumed cluster => resumeMove cluster s
  | .msixSent fn vec => sendMove fn vec s
  | .powerRead watts => .next (s.onDev fun d => d.drawn watts)
  | .resetFinding cause finds => runEventOf 0 (resetFinding cause finds) s

end Sys2Proof.Machine
end

