-- ==== Sys2Proof/Machine/Step.lean ====
section
/-!
DEFINITION. One step of the machine: a pre-emption that waits and can go on; else the oracle's next turn where it holds one, else the
default order's (log 2).
-/
namespace Sys2Proof.Machine

/-- One step: a pre-emption that waits is taken as soon as nothing holds it (21 R370); else the turn that comes next; where nothing can
move, nothing changes. -/
def step (s : State) : Host.Outcome State Fault Refusal :=
  match s.takeHeld with
  | some o => o
  | none =>
    match s.turns with
    | t :: rest => runTurn t { s with turns := rest }
    | [] =>
      match s.defaultMove with
      | some m => m s
      | none => .next s

/-- A word of the opcode table placed where the next step fetches it: 32 bits as a scalar word, 96 as a lane word (log 22). -/
def State.withFetchWord (s : State) (nbits w : Nat) : State := s.withProbe (decide (32 < nbits)) (w % 2 ^ nbits)

end Sys2Proof.Machine
end

