-- ==== Sys2Proof/Safety.lean ====
section
/-!
DEFINITION. What counts as a safe run, and the terms statements about the machine are made in: what a word may change,
the canonical form of the memories, and the conditions under which a lane pass or an access goes on.
-/
namespace Sys2Proof.Machine

/-- A step is safe where it answers a next state: no fault of the machine and no refusal. -/
def SafeStep (s : State) : Prop := ∃ t, step s = .next t

/-- The memories stand in their canonical form: HBM, the compute rows, the host's memory. -/
def State.memWf (s : State) : Prop := s.hbm.wf = true ∧ s.crow.wf = true ∧ s.host.wf = true

/-- `t` is `s` after a scalar word that wrote `v` to register `d` and went on: `x0` stays zero, every other register and
everything else of the machine is as before (01 R9, R11). -/
def State.wrote (s t : State) (d : XReg) (v : Word64) : Prop :=
  (∀ r : XReg, t.getX r = if r = 0 then 0 else if r = d then v else s.getX r)
    ∧ t.pc = s.pc + 4
    ∧ t = { s with cur := { s.cur with s := { s.cur.s with x := t.cur.s.x, pc := t.pc, phase := .none, counted := false } } }

/-- `t` is `s` after a scalar word that only moved the PC. -/
def State.wentTo (s t : State) (pc : Word64) : Prop :=
  t = { s with cur := { s.cur with s := { s.cur.s with pc := pc, phase := .none, counted := false } } }

/-- The issuing team may load `n` bytes at `va`: translation, permission, alignment and data all stand (05 R117 to R120,
06 R131, R150), with value `v`; `s1` is the machine after the access, its caches and counts moved on. -/
def State.loads (s : State) (va : Word64) (n v : Nat) (s1 : State) : Prop :=
  scalarLoad { Access.load with priv := s.cur.s.priv, sysOk := n == 8 } s.cur va n s = .ok v s1

/-- The issuing team may store the `n` low bytes of `v` at `va` in its default colour (06 R131, 15 R309); `s1` is the machine
after the store. -/
def State.stores (s : State) (va : Word64) (n : Nat) (v : Word64) (s1 : State) : Prop :=
  storeVa { Access.store with priv := s.cur.s.priv, sysOk := n == 8 } s.cur va n (v.toNat % 2 ^ (8 * n)) s.cur.ctl.dcol 0 s = .ok () s1

/-! ## Accesses that go through -/

/-- Logical address of an address that a leaf covers (05 R109). -/
def TlbLeaf.place (l : TlbLeaf) (va : Word64) : Nat := l.la + (va.toNat - l.vpn * 4096)

/-- What the window checks ask of an access at `va` through a leaf: a well-formed valid window of the team's own context and tenant
that holds its bytes, and that its page and its kind admit (05 R116 to R118, 22 R383, 25 R414). -/
def State.windowFits (s : State) (a : Access) (va : Word64) (l : TlbLeaf) : Prop :=
  let d := l.desc
  let la := l.place va
  let page := fun (i : Nat) => bitAt l.entry.toNat i = true
  Win.wellFormed d l.win = true ∧ (Win.host d = true → Win.enc d = false) ∧ Win.valid d = true
    ∧ Win.owner d = s.cur.id.ctx ∧ Win.tenant d = s.cur.id.tenant
    ∧ bitAt la 45 = !Win.logged d ∧ Win.lbase d ≤ la ∧ la + a.size ≤ Win.lbase d + Win.lsize d * 1024
    ∧ (page 7 → a.priv = true) ∧ (a.r = true → page 3) ∧ (a.w = true → page 4 ∧ s.isReplica l.win = false) ∧ (a.x = true → page 5)
    ∧ (Win.sys d = true → a.sysOk = true)
    ∧ (a.w = true → s.cur.ctl.paired = true → s.cur.ctl.level = 0 → Win.host d = false ∧ Win.crow d = false)
    ∧ (a.rmw = true → Win.crow d = false ∧ (Win.host d = true → Win.ncatom d = true))

/-- An access of `n` bytes at `va` is canonical and aligned, its translation stands in the core TLB, and its window admits it
(05 R108, R115, 06 R126). -/
def State.reaches (s : State) (a : Access) (va : Word64) (n : Nat) (l : TlbLeaf) : Prop :=
  va.toNat < 2 ^ 57 ∧ va.toNat % n = 0
    ∧ ((s.core s.cur.core).tlb.find? fun l => l.covers s.cur.id.ctx va.toNat) = some l
    ∧ s.windowFits { a with size := n } va l

/-- The same of an address that no held page serves (04 R103, 15 R314). -/
def State.atHand (s : State) (a : Access) (va : Word64) (n : Nat) (l : TlbLeaf) : Prop :=
  s.reaches a va n l ∧ s.cur.pageKind va = .memory

/-- An access as the lane stream makes it (05 R120, 14 R301). -/
def State.asLane (s : State) (a : Access) (lane : Nat) : Access := { a with src := 1, lane := lane, priv := s.cur.blk.priv }

/-- The issuing team sees this data, not poisoned, in a sector of logged memory: in its own dirty sector, or in a line of the cluster
cache that a valid IXB entry names, or zero where the entry names no sector; its cluster does not pause (07 R163, 02 R68, 22 R376). -/
def State.sees (s : State) (win sec : Nat) (data : BitVec 256) : Prop :=
  let c := s.cluster s.cur.cluster
  c.paused = false ∧ s.atomicInFlight s.cur.uid win sec = false
    ∧ match c.dirtyOf s.cur.uid win sec with
      | some d => d.poison = false ∧ data = d.data
      | none => c.ownPending s.cur.uid win sec = none ∧ c.clusterPending s.cur win sec = none
        ∧ ∃ e, (c.ixb.find? fun e => e.isFor win (sec / 32)) = some e ∧ e.heldBy = []
          ∧ ownNewer s.cur e = false ∧ c.raisedNewer s.cur e = false
          ∧ match s.resolve e.entry (sec % 32) with
            | .none => data = 0
            | .at_ p => c.pubHit p = some false ∧ s.sectorHeld p sec false = ⟨data, false⟩
            | .bad => False

/-- The bytes of a load at a translated address are at hand, not poisoned, with this value: in logged memory; in a host window, on a
compute row or in a register, the team's own posted stores to them arrived (06 R131, 07 R166, R171, 03 R82, 05 R117). -/
def State.finds (s : State) (l : TlbLeaf) (va : Word64) (n v : Nat) : Prop :=
  let la := l.place va
  let d := l.desc
  if Win.logged d = true then ∃ data, s.sees l.win (la / 32) data ∧ v = secBytes data (la % 32) n
  else if Win.host d = true then
    s.postedTo s.cur.uid .host (la % 2 ^ 45) n = false ∧ Table.get false s.hostBad (la % 2 ^ 45 / 32) = false
      ∧ v = s.host.readN (la % 2 ^ 45) n
  else if Win.crow d = true then
    craOf la / 2 ^ 28 ≤ 11 ∧ s.postedTo s.cur.uid .computeRow (craOf la) n = false
      ∧ (s.slice (homeSlice la)).hit (.crow (craOf la / 128)) (craOf la / 32 % 4) = some false ∧ v = s.crow.readN (craOf la) n
  else s.postedTo s.cur.uid .sysReg (la - Win.lbase d) n = false
    ∧ ∃ w, sysRead s.cur.id.tenant (la - Win.lbase d) s = some w ∧ v = w.toNat

/-- The cluster cache takes a dirty sector of the issuing team without giving up another line (04 R97, R99). -/
def State.roomForSector (s : State) (win sec : Nat) : Prop :=
  let c := s.cluster s.cur.cluster
  (c.dirty.any fun d => d.inLine (s.cur.uid, win, sec / 4)) = true
    ∨ c.dirty.length < 12 ∧ c.lines.length + c.dirty.length + c.quar.length < 15

/-- Where a store at a translated address goes that is not to logged memory (05 R117). -/
def PostedTo.of (d : BitVec 512) (la : Nat) : PostedTo × Nat :=
  if Win.host d then (.host, la % 2 ^ 45) else if Win.crow d then (.computeRow, craOf la) else (.sysReg, la - Win.lbase d)

/-- The issuing team after a scalar word that changed its own registers or memory alone. -/
def State.movedOn (s t : State) : Prop :=
  t.cur = { s.cur with s := { s.cur.s with x := t.cur.s.x, outs := t.cur.s.outs, pc := s.pc + 4, phase := .none, counted := false } }
    ∧ t.teams = s.teams

/-- The index pool has frames left for the node copies and new nodes of `n` granules (02 R58). -/
def State.nodeRoom (s : State) (n : Nat) : Prop := s.lostNodes.length + s.ixUsed.length + 4 * n ≤ s.poolFrames

/-- Nothing holds the swap-out of a team back, and its image goes into an empty save pool: it stands at its boundaries, has no version
of its own in its cluster, and no template image has to be saved with it (21 R356, R358, R360). -/
def State.maySave (s : State) (t : Team) : Prop :=
  s.team? t.uid = some t ∧ s.mayStop t = true ∧ (∀ d ∈ (s.cluster t.cluster).dirty, d.uid ≠ t.uid)
    ∧ (∀ p ∈ (s.cluster t.cluster).weir, p.uid ≠ t.uid) ∧ s.images = [] ∧ s.dev.pool = [] ∧ (s.savedOf t).blocks ≤ s.saveBlocks

/-- A core takes a copy of an image: it holds every bank of it, but for register pages, for which it has FREE banks (20 R349). -/
def State.maySpread (s : State) (i : Image) (core : Nat) : Prop :=
  (∀ b ∈ i.banks, (s.contentBank core b.id).isSome = true ∨ ∃ p, b.role = .regPage p)
    ∧ s.missingBanks i core ≤ (s.core core).freeBanks.length

/-- A core takes a swapped team that holds no region, tile or page of its own beside its registers and its private region, and has
published all it wrote (21 R357): it has a slot, the image the team was stamped from (for a loop that spans the cluster, each of its
cores has it), the banks and the room. -/
def State.mayRestore (s : State) (t : Team) (v : SavedTeam) (core : Nat) : Prop :=
  let c := s.core core
  0 < s.freeSlots core ∧ (∀ i, t.image = some i → (s.copyOn i core).isSome = true
      ∧ (v.loops.any Loop.spans = true → ∀ k < 4, (s.copyOn i (core / 4 * 4 + k)).isSome = true))
    ∧ (∀ r ∈ t.h.regions, r.inherited = true) ∧ t.h.tiles = [] ∧ t.h.stash = [] ∧ t.h.copies = [] ∧ v.pend = []
    ∧ (∃ b, t.h.privBase = some b) ∧ (c.freeRun (32 * t.kern.g) 32).isSome = true ∧ v.banks.length + 32 * t.kern.g ≤ c.freeBanks.length
    ∧ c.runnels.length + v.runnels.length ≤ 192 ∧ c.events.length + v.events.length ≤ 256
    ∧ s.commitPoint ≤ (s.cluster (core / 4)).noticed

/-- A value on its way to a register (14 R293). -/
def State.expecting (s : State) (o : Outstanding) : State := s.withS fun c => { c with outs := c.outs ++ [o] }

/-- A lane word of the issuing team meets the checks of R37 that depend on the team: its registers lie within the team's, and
the number formats it names are well formed. -/
def State.laneFit (s : State) (i : Instr) : Prop :=
  (∀ r ∈ (touch s.cur.blk.nf i).named, r < 128 ∧ r < s.cur.nregs)
    ∧ ∀ k ∈ nfNamed i, nfMalformed (s.cur.blk.nf.getD k 0) = false

/-- No word of a register is poisoned (22 R372). -/
def State.soundReg (s : State) (r : Nat) : Prop := ∀ w < s.cur.n, (s.cur.regRow (s.core s.cur.core) r w).2 = 0

/-- No word of the registers a lane word reads is poisoned; the pages it writes are the team's own (15 R315), and a register it writes
that holds poison is in full form. -/
def State.laneSound (s : State) (i : Instr) : Prop :=
  (∀ r ∈ (touch s.cur.blk.nf i).srcs, s.soundReg r)
    ∧ ∀ r ∈ (touch s.cur.blk.nf i).dsts, Pte.shr (s.cur.pte r) = false ∧ (Pte.form (s.cur.pte r) = Form.full ∨ s.soundReg r)

/-- A lane word stands at the lane PC of a block, at its first pass or with the pass set it fixed there (09 R199). -/
def State.laneAt (s : State) (i : Instr) (r : LaneRun) : Prop :=
  s.cur.l.run = some r ∧ (s.cur.l.passes = none ∨ s.cur.l.passes = some (s.cur.passesOf i (touch s.cur.blk.nf i).masks))

/-- `t` is `s` after a lane word that retired (01 R10): the lane PC has moved on, and neither memory nor the scalar stream nor
another team has changed. -/
def State.retired (s t : State) (r : LaneRun) (ends : Bool) : Prop :=
  t.cur.l.run = r.next ends ∧ t.cur.l.passes = none ∧ t.cur.l.pix = 0 ∧ t.cur.l.stall = none
    ∧ t.cur.s = s.cur.s ∧ t.cur.h = s.cur.h ∧ t.cur.uid = s.cur.uid ∧ t.teams = s.teams
    ∧ t.hbm = s.hbm ∧ t.crow = s.crow ∧ t.host = s.host ∧ t.clusters = s.clusters ∧ t.slices = s.slices ∧ t.posted = s.posted

/-- A team is drained (07 R158): no lane block is outstanding and every scalar access has its value in its register. -/
def Team.drained (t : Team) : Prop := t.l.queue = [] ∧ t.l.run = none ∧ t.s.outs = []

/-! ## Passes of a lane word -/

/-- The Basin row that lane word `w` of a register stands in (09 R191, R192). -/
def Team.rowAt (t : Team) (r w : Nat) : Nat := Pte.bank (t.pte r) * 32 + (Pte.rowBase (t.pte r) + w)

/-- A row of the Basin of the issuing team's core. -/
def State.basinRow (s : State) (k : Nat) : BitVec 1024 := Table.get 0 (s.core s.cur.core).basin k

/-- The issuing team's lane word with its pass set fixed (09 R199). -/
def State.begun (s : State) (i : Instr) : State :=
  if s.cur.l.passes = none then
    { s with cur := { s.cur with l := { s.cur.l with
        passes := some (s.cur.passesOf i (touch s.cur.blk.nf i).masks), pix := 0, dphAt := s.cur.l.dph } } }
  else s

/-- The same, its destinations opened for the pass of lane word `w` (09 R195) and the read cycles of the pass over these registers
counted (09 R196). -/
def State.opened (s : State) (i : Instr) (regs : List Nat) (w : Nat) : State :=
  let b := s.begun i
  let k := touch s.cur.blk.nf i
  runM (do
    openDsts (under (k.masks.headD 0) k.dsts) ((passList (b.cur.l.passes.getD 0)).drop b.cur.l.pix)
    countReads regs w) b

/-- The lane word of the next pass of an instruction: of the pass set fixed, or of that its masks give it. -/
def Team.passOfWord (t : Team) (i : Instr) : Option Nat :=
  (passList (t.l.passes.getD (t.passesOf i (touch t.blk.nf i).masks)))[t.l.pix]?

/-- A lane word stands at the pass of lane word `w`: its registers fit, its sources are sound, the pages it writes are the
team's own. -/
def State.atPass (s : State) (i : Instr) (r : LaneRun) (w : Nat) : Prop :=
  s.laneAt i r ∧ s.laneFit i ∧ s.laneSound i ∧ (s.cur.l.passes = none → s.cur.l.pix = 0)
    ∧ s.cur.passOfWord i = some w

/-- Lanes that a pass acts in: active and not dead (09 R199). -/
def Team.lanesAt (t : Team) (mask w : Nat) : List Nat := (lanesOf (t.active mask w)).map fun p => 32 * w + p

/-- A pass of the lane word that stood at `s` has ended in `t`: the PIX has moved on, or the word has retired after its last pass
(11 R227, 06 R151). The scalar stream, the masks, the dead lanes, the other teams and the memories are those of `u`. -/
def State.passOver (s : State) (i : Instr) (u t : State) : Prop :=
  let n := (passList (s.cur.l.passes.getD (s.cur.passesOf i (touch s.cur.blk.nf i).masks))).length
  t.cur.l.stall = none ∧ t.cur.s = u.cur.s ∧ t.cur.l.m = u.cur.l.m ∧ t.cur.l.dead = u.cur.l.dead ∧ t.teams = u.teams
    ∧ t.hbm = u.hbm ∧ t.crow = u.crow ∧ t.host = u.host
    ∧ (s.cur.l.pix + 1 < n → t.cur.l.pix = s.cur.l.pix + 1 ∧ t.cur.l.run = u.cur.l.run)
    ∧ (s.cur.l.pix + 1 = n → t.cur.l.run = (u.cur.l.run.bind fun q => q.next false) ∧ t.cur.l.passes = none ∧ t.cur.l.pix = 0)

/-- The same, and the clusters, the home slices and the posted stores are those of `u`. -/
def State.passEnded (s : State) (i : Instr) (u t : State) : Prop :=
  s.passOver i u t ∧ t.clusters = u.clusters ∧ t.slices = u.slices ∧ t.posted = u.posted

/-- Lane word `w` of register `r` holds in `t` the values of `vals` at their positions, and elsewhere what it held in `u`. -/
def State.putAt (u t : State) (r w : Nat) (vals : List (Nat × Word32)) : Prop :=
  ∀ k < 32, rowWord (Table.get 0 (t.core u.cur.core).basin (u.cur.rowAt r w)) k
    = ((vals.find? fun v => v.1 == k).map (·.2)).getD (rowWord (u.basinRow (u.cur.rowAt r w)) k)

/-- The Basin of the issuing team's core in `t` differs from that in `u` in these rows alone. -/
def State.basinBut (u t : State) (rows : List Nat) : Prop :=
  ∀ k, k ∉ rows → Table.get 0 (t.core u.cur.core).basin k = u.basinRow k

/-- Lane `l` of register `r` of the team that issued at `s`, as `t` holds it: in the rows that its page table at `s` gives (09 R191). -/
def State.laneIn (s t : State) (r l : Nat) : Word32 :=
  rowWord (Table.get 0 (t.core s.cur.core).basin (s.cur.rowAt r (l / 32))) (l % 32)

/-- Lane `l` of register `r` of the issuing team. -/
def State.laneOf (s : State) (r l : Nat) : Word32 := s.laneIn s r l

/-- The lanes of register `r` in `t` are those that `v` gives, and elsewhere what they were in `s`. -/
def State.lanesWritten (s t : State) (r : Nat) (v : Nat → Option Word32) : Prop :=
  ∀ l < 1024, l < 32 * s.cur.n → s.laneIn t r l = (v l).getD (s.laneOf r l)

/-- The flags are those of `s`, but for E, which is `e`. -/
def State.flagsKept (s t : State) (e : Bool) : Prop :=
  t.cur.l.flagE = e ∧ t.cur.l.flagO = s.cur.l.flagO ∧ t.cur.l.flagN = s.cur.l.flagN

/-- The rows of a register pair are apart. -/
def Team.pairApart (t : Team) (r : Nat) : Prop := ∀ w < t.n, ∀ v < t.n, t.rowAt r w ≠ t.rowAt (r + 1) v

/-- Combine the lanes below `2 ^ k` positions from `2 ^ k * i` on pairwise, neighbour with neighbour, level by level (10 R225); an
absent one leaves the other. -/
def pairTree {α : Type} (g : α → α → α) (x : Nat → Option α) : Nat → Nat → Option α
  | 0, i => x i
  | k + 1, i => combineOpt g (pairTree g x k (2 * i)) (pairTree g x k (2 * i + 1))

/-- A register field names one register, or a pair whose rows differ. -/
def Team.apart (t : Team) (regs : List Nat) (w : Nat) : Prop := ((regs.map fun r => t.rowAt r w).Nodup)

end Sys2Proof.Machine
end

