-- ==== Sys2Proof/Certificates/Slice0/Obligations.lean ====
section
/-!
DEFINITION. The statements about the machine that are put to proof.
-/
open Sys2Proof Sys2Proof.Machine

/-- R295: each operation of SR-ALU completes in every state with the result of the table, the corners of a zero divisor and of
−2^63 by −1 among them, and changes nothing else but the PC: it traps on no data and sets no flag. fn selects the operation, and
rb of a unary one is zero, checked. -/
def Obligations.ScalarArithmetic : Prop :=
  (∀ p ∈ ([(Instr.add, fun a b => a + b),
      (Instr.sub, fun a b => a - b),
      (Instr.mul, fun a b => BitVec.ofNat 64 (a.toNat * b.toNat)),
      (Instr.mulh, fun a b => BitVec.ofInt 64 ((a.toInt * b.toInt).fdiv (2 ^ 64))),
      (Instr.mulhu, fun a b => BitVec.ofNat 64 (a.toNat * b.toNat / 2 ^ 64)),
      (Instr.and, fun a b => a &&& b),
      (Instr.or, fun a b => a ||| b),
      (Instr.xor, fun a b => a ^^^ b),
      (Instr.andn, fun a b => a &&& ~~~b),
      (Instr.shl, fun a b => BitVec.ofNat 64 (a.toNat * 2 ^ (b.toNat % 64))),
      (Instr.shr, fun a b => BitVec.ofNat 64 (a.toNat / 2 ^ (b.toNat % 64))),
      (Instr.sar, fun a b => BitVec.ofInt 64 (a.toInt.fdiv (2 ^ (b.toNat % 64)))),
      (Instr.rotr, fun a b => a >>> (b.toNat % 64) ||| a <<< ((64 - b.toNat % 64) % 64)),
      (Instr.min, fun a b => if a.toInt ≤ b.toInt then a else b),
      (Instr.max, fun a b => if a.toInt ≤ b.toInt then b else a),
      (Instr.minu, fun a b => if a.toNat ≤ b.toNat then a else b),
      (Instr.maxu, fun a b => if a.toNat ≤ b.toNat then b else a),
      (Instr.slt, fun a b => if a.toInt < b.toInt then 1 else 0),
      (Instr.sltu, fun a b => if a.toNat < b.toNat then 1 else 0),
      (Instr.seq, fun a b => if a = b then 1 else 0)] : List ((XReg → XReg → XReg → Instr) × (Word64 → Word64 → Word64))),
    ∀ (d a b : XReg) (s : State), ∃ t, exec (p.1 d a b) s = .next t ∧ s.wrote t d (p.2 (s.getX a) (s.getX b)))
  ∧ (∀ (d a b : XReg) (s : State),
    (∃ t, exec (.div d a b) s = .next t ∧ s.wrote t d
      (if s.getX b = 0 then BitVec.ofInt 64 (-1) else BitVec.ofInt 64 ((s.getX a).toInt.tdiv (s.getX b).toInt)))
    ∧ (∃ t, exec (.divu d a b) s = .next t ∧ s.wrote t d
      (if s.getX b = 0 then BitVec.ofNat 64 (2 ^ 64 - 1) else BitVec.ofNat 64 ((s.getX a).toNat / (s.getX b).toNat)))
    ∧ (∃ t, exec (.rem d a b) s = .next t ∧ s.wrote t d
      (if s.getX b = 0 then s.getX a else BitVec.ofInt 64 ((s.getX a).toInt.tmod (s.getX b).toInt)))
    ∧ ∃ t, exec (.remu d a b) s = .next t ∧ s.wrote t d
      (if s.getX b = 0 then s.getX a else BitVec.ofNat 64 ((s.getX a).toNat % (s.getX b).toNat)))
  ∧ (∀ (d a : XReg) (s : State),
    (∃ t n, exec (.clz d a) s = .next t ∧ s.wrote t d (BitVec.ofNat 64 n)
      ∧ (s.getX a).toNat < 2 ^ (64 - n) ∧ (n = 64 ∨ n < 64 ∧ 2 ^ (63 - n) ≤ (s.getX a).toNat))
    ∧ (∃ t n, exec (.ctz d a) s = .next t ∧ s.wrote t d (BitVec.ofNat 64 n) ∧ n ≤ 64
      ∧ (s.getX a).toNat % 2 ^ n = 0 ∧ (n < 64 → (s.getX a).toNat / 2 ^ n % 2 = 1))
    ∧ ∃ t, exec (.popc d a) s = .next t
      ∧ s.wrote t d (BitVec.ofNat 64 ((List.range 64).countP fun i => (s.getX a).getLsbD i)))
  ∧ ((∀ p ∈ ([(0, Instr.add), (1, .sub), (2, .mul), (3, .mulh), (4, .mulhu), (5, .div), (6, .divu), (7, .rem), (8, .remu), (9, .and),
      (10, .or), (11, .xor), (12, .andn), (13, .shl), (14, .shr), (15, .sar), (16, .rotr), (17, .min), (18, .max), (19, .minu),
      (20, .maxu), (21, .slt), (22, .sltu), (23, .seq)] : List (Nat × (XReg → XReg → XReg → Instr))), ∀ d a b : XReg,
    decodeScalar (d.toNat * 2 ^ 21 + a.toNat * 2 ^ 16 + b.toNat * 2 ^ 11 + p.1) = .ok (p.2 d a b))
  ∧ ∀ p ∈ ([(24, Instr.clz), (25, .ctz), (26, .popc)] : List (Nat × (XReg → XReg → Instr))), ∀ d a b : XReg,
    decodeScalar (d.toNat * 2 ^ 21 + a.toNat * 2 ^ 16 + b.toNat * 2 ^ 11 + p.1) = if b = 0 then .ok (p.2 d a) else .error .illop)

/-- R296: each immediate form completes in every state and writes its result to xd, and changes nothing else but the PC; op selects the
form. -/
def Obligations.ImmediateResults : Prop :=
  ((∀ p ∈ ([(Instr.addi, fun a i => a + i.signExtend 64),
      (Instr.andi, fun a i => a &&& i.setWidth 64),
      (Instr.ori, fun a i => a ||| i.setWidth 64),
      (Instr.xori, fun a i => a ^^^ i.setWidth 64),
      (Instr.slti, fun a i => if a.toInt < i.toInt then 1 else 0),
      (Instr.sltui, fun a i => if a.toNat < (i.signExtend 64).toNat then 1 else 0)] :
        List ((XReg → XReg → BitVec 16 → Instr) × (Word64 → BitVec 16 → Word64))),
    ∀ (d a : XReg) (i : BitVec 16) (s : State), ∃ t, exec (p.1 d a i) s = .next t ∧ s.wrote t d (p.2 (s.getX a) i))
  ∧ (∀ p ∈ ([(Instr.shli, fun a n => BitVec.ofNat 64 (a.toNat * 2 ^ n)),
      (Instr.shri, fun a n => BitVec.ofNat 64 (a.toNat / 2 ^ n)),
      (Instr.sari, fun a n => BitVec.ofInt 64 (a.toInt.fdiv (2 ^ n)))] :
        List ((XReg → XReg → BitVec 6 → Instr) × (Word64 → Nat → Word64))),
    ∀ (d a : XReg) (i : BitVec 6) (s : State), ∃ t, exec (p.1 d a i) s = .next t ∧ s.wrote t d (p.2 (s.getX a) i.toNat))
  ∧ (∀ (d : XReg) (i : BitVec 21) (s : State),
      (∃ t, exec (.lui d i) s = .next t ∧ s.wrote t d (BitVec.ofInt 64 (i.toInt * 2 ^ 16)))
      ∧ ∃ t, exec (.apc d i) s = .next t ∧ s.wrote t d (s.pc + BitVec.ofInt 64 (i.toInt * 2 ^ 16))))
  ∧ ((∀ p ∈ ([(1, Instr.addi), (2, .andi), (3, .ori), (4, .xori), (8, .slti), (9, .sltui)] :
        List (Nat × (XReg → XReg → BitVec 16 → Instr))), ∀ (d a : XReg) (i : BitVec 16),
      decodeScalar (p.1 * 2 ^ 26 + d.toNat * 2 ^ 21 + a.toNat * 2 ^ 16 + i.toNat) = .ok (p.2 d a i))
    ∧ (∀ p ∈ ([(5, Instr.shli), (6, .shri), (7, .sari)] : List (Nat × (XReg → XReg → BitVec 6 → Instr))), ∀ (d a : XReg) (i : BitVec 6),
      decodeScalar (p.1 * 2 ^ 26 + d.toNat * 2 ^ 21 + a.toNat * 2 ^ 16 + i.toNat) = .ok (p.2 d a i))
    ∧ ∀ (d : XReg) (i : BitVec 21), decodeScalar (10 * 2 ^ 26 + d.toNat * 2 ^ 21 + i.toNat) = .ok (.lui d i)
      ∧ decodeScalar (11 * 2 ^ 26 + d.toNat * 2 ^ 21 + i.toNat) = .ok (.apc d i))

/-- R297: the conditional branches, `jmp`, `call` and an aligned `ret`: where the PC goes, and that nothing else changes but
`x30` under `call`. -/
def Obligations.Transfers : Prop :=
  (∀ p ∈ ([(Instr.beq, fun a b => a = b),
      (Instr.bne, fun a b => a ≠ b),
      (Instr.blt, fun a b => a.toInt < b.toInt),
      (Instr.bge, fun a b => b.toInt ≤ a.toInt),
      (Instr.bltu, fun a b => a.toNat < b.toNat),
      (Instr.bgeu, fun a b => b.toNat ≤ a.toNat)] : List ((XReg → XReg → BitVec 16 → Instr) × (Word64 → Word64 → Prop))),
    ∀ (a b : XReg) (o : BitVec 16) (s : State), ∃ t, exec (p.1 a b o) s = .next t
      ∧ (p.2 (s.getX a) (s.getX b) → s.wentTo t (s.pc + BitVec.ofInt 64 (4 * o.toInt)))
      ∧ (¬ p.2 (s.getX a) (s.getX b) → s.wentTo t (s.pc + 4)))
  ∧ (∀ (o : BitVec 26) (s : State),
      (∃ t, exec (.jmp o) s = .next t ∧ s.wentTo t (s.pc + BitVec.ofInt 64 (4 * o.toInt)))
      ∧ ∃ t, exec (.call o) s = .next t ∧ (s.setX 30 (s.pc + 4)).wentTo t (s.pc + BitVec.ofInt 64 (4 * o.toInt)))
  ∧ ∀ s : State, (s.getX 30).toNat % 4 = 0 → ∃ t, exec .ret s = .next t ∧ s.wentTo t (s.getX 30)

/-! ## Loads, stores, atomics -/

/-- R131, R293: a scalar load completes where its bytes are at hand: the value, extended as its mnemonic says, is on its way to
xd, the PC moves on, and nothing else of the task and no byte of any memory changes; the same of every load whose access goes
through. LOAD_DATA_RETURN writes the value to the register, x0 excepted; no other register of the team changes.
The model's own choices and readings it rests on: log 8. -/
def Obligations.Loads : Prop :=
  (∀ p ∈ ([(Instr.ldB, 1, true), (Instr.ldH, 2, true), (Instr.ldW, 4, true), (Instr.ldD, 8, true), (Instr.lduB, 1, false),
      (Instr.lduH, 2, false), (Instr.lduW, 4, false)] : List ((XReg → XReg → BitVec 16 → Instr) × Nat × Bool)),
    ∀ (d a : XReg) (i : BitVec 16) (s : State),
      let va := s.getX a + i.signExtend 64
      let n := p.2.1
      let word := fun (v : Nat) => if p.2.2 then (BitVec.ofNat (8 * n) v).signExtend 64 else BitVec.ofNat 64 v
      (∀ (l : TlbLeaf) (v : Nat),
        s.atHand { Access.load with priv := s.cur.s.priv, sysOk := n == 8 } va n l → s.finds l va n v →
        ∃ t op, exec (p.1 d a i) s = .next t ∧ s.movedOn t ∧ t.cur.s.x = s.cur.s.x
          ∧ t.cur.s.outs = s.cur.s.outs ++ [{ op := op, kind := .load, rd := d.toNat, val := some (word v), val2 := none }]
          ∧ t.hbm = s.hbm ∧ t.crow = s.crow ∧ t.host = s.host ∧ t.posted = s.posted)
      ∧ ∀ (v : Nat) (s1 : State), s.loads va n v s1 →
        ∃ t op, exec (p.1 d a i) s = .next t ∧ s1.movedOn t ∧ t.cur.s.x = s1.cur.s.x
          ∧ t.cur.s.outs = s1.cur.s.outs ++ [{ op := op, kind := .load, rd := d.toNat, val := some (word v), val2 := none }]
          ∧ t.hbm = s1.hbm ∧ t.crow = s1.crow ∧ t.host = s1.host ∧ t.posted = s1.posted)
  ∧ (∀ (uid op : Nat) (s : State) (t : Team) (o : Outstanding) (v : Word64),
    s.team? uid = some t → (t.s.outs.find? fun x => x.op == op) = some o → o.val = some v → o.val2 = none →
      ∃ s' t', exec (.loadDataReturn uid op) s = .next s' ∧ s'.team? uid = some t'
        ∧ (∀ r, Table.get 0 t'.s.x r = if r = o.rd ∧ o.rd ≠ 0 then v else Table.get 0 t.s.x r)
        ∧ t'.s.outs = t.s.outs.filter (fun x => x.op != op)
        ∧ t' = { t with s := { t.s with x := t'.s.x, outs := t'.s.outs } }
        ∧ s' = s.onTeamId uid fun _ => t')

/-- R131, R47, R59, R82, R172: a scalar store completes. To logged memory whose sector the team sees it merges its bytes into the
task's dirty sector, in the default colour: the task's view of the sector is then that data, every other dirty sector holds what it
held, and no byte of any memory changes. To a host window, a compute row or a register it is posted. A store whose access goes
through moves on; one of a whole sector, or to a sector already dirty, merges. -/
def Obligations.Stores : Prop :=
  (∀ p ∈ ([(Instr.stB, 1), (Instr.stH, 2), (Instr.stW, 4), (Instr.stD, 8)] : List ((XReg → XReg → BitVec 16 → Instr) × Nat)),
    ∀ (v a : XReg) (i : BitVec 16) (s : State),
      let va := s.getX a + i.signExtend 64
      let n := p.2
      let value := (s.getX v).toNat % 2 ^ (8 * n)
      let cl := s.cur.cluster
      (∀ (l : TlbLeaf) (data : BitVec 256),
        s.atHand { Access.store with priv := s.cur.s.priv, sysOk := n == 8 } va n l → Win.logged l.desc = true →
        s.sees l.win (l.place va / 32) data → s.roomForSector l.win (l.place va / 32) →
        (∀ b ∈ s.cur.h.stash, ¬(b.win = l.win ∧ b.la / 4096 = l.place va / 4096)) →
        ∃ t d, exec (p.1 v a i) s = .next t ∧ s.movedOn t ∧ t.cur.s.x = s.cur.s.x ∧ t.cur.s.outs = s.cur.s.outs
          ∧ (t.cluster cl).dirtyOf s.cur.uid l.win (l.place va / 32) = some d ∧ d.colour = s.cur.ctl.dcol ∧ d.poison = false
          ∧ d.data = mergeBytes data (l.place va % 32) n value
          ∧ (∀ u w k, ¬(u = s.cur.uid ∧ w = l.win ∧ k = l.place va / 32) →
              ((t.cluster cl).dirtyOf u w k).map (·.data) = ((s.cluster cl).dirtyOf u w k).map (·.data))
          ∧ (∀ k, k ≠ cl → t.cluster k = s.cluster k)
          ∧ t.hbm = s.hbm ∧ t.crow = s.crow ∧ t.host = s.host ∧ t.posted = s.posted)
      ∧ (∀ (l : TlbLeaf), s.atHand { Access.store with priv := s.cur.s.priv, sysOk := n == 8 } va n l → Win.logged l.desc = false →
        (Win.host l.desc = false → Win.crow l.desc = true → craOf (l.place va) / 2 ^ 28 ≤ 11) →
        ∃ t, exec (p.1 v a i) s = .next t ∧ s.movedOn t ∧ t.cur.s.x = s.cur.s.x ∧ t.cur.s.outs = s.cur.s.outs
          ∧ t.posted = s.posted ++
            [{ id := s.stamp, uid := s.cur.uid, colour := s.cur.ctl.dcol, target := (PostedTo.of l.desc (l.place va)).1
               addr := (PostedTo.of l.desc (l.place va)).2, size := n, data := value, poison := false, ctx := s.cur.id.ctx
               only := none, via := (va.toNat / 4096, l.win) }]
          ∧ t.hbm = s.hbm ∧ t.crow = s.crow ∧ t.host = s.host ∧ t.clusters = s.clusters)
      ∧ ∀ s1 : State, s.stores va n (s.getX v) s1 → exec (p.1 v a i) s = .next s1.advance)
  ∧ (∀ (t : Team) (win sec off n v colour : Nat) (d : DirtySector) (s : State),
    (s.cluster t.cluster).paused = false → s.atomicInFlight t.uid win sec = false →
    (s.cluster t.cluster).dirtyOf t.uid win sec = some d →
      ∃ s1 s2, storeSector t win sec off n v colour 0 false s = .ok () s1 ∧ s1.hbm = s.hbm
        ∧ viewSector t win sec 0 s1 = .ok (⟨mergeBytes (if n = 32 then 0 else d.data) off n v, decide (n ≠ 32) && d.poison⟩, false) s2
        ∧ ((s1.cluster t.cluster).dirtyOf t.uid win sec).map (·.colour) = some colour)

/-- R134, R135: an atomic on a logged window goes to the home slice of its address, and its register waits for the old value;
one on a host window reads and writes its word of host memory at once, and its register is given the old value, a word
sign-extended.
The model's own choices and readings it rests on: log 4, 8. -/
def Obligations.AtomicsIssue : Prop :=
  ((∀ (d a b : XReg) (c : BitVec 3) (z : BitVec 2) (o : BitVec 4) (s s1 : State) (p : Place64) (n : Nat),
    n = (if z = 0 then 4 else 8) →
    locate { Access.atomic with priv := s.cur.s.priv, size := n } s.cur (s.getX a) n s = .ok p s1 →
    s.cur.pageKind (s.getX a) = .memory → Win.logged p.desc = true →
      ∃ t, exec (.amo d a b c z o) s = .next t
        ∧ (t.slice (homeSlice p.la)).reqs = (s1.slice (homeSlice p.la)).reqs ++
            [{ uid := s.cur.uid, ctx := s.cur.id.ctx, cluster := s.cur.cluster, win := p.win, la := p.la
               what := .amo o.toNat (8 * n) (s.getX b), dest := .scalar s1.stamp, sys := c == 5, va := s.getX a
               pc := s.pc, id := s1.stamp + 1 }]
        ∧ t.cur.s.outs = s1.cur.s.outs ++ [{ op := s1.stamp, kind := .atomic, rd := d.toNat, val := none, val2 := none }]
        ∧ t.pc = s1.pc + 4)
  ∧ ∀ (d a b : XReg) (c : BitVec 3) (z : BitVec 2) (s s1 : State) (p : Place64) (n : Nat),
    n = (if z = 0 then 4 else 8) →
    locate { Access.atomic with priv := s.cur.s.priv, size := n } s.cur (s.getX a) n s = .ok p s1 →
    s.cur.pageKind (s.getX a) = .memory → Win.logged p.desc = true →
      ∃ t, exec (.cas d a b c z) s = .next t
        ∧ (t.slice (homeSlice p.la)).reqs = (s1.slice (homeSlice p.la)).reqs ++
            [{ uid := s.cur.uid, ctx := s.cur.id.ctx, cluster := s.cur.cluster, win := p.win, la := p.la
               what := .cas (8 * n) (s.getX d) (s.getX b), dest := .scalar s1.stamp, sys := c == 5, va := s.getX a
               pc := s.pc, id := s1.stamp + 1 }]
        ∧ t.cur.s.outs = s1.cur.s.outs ++ [{ op := s1.stamp, kind := .atomic, rd := d.toNat, val := none, val2 := none }]
        ∧ t.pc = s1.pc + 4)
  ∧ (∀ (d a b : XReg) (c : BitVec 3) (z : BitVec 2) (o : BitVec 4) (s s1 : State) (p : Place64) (n : Nat),
    n = (if z = 0 then 4 else 8) →
    locate { Access.atomic with priv := s.cur.s.priv, size := n } s.cur (s.getX a) n s = .ok p s1 →
    s.cur.pageKind (s.getX a) = .memory → Win.logged p.desc = false → p.la % n = 0 →
    s1.postedTo s.cur.uid .host (p.la % 2 ^ 45 / 8 * 8) 8 = false → Table.get false s1.hostBad (p.la % 2 ^ 45 / 32) = false →
      ∃ t, exec (.amo d a b c z o) s = .next t
        ∧ t.host.readN (p.la % 2 ^ 45) n = amoNew o.toNat (8 * n) (s1.host.readN (p.la % 2 ^ 45) n) (s.getX b).toNat
        ∧ (∀ x, x < p.la % 2 ^ 45 ∨ p.la % 2 ^ 45 + n ≤ x → t.host.read x = s1.host.read x)
        ∧ t.hbm = s1.hbm ∧ t.crow = s1.crow
        ∧ t.cur.s.outs = s1.cur.s.outs ++
            [{ op := s1.stamp, kind := .atomic, rd := d.toNat
               val := some (sextN (8 * n) (s1.host.readN (p.la % 2 ^ 45) n)), val2 := none }])

/-- R132: the new value of each scalar atomic, on words of 32 and of 64 bits. -/
def Obligations.AtomicValues : Prop :=
  ∀ (w : Nat), w = 32 ∨ w = 64 → ∀ (old b : BitVec w),
    amoNew 0 w old.toNat b.toNat = (old + b).toNat
    ∧ amoNew 1 w old.toNat b.toNat = (old &&& b).toNat
    ∧ amoNew 2 w old.toNat b.toNat = (old ||| b).toNat
    ∧ amoNew 3 w old.toNat b.toNat = (old ^^^ b).toNat
    ∧ amoNew 4 w old.toNat b.toNat = (if old.toInt < b.toInt then old else b).toNat
    ∧ amoNew 5 w old.toNat b.toNat = (if old.toInt < b.toInt then b else old).toNat
    ∧ amoNew 6 w old.toNat b.toNat = (if old.toNat < b.toNat then old else b).toNat
    ∧ amoNew 7 w old.toNat b.toNat = (if old.toNat < b.toNat then b else old).toNat
    ∧ amoNew 8 w old.toNat b.toNat = b.toNat

/-- R134, R65: HOME_SLICE_ATOMIC performs the first request of a slice that nothing holds back on the newest value of its sector: the
old value is kept for its return, a new value joins the open collection, for which the slice's cache has room, and a poisoned sector
stays as it is. Where the set of the result's line is full of results, it waits.
The model's own choices and readings it rests on: log 4, 8, 95. -/
def Obligations.HomeSliceAtomic : Prop :=
  ∀ (h : Nat) (r : AtomReq) (rest : List AtomReq) (s : State),
    (s.slice h).paused = false → (s.slice h).reqs = r :: rest → s.heldBack r = false →
    s.behindOther h (fun q => s.heldBack q || s.loneReq h q || s.noRoom h q) r = false →
    (∀ aop len lanes, r.what ≠ .row aop len lanes) → (∀ t, s.team? r.uid = some t → t.paired.role = 0) →
    let left := rest.filter fun q => q.id != r.id
    let new := fun (d : Delivered) =>
      mergeBytes d.data (r.la % 32) (r.what.bits / 8) (r.what.apply (secBytes d.data (r.la % 32) (r.what.bits / 8)))
    let performed := fun (d : Delivered) (s1 : State) =>
      (d.poison = false → new d ≠ d.data → (s1.slice h).hasRoom (.result r.win (r.la / 32 / 4)) = false →
        exec (.homeSliceAtomic h) s = .next s)
      ∧ (d.poison = true ∨ new d = d.data ∨ (s1.slice h).hasRoom (.result r.win (r.la / 32 / 4)) = true →
        ∃ t, exec (.homeSliceAtomic h) s = .next t
        ∧ (t.slice h).reqs = left
        ∧ t.done = s.done ++ [{ req := r, old := BitVec.ofNat 64 (secBytes d.data (r.la % 32) (r.what.bits / 8)), poison := d.poison
                                inColl := (!d.poison && new d != d.data) || (s.slice h).coll.isSome
                                psn := none, badLanes := [] }]
        ∧ (d.poison = true → (t.slice h).coll = (s.slice h).coll)
        ∧ (d.poison = false → new d ≠ d.data →
            (t.slice h).inColl r.win (r.la / 32) = some ⟨r.win, r.la / 32, new d, false⟩)
        ∧ t.hbm = s1.hbm ∧ t.cur = s1.cur ∧ t.teams = s1.teams)
    (∀ (d : Delivered) (s1 : State),
      atomicView r.win (r.la / 32) ((s.team? r.uid).getD Team.vacant).taskNum (s.setSlice h { s.slice h with reqs := left }) = .ok d s1 →
        performed d s1)
    ∧ ∀ c : SectorData, sliceOfGran (r.la / 1024) = h → (s.slice h).inColl r.win (r.la / 32) = some c →
        performed ⟨c.data, c.poison⟩ s

/-- R134: ATOMIC_OLD_VALUE_RETURN of a scalar atomic whose sector was sound writes the old value to its register, a word
sign-extended, and drops the cluster's IXB entry of the granule.
The model's own choices and readings it rests on: log 4, 8. -/
def Obligations.AtomicReturns : Prop :=
  ∀ (uid op : Nat) (s : State) (t : Team) (d : AtomDone) (o : Outstanding),
    s.team? uid = some t → s.done.find? (fun d => decide (d.req.uid = uid) && (d.req.id == op || d.req.dest == .scalar op)) = some d →
    d.req.dest = .scalar op → d.poison = false → s.mayReturn d = true → (∀ aop len lanes, d.req.what ≠ .row aop len lanes) →
    (t.s.outs.find? fun x => x.op == op) = some o → o.val2 = none →
      ∃ s' t', exec (.atomicOldValueReturn uid op) s = .next s' ∧ s'.team? uid = some t'
        ∧ (∀ r, Table.get 0 t'.s.x r = if r = o.rd ∧ o.rd ≠ 0 then d.req.what.result d.old.toNat else Table.get 0 t.s.x r)
        ∧ t'.s.outs.find? (fun x => x.op == op) = none
        ∧ (∀ e ∈ (s'.cluster d.req.cluster).ixb, e.isFor d.req.win (d.req.la / 1024) = false)
        ∧ s'.hbm = s.hbm

/-! ## Publications -/

/-- R65, R63: ATOMIC_COLLECTION_CLOSE appends the open collection of a slice, whose turn to append it is, to its home log and
numbers it as a publication with a share for each of its granules. PSN_COMMIT commits the publication one above the commit point, and only
when every slice has prepared it.
The model's own choices and readings it rests on: log 3, 27, 109. -/
def Obligations.CollectionsAndCommits : Prop :=
  (∀ (h : Nat) (l : List SectorData) (s : State), (s.slice h).coll = some l → s.mayResume (.slice h) = true →
      ∃ t share, exec (.atomicCollectionClose h) s = .next t
        ∧ t.psnNext = s.psnNext + 1
        ∧ t.pubs = s.pubs ++ [{ psn := s.psnNext, who := .slice h, share := share, data := l, prepared := 0, heldSent := 0
                                committed := false, noticed := 0 }]
        ∧ (∀ d ∈ l, ∃ u ∈ share, u.win = d.win ∧ u.gran = d.sec / 32)
        ∧ (t.slice h).coll = none ∧ t.commitPoint = s.commitPoint ∧ t.cur = s.cur ∧ t.crow = s.crow ∧ t.host = s.host)
  ∧ (∀ s : State,
    (∀ p, s.mayCommit = some p → s.nodeRoom p.share.length →
      p.psn = s.commitPoint + 1 ∧ p.prepared = 2 ^ 48 - 1
        ∧ ∃ t, exec .psnCommit s = .next t ∧ t.commitPoint = s.commitPoint + 1)
    ∧ (s.mayCommit = none → exec .psnCommit s = .next s))

/-- R63 step 4: a slice that has prepared every lower PSN and is not paused prepares the next one, where no slice that must copy a
node for it is paused and the pool has room for the copies; no other slice's part of the publication changes.
The model's own choices and readings it rests on: log 27. -/
def Obligations.SlicePrepares : Prop :=
  ∀ (psn h : Nat) (p : Publication) (s : State), h < 48 → s.pub? psn = some p → bitAt p.prepared h = false →
    (s.slice h).prepared + 1 = psn → (s.slice h).paused = false →
    (∀ u ∈ p.atSlice h, ∀ o ∈ s.copiers u.win u.gran, (s.slice o).paused = false) → s.nodeRoom (p.atSlice h).length →
      ∃ t, exec (.psnShareArrival psn h) s = .next t
        ∧ t.pub? psn = some { p with prepared := p.prepared ||| 2 ^ h } ∧ (t.slice h).prepared = psn
        ∧ (∀ k, k ≠ h → (t.slice k).prepared = (s.slice k).prepared) ∧ t.commitPoint = s.commitPoint ∧ t.psnNext = s.psnNext

/-- R63 step 4, R68: a held notice goes from a slice with a share, once it has prepared the publication, to a cluster, where the older
entries of the granules of that slice are Held; the commit notice makes the older entries of the publication's granules Superseded and
releases the hold.
The model's own choices and readings it rests on: log 27, 109. -/
def Obligations.Notices : Prop :=
  ∀ (psn h cl : Nat) (p : Publication) (s : State), cl < 48 → s.pub? psn = some p → p.psn = psn →
    (p.mayHold h cl = true → ∃ t, exec (.heldNotice psn ⟨h, cl⟩) s = .next t
      ∧ (t.cluster cl).ixb = (s.cluster cl).ixb.map (fun e =>
          if p.touches e.win e.gran = true ∧ sliceOfGran e.gran = h ∧ e.psn < psn then { e with heldBy := e.heldBy ++ [psn] } else e)
      ∧ (∀ k, k ≠ cl → t.cluster k = s.cluster k) ∧ t.hbm = s.hbm ∧ t.commitPoint = s.commitPoint)
    ∧ (s.mayNotice p cl = true → ∃ t, exec (.commitNotice psn cl) s = .next t
      ∧ (t.cluster cl).ixb = (s.cluster cl).ixb.map (fun e =>
          if p.touches e.win e.gran = true ∧ e.psn < psn then
            { e with superseded := true, heldBy := e.heldBy.filter fun n => n != psn } else e)
      ∧ (t.cluster cl).noticed = psn ∧ (∀ k, k ≠ cl → t.cluster k = s.cluster k) ∧ t.hbm = s.hbm ∧ t.commitPoint = s.commitPoint)

/-! ## Ordering -/

/-- R159: a release of scope team, of a drained team, only moves on; a release of scope core or cluster raises the task's
updates in the named colours to the cluster level once they are appended.
The model's own choices and readings it rests on: log 4. -/
def Obligations.LocalReleases : Prop :=
  ∀ (c : BitVec 3) (m : BitVec 8) (s : State), s.cur.drained → s.cur.s.phase = .none → s.cur.paired.role = 0 →
    enginesDone s s.cur m.toNat = true → postsDone s s.cur m.toNat .computeRow = true →
    (c = 1 → ∃ t, exec (.rel c m) s = .next t ∧ s.wentTo t (s.pc + 4))
    ∧ ((c = 2 ∨ c = 3) → (∀ d ∈ (s.cluster s.cur.cluster).dirty, d.uid = s.cur.uid → bitAt m.toNat d.colour = false) →
      ∃ t, exec (.rel c m) s = .next t ∧ t.pc = s.pc + 4
        ∧ (t.cluster s.cur.cluster).weir = (s.cluster s.cur.cluster).weir.map (fun p =>
            if p.uid = s.cur.uid ∧ bitAt m.toNat p.colour = true ∧ p.level = .task ∧ p.pub = none then
              { p with level := .cluster s.stamp } else p)
        ∧ t.pubs = s.pubs ∧ t.hbm = s.hbm)

/-- R159, R63: a release of device or system scope of a drained team whose updates stand appended numbers them as one publication,
with a run for each of the task's updates in the named colours and no other, and waits; with nothing to publish it ends at once. A
system release waits for the task's posted stores first. Once the publication has committed the release ends.
The model's own choices and readings it rests on: log 37. -/
def Obligations.DeviceReleases : Prop :=
  ∀ (c : BitVec 3) (m : BitVec 8) (s : State), c = 4 ∨ c = 5 → s.cur.paired.role = 0 →
    let weir := (s.cluster s.cur.cluster).weir
    let mine := fun (p : Pending) => p.uid = s.cur.uid ∧ bitAt m.toNat p.colour = true ∧ p.pub = none
    (s.cur.drained → s.cur.s.phase = .none → enginesDone s s.cur m.toNat = true → postsDone s s.cur m.toNat .computeRow = true →
      (c = 5 → postsDone s s.cur m.toNat .host = true ∧ postsDone s s.cur m.toNat .sysReg = true) →
      (∀ d ∈ (s.cluster s.cur.cluster).dirty, d.uid = s.cur.uid → bitAt m.toNat d.colour = false) →
      ((∃ p ∈ weir, mine p) → s.commitPoint < s.psnNext →
        ∃ t q, exec (.rel c m) s = .next t ∧ t.psnNext = s.psnNext + 1 ∧ t.cur.status = .waiting
          ∧ t.cur.waits = some (.commit s.psnNext) ∧ t.pc = s.pc ∧ t.cur.s.phase = .published s.psnNext
          ∧ t.pubs = s.pubs ++ [q] ∧ q.psn = s.psnNext ∧ q.who = .task s.cur.uid ∧ q.prepared = 0 ∧ q.committed = false
          ∧ (∀ (win gran : Nat) (r : PubRun), (∃ u ∈ q.share, u.win = win ∧ u.gran = gran ∧ r ∈ u.runs)
              ↔ ∃ p ∈ weir, mine p ∧ p.win = win ∧ p.gran = gran ∧ r = ⟨p.set, p.live, p.pos⟩)
          ∧ (t.cluster s.cur.cluster).weir = weir.map (fun p =>
              if p.uid = s.cur.uid ∧ bitAt m.toNat p.colour = true ∧ p.pub = none then { p with pub := some s.psnNext } else p)
          ∧ t.hbm = s.hbm ∧ t.commitPoint = s.commitPoint)
      ∧ ((∀ p ∈ weir, ¬ mine p) → ∃ t, exec (.rel c m) s = .next t ∧ s.wentTo t (s.pc + 4)))
    ∧ (c = 5 → s.cur.drained → s.cur.s.phase = .none → enginesDone s s.cur m.toNat = true →
        postsDone s s.cur m.toNat .computeRow = true →
        (postsDone s s.cur m.toNat .host && postsDone s s.cur m.toNat .sysReg) = false → exec (.rel c m) s = .next (s.parkCur .drain))
    ∧ (∀ psn, s.cur.s.phase = .published psn → psn ≤ s.commitPoint →
        ∃ t, exec (.rel c m) s = .next t ∧ s.wentTo t (s.pc + 4))

/-- R160: an acquire of a drained team: team scope only moves on; core and cluster scope take an order stamp; device and
system scope wait for every commit notice, then drop the superseded entries and note the PSN.
The model's own choices and readings it rests on: log 24, 37. -/
def Obligations.Acquires : Prop :=
  ∀ (c : BitVec 3) (s : State), s.cur.drained →
    (c = 1 → ∃ t, exec (.acq c) s = .next t ∧ s.wentTo t (s.pc + 4))
    ∧ ((c = 2 ∨ c = 3) → ∃ t, exec (.acq c) s = .next t ∧ t.cur.clAcq = s.stamp ∧ t.pc = s.pc + 4
        ∧ t.clusters = s.clusters ∧ t.hbm = s.hbm)
    ∧ ((c = 4 ∨ c = 5) → s.commitPoint ≤ (s.cluster s.cur.cluster).noticed →
        ∃ t, exec (.acq c) s = .next t ∧ t.pc = s.pc + 4
          ∧ (t.cluster s.cur.cluster).ixb = (s.cluster s.cur.cluster).ixb.filter (fun e => !e.superseded)
          ∧ (t.cluster s.cur.cluster).acqPsn = s.commitPoint ∧ t.hbm = s.hbm)
    ∧ ((c = 4 ∨ c = 5) → (s.cluster s.cur.cluster).noticed < s.commitPoint →
        exec (.acq c) s = .next (s.parkCur .commitNotices))

/-- R161, R162: a fence of a drained team that holds no dirty sector of the colours, its posted stores arrived, only moves on;
a load fence asks nothing of its stores. `tlwait` of an issued number goes on where the counter has reached it and waits where
it has not; `tlread` writes the counter.
The model's own choices and readings it rests on: log 37. -/
def Obligations.FencesAndTimelines : Prop :=
  (∀ (k : BitVec 3) (m : BitVec 8) (s : State), s.cur.drained →
    (k = 2 ∨ ((∀ d ∈ (s.cluster s.cur.cluster).dirty, d.uid = s.cur.uid → bitAt m.toNat d.colour = false)
      ∧ ∀ p ∈ s.posted, p.uid = s.cur.uid → bitAt m.toNat p.colour = false)) →
    ∃ t, exec (.fence k m) s = .next t ∧ s.wentTo t (s.pc + 4))
  ∧ (∀ (d a : XReg) (n : BitVec 3) (s : State),
    ((s.getX a).toNat ≤ s.cur.h.tlIssued.getD n.toNat 0 →
      ((s.getX a).toNat ≤ s.cur.h.tl.getD n.toNat 0 → ∃ t, exec (.tlwait a n) s = .next t ∧ s.wentTo t (s.pc + 4))
      ∧ (s.cur.h.tl.getD n.toNat 0 < (s.getX a).toNat →
          exec (.tlwait a n) s = .next (s.parkCur (.timeline n.toNat (s.getX a).toNat))))
    ∧ ∃ t, exec (.tlread d n) s = .next t ∧ s.wrote t d (BitVec.ofNat 64 (s.cur.h.tl.getD n.toNat 0)))

/-- R82, R76, R172: a posted store reaches its compute row in its pseudo-channel's turn, or the host's memory as the oldest of its task to
its words: its bytes are stored, no other byte changes, and it is no longer outstanding. -/
def Obligations.PostedStoresArrive : Prop :=
  ∀ (id : Nat) (p : Posted) (s : State),
    (s.posted.find? (fun p => decide (p.id = id ∧ p.target = .computeRow)) = some p →
      s.mayServe (chanOf p.addr) { stamp := p.id, rows := [p.addr / 1024], cmd := none } = true →
      ∃ t, exec (.computeRowStoreAtBank id) s = .next t
        ∧ t.crow.readN p.addr p.size = p.over (s.crow.readN p.addr p.size) % 256 ^ p.size
        ∧ (∀ a, a < p.addr ∨ p.addr + p.size ≤ a → t.crow.read a = s.crow.read a)
        ∧ t.posted = s.posted.filter (fun q => q.id != id) ∧ t.hbm = s.hbm ∧ t.host = s.host ∧ t.cur = s.cur)
    ∧ (s.posted.find? (fun p => p.id == id) = some p → p.target = .host → s.oldestOfWord p = true →
      ∃ t, exec (.hostWindowStoreAck id) s = .next t
        ∧ t.host.readN p.addr p.size = p.over (s.host.readN p.addr p.size) % 256 ^ p.size
        ∧ (∀ a, a < p.addr ∨ p.addr + p.size ≤ a → t.host.read a = s.host.read a)
        ∧ t.posted = s.posted.filter (fun q => q.id != id) ∧ t.hbm = s.hbm ∧ t.crow = s.crow ∧ t.cur = s.cur)

/-! ## Lane words -/

/-- R227, R228, R195, R199: one pass of a lane arithmetic word, at lane word `w`, with sound sources and a destination page of
the team's own: each active lane that is not dead takes the word's lane function of its operands, every other lane of the row
and every other row of the Basin keeps its value; the PIX moves on, or after the last pass the word retires. R230, R231, R233: what the
integer lane functions give, element by element, modulo 2^w or clamped, and when they set FLAGS.O; none sets FLAGS.N.
The model's own choices and readings it rests on: log 4, 13, 30, 38. -/
def Obligations.LaneArithmeticPass : Prop :=
  (∀ p ∈ ([(Instr.vadd, 0x000), (Instr.vsub, 0x001), (Instr.vmul, 0x002), (Instr.vmulh, 0x003), (Instr.vmulhu, 0x004),
      (Instr.vmad, 0x005), (Instr.vmin, 0x006), (Instr.vmax, 0x007), (Instr.vminu, 0x008), (Instr.vmaxu, 0x009),
      (Instr.vand, 0x00A), (Instr.vor, 0x00B), (Instr.vxor, 0x00C), (Instr.vandn, 0x00D), (Instr.vshl, 0x00E),
      (Instr.vshr, 0x00F), (Instr.vsar, 0x010), (Instr.vrotr, 0x011), (Instr.vclz, 0x012), (Instr.vpopc, 0x013),
      (Instr.vbrev, 0x014), (Instr.vabs, 0x015), (Instr.vaddsat, 0x016), (Instr.vsubsat, 0x017), (Instr.vbfx, 0x018),
      (Instr.vbfi, 0x019), (Instr.vsel, 0x01A), (Instr.vmov, 0x01B), (Instr.vdot4, 0x01C), (Instr.vrqz, 0x01D),
      (Instr.vfadd, 0x040), (Instr.vfsub, 0x041), (Instr.vfmul, 0x042), (Instr.vfma, 0x043), (Instr.vfmin, 0x044),
      (Instr.vfmax, 0x045), (Instr.vfabs, 0x046), (Instr.vfneg, 0x047), (Instr.vfrnd, 0x048), (Instr.vfclass, 0x049),
      (Instr.vnadd, 0x04A), (Instr.vnmul, 0x04B), (Instr.vnfma, 0x04C), (Instr.vnmax, 0x04D), (Instr.vnmin, 0x04E),
      (Instr.vfdiv, 0x050), (Instr.vfsqrt, 0x051), (Instr.vrcp, 0x052), (Instr.vrsq, 0x053), (Instr.vexp2, 0x054),
      (Instr.vlog2, 0x055), (Instr.vsin, 0x056), (Instr.vcos, 0x057), (Instr.vtanh, 0x058), (Instr.vcvt, 0x080),
      (Instr.vcvtd, 0x081), (Instr.vcvtnf, 0x082)] : List ((LArith → Instr) × Nat)),
    ∀ (f : LArith) (s : State) (r : LaneRun) (w : Nat),
      s.laneAt (p.1 f) r → s.laneFit (p.1 f) → s.laneSound (p.1 f) →
      (s.cur.l.passes = none → s.cur.l.pix = 0) → s.cur.nextPass [f.mask.toNat] = some w →
      ∃ t, exec (p.1 f) s = .next t
        ∧ (∀ k < 32, rowWord ((t.core s.cur.core).row (Pte.bank (s.cur.pte f.vd.toNat)) (Pte.rowBase (s.cur.pte f.vd.toNat) + w)) k
            = if bitAt (s.cur.active f.mask.toNat w).toNat k then
                let c := s.core s.cur.core
                (arithFn p.2 f ⟨s.cur.blk.nf, if s.cur.l.passes = none then s.cur.l.dph else s.cur.l.dphAt, 32 * w + k⟩
                  (if (arithRow p.2).any (·.va) then (s.cur.regLane c f.va.toNat (32 * w + k)).1 else 0)
                  (if f.imm then f.imm32 else if f.spc then s.cur.special f.vb.toNat (32 * w + k)
                    else if (arithRow p.2).any (·.vb) then (s.cur.regLane c f.vb.toNat (32 * w + k)).1 else 0)
                  (if (arithRow p.2).any (·.vc) then (s.cur.regLane c f.vc.toNat (32 * w + k)).1 else 0)).val
              else rowWord ((s.core s.cur.core).row (Pte.bank (s.cur.pte f.vd.toNat)) (Pte.rowBase (s.cur.pte f.vd.toNat) + w)) k)
        ∧ (∀ k, k ≠ Pte.bank (s.cur.pte f.vd.toNat) * 32 + (Pte.rowBase (s.cur.pte f.vd.toNat) + w) →
            Table.get 0 (t.core s.cur.core).basin k = Table.get 0 (s.core s.cur.core).basin k)
        ∧ t.hbm = s.hbm ∧ t.cur.s = s.cur.s ∧ t.clusters = s.clusters
        ∧ ((∃ p' : BitVec 32, (s.cur.l.passes.getD (s.cur.passSet [f.mask.toNat])) = p' ∧ s.cur.l.pix + 1 < (passList p').length) →
            t.cur.l.pix = s.cur.l.pix + 1)
        ∧ ((∃ p' : BitVec 32, (s.cur.l.passes.getD (s.cur.passSet [f.mask.toNat])) = p' ∧ s.cur.l.pix + 1 = (passList p').length) →
            s.retired t r false))
  ∧ (∀ (w : Nat) (f : LArith) (k : LaneCtx) (a b c : Word32), w = (if f.fmt = 1 then 16 else 32) →
    let el := fun (j : Nat) (v : Word32) => v.extractLsb' (w * j) w
    let neg := fun (n : Bool) (v : BitVec w) => if n then -v else v
    let A := fun (j : Nat) => neg f.na (el j a)
    let B := fun (j : Nat) => neg f.nb (el j b)
    let C := fun (j : Nat) => neg f.nc (el j c)
    let clamp := fun (lo hi x : Int) => if x < lo then lo else if hi < x then hi else x
    (f.sat = false → ∀ p ∈ ([(0x000, fun a b _ => a + b), (0x001, fun a b _ => a - b), (0x002, fun a b _ => a * b),
        (0x003, fun a b _ => BitVec.ofInt w ((a.toInt * b.toInt).fdiv (2 ^ w))),
        (0x004, fun a b _ => BitVec.ofNat w (a.toNat * b.toNat / 2 ^ w)), (0x005, fun a b c => a * b + c),
        (0x006, fun a b _ => if a.toInt ≤ b.toInt then a else b), (0x007, fun a b _ => if a.toInt ≤ b.toInt then b else a),
        (0x008, fun a b _ => if a.toNat ≤ b.toNat then a else b), (0x009, fun a b _ => if a.toNat ≤ b.toNat then b else a),
        (0x00A, fun a b _ => a &&& b), (0x00B, fun a b _ => a ||| b), (0x00C, fun a b _ => a ^^^ b), (0x00D, fun a b _ => a &&& ~~~b),
        (0x00E, fun a b _ => a <<< (b.toNat % w)), (0x00F, fun a b _ => a >>> (b.toNat % w)),
        (0x010, fun a b _ => a.sshiftRight (b.toNat % w)), (0x011, fun a b _ => a.rotateRight (b.toNat % w)),
        (0x012, fun a _ _ => BitVec.ofNat w (if a = 0 then w else w - 1 - Nat.log2 a.toNat)),
        (0x013, fun a _ _ => BitVec.ofNat w ((List.range w).countP fun i => a.getLsbD i)), (0x014, fun a _ _ => a.reverse),
        (0x015, fun a _ _ => if a.toInt < 0 then -a else a), (0x01A, fun a b c => if a ≠ 0 then b else c), (0x01B, fun _ b _ => b)] :
          List (Nat × (BitVec w → BitVec w → BitVec w → BitVec w))),
      (∀ j < 32 / w, el j (arithFn p.1 f k a b c).val = p.2 (A j) (B j) (C j)) ∧ (arithFn p.1 f k a b c).o = false)
    ∧ (f.sat = true → ∀ p ∈ ([(0x000, fun a b _ => a + b), (0x001, fun a b _ => a - b), (0x002, fun a b _ => a * b),
        (0x005, fun a b c => a * b + c), (0x00E, fun a b _ => a * 2 ^ (b % w).toNat), (0x015, fun a _ _ => (a.natAbs : Int))] :
          List (Nat × (Int → Int → Int → Int))),
      let x := fun (j : Nat) => p.2 (A j).toInt (if p.1 = 0x00E then ((B j).toNat : Int) else (B j).toInt) (C j).toInt
      let y := fun (j : Nat) => clamp (-2 ^ (w - 1)) (2 ^ (w - 1) - 1) (x j)
      (∀ j < 32 / w, el j (arithFn p.1 f k a b c).val = BitVec.ofInt w (y j))
        ∧ ((arithFn p.1 f k a b c).o = true ↔ ∃ j < 32 / w, y j ≠ x j))
    ∧ (∀ p ∈ ([(0x016, fun a b => a + b), (0x017, fun a b => a - b)] : List (Nat × (Int → Int → Int))),
      let x := fun (j : Nat) => p.2 (A j).toNat (B j).toNat
      let y := fun (j : Nat) => clamp 0 (2 ^ w - 1) (x j)
      (∀ j < 32 / w, el j (arithFn p.1 f k a b c).val = BitVec.ofInt w (y j))
        ∧ ((arithFn p.1 f k a b c).o = true ↔ ∃ j < 32 / w, y j ≠ x j))
    ∧ (let pos := b.toNat % 32
      let len := min (b.toNat / 2 ^ 8 % 64) 32
      ∀ l < 32, (arithFn 0x018 f k a b c).val.getLsbD l
          = (if l < len then a.getLsbD (pos + l) else f.bsel == 1 && decide (0 < len) && a.getLsbD (pos + len - 1))
        ∧ (arithFn 0x019 f k a b c).val.getLsbD l = (if pos ≤ l ∧ l < pos + len then a.getLsbD (l - pos) else c.getLsbD l))
    ∧ (let h := (a.toInt * b.toInt).fdiv (2 ^ 32)
      let s := f.imm32.toNat % 32
      let q := if s = 0 then h else h.sign * (((h.natAbs : Int) + 2 ^ (s - 1)).fdiv (2 ^ s))
      let y := q + c.toInt
      let r := if f.fmt = 0x09 then clamp (-128) 127 y else clamp (-8) 7 y
      (arithFn 0x01D f k a b c).val = BitVec.ofInt 32 r ∧ ((arithFn 0x01D f k a b c).o = true ↔ r ≠ y))
    ∧ ∀ op < 0x01E, (arithFn op f k a b c).n = false)

/-- R241, R36: a pass of `vpack`, of `vunpack` and of a pair with sound sources and pages of the team's own completes: the PIX
moves on, or the word retires after its last pass. `vpack` writes element j of a lane from register A + j, its low bits, and zero
beyond; `vunpack` writes element j to register D + j, sign-extended for the signed integer formats and else zero-extended. Both halves
of a pair write what their lane functions give of the operands that stood before the pass. No other lane or row changes.
The model's own choices and readings it rests on: log 4, 18, 38. -/
def Obligations.PackAndPairPasses : Prop :=
  (∀ g ∈ [Instr.vpack, Instr.vunpack], ∀ (f : LArith) (s : State) (r : LaneRun) (w : Nat),
      s.laneAt (g f) r → s.laneFit (g f) → s.laneSound (g f) →
      (s.cur.l.passes = none → s.cur.l.pix = 0) → s.cur.nextPass [f.mask.toNat] = some w →
      ∃ t, exec (g f) s = .next t ∧ t.hbm = s.hbm ∧ t.cur.s = s.cur.s
        ∧ (s.retired t r false ∨ t.cur.l.pix = s.cur.l.pix + 1 ∧ t.cur.l.run = some r))
  ∧ (∀ (f : LArith) (s : State) (r : LaneRun) (w : Nat), wellFormed (.vpack f) = true →
      s.laneAt (.vpack f) r → s.laneFit (.vpack f) → s.laneSound (.vpack f) →
      (s.cur.l.passes = none → s.cur.l.pix = 0) → s.cur.nextPass [f.mask.toNat] = some w →
      let wd := widthOfCode s.cur.blk.nf f.fmt.toNat
      ∃ t, exec (.vpack f) s = .next t ∧ s.basinBut t [s.cur.rowAt f.vd.toNat w]
        ∧ ∀ p < 32, let slots := slotsOfLane wd (32 * w + p)
          let v := s.laneIn t f.vd.toNat (32 * w + p)
          if bitAt (s.cur.active f.mask.toNat w).toNat p then
            v.toNat < 2 ^ (wd * slots)
              ∧ ∀ j < slots, v.toNat / 2 ^ (wd * j) % 2 ^ wd = (s.laneOf (f.va.toNat + j) (32 * w + p)).toNat % 2 ^ wd
          else v = s.laneOf f.vd.toNat (32 * w + p))
  ∧ (∀ (f : LArith) (s : State) (r : LaneRun) (w : Nat), wellFormed (.vunpack f) = true →
      s.laneAt (.vunpack f) r → s.laneFit (.vunpack f) → s.laneSound (.vunpack f) →
      (s.cur.l.passes = none → s.cur.l.pix = 0) → s.cur.nextPass [f.mask.toNat] = some w →
      let wd := widthOfCode s.cur.blk.nf f.fmt.toNat
      let dsts := (List.range (elemsPerLane wd)).map fun j => f.vd.toNat + j
      s.cur.apart dsts w →
      ∃ t, exec (.vunpack f) s = .next t ∧ s.basinBut t (dsts.map fun r => s.cur.rowAt r w)
        ∧ ∀ j < elemsPerLane wd, ∀ p < 32,
          let v := s.laneIn t (f.vd.toNat + j) (32 * w + p)
          let x := (s.laneOf f.va.toNat (32 * w + p)).toNat / 2 ^ (wd * j) % 2 ^ wd
          if bitAt (s.cur.active f.mask.toNat w).toNat p then
            j < slotsOfLane wd (32 * w + p) →
              v = if f.fmt ∈ [0x06, 0x07, 0x09, 0x0B] then BitVec.ofInt 32 (if x < 2 ^ (wd - 1) then (x : Int) else x - 2 ^ wd)
                else BitVec.ofNat 32 x
          else v = s.laneOf (f.vd.toNat + j) (32 * w + p))
  ∧ (∀ (a b : Half) (s : State) (r : LaneRun) (w : Nat),
      s.laneAt (.lanePair a b) r → s.laneFit (.lanePair a b) → s.laneSound (.lanePair a b) →
      (s.cur.l.passes = none → s.cur.l.pix = 0) → s.cur.nextPass [a.toArith.mask.toNat, b.toArith.mask.toNat] = some w →
      s.cur.apart [a.vd.toNat, b.vd.toNat] w →
      let dph := if s.cur.l.passes = none then s.cur.l.dph else s.cur.l.dphAt
      let both := usesDither a.op7.toNat a.toArith = true ∧ usesDither b.op7.toNat b.toArith = true
      let gives := fun (h : Half) (phase : Word64) (l : Nat) =>
        let used := fun (sel : ArithRow → Bool) (q : BitVec 7) => if (arithRow h.op7.toNat).any sel then s.laneOf q.toNat l else 0
        (arithFn h.op7.toNat h.toArith ⟨s.cur.blk.nf, phase, l⟩ (used (·.va) h.va) (used (·.vb) h.vb) (used (·.vc) h.vc)).val
      ∃ t, exec (.lanePair a b) s = .next t ∧ s.basinBut t [s.cur.rowAt a.vd.toNat w, s.cur.rowAt b.vd.toNat w]
        ∧ ∀ p < 32,
          s.laneIn t a.vd.toNat (32 * w + p) = (if bitAt (s.cur.active a.mask.toNat w).toNat p then gives a dph (32 * w + p)
              else s.laneOf a.vd.toNat (32 * w + p))
          ∧ (both → s.laneIn t b.vd.toNat (32 * w + p)
              = if bitAt (s.cur.active b.mask.toNat w).toNat p then gives b (dph + 1) (32 * w + p) else s.laneOf b.vd.toNat (32 * w + p))
          ∧ (¬ both → s.laneIn t b.vd.toNat (32 * w + p)
              = if bitAt (s.cur.active b.mask.toNat w).toNat p then gives b dph (32 * w + p) else s.laneOf b.vd.toNat (32 * w + p)))
  ∧ ∀ (a b : Half) (s : State) (r : LaneRun) (w : Nat),
      s.laneAt (.lanePair a b) r → s.laneFit (.lanePair a b) → s.laneSound (.lanePair a b) →
      (s.cur.l.passes = none → s.cur.l.pix = 0) → s.cur.nextPass [a.toArith.mask.toNat, b.toArith.mask.toNat] = some w →
      ∃ t, exec (.lanePair a b) s = .next t ∧ t.hbm = s.hbm ∧ t.cur.s = s.cur.s
        ∧ (s.retired t r false ∨ t.cur.l.pix = s.cur.l.pix + 1 ∧ t.cur.l.run = some r)

/-- R242 to R245, R248, R251, R253, R258 to R260, R262 to R264: a lane word that commits all or nothing, with sound sources and pages
of the team's own, retires in one turn and changes neither memory nor the scalar stream. What each writes to its register, its mask, RDX
and the flags: compares, mask counts, moves, compaction, votes, reductions and scans, the block scales and the two conversions; a lane
that it does not name keeps its value, and with no lane to work on the register keeps its value and FLAGS.E is set.
The model's own choices and readings it rests on: log 4. -/
def Obligations.WholeWords : Prop :=
  ((∀ g ∈ [Instr.vbsc, Instr.vbq, Instr.vbdq], ∀ (f : LArith) (s : State) (r : LaneRun),
      s.laneAt (g f) r → s.laneFit (g f) → s.laneSound (g f) → ∃ t, exec (g f) s = .next t ∧ s.retired t r false)
  ∧ (∀ g ∈ [Instr.vcmp, Instr.vfcmp, Instr.vmpop, Instr.vmfirst], ∀ (f : LMask) (s : State) (r : LaneRun),
      s.laneAt (g f) r → s.laneFit (g f) → s.laneSound (g f) → ∃ t, exec (g f) s = .next t ∧ s.retired t r false)
  ∧ ∀ g ∈ [Instr.vshfl, Instr.vbcast, Instr.vrot, Instr.vcompact, Instr.vexpand, Instr.vvote, Instr.vmatch, Instr.vred,
        Instr.vfred, Instr.vscan, Instr.vfscan], ∀ (f : LCross) (s : State) (r : LaneRun),
      s.laneAt (g f) r → s.laneFit (g f) → s.laneSound (g f) → ∃ t, exec (g f) s = .next t ∧ s.retired t r false)
  ∧ ((∀ (f : LMask) (s : State) (r : LaneRun), s.laneAt (.vmpop f) r → s.laneFit (.vmpop f) → s.laneSound (.vmpop f) →
      ∃ t, exec (.vmpop f) s = .next t ∧ s.retired t r false
        ∧ t.cur.l.rdx = BitVec.ofNat 64 ((List.range 1024).countP fun l =>
            bitAt (s.cur.activeLanes f.mask.toNat).toNat l && bitAt (s.cur.maskReg f.va.toNat).toNat l))
  ∧ (∀ (f : LMask) (s : State) (r : LaneRun), s.laneAt (.vmfirst f) r → s.laneFit (.vmfirst f) → s.laneSound (.vmfirst f) →
      ∃ t, exec (.vmfirst f) s = .next t ∧ s.retired t r false
        ∧ t.cur.l.rdx = (match (List.range 1024).find? (fun l =>
            bitAt (s.cur.activeLanes f.mask.toNat).toNat l && bitAt (s.cur.maskReg f.va.toNat).toNat l) with
          | some l => BitVec.ofNat 64 l
          | none => 0xFFFFFFFF))
  ∧ ∀ g ∈ [Instr.vcompact, Instr.vexpand], ∀ (f : LCross) (s : State) (r : LaneRun),
      s.laneAt (g f) r → s.laneFit (g f) → s.laneSound (g f) →
      ∃ t, exec (g f) s = .next t ∧ s.retired t r false
        ∧ t.cur.l.rdx = BitVec.ofNat 64 ((List.range 1024).countP fun l => bitAt (s.cur.activeLanes f.mask.toNat).toNat l))
  ∧ (∀ (f : LMask) (s : State) (r : LaneRun),
    let acts := fun (l : Nat) => s.cur.acts f.mask.toNat l
    let a := fun (l : Nat) => s.laneOf f.va.toNat l
    let b := fun (l : Nat) => if f.imm then f.imm32 else if f.spc then s.cur.special f.vb.toNat l else s.laneOf f.vb.toNat l
    let ft := if f.fmt = 0x02 then fp32 else if f.fmt = 0x03 then fp16 else bf16
    let x := fun (l : Nat) => decodeF ft ((a l).toNat % 2 ^ ft.width)
    let y := fun (l : Nat) => decodeF ft ((b l).toNat % 2 ^ ft.width)
    let uno := fun (l : Nat) => (x l).isNan || (y l).isNan
    let q := fun (l : Nat) => acts l && bitAt (s.cur.maskReg f.va.toNat).toNat l
    let compares := fun (i : Instr) (cond : Nat → Bool) => ∃ t, exec i s = .next t ∧ s.flagsKept t s.cur.l.flagE
      ∧ t.cur.l.rdx = s.cur.l.rdx ∧ (∀ l < 1024, bitAt (t.cur.maskReg f.vd.toNat).toNat l = (acts l && cond l))
      ∧ ∀ k, k ≠ f.vd.toNat → t.cur.maskReg k = s.cur.maskReg k
    (s.laneAt (.vcmp f) r → s.laneFit (.vcmp f) → s.laneSound (.vcmp f) → f.cnd.toNat < 10 →
      compares (.vcmp f) fun l => [decide (a l = b l), decide (a l ≠ b l), decide ((a l).toInt < (b l).toInt),
        decide ((a l).toInt ≤ (b l).toInt), decide ((b l).toInt < (a l).toInt), decide ((b l).toInt ≤ (a l).toInt),
        decide ((a l).toNat < (b l).toNat), decide ((a l).toNat ≤ (b l).toNat), decide ((b l).toNat < (a l).toNat),
        decide ((b l).toNat ≤ (a l).toNat)].getD f.cnd.toNat false)
    ∧ (s.laneAt (.vfcmp f) r → s.laneFit (.vfcmp f) → s.laneSound (.vfcmp f) → f.cnd.toNat < 8 →
      compares (.vfcmp f) fun l => [!uno l && (x l).ieeeEq (y l), uno l || !(x l).ieeeEq (y l), !uno l && (x l).ieeeLt (y l),
        !uno l && ((x l).ieeeLt (y l) || (x l).ieeeEq (y l)), !uno l && (y l).ieeeLt (x l),
        !uno l && ((y l).ieeeLt (x l) || (x l).ieeeEq (y l)), uno l, !uno l].getD f.cnd.toNat false)
    ∧ (s.laneAt (.vmpop f) r → s.laneFit (.vmpop f) → s.laneSound (.vmpop f) → ∃ t, exec (.vmpop f) s = .next t
      ∧ s.lanesWritten t f.vd.toNat (fun l => if acts l then some (BitVec.ofNat 32 ((List.range 1024).countP q)) else none)
      ∧ s.flagsKept t (s.cur.l.flagE || (List.range 1024).all fun l => !acts l))
    ∧ (s.laneAt (.vmfirst f) r → s.laneFit (.vmfirst f) → s.laneSound (.vmfirst f) → ∃ t, exec (.vmfirst f) s = .next t
      ∧ s.lanesWritten t f.vd.toNat (fun l => if acts l then ((List.range 1024).find? q).map (BitVec.ofNat 32) else none)
      ∧ s.flagsKept t (s.cur.l.flagE || ((List.range 1024).find? q).isNone)))
  ∧ (∀ (f : LCross) (s : State) (r : LaneRun),
    let acts := fun (l : Nat) => s.cur.acts f.mask.toNat l
    let live := fun (l : Nat) => decide (l < 32 * s.cur.n) && !s.cur.isDead l
    let regs := if f.fmt = 0x1C then 2 else 1
    let n := s.cur.n
    let moves := fun (i : Instr) (from_ : Nat → Nat) (member : Nat → Bool) =>
      s.laneAt i r → s.laneFit i → s.laneSound i → (f.fmt = 0x1C → s.cur.pairApart f.vd.toNat) →
      ∃ t, exec i s = .next t ∧ s.flagsKept t s.cur.l.flagE ∧ t.cur.l.rdx = s.cur.l.rdx
        ∧ ∀ j < regs, s.lanesWritten t (f.vd.toNat + j) fun l =>
            if acts l then some (if from_ l < 32 * n ∧ member (from_ l) = true ∧ s.cur.isDead (from_ l) = false
              then s.laneOf (f.va.toNat + j) (from_ l) else s.laneOf (f.vc.toNat + j) l) else none
    let S := (List.range 1024).filter acts
    let D := (List.range 1024).filter live
    moves (.vshfl f) (fun l => if f.spc then (s.cur.special f.vb.toNat l).toNat else (s.laneOf f.vb.toNat l).toNat)
      (fun q => f.imm32.toNat == 16 || bitAt (s.cur.maskReg f.imm32.toNat).toNat q)
    ∧ moves (.vbcast f) (fun _ => f.imm32.toNat % 1024) (fun _ => true)
    ∧ moves (.vrot f) (fun l => (l + f.imm32.toNat) % (32 * n)) (fun _ => true)
    ∧ (s.laneAt (.vcompact f) r → s.laneFit (.vcompact f) → s.laneSound (.vcompact f) →
      (f.fmt = 0x1C → s.cur.pairApart f.vd.toNat) → ∃ t, exec (.vcompact f) s = .next t
        ∧ s.flagsKept t (s.cur.l.flagE || S.isEmpty)
        ∧ ∀ j < regs, s.lanesWritten t (f.vd.toNat + j) fun l => if S ≠ [] ∧ live l = true then
            some (match S[D.idxOf l]? with
              | some q => s.laneOf (f.va.toNat + j) q
              | none => s.laneOf (f.vc.toNat + j) l) else none)
    ∧ (s.laneAt (.vexpand f) r → s.laneFit (.vexpand f) → s.laneSound (.vexpand f) →
      (f.fmt = 0x1C → s.cur.pairApart f.vd.toNat) → ∃ t, exec (.vexpand f) s = .next t
        ∧ s.flagsKept t (s.cur.l.flagE || S.isEmpty)
        ∧ ∀ j < regs, s.lanesWritten t (f.vd.toNat + j) fun l =>
            if acts l then some (s.laneOf (f.va.toNat + j) (D.getD (S.idxOf l) 0)) else none)
    ∧ (s.laneAt (.vvote f) r → s.laneFit (.vvote f) → s.laneSound (.vvote f) → f.fmt = 0 →
      let P := S.filter fun l => s.laneOf f.va.toNat l != 0
      let one : Nat := if f.vk = 0 then (if P ≠ [] then 1 else 0) else if f.vk = 1 then (if P = S then 1 else 0)
        else if ∀ l ∈ S, ∀ k ∈ S, s.laneOf f.va.toNat l = s.laneOf f.va.toNat k then 1 else 0
      ∃ t, exec (.vvote f) s = .next t ∧ s.flagsKept t (s.cur.l.flagE || S.isEmpty)
        ∧ t.cur.l.rdx.toNat = (if S = [] then (if f.vk = 1 ∨ f.vk = 2 then 1 else 0) else if f.vk = 3 then P.length else one)
        ∧ ∃ v : Nat → Word32, s.lanesWritten t f.vd.toNat (fun l => if acts l then some (v l) else none)
          ∧ ∀ l ∈ S, (f.vk ≠ 3 → v l = BitVec.ofNat 32 one)
            ∧ (f.vk = 3 → ∀ p < 32, (v l).getLsbD p = P.contains (32 * (l / 32) + p)))
    ∧ (let w := if f.fmt = 0x01 then 16 else 32
      let el := fun (j l : Nat) => (s.laneOf f.va.toNat l).extractLsb' (w * j) w
      let op := fun (a b : BitVec w) => ([a + b, a &&& b, a ||| b, a ^^^ b, if a.toInt < b.toInt then b else a,
        if a.toInt < b.toInt then a else b, if a.toNat < b.toNat then b else a].getD f.rop.toNat (if a.toNat < b.toNat then a else b))
      let ident : BitVec w := ([0, BitVec.allOnes w, 0, 0, BitVec.intMin w, BitVec.intMax w, 0].getD f.rop.toNat (BitVec.allOnes w))
      let comb := fun (j bound : Nat) => (S.filter fun l => decide (l < bound)).foldl (fun acc l => op acc (el j l)) ident
      let reduces := fun (i : Instr) (bound : Nat → Nat) =>
        s.laneAt i r → s.laneFit i → s.laneSound i → (f.fmt = 0 ∨ f.fmt = 1) → f.rop.toNat < 8 →
        ∃ t, exec i s = .next t ∧ s.flagsKept t (s.cur.l.flagE || S.isEmpty)
          ∧ t.cur.l.rdx.toNat < 2 ^ 32 ∧ (∀ j < 32 / w, t.cur.l.rdx.extractLsb' (w * j) w = comb j 1024)
          ∧ ∃ v : Nat → Word32, s.lanesWritten t f.vd.toNat (fun l => if acts l then some (v l) else none)
            ∧ ∀ l ∈ S, ∀ j < 32 / w, (v l).extractLsb' (w * j) w = comb j (bound l)
      reduces (.vred f) (fun _ => 1024) ∧ reduces (.vscan f) (fun l => if f.exc then l else l + 1))
    ∧ (let ft := if f.fmt = 0x02 then fp32 else if f.fmt = 0x03 then fp16 else bf16
      let w := if f.fmt = 0x02 then 32 else 16
      let e := if f.fmt = 0x05 then 2 else 1
      let near := fun (x : Machine.Num) => (roundF ft .rne false 0 x.exact).code
      let op := fun (a b : Nat) => if f.rop = 8 then near ((decodeF ft a).add .rne (decodeF ft b))
        else if f.rop = 9 then near ((decodeF ft a).max (decodeF ft b)) else near ((decodeF ft a).min (decodeF ft b))
      let ident : Nat := if f.rop = 8 then 0 else if f.rop = 9 then (if f.fmt = 0x02 then 0xFF800000 else if f.fmt = 0x03 then 0xFC00 else 0xFF80)
        else (if f.fmt = 0x02 then 0x7F800000 else if f.fmt = 0x03 then 0x7C00 else 0x7F80)
      let x := fun (j bound l : Nat) => if acts l = true ∧ l < bound then
        some (near (decodeF ft ((s.laneOf f.va.toNat l).toNat / 2 ^ (w * j) % 2 ^ w))) else none
      let comb := fun (j bound : Nat) => ((List.range n).foldl (fun acc q =>
        combineOpt op acc (pairTree op (fun p => x j bound (32 * q + p)) 5 0)) none).getD ident
      let lane := fun (bound : Nat) => BitVec.ofNat 32 (comb 0 bound % 2 ^ w + (if e = 2 then 2 ^ 16 * (comb 1 bound % 2 ^ w) else 0))
      let isNan := fun (bound : Nat) => ∃ j < e, (decodeF ft (comb j bound)).isNan = true
      let reduces := fun (i : Instr) (bound : Nat → Nat) =>
        s.laneAt i r → s.laneFit i → s.laneSound i → (2 ≤ f.fmt.toNat ∧ f.fmt.toNat ≤ 5) → (8 ≤ f.rop.toNat ∧ f.rop.toNat ≤ 10) →
        ∃ t, exec i s = .next t ∧ t.cur.l.flagE = (s.cur.l.flagE || S.isEmpty)
          ∧ t.cur.l.rdx = (lane 1024).setWidth 64
          ∧ (t.cur.l.flagN = true ↔ s.cur.l.flagN = true ∨ S ≠ [] ∧ (isNan 1024 ∨ ∃ l ∈ S, isNan (bound l)))
          ∧ s.lanesWritten t f.vd.toNat fun l => if acts l then some (lane (bound l)) else none
      reduces (.vfred f) (fun _ => 1024) ∧ reduces (.vfscan f) (fun l => if f.exc then l else l + 1)))
  ∧ (∀ (f : LArith) (s : State) (r : LaneRun), f.bsel.toNat < 2 →
    let el := elemOfCode s.cur.blk.nf f.fmt.toNat
    let e := elemsPerLane el.width
    let G := laneGroup el.width
    let b := f.bsel.toNat
    let block := fun (k : Nat) => (blockLanes s.cur.n k).filter fun l => s.cur.acts f.mask.toNat l
    let value := fun (l : Nat) => decodeF fp32 (s.laneOf f.va.toNat l).toNat
    let scale := fun (k : Nat) => blockScale el ((block k).map value)
    let pair := fun (k : Nat) => ((s.laneOf f.vb.toNat k).toNat / 2 ^ (16 * b) % 256, (s.laneOf f.vb.toNat k).toNat / 2 ^ (16 * b + 8) % 256)
    let mode := RMode.ofCode f.rnd.toNat
    let dph := if s.cur.l.passes = none then s.cur.l.dph else s.cur.l.dphAt
    (s.laneAt (.vbsc f) r → s.laneFit (.vbsc f) → s.laneSound (.vbsc f) → ∃ t, exec (.vbsc f) s = .next t
      ∧ t.cur.l.flagE = s.cur.l.flagE ∧ t.cur.l.flagO = s.cur.l.flagO
      ∧ (t.cur.l.flagN = true ↔ s.cur.l.flagN = true ∨ ∃ k, 256 * k < 32 * s.cur.n ∧ block k ≠ [] ∧ (scale k).2.2 = true)
      ∧ s.lanesWritten t f.vd.toNat fun k => if 256 * k < 32 * s.cur.n ∧ block k ≠ [] ∧ s.cur.isDead k = false then
          some (BitVec.ofNat 32 (setBits (s.laneOf f.vd.toNat k).toNat (16 * b) 16 ((scale k).1 + 256 * (scale k).2.1))) else none)
    ∧ (s.laneAt (.vbq f) r → s.laneFit (.vbq f) → s.laneSound (.vbq f) → wellFormed (.vbq f) = true →
      let code := fun (k i : Nat) => if (pair k).1 = 0xFF then elemNan el else if (block k).contains (256 * k + i) then
        (quantise el mode f.sat (pair k).1 (pair k).2 (ditherT i dph) (value (256 * k + i))).code else 0
      ∃ (t : State) (v : Nat → Word32), exec (.vbq f) s = .next t ∧ t.cur.l.flagE = s.cur.l.flagE
        ∧ s.lanesWritten t f.vd.toNat (fun l => if block (l / G) ≠ [] ∧ s.cur.isDead l = false then some (v l) else none)
        ∧ ∀ l < 1024, (v l).toNat < 2 ^ (el.width * e) ∧ ∀ j < e, (v l).toNat / 2 ^ (el.width * j) % 2 ^ el.width
            = (if l % G * e + j < 256 then code (l / G) (l % G * e + j) % 2 ^ el.width else 0))
    ∧ (s.laneAt (.vbdq f) r → s.laneFit (.vbdq f) → s.laneSound (.vbdq f) → ∃ t, exec (.vbdq f) s = .next t
      ∧ t.cur.l.flagE = s.cur.l.flagE
      ∧ s.lanesWritten t f.vd.toNat fun l => if s.cur.acts f.mask.toNat l then
          let k := l / 256
          let i := l % 256
          some (BitVec.ofNat 32 (dequantise el mode f.sat (pair k).1 (pair k).2
            ((s.laneOf f.va.toNat (k * G + i / e)).toNat / 2 ^ (el.width * (i % e)) % 2 ^ el.width)).code) else none))
  ∧ ∀ (el : Elem) (vals : List Machine.Num),
      let special := fun (v : Machine.Num) => match v with | .fin _ _ _ => false | _ => true
      let S := (blockScale el vals).1
      let top := fun (p : Int) => (elemMax el).scale (p - 127)
      (vals.any special = true → blockScale el vals = (0xFF, 0, true))
      ∧ (vals.any special = false → (∀ v ∈ vals, v.isZero = true) → S = 127)
      ∧ (vals.any special = false → (∃ v ∈ vals, v.isZero = false) → (elemMax el).isZero = false → S ≤ 254 ∧ (blockScale el vals).2.2 = false
        ∧ (S < 254 → ∀ v ∈ vals, (top S).ieeeLt (absNum v) = false)
        ∧ (0 < S → ∃ v ∈ vals, (top (S - 1)).ieeeLt (absNum v) = true))

/-- R252, R254: mask logic by its truth table, and the masks that `vif`, `velse`, `vendif` and `vbreak` leave; each mask keeps to
the lanes of the team, and no other mask changes. -/
def Obligations.MaskWords : Prop :=
  ∀ (f : LMask) (s : State) (r : LaneRun), s.cur.l.run = some r →
    let m := fun k => s.cur.maskReg k
    let all := allLanes s.cur.n
    (s.laneAt (.vmlog f) r → ∃ t, exec (.vmlog f) s = .next t ∧ s.retired t r false
      ∧ (∀ l < 1024, bitAt (t.cur.maskReg f.vd.toNat).toNat l = (decide (l < 32 * s.cur.n)
          && f.cnd.getLsbD (2 * (if bitAt (m f.va.toNat).toNat l then 1 else 0) + (if bitAt (m f.vb.toNat).toNat l then 1 else 0))))
      ∧ ∀ k, k ≠ f.vd.toNat → t.cur.maskReg k = m k)
    ∧ (s.laneAt (.vif f) r → f.vd ≠ 0 → ∃ t, exec (.vif f) s = .next t ∧ s.retired t r false
      ∧ t.cur.maskReg f.vd.toNat = m 0 &&& all ∧ t.cur.maskReg 0 = (m 0 &&& m f.va.toNat) &&& all
      ∧ ∀ k, k ≠ 0 → k ≠ f.vd.toNat → t.cur.maskReg k = m k)
    ∧ (s.laneAt (.velse f) r → ∃ t, exec (.velse f) s = .next t ∧ s.retired t r false
      ∧ t.cur.maskReg 0 = (m f.vd.toNat &&& ~~~(m 0)) &&& all ∧ ∀ k, k ≠ 0 → t.cur.maskReg k = m k)
    ∧ (s.laneAt (.vendif f) r → ∃ t, exec (.vendif f) s = .next t ∧ s.retired t r false
      ∧ t.cur.maskReg 0 = m f.vd.toNat &&& all ∧ ∀ k, k ≠ 0 → t.cur.maskReg k = m k)
    ∧ (s.laneAt (.vbreak f) r → f.vd ≠ 0 → f.vd.toNat ≤ 15 → ∃ t, exec (.vbreak f) s = .next t ∧ s.retired t r false
      ∧ t.cur.maskReg 0 = (m 0 &&& ~~~(m f.va.toNat)) &&& all
      ∧ ∀ k, k ≠ 0 → t.cur.maskReg k = if f.vd.toNat ≤ k ∧ k ≤ 15 then (m k &&& ~~~(m f.va.toNat)) &&& all else m k)

/-! ## The lane stream and its scalar words -/

/-- R301, R302, R10, R34: `lrun` enqueues a block with the scalar file and the number formats as they stand;
LANE_BLOCK_START starts the head of the queue at its index; `lwait` goes on when few enough blocks are outstanding; `vnop` retires
and does nothing else, and `vend` retires and ends its block.
The model's own choices and readings it rests on: log 4, 37. -/
def Obligations.LaneBlocks : Prop :=
  ((∀ (c : BitVec 5) (i : BitVec 21) (s : State), s.cur.l.outstanding < 16 → s.cur.s.outs = [] →
      ∃ t b, exec (.lrun c i) s = .next t ∧ t.cur.l.queue = s.cur.l.queue ++ [b] ∧ t.pc = s.pc + 4
        ∧ b.start = i.toNat ∧ b.count = c.toNat ∧ b.xs = s.cur.s.x ∧ b.nf = s.cur.l.nf ∧ b.dcol = s.cur.ctl.dcol
        ∧ b.priv = s.cur.s.priv ∧ b.pc = s.pc ∧ t.cur.l.run = s.cur.l.run)
  ∧ (∀ (uid : Nat) (s : State) (t : Team) (b : LaneBlock) (q : List LaneBlock), s.team? uid = some t → t.l.queue = b :: q →
      t.l.run = none → t.resident = true →
      ∃ s' t', exec (.laneBlockStart uid) s = .next s' ∧ s'.team? uid = some t' ∧ t'.l.queue = q
        ∧ t'.l.run = some { blk := b, lpc := b.start, done := 0, word := none } ∧ t'.s = t.s)
  ∧ ∀ (n : BitVec 16) (s : State),
      (s.cur.l.outstanding ≤ n.toNat → ∃ t, exec (.lwait n) s = .next t ∧ s.wentTo t (s.pc + 4))
      ∧ (n.toNat < s.cur.l.outstanding → exec (.lwait n) s = .next (s.parkCur (.lanes n.toNat))))
  ∧ (∀ (f : LCtl) (s : State) (r : LaneRun), s.cur.l.run = some r →
    (∃ t, exec (.vnop f) s = .next t ∧ s.retired t r false)
    ∧ ∃ t, exec (.vend f) s = .next t ∧ s.retired t r true ∧ t.cur.l.run = none)

/-- R304, R14, R15, R305: `mrd` reads a double word of a mask, 16 its summary; `mwr` writes one, whole, and keeps the others: both
once no lane word outstanding writes the mask, or names it. `sget` of each system register writes its value: RDX and FLAGS once no lane
word outstanding writes them, every other at once. `sset` writes the default colour, the flags, a number-format register and, privileged,
the tenant's slice.
The model's own choices and readings it rests on: log 1, 9. -/
def Obligations.MaskAndSystemRegisters : Prop :=
  (∀ (d a : XReg) (n k : BitVec 5) (s : State),
    ((s.cur.l.quiet fun t => t.mdsts.contains n.toNat) = true →
      (k.toNat < 16 → ∃ t, exec (.mrd d n k) s = .next t
        ∧ s.wrote t d (BitVec.ofNat 64 ((s.cur.maskReg n.toNat).toNat / 2 ^ (64 * k.toNat))))
      ∧ ∃ t, exec (.mrd d n 16) s = .next t ∧ s.wrote t d ((summaryOf (s.cur.maskReg n.toNat)).setWidth 64))
    ∧ ((s.cur.l.quiet fun t => t.masks.contains n.toNat || t.mdsts.contains n.toNat) = true → k.toNat < 16 →
      ∃ t, exec (.mwr n a k) s = .next t ∧ t.pc = s.pc + 4 ∧ t.cur.s.x = s.cur.s.x
        ∧ (∀ l < 1024, bitAt (t.cur.maskReg n.toNat).toNat l =
            if 64 * k.toNat ≤ l ∧ l < 64 * k.toNat + 64 then (s.getX a).getLsbD (l - 64 * k.toNat)
            else bitAt (s.cur.maskReg n.toNat).toNat l)
        ∧ (∀ m, m ≠ n.toNat → t.cur.maskReg m = s.cur.maskReg m)
        ∧ t = { s with cur := { s.cur with
            s := { s.cur.s with pc := s.pc + 4, phase := .none, counted := false }, l := { s.cur.l with m := t.cur.l.m } } }))
  ∧ (∀ (d : XReg) (s : State),
    let gives := fun (n : Nat) (v : Word64) => ∃ t, exec (.sget d (BitVec.ofNat 11 n)) s = .next t ∧ s.wrote t d v
    let c := s.core s.cur.core
    let i := s.cur.id
    gives 0x000 (teamCtlWord s.cur) ∧ gives 0x001 (teamIdWord s.cur)
    ∧ ((s.cur.l.quiet fun t => t.flags) = true → gives 0x002 (flagsWord s.cur.l))
    ∧ ((s.cur.l.quiet fun t => t.rdx) = true → gives 0x003 s.cur.l.rdx)
    ∧ gives 0x004 (pixWord s.cur.l) ∧ gives 0x005 s.cur.l.dph
    ∧ (∀ k < 4, gives (8 + k) (s.cur.l.nf.getD k 0)) ∧ (∀ k < 8, gives (16 + k) (s.cur.faultrec.getD k 0))
    ∧ gives 0x020 (BitVec.ofNat 64 (Table.get defaultSlice s.dev.tslice i.tenant)) ∧ gives 0x021 c.stalerd
    ∧ (∀ w, 1 ≤ w → w ≤ 15 → w ≠ 14 → gives (64 + w) (Table.get 0 c.cnt w))
    ∧ (∀ q ∈ [(0x080, i.slot), (0x081, i.core), (0x082, s.cur.cluster), (0x083, i.stage), (0x084, i.inst), (0x085, i.ix), (0x086, i.iy),
        (0x087, i.iz)], gives q.1 (BitVec.ofNat 64 q.2))
    ∧ (∀ k < 128, gives (256 + k) (match s.cur.h.stash.find? fun b => b.page == k with
        | some b => BitVec.ofNat 64 b.bank
        | none => BitVec.allOnes 64))
    ∧ ∀ n : Nat, n = 0x040 ∨ n = 0x04E → ∃ t, exec (.sget d (BitVec.ofNat 11 n)) s = .next t
        ∧ { s with free := s.free + 1 }.wrote t d (Config.freeValue s.free))
  ∧ ∀ (a : XReg) (s : State),
      let sets := fun (n : Nat) (t : State) => exec (.sset a (BitVec.ofNat 11 n)) s = .next t ∧ t.pc = s.pc + 4 ∧ t.cur.s.x = s.cur.s.x
        ∧ t.hbm = s.hbm ∧ t.teams = s.teams
      (∃ t, sets 0x000 t ∧ t.cur.ctl = { s.cur.ctl with dcol := (s.getX a).toNat % 8 } ∧ t.cur.l = s.cur.l ∧ t.dev = s.dev)
      ∧ ((s.cur.l.quiet fun t => t.flags) = true → ∃ t, sets 0x002 t
          ∧ t.cur.l = { s.cur.l with flagE := (s.getX a).getLsbD 0, flagO := (s.getX a).getLsbD 1, flagN := (s.getX a).getLsbD 2 }
          ∧ t.cur.ctl = s.cur.ctl ∧ t.dev = s.dev)
      ∧ (∀ k < 4, ∃ t, sets (8 + k) t ∧ t.cur.l = { s.cur.l with nf := s.cur.l.nf.set k (s.getX a) } ∧ t.cur.ctl = s.cur.ctl ∧ t.dev = s.dev)
      ∧ (s.cur.s.priv = true → ∃ t, sets 0x020 t
          ∧ (∀ k, Table.get defaultSlice t.dev.tslice k
              = if k = s.cur.id.tenant then (s.getX a).toNat % 2 ^ 32 else Table.get defaultSlice s.dev.tslice k)
          ∧ t.cur.l = s.cur.l ∧ t.cur.ctl = s.cur.ctl)

/-- R299, R300: `jtab` with a sound table and a matching landing pad goes to the pad; `lpad` and `nop` go on. -/
def Obligations.JumpTables : Prop :=
  (∀ (i x : XReg) (hdr ent w : Nat) (s s1 s2 s3 : State),
      scalarLoad { Access.load with priv := s.cur.s.priv } s.cur (s.getX x) 8 s = .ok hdr s1 → hdr / 2 ^ 53 = 0 → hdr % 2 ^ 32 ≠ 0 → hdr % 2 ^ 32 ≤ 65536 → (s.getX i).toNat < hdr % 2 ^ 32 →
      scalarLoad { Access.load with priv := s.cur.s.priv } s.cur (s.getX x + 8 + 4 * s.getX i) 4 s1 = .ok ent s2 →
      fetchScalar s.cur (s.cur.kern.scode + BitVec.ofNat 64 (4 * ent)) s2 = .ok w s3 →
      w = 0x23 * 2 ^ 26 + hdr / 2 ^ 32 % 2 ^ 21 →
      ∃ t, exec (.jtab i x) s = .next t ∧ s3.wentTo t (s.cur.kern.scode + BitVec.ofNat 64 (4 * ent)))
  ∧ ∀ (l : BitVec 21) (s : State), (∃ t, exec (.lpad l) s = .next t ∧ s.wentTo t (s.pc + 4))
      ∧ ∃ t, exec .nop s = .next t ∧ s.wentTo t (s.pc + 4)

/-! ## Service code, traps and halts -/

/-- R363, R364: `svc` enters the service whose entry the table gives, in the privileged mode; `eret` goes back to user mode; both wait
for the lane stream: with blocks outstanding they park until none is. -/
def Obligations.ServiceCalls : Prop :=
  (∀ (n : BitVec 16) (hdr e : Nat) (s s1 s2 : State), s.cur.s.priv = false → s.cur.l.outstanding = 0 →
      Ctx.svctab (s.context s.cur.id.ctx) ≠ 0 →
      loadPriv64 s.cur (BitVec.ofNat 64 (Ctx.svctab (s.context s.cur.id.ctx))) s = .ok hdr s1 → hdr / 2 ^ 17 = 0 → n.toNat < hdr % 2 ^ 16 →
      loadPriv64 s.cur (BitVec.ofNat 64 (Ctx.svctab (s.context s.cur.id.ctx) + 16 + 8 * n.toNat)) s1 = .ok e s2 → e ≠ 0 → e % 4 = 0 →
      exec (.svc n) s = .next (s2.withS fun c =>
        { c with srpc := c.pc + 4, priv := true, pc := BitVec.ofNat 64 e, phase := .none, counted := false }))
  ∧ (∀ s : State, s.cur.s.priv = true → s.cur.l.outstanding = 0 → s.cur.s.hook = none →
      exec .eret s = .next (s.withS fun c => { c with pc := c.srpc, priv := false, phase := .none, counted := false }))
  ∧ ∀ s : State, 0 < s.cur.l.outstanding →
      (∀ n : BitVec 16, s.cur.s.priv = false → exec (.svc n) s = .next (s.parkCur (.lanes 0)))
      ∧ (s.cur.s.priv = true → exec .eret s = .next (s.parkCur (.lanes 0)))

/-- R352, R354, R365, R366, R17: the words of a fault record of the scalar stream. `trap`, and in user mode the PRIVOP of an `eret`, a
`snap`, a `roll` or an `sset` of TSLICE, which then have no effect of their own, run the trap hook of a task whose context has one, in
the privileged mode: its Runnels, its loops and its version gone (no dirty sector and no update not yet numbered), the record in
FAULTREC and kept for the hook. Without debug `brk` does the same; with it, it halts the team.
The model's own choices and readings it rests on: log 49, 63. -/
def Obligations.FaultsAndHooks : Prop :=
  (∀ (t : Team) (r : TrapReq), r.src = 0 → r.pc = none → r.priv = none → r.code < 256 →
    (recordWords t r).length = 8
    ∧ bits ((recordWords t r).getD 0 0).toNat 56 8 = r.code ∧ bits ((recordWords t r).getD 0 0).toNat 54 2 = 0
    ∧ bits ((recordWords t r).getD 0 0).toNat 53 1 = (if r.recov then 1 else 0)
    ∧ bits ((recordWords t r).getD 0 0).toNat 0 32 = t.id.task % 2 ^ 32
    ∧ bits ((recordWords t r).getD 1 0).toNat 63 1 = (if t.s.priv then 1 else 0)
    ∧ bits ((recordWords t r).getD 1 0).toNat 0 57 = t.s.pc.toNat % 2 ^ 57
    ∧ (recordWords t r).drop 2 = [r.w2, r.w3, r.w4, r.w5, r.w6, 0])
  ∧ ((∀ (i : Instr) (code : Nat) (w2 : Word64) (s s1 s2 : State) (pc : Word64), s.cur.paired.role = 0 → s.cur.s.hook = none →
      (∃ c : BitVec 16, w2 = c.setWidth 64 ∧ (i = .trap c ∧ code = 0x04
        ∨ i = .brk c ∧ code = 0x05 ∧ Ctx.dbgen (s.context s.cur.id.ctx) = false))
      ∨ s.cur.s.priv = false ∧ code = 0x03 ∧ (encodeScalar i).map (BitVec.ofNat 64) = some w2
        ∧ (i = .eret ∨ (∃ d a, i = .snap d a) ∨ (∃ a b, i = .roll a b) ∨ ∃ a, i = .sset a 0x020) →
      fatalStop s.cur.uid (recordWords s.cur { noTrap with code := code, w2 := w2 }) s = .ok () s1 →
      findHook s1.cur s1 = .ok (.run pc) s2 → s1.cur.uid = s.cur.uid → s2.cur.uid = s.cur.uid →
      ∃ t, exec i s = .next t ∧ t.pc = pc ∧ t.cur.s.priv = true ∧ t.cur.status = .ready
        ∧ t.cur.s.hook = some { saved := recordWords s.cur { noTrap with code := code, w2 := w2 } }
        ∧ t.cur.faultrec = recordWords s.cur { noTrap with code := code, w2 := w2 }
        ∧ (∀ d ∈ (t.cluster s.cur.cluster).dirty, d.uid ≠ s.cur.uid)
        ∧ (∀ p ∈ (t.cluster s.cur.cluster).weir, p.uid = s.cur.uid → p.pub ≠ none)
        ∧ (∀ q ∈ (t.core s.cur.core).runnels, q.uid ≠ s.cur.uid) ∧ (∀ q ∈ (t.cluster s.cur.cluster).loops, q.uid ≠ s.cur.uid)
        ∧ t.cur.l.queue = [] ∧ t.cur.l.run = none ∧ t.cur.dbg.halted = false ∧ t.cur.dbg.haltReq = false
        ∧ t.hbm = s2.hbm ∧ t.teams = s2.teams)
  ∧ ∀ (c : BitVec 16) (s : State), Ctx.dbgen (s.context s.cur.id.ctx) = true →
      ∃ t, exec (.brk c) s = .next t ∧ t.cur.dbg.halted = true ∧ t.cur.dbg.reason = 4 ∧ t.cur.dbg.brk = c.toNat
        ∧ t.cur.status = .waiting ∧ t.cur.s = s.cur.s ∧ t.hbm = s.hbm ∧ t.teams = s.teams)

/-! ## The life of a team -/

/-- R310, R324, R338: `yield` moves on and holds the team back; YIELD_END lets it compete as the youngest; TEAM_PROMOTION
promotes a team that may issue; WAIT_SATISFIED makes a waiting team Ready. Nothing else of the team changes.
The model's own choices and readings it rests on: log 1, 2. -/
def Obligations.TeamTurns : Prop :=
  (∀ s : State, exec .yield s = .next { s.advance with cur := { s.advance.cur with yielding := true } })
  ∧ ∀ (uid : Nat) (s : State) (u : Team), s.team? uid = some u →
      (u.yielding = true → ∃ t, exec (.yieldEnd uid) s = .next t
        ∧ t.team? uid = some { u with yielding := false, age := s.stamp } ∧ t.hbm = s.hbm)
      ∧ (u.mayIssue = true → u.promoted = 0 → ∃ t, exec (.teamPromotion uid false) s = .next t
        ∧ t.team? uid = some { u with promoted := s.stamp } ∧ t.hbm = s.hbm)
      ∧ (u.mayLane = true → u.l.stall = none → u.lanePromoted = 0 → ∃ t, exec (.teamPromotion uid true) s = .next t
        ∧ t.team? uid = some { u with lanePromoted := s.stamp } ∧ t.hbm = s.hbm)
      ∧ (u.status = .waiting → u.dbg.halted = false → u.rfault = none → s.waitHolds u = true → ∃ t, exec (.waitSatisfied uid) s = .next t
        ∧ t.team? uid = some { u with status := .ready, waits := none } ∧ t.hbm = s.hbm)

/-- R325, R312: once the release of `exit` or of `freeze` has committed, a drained team whose engines have ended is gone; its
launch counts an exit, and a launch template's `freeze.clus` opens the clusters of its stage.
The model's own choices and readings it rests on: log 37. -/
def Obligations.TeamEnds : Prop :=
  ∀ (s : State) (psn : Nat), s.cur.drained → timelinesDone s.cur = true → runnelsDone s s.cur = true →
    s.cur.s.phase = .published psn → psn ≤ s.commitPoint →
    (∀ c : BitVec 16, ∃ t, exec (.exit c) s = .next t ∧ t.cur = Team.vacant ∧ t.teams = s.teams ∧ t.hbm = s.hbm
      ∧ ∀ l, s.launch? s.cur.id.launch = some l → s.cur.ctl.level = 0 → s.cur.paired.role = 0 → s.cur.id.stage < l.stages.length →
        ∃ l', t.launch? s.cur.id.launch = some l'
          ∧ (l'.stage s.cur.id.stage).ended = (l.stage s.cur.id.stage).ended + 1
          ∧ l'.nonzero = l.nonzero + (if c = 0 then 0 else 1) ∧ l'.failed = l.failed)
    ∧ (∀ k : BitVec 2, s.cur.ctl.level = 2 ∧ (k = 2 ∨ k = 0) ∨ s.cur.ctl.level = 1 ∧ k = 1 →
      ∃ t, exec (.freeze k) s = .next t ∧ t.cur = Team.vacant ∧ t.teams = s.teams ∧ t.hbm = s.hbm
        ∧ ∀ l, s.launch? s.cur.id.launch = some l → s.cur.id.stage < l.stages.length →
          ∃ l', t.launch? s.cur.id.launch = some l'
            ∧ (k = 2 → (l'.stage s.cur.id.stage).top = 1 ∧ (l'.stage s.cur.id.stage).opening = (l.stage s.cur.id.stage).clusters)
            ∧ (k = 0 → (l'.stage s.cur.id.stage).top = 2))

/-- R320, R321: a barrier of scope team moves on once the team is drained; one of scope cluster or placement moves on, and
acquires, once its generation is complete. BARRIER_GENERATION_COMPLETE makes a waiting participant Ready.
The model's own choices and readings it rests on: log 24, 37. -/
def Obligations.Barriers : Prop :=
  (∀ (i : BitVec 4) (s : State), s.cur.drained → timelinesDone s.cur = true → ∃ t, exec (.bar i 0) s = .next t ∧ s.wentTo t (s.pc + 4))
  ∧ (∀ (i : BitVec 4) (g : Nat) (s : State), s.cur.ctl.level = 0 → s.cur.ctl.gang = true →
      s.cur.s.phase = .arrived (16 + i.toNat) g → s.barrierDone s.cur (16 + i.toNat) g = true →
      ∃ t, exec (.bar i 1) s = .next t ∧ t.pc = s.pc + 4 ∧ t.cur.clAcq = s.stamp ∧ t.clusters = s.clusters ∧ t.hbm = s.hbm)
  ∧ (∀ (i : BitVec 4) (g : Nat) (s : State), s.cur.ctl.level = 0 → s.cur.ctl.gang = true →
      s.cur.s.phase = .arrived (32 + i.toNat) g → s.barrierDone s.cur (32 + i.toNat) g = true →
      s.commitPoint ≤ (s.cluster s.cur.cluster).noticed →
      ∃ t, exec (.bar i 2) s = .next t ∧ t.pc = s.pc + 4 ∧ (t.cluster s.cur.cluster).acqPsn = s.commitPoint ∧ t.hbm = s.hbm)
  ∧ ∀ (uid : Nat) (s : State) (u : Team), s.team? uid = some u → u.status = .waiting → u.ctl.level = 0 → u.dbg.halted = false →
      s.barrierOpen u = true → (∀ v ∈ s.allTeams, v.waits = some .barrier → v.rfault = none) →
      ∃ t, exec (.barrierGenerationComplete uid) s = .next t ∧ t.team? uid = some { u with status := .ready, waits := none }
        ∧ t.hbm = s.hbm

/-- R323, R96: `qput` of an instance whose release has committed appends its entry to a queue with room, in way 15 of a cluster of the
next stage, and writes 0, and finds a full one with 1, or waits and runs again from its start; `qget` stores the oldest entry and takes it out; from a
closed empty queue it writes 2, and from one that may still be filled writes 1 or waits; once its entry is stored it writes 0.
The model's own choices and readings it rests on: log 37, 64, 129. -/
def Obligations.StageQueues : Prop :=
  (∀ (d a : XReg) (b : BitVec 1) (e : BitVec 512) (psn : Nat) (l : Launch) (q : StageQueue) (s u s1 : State),
      s.cur.ctl.level = 0 → s.launch? s.cur.id.launch = some l → s.cur.id.stage + 1 < l.nstage → (s.getX a).toNat % 64 = 0 →
      s.cur.s.phase = .published psn → psn ≤ s.commitPoint → u = s.withS (fun c => { c with phase := .released }) →
      loadEntry u.cur (s.getX a) u = .ok e s1 → s1.queue? s.cur s.cur.id.stage = some q →
      (∀ cl, q.entries.length < q.cap → s1.queuePlace s.cur = some cl → ∃ t, exec (.qput d a b) s = .next t
        ∧ t.queue? s.cur s.cur.id.stage = some { q with entries := q.entries ++ [e], places := q.places ++ [cl] }
        ∧ (∃ l', s1.launch? s.cur.id.launch = some l' ∧ cl ∈ (l'.stage (s.cur.id.stage + 1)).clusters)
        ∧ wayEntries s1.launches cl < s1.wayRoom cl ∧ t.getX d = 0 ∧ t.pc = s1.pc + 4 ∧ t.hbm = s1.hbm)
      ∧ (q.cap ≤ q.entries.length ∨ s1.queuePlace s.cur = none → b = 1 → ∃ t, exec (.qput d a b) s = .next t ∧ s1.wrote t d 1)
      ∧ (q.cap ≤ q.entries.length ∨ s1.queuePlace s.cur = none → b = 0 → s1.cur.uid = s.cur.uid →
        exec (.qput d a b) s = .next ((s1.withS fun c => { c with phase := .none }).parkCur .queue)))
  ∧ ∀ (d a : XReg) (b : BitVec 1) (q : StageQueue) (s : State), s.cur.ctl.level = 0 → s.cur.id.stage ≠ 0 → (s.getX a).toNat % 64 = 0 →
      (s.cur.s.phase = .none → s.queue? s.cur (s.cur.id.stage - 1) = some q → q.entries = [] →
        (s.queueClosed s.cur (s.cur.id.stage - 1) = true → ∃ t, exec (.qget d a b) s = .next t ∧ s.wrote t d 2)
        ∧ (s.queueClosed s.cur (s.cur.id.stage - 1) = false → b = 1 → ∃ t, exec (.qget d a b) s = .next t ∧ s.wrote t d 1)
        ∧ (s.queueClosed s.cur (s.cur.id.stage - 1) = false → b = 0 → exec (.qget d a b) s = .next (s.parkCur .queue)))
      ∧ (∀ (e : BitVec 512) (r : List (BitVec 512)) (s1 : State), s.cur.s.phase = .none → s.queue? s.cur (s.cur.id.stage - 1) = some q →
        q.entries = e :: r → storeEntry s.cur (s.getX a) e s = .ok () s1 → s1.queue? s.cur (s.cur.id.stage - 1) = some q →
        s1.cur.uid = s.cur.uid → s1.cur.id = s.cur.id → s1.cur.drained → s1.commitPoint ≤ (s1.cluster s1.cur.cluster).noticed →
        ∃ t, exec (.qget d a b) s = .next t ∧ t.queue? s.cur (s.cur.id.stage - 1) = some { q with entries := r, places := q.places.drop 1 }
          ∧ t.getX d = 0 ∧ t.pc = s1.pc + 4 ∧ t.hbm = s1.hbm)
      ∧ (s.cur.s.phase = .queued → s.cur.drained → s.commitPoint ≤ (s.cluster s.cur.cluster).noticed →
        ∃ t, exec (.qget d a b) s = .next t ∧ t.getX d = 0 ∧ t.pc = s.pc + 4
          ∧ (t.cluster s.cur.cluster).acqPsn = s.commitPoint ∧ t.hbm = s.hbm)

/-! ## Templates, launches, the dispatcher -/

/-- R313, R337: a copy of a template's image reaches a core, where a cluster's template team then starts; a qualifying core
receives the lowest unstamped instance; a rebalance moves the highest core of a stage whose queue is full to the next.
The model's own choices and readings it rests on: log 2, 55. -/
def Obligations.Spreading : Prop :=
  (∀ (image core : Nat) (i : Image) (l : Launch) (s s1 : State), s.image? image = some i → s.launch? i.launch = some l → core < 192 →
      l.status = .running → i.level = 1 → (l.stage i.stage).cores.contains core = true → s.copyOn i.id core = none →
      (l.stage i.stage).next < l.total → (s.imageFor l.id i.stage core).map (·.id) = some i.id → 0 < s.freeSlots core →
      s.regionsFit i core = true →
      (spreadTo i core s = .ok () s1 → exec (.templateSpreadCopy image core) s = .next s1)
      ∧ (s.maySpread i core → ∃ t banks, exec (.templateSpreadCopy image core) s = .next t ∧ banks.length = i.banks.length
        ∧ t.copies = s.copies ++ [{ image := i.id, core := core, banks := banks }]
        ∧ t.cur = s.cur ∧ t.teams = s.teams ∧ t.hbm = s.hbm ∧ ∀ c, c ≠ core → t.core c = s.core c))
  ∧ (∀ (image core uid : Nat) (i : Image) (l : Launch) (s s1 s2 : State), s.image? image = some i → s.launch? i.launch = some l →
      core < 192 → l.status = .running → i.level = 2 → (l.stage i.stage).opening.contains (core / 4) = true →
      s.levelOneCore i (core / 4) = some core →
      (∀ t ∈ s.allTeams, t.id.launch = l.id → t.id.stage = i.stage → t.ctl.level = 1 → t.status ≠ .ended → t.cluster ≠ core / 4) →
      spreadTo i core s = .ok () s1 → startChild l i core (levelOneTask (core / 4)) 1 Paired.init s1 = .ok uid s2 →
      exec (.templateSpreadCopy image core) s = .next s2)
  ∧ (∀ (launch core k inst : Nat) (bar : List Nat) (i : Image) (l : Launch) (s : State), s.launch? launch = some l →
      l.status = .running → l.gang = false → l.paired = false →
      (List.range l.nstage).find? (fun k => (l.stage k).cores.contains core) = some k → l.nextInstance k = some (inst, bar) →
      s.stampCore l k (l.coresFor k bar) = some core → s.imageFor l.id k core = some i →
      s.commitPoint ≤ (s.cluster (core / 4)).noticed →
      ∃ t uid s1 u, exec (.instanceStamp launch core) s = .next t ∧ startChild l i core inst 0 Paired.init s = .ok uid s1
        ∧ u ∈ t.teams ∧ u.uid = s.stamp ∧ u.status = .ready ∧ u.image = some i.id ∧ u.id.inst = inst ∧ u.id.core = core
        ∧ u.s.x = i.x ∧ u.s.pc = i.pc ∧ t.teams = s1.teams ∧ t.cur = s1.cur ∧ t.hbm = s1.hbm
        ∧ t.launches = s1.launches.map (fun m => if m.id = launch then m.onStage k fun g =>
            if g.again.any fun a => a.1 == inst then { g with again := g.again.filter fun a => a.1 != inst }
            else { g with next := inst + 1 } else m))
  ∧ ∀ (launch c : Nat) (q : StageQueue) (l : Launch) (s : State), s.launch? launch = some l → l.status = .running → l.gang = false →
      l.stopping = false →
      l.nstage = 2 → l.stages.length = 2 → l.queues[0]? = some q → 3 * q.cap ≤ 4 * q.entries.length → (l.stage 1).next < l.total →
      2 ≤ (l.stage 0).cores.length → c ∈ (l.stage 0).cores → (∀ x ∈ (l.stage 0).cores, x ≤ c ∧ s.inService x = true) →
      ∃ t l', exec (.stageRebalance launch) s = .next t ∧ t.launch? launch = some l'
        ∧ (l'.stage 0).cores = (l.stage 0).cores.filter (fun x => x != c) ∧ (l'.stage 1).cores = (l.stage 1).cores ++ [c]
        ∧ t.hbm = s.hbm ∧ t.cur = s.cur ∧ t.teams = s.teams

/-- R328, R330, R332, R333: a sealed slot is copied and freed; a launch whose record fails a check is refused with its reason, and a
sound one waits; once its dependences are met it is Ready.
The model's own choices and readings it rests on: log 65, 66. -/
def Obligations.LaunchQueue : Prop :=
  (∀ (tenant queue : Nat) (r : Ring) (s : State), s.dev.enable = true → tenant < 16 → queue < 8 →
      Table.get Ring.init s.dev.rings (8 * tenant + queue) = r → r.slots ≠ 0 →
      s.host.read (r.base + 128 * r.next + 127) = (if r.lap % 2 = 0 then 0x80 else 0x81) → s.launches.length < 256 →
      (s.inQueue tenant queue).length < 8 →
      ∃ t, exec (.sealObserved tenant queue) s = .next t ∧ t.host.read (r.base + 128 * r.next + 127) = 0
        ∧ t.launches = s.launches ++ [Launch.fresh s.stamp tenant queue r.next (BitVec.ofNat 1024 (s.host.readN (r.base + 128 * r.next) 128))]
        ∧ Table.get Ring.init t.dev.rings (8 * tenant + queue) =
            (if r.next + 1 = r.slots then { r with next := 0, lap := r.lap + 1 } else { r with next := r.next + 1 })
        ∧ (∀ a, a ≠ r.base + 128 * r.next + 127 → t.host.read a = s.host.read a) ∧ t.hbm = s.hbm)
  ∧ (∀ (id : Nat) (l : Launch) (s : State), s.launch? id = some l → l.status = .sealed_ →
      (∀ o ∈ s.inQueue l.tenant l.queue, o.status = .sealed_ → l.id ≤ o.id) →
      (∀ reason, (l.badRecord = true ∧ reason = 1 ∨ l.badRecord = false ∧ s.badOwner l = true ∧ reason = 2) →
        ∃ t l', exec (.launchParse id) s = .next t ∧ t.launch? id = some l' ∧ l'.status = .completing ∧ l'.code = 1
          ∧ l'.reason = reason ∧ t.hbm = s.hbm)
      ∧ (∀ (k : BitVec 1024) (s1 : State), l.badRecord = false → s.badOwner l = false → readKernel l s = .ok (some k) s1 →
        s1.launch? id = some l → ({ l with kdesc := k } : Launch).badKernel = false → ({ l with kdesc := k } : Launch).shapeReason = 0 →
        Ctx.term (s.context l.ctx) = false →
        ∃ t, exec (.launchParse id) s = .next t ∧ t.launch? id = some { l with kdesc := k, status := .waiting } ∧ t.hbm = s1.hbm))
  ∧ ∀ (id : Nat) (l : Launch) (s : State), s.launch? id = some l → l.status = .waiting → s.oldestWaiting l = true →
      s.depMet l 0 = true → s.depMet l 1 = true →
      ∃ t, exec (.dependenceSatisfied id) s = .next t ∧ t.launch? id = some { l with dep0 := true, dep1 := true, status := .ready }
        ∧ t.hbm = s.hbm ∧ t.cur = s.cur

/-- R335, R334, R339: a Ready launch that no other goes before is placed at its candidate, its stages' first teams where their plans
say; a swapped one is restored at one; a
slice that runs out while a team is halted, or while the save pool has no room, is held; where the teams have to come to a boundary, they
stop; else they are saved and the launch is swapped out. A launch whose summary has committed is gone.
The model's own choices and readings it rests on: log 66, 68, 70, 128, 129. -/
def Obligations.LaunchRun : Prop :=
  (∀ (id o : Nat) (l : Launch) (s s1 : State), s.launch? id = some l → l.status = .ready → s.servedBefore l = false →
      s.candidate l = some o →
      (placeAt l o s = .ok () s1 → exec (.launchPlace id) s = .next s1)
      ∧ ∀ (cl : Nat) (p : TopPlan), l.nstage = 1 → cl = ((l.dealt o).getD 0 []).headD 0 → s.topPlan l cl = some p →
        s.commitPoint ≤ (s.cluster (p.core / 4)).noticed →
        ∃ t u l', exec (.launchPlace id) s = .next t ∧ t.launch? id = some l' ∧ l'.status = .running ∧ l'.placed = true ∧ l'.origin = o
          ∧ u ∈ t.teams ∧ u.uid = s.stamp ∧ u.status = .ready ∧ u.ctl.level = 2 ∧ u.id.launch = l.id ∧ u.id.core = p.core
          ∧ u.id.slot = p.slot ∧ u.h.privBase = some p.priv ∧ u.s.pc = l.kernelMap.scode + BitVec.ofNat 64 (4 * l.stent 0)
          ∧ t.core p.core = p.taken l s.stamp (s.core p.core) ∧ t.hbm = s.hbm)
  ∧ (∀ (id o : Nat) (l : Launch) (s : State), s.launch? id = some l → l.status = .swapped → s.servedBefore l = false →
      s.candidate l = some o →
      (s.queuesFit l o = true →
        ∃ t l', exec (.launchRestore id) s = .next t ∧ t.launch? id = some l' ∧ l'.status = .running ∧ l'.origin = o ∧ l'.placed = true
          ∧ t.hbm = s.hbm)
      ∧ (s.queuesFit l o = false → exec (.launchRestore id) s = .next s))
  ∧ (∀ (id : Nat) (l : Launch) (s s1 : State), s.launch? id = some l → l.status = .running → l.preempt = true →
      l.held = false → l.stopping = false → s.sliceRuns l = true →
      ((s.anyHalted id = true ∨ ∃ s2, preempt id s = .error (.wait .save) s2) →
        ∃ t, exec (.sliceExpiry id) s = .next t ∧ t.launch? id = some { l with held := true } ∧ t.cur = s.cur ∧ t.hbm = s.hbm)
      ∧ (s.anyHalted id = false → preempt id s = .ok () s1 → exec (.sliceExpiry id) s = .next s1)
      ∧ (∀ w s2, s.anyHalted id = false → preempt id s = .error (.wait w) s2 → w ≠ .save →
        ∃ t, exec (.sliceExpiry id) s = .next t ∧ t.launch? id = some { l with held := true, stopping := true } ∧ t.cur = s.cur ∧ t.hbm = s.hbm)
      ∧ ∀ t : Team, s.anyHalted id = false → (s.allTeams.filter fun t => t.resident && t.id.launch == id) = [t] → s.maySave t →
        t.s.phase.isPublished = false →
        -- the fault queue's next entry lies beyond the address space: its store is dropped
        2 ^ 57 ≤ (BitVec.ofNat 64 (Ctx.fqbase (s.context l.ctx)
          + 64 * ((Table.get 0 s.dev.fqSeq l.ctx + 1) % 2 ^ 32 % 2 ^ Ctx.fqlog2 (s.context l.ctx)))).toNat →
        ∃ s2 l' t', exec (.sliceExpiry id) s = .next s2 ∧ s2.launch? id = some l' ∧ l'.status = .swapped ∧ l'.placed = false
          ∧ s2.team? t.uid = some t' ∧ t'.status = .swapped ∧ t'.cause = some .preempted ∧ t'.saved = some (s.savedOf t) ∧ s2.hbm = s.hbm)
  ∧ (∀ (id n : Nat) (l : Launch) (s : State), s.launch? id = some l → l.bound = some n → n ≤ s.commitPoint →
      (∀ o ∈ s.dev.owed, o.ctx ≠ l.ctx) →
      ∃ t, exec (.launchComplete id) s = .next t ∧ t.launch? id = none ∧ t.hbm = s.hbm
        ∧ (l.hasCctr = true → s.ownsCounter l.tenant l.cctr = true → t.counter l.cctr = s.counter l.cctr + 1))
  ∧ ∀ (id : Nat) (l : Launch) (s : State), s.launch? id = some l → l.bound = none → l.status = .completing → l.caddr = 0 →
      (l.code = 4 → (∀ h ∈ s.slices, h.2.paused = false) ∧ ∀ c ∈ s.clusters, c.2.paused = false) →
      ∃ t, exec (.launchComplete id) s = .next t ∧ t.launch? id = some { l with bound := some (s.psnNext - 1) } ∧ t.hbm = s.hbm

/-! ## Teams that were stopped -/

/-- R62, R102, R356, R357: what a swapped team waits for comes, and it is in the dispatcher again; there it is restored to a core;
a team that stalls for want of a bank is swapped out with BASINEXH in FAULTREC. RESUME sends a team on or ends it.
The model's own choices and readings it rests on: log 3, 68, 86. -/
def Obligations.StoppedTeams : Prop :=
  (∀ (uid : Nat) (t : Team) (s : State), s.team? uid = some t → t.status = .swapped →
      (t.cause = some .spill → 4096 + (s.cluster t.cluster).inSpill ≤ spillCap →
        ∃ s', exec (.spillWaitEnd uid) s = .next s' ∧ s'.team? uid = some { t with cause := none } ∧ s'.hbm = s.hbm)
      ∧ (∀ n, t.cause = some (.basin n none) → n ≤ (s.core t.core).freeBanks.length →
        ∃ s', exec (.teamRedispatch uid) s = .next s' ∧ s'.team? uid = some { t with cause := none } ∧ s'.hbm = s.hbm)
      ∧ (∀ s', t.cause = none → s.placedTeam t = true → restoreTeam uid t.core s = .ok () s' → exec (.teamRestore uid) s = .next s')
      ∧ (∀ v, t.cause = none → s.placedTeam t = true → t.saved = some v → s.mayRestore t v t.core →
        ∃ s' t', exec (.teamRestore uid) s = .next s' ∧ s'.team? uid = some t' ∧ t'.saved = none ∧ t'.id.core = t.core
          ∧ t'.status = (if t.waits.isSome || t.dbg.halted then .waiting else .ready) ∧ t'.s = t.s ∧ s'.hbm = s.hbm))
  ∧ (∀ (uid : Nat) (t : Team) (r : TrapReq) (s s' : State), s.team? uid = some t → t.basinStall = true →
      (s.core t.core).freeBanks = [] →
      r = { noTrap with code := 0x0C, src := if t.l.stall = some .basin then 1 else 0, recov := true, w2 := 1 } →
      (swapOut uid (.basin 1 none) (s.onTeamId uid fun u =>
          { u with status := .ready, waits := none, rfault := none, faultrec := recordWords u r }) = .ok () s' →
        exec (.basinStallTimeout uid) s = .next s')
      ∧ (s.maySave t → ∃ s1 t', exec (.basinStallTimeout uid) s = .next s1 ∧ s1.team? uid = some t' ∧ t'.status = .swapped
        ∧ t'.cause = some (.basin 1 none) ∧ t'.saved = some (s.savedOf t) ∧ t'.faultrec = recordWords t r ∧ s1.hbm = s.hbm))
  ∧ (∀ (tenant ctx seq : Nat) (t : Team) (s : State), Ctx.tenant (s.context ctx) = tenant → s.notPresent ctx seq = some t →
      s.team? t.uid = some t →
      (∃ s', exec (.resumeContinue tenant ctx seq) s = .next s' ∧ s'.team? t.uid = some { t with cause := none } ∧ s'.hbm = s.hbm)
      ∧ (s.placedTeam t = false →
        ∃ s', exec (.resumeKill tenant ctx seq) s = .next s' ∧ s'.team? t.uid = some { t with cause := some .kill } ∧ s'.hbm = s.hbm))
  ∧ ∀ (tenant ctx seq : Nat) (s : State), Ctx.tenant (s.context ctx) ≠ tenant ∨ s.notPresent ctx seq = none →
      exec (.resumeContinue tenant ctx seq) s = .next s ∧ exec (.resumeKill tenant ctx seq) s = .next s

/-- R369: a debug halt takes effect at once on a team at a boundary; a resume lets it go on where it stood; a step lets it run one
scalar word, and one pass of a block that runs.
The model's own choices and readings it rests on: log 49. -/
def Obligations.DebugCommands : Prop :=
  ∀ (core slot : Nat) (t : Team) (s : State), s.teamIn core slot = some t → s.team? t.uid = some t →
    (t.dbg.halted = false → t.atBoundary = true → ∃ s' t', exec (.dbgHalt core slot) s = .next s' ∧ s'.team? t.uid = some t'
      ∧ t'.dbg.halted = true ∧ bitAt t'.dbg.reason 0 = true ∧ t'.status = .waiting ∧ t'.s = t.s ∧ t'.l = t.l ∧ s'.hbm = s.hbm)
    ∧ (t.dbg.halted = true → t.dbg.reason = 1 → t.dbg.pendf = none → t.dbg.haltReq = false →
      (∃ s' t', exec (.dbgResume core slot) s = .next s' ∧ s'.team? t.uid = some t' ∧ t'.dbg.halted = false
        ∧ t'.status = (if t.waits.isSome then .waiting else .ready) ∧ t'.s = t.s ∧ t'.l = t.l ∧ t'.dbg.stepping = false
        ∧ s'.hbm = s.hbm)
      ∧ ∃ s' t', exec (.dbgStep core slot) s = .next s' ∧ s'.team? t.uid = some t' ∧ t'.dbg.halted = false
        ∧ t'.dbg.stepping = true ∧ t'.dbg.stepS = true ∧ t'.dbg.stepL = t.l.run.isSome ∧ t'.s = t.s ∧ t'.l = t.l ∧ s'.hbm = s.hbm)

/-! ## The upkeep of the logs -/

/-- R51, R70, R72, R73: a segment is sealed by its timeout; a Skimmer with room for its appends retires a segment whose live sectors
it has moved; with the last acknowledgement the segment is free; the oldest stalled append resumes; SPACEALARM is raised on vector 1;
a cluster's stale-read counts join STALECNT.
The model's own choices and readings it rests on: log 73. -/
def Obligations.LogUpkeep : Prop :=
  (∀ (log f : Nat) (s : State), (s.log log).seg = some f → 0 < (s.log log).off →
      ∃ t, exec (.segmentSealTimeout log) s = .next t ∧ (Table.get Segment.dflt t.segs f).sealed = true ∧ (t.log log).seg = none
        ∧ t.hbm = s.hbm ∧ t.cur = s.cur)
  ∧ (∀ (seg : Nat) (mine : List (Nat × Nat × BitVec 128)) (s s1 : State), s.goesFirst seg = true →
      mine = s.liveEntries.filter (fun g => s.sectorsIn g.2.2 seg != [] || mapIn g.2.2 seg) →
      (∀ g ∈ mine, s.locked g.1 g.2.1 = false) → s.malformedEntries = [] →
      (mine.forM (fun g => moveGranule (seg / segsPerStack) seg g.1 g.2.1 g.2.2) s = .ok () s1 →
        ∃ t, exec (.skimmerCompact seg) s = .next t ∧ (Table.get Segment.dflt t.segs seg).retiring = some 0 ∧ t.hbm = s1.hbm)
      ∧ (s.nodeRoom mine.length → 3933 + 2 * mine.length ≤ s.freeSegs →
        ∃ t, exec (.skimmerCompact seg) s = .next t ∧ (Table.get Segment.dflt t.segs seg).retiring = some 0))
  ∧ (∀ (seg cl m : Nat) (s : State), (Table.get Segment.dflt s.segs seg).retiring = some m → cl < 48 → bitAt m cl = false →
      ∃ t, exec (.retireNotice seg cl) s = .next t
        ∧ (t.cluster cl).ixb = (s.cluster cl).ixb.filter (fun x => !(s.entrySegs x.entry).contains seg)
        ∧ (m ||| 2 ^ cl ≠ 2 ^ 48 - 1 → (Table.get Segment.dflt t.segs seg).retiring = some (m ||| 2 ^ cl))
        ∧ (m ||| 2 ^ cl = 2 ^ 48 - 1 → t.segs = s.segs.erase seg)
        ∧ t.hbm = s.hbm)
  ∧ (∀ (t : Team) (s : State), s.resumeNext = some (.team t.uid) → s.team? t.uid = some t → t.rfault = none →
      ∃ s', exec .appendResume s = .next s' ∧ s'.team? t.uid = some { t with status := .ready, waits := none } ∧ s'.hbm = s.hbm)
  ∧ (∀ (x : Staller) (rest : List Staller) (s : State), s.stallers = x :: rest → s.mayAppend (s.stallerLog x) = true → s.resumeNext = some x)
  ∧ (∀ s : State, s.dev.spaceAlarm = false → s.appendsStall = true →
      ∃ t, exec .spacealarm s = .next t ∧ t.dev = { s.dev.raise 0 1 with spaceAlarm := true } ∧ t = s.onDev fun _ => t.dev)
  ∧ ∀ (cl w n : Nat) (s : State), cl < 48 →
      (s.cluster cl).stale = [(w, n)] →
      ∃ t, exec (.stalecntFlush cl) s = .next t ∧ (t.cluster cl).stale = []
        ∧ t.window w = setDescWord (s.window w) 6 (Win.staleCnt (s.window w) + n) ∧ t.hbm = s.hbm

/-! ## The host -/

/-- R395, R396: a host read of logged memory answers the newest committed data, or poison, and a refused one counts; a write joins
the open batch, whole lines and parts of them, and a refused one counts; the batch closes as one publication.
The model's own choices and readings it rests on: log 34, 80, 95. -/
def Obligations.HostAccess : Prop :=
  (∀ (hpa : Nat) (s : State), s.hostWindow hpa false = none →
      ∃ t, exec (.cxlMemRead hpa) s = .next t ∧ t.dev.sent = s.dev.sent ++ [.readData hpa 0 true]
        ∧ t.dev.hostRefuse = (s.dev.hostRefuse + 1) % 2 ^ 64 ∧ t = s.onDev fun _ => t.dev)
  ∧ (∀ (hpa w la : Nat) (e : BitVec 128) (s : State), s.hostWindow hpa false = some (w, la) → s.locked w (la / 1024) = false →
      s.granEntry (s.window w) (la / 1024) = some e →
      (∀ i < 2, s.resolve e (la / 32 % 32 + i) ≠ .bad) →
      ∃ a b t, exec (.cxlMemRead hpa) s = .next t
        ∧ (∀ d i, (i, d) ∈ [(0, a), (1, b)] →
            (s.resolve e (la / 32 % 32 + i) = .none → d = unwritten)
            ∧ ∀ p, s.resolve e (la / 32 % 32 + i) = .at_ p → d.data = (s.sectorAt p (la / 32 + i)).data
              ∧ ((s.slice (sliceOfGran (la / 1024))).hit (.log w (p / 4)) (p % 4) = none → d = s.sectorAt p (la / 32 + i)))
        ∧ t.dev.sent = s.dev.sent ++
          [.readData hpa (BitVec.ofNat 512 (a.data.toNat + 2 ^ 256 * b.data.toNat)) (a.poison || b.poison)]
        ∧ t.hbm = s.hbm ∧ t.host = s.host ∧ t.windows = s.windows ∧ t.cur = s.cur ∧ t.teams = s.teams ∧ t.pubs = s.pubs)
  ∧ (∀ (hpa : Nat) (data : BitVec 512) (be : BitVec 64) (p : Bool) (s : State), s.hostWindow hpa true = none →
      ∃ t, exec (.cxlMemWrite hpa data be p) s = .next t ∧ t.dev.hostRefuse = (s.dev.hostRefuse + 1) % 2 ^ 64
        ∧ t = s.onDev fun _ => t.dev)
  ∧ (∀ (hpa w la : Nat) (data : BitVec 512) (p : Bool) (s : State), s.hostWindow hpa true = some (w, la) → s.dev.batch.length < 200 →
      ∃ t, exec (.cxlMemWrite hpa data (BitVec.allOnes 64) p) s = .next t
        ∧ (t.dev.batch.find? fun d => d.win == w && d.sec == la / 32) = some ⟨w, la / 32, data.extractLsb' 0 256, p⟩
        ∧ (t.dev.batch.find? fun d => d.win == w && d.sec == la / 32 + 1) = some ⟨w, la / 32 + 1, data.extractLsb' 256 256, p⟩
        ∧ t.dev.batchLines = s.dev.batchLines ++ [hpa] ∧ t.hbm = s.hbm ∧ t.psnNext = s.psnNext)
  ∧ (∀ (hpa w la : Nat) (data : BitVec 512) (be : BitVec 64) (p : Bool) (d : SectorData) (s : State),
      s.hostWindow hpa true = some (w, la) → s.dev.batch.length < 200 →
      halfEnables be 1 = 0 → 0 < halfEnables be 0 → halfEnables be 0 < 2 ^ 32 - 1 →
      (s.dev.batch.find? fun d => d.win == w && d.sec == la / 32) = some d →
      ∃ t, exec (.cxlMemWrite hpa data be p) s = .next t
        ∧ (t.dev.batch.find? fun d => d.win == w && d.sec == la / 32)
          = some ⟨w, la / 32, mergeEnabled d.data (data.extractLsb' 0 256) (halfEnables be 0), d.poison || p⟩
        ∧ t.dev.batchLines = s.dev.batchLines ++ [hpa] ∧ t.hbm = s.hbm ∧ t.psnNext = s.psnNext)
  ∧ (∀ s : State, s.dev.batchLines ≠ [] → s.mayResume .host = true →
      ∃ share s1 t, appendSectors 124 s.dev.batch (s.unstall .host) = .ok share s1 ∧ exec .hostBatchClose s = .next t
        ∧ t.psnNext = s.psnNext + 1 ∧ t.dev.batch = [] ∧ t.dev.batchLines = []
        ∧ t.dev.batches = s.dev.batches ++ [{ psn := s.psnNext, lines := s.dev.batchLines }]
        ∧ t.pubs = s.pubs ++ [{ psn := s.psnNext, who := .host, share := share, data := [], prepared := 0, heldSent := 0
                                committed := false, noticed := 0 }] ∧ t.hbm = s1.hbm ∧ t.segs = s1.segs)
  ∧ ∀ s : State, s.dev.batchLines ≠ [] → s.mayResume .host = false → exec .hostBatchClose s = .next (s.stall .host)

/-- R397, R419, R418, R369: a vector unmasked with a pending message sends it; a write of a management register in its range is
kept, one outside is ignored, and so is a DBGCTL with a non-zero checked field; ENABLE follows what is written to it.
The model's own choices and readings it rests on: log 98. -/
def Obligations.HostRegisters : Prop :=
  (∀ (fn vec : Nat) (s : State), (fn, vec) ∈ s.dev.pending →
      ∃ t, exec (.msixUnmask fn vec) s = .next t ∧ t.dev.sent = s.dev.sent ++ [.msix fn vec] ∧ (fn, vec) ∉ t.dev.masked
        ∧ (fn, vec) ∉ t.dev.pending ∧ t = s.onDev fun _ => t.dev)
  ∧ (∀ (fn vec : Nat) (s : State), (fn, vec) ∉ s.dev.pending →
      exec (.msixUnmask fn vec) s = .next (s.onDev fun d => { d with masked := d.masked.filter fun v => v != (fn, vec) }))
  ∧ (∀ (v : Word64) (s : State),
      exec (.registerWrite 0x0020 v) s = .next (if 1 ≤ v.toNat ∧ v.toNat ≤ 256 then s.onDev fun d => { d with ageCap := v.toNat } else s)
      ∧ exec (.registerWrite 0x0028 v) s = .next (if 1000 ≤ v.toNat ∧ v.toNat ≤ 65535 then s.onDev fun d => { d with distThr := v.toNat } else s)
      ∧ exec (.registerWrite 0x00A0 v) s = .next (if 1 ≤ v.toNat ∧ v.toNat ≤ 720 then s.onDev fun d => { d with scanInt := v.toNat } else s)
      ∧ exec (.registerWrite 0x00F0 v) s = .next (if 900 ≤ v.toNat ∧ v.toNat ≤ 1600 then s.onDev fun d => { d with pcap := v.toNat } else s)
      ∧ exec (.registerWrite 0x0010 v) s = .next
          (if s.dev.enable = false ∧ v.toNat < 2 ^ 32 then s.onDev fun d => { d with ixFrames := v.toNat } else s)
      ∧ exec (.registerWrite 0x0040 v) s = .next (s.onDev fun d => { d with xlA := v }))
  ∧ (∀ (core : Nat) (v : Word64) (s : State), core < 192 → bits v.toNat 8 56 ≠ 0 ∨ bits v.toNat 4 2 ≠ 0 ∨ bits v.toNat 6 2 = 0 →
      exec (.registerWrite (0x100000 + 0x200 * core + 0x120) v) s = .next s)
  ∧ ∀ (on : Bool) (s : State), exec (.devctlEnable on) s = .next (s.onDev fun d => { d with enable := on })

/-- R124, R125: the command at the head of the invalidation queue drops what its kind names from every TLB, walk cache and attribute
cache, and keeps every other entry; it completes, and DONE advances, once the accesses that were in flight at its start through what it
dropped have ended.
The model's own choices and readings it rests on: log 81. -/
def Obligations.Invalidations : Prop :=
  (∀ p ∈ [(Instr.xlinvVaRange, 0), (Instr.xlinvContext, 1), (Instr.xlinvWindow, 2), (Instr.xlinvAll, 3)],
    ∀ (a b : Word64) (q : List (Word64 × Word64)) (s : State), s.dev.xlQueue = (a, b) :: q → bits a.toNat 62 2 = p.2 → s.dev.xlBusy = none →
      ∃ t, exec p.1 s = .next t
        ∧ t.dev.xlBusy = some (s.inFlight
            (s.xlNames p.2 (bits a.toNat 56 6) (bits a.toNat 48 8) (bits b.toNat 12 45) (bits a.toNat 0 40)))
        ∧ t.hbm = s.hbm ∧ t.cur = s.cur ∧ t.teams = s.teams
        ∧ t.cores = (s.dropTranslations p.2 (bits a.toNat 56 6) (bits a.toNat 48 8) (bits b.toNat 12 45) (bits a.toNat 0 40)).cores
        ∧ t.clusters = (s.dropTranslations p.2 (bits a.toNat 56 6) (bits a.toNat 48 8) (bits b.toNat 12 45) (bits a.toNat 0 40)).clusters)
  ∧ (∀ (ctx wid vpn n c : Nat) (s : State),
      (∀ l ∈ ((s.dropTranslations 1 ctx wid vpn n).core c).tlb, l.ctx ≠ ctx)
      ∧ (∀ l ∈ ((s.dropTranslations 1 ctx wid vpn n).cluster c).tlb, l.ctx ≠ ctx)
      ∧ (∀ w ∈ ((s.dropTranslations 1 ctx wid vpn n).cluster c).walk, w.ctx ≠ ctx)
      ∧ (∀ w ∈ ((s.dropTranslations 1 ctx wid vpn n).cluster c).attrs, w.ctx ≠ ctx)
      ∧ (∀ l ∈ ((s.dropTranslations 2 ctx wid vpn n).core c).tlb, l.win ≠ wid)
      ∧ (∀ l ∈ ((s.dropTranslations 2 ctx wid vpn n).cluster c).tlb, l.win ≠ wid)
      ∧ (∀ w ∈ ((s.dropTranslations 2 ctx wid vpn n).cluster c).attrs, w.win ≠ wid)
      ∧ ((s.dropTranslations 3 ctx wid vpn n).core c).tlb = [] ∧ ((s.dropTranslations 3 ctx wid vpn n).cluster c).tlb = []
      ∧ ((s.dropTranslations 3 ctx wid vpn n).cluster c).walk = [] ∧ ((s.dropTranslations 3 ctx wid vpn n).cluster c).attrs = []
      ∧ (∀ l ∈ ((s.dropTranslations 0 ctx wid vpn n).core c).tlb, l.ctx ≠ ctx ∨ vpn + n ≤ l.vpn ∨ l.vpn + l.pages ≤ vpn)
      ∧ (∀ l ∈ ((s.dropTranslations 0 ctx wid vpn n).cluster c).tlb, l.ctx ≠ ctx ∨ vpn + n ≤ l.vpn ∨ l.vpn + l.pages ≤ vpn)
      ∧ ∀ w ∈ ((s.dropTranslations 0 ctx wid vpn n).cluster c).walk, w.ctx ≠ ctx)
  ∧ (∀ (ctx wid vpn n c : Nat) (l : TlbLeaf) (s : State),
      (∀ k, (k = 0 ∧ (l.ctx ≠ ctx ∨ vpn + n ≤ l.vpn ∨ l.vpn + l.pages ≤ vpn)) ∨ (k = 1 ∧ l.ctx ≠ ctx) ∨ (k = 2 ∧ l.win ≠ wid) →
        (l ∈ (s.core c).tlb → l ∈ ((s.dropTranslations k ctx wid vpn n).core c).tlb)
          ∧ (l ∈ (s.cluster c).tlb → l ∈ ((s.dropTranslations k ctx wid vpn n).cluster c).tlb))
      ∧ (∀ w ∈ (s.cluster c).walk, w.ctx ≠ ctx →
          w ∈ ((s.dropTranslations 0 ctx wid vpn n).cluster c).walk ∧ w ∈ ((s.dropTranslations 1 ctx wid vpn n).cluster c).walk)
      ∧ (∀ w ∈ (s.cluster c).walk, w ∈ ((s.dropTranslations 2 ctx wid vpn n).cluster c).walk)
      ∧ (∀ w ∈ (s.cluster c).attrs, w ∈ ((s.dropTranslations 0 ctx wid vpn n).cluster c).attrs
          ∧ (w.ctx ≠ ctx → w ∈ ((s.dropTranslations 1 ctx wid vpn n).cluster c).attrs)
          ∧ (w.win ≠ wid → w ∈ ((s.dropTranslations 2 ctx wid vpn n).cluster c).attrs)))
  ∧ ∀ (ops : List Nat) (s : State), s.dev.xlBusy = some ops → (∀ o ∈ ops, o ∉ s.inFlight fun _ _ _ => true) →
      exec .xlinvComplete s = .next (s.onDev fun d =>
        { d with xlBusy := none, xlQueue := d.xlQueue.drop 1, xlDone := (d.xlDone + 1) % 2 ^ 32 })

/-! ## Resets, heat, errors -/

/-- R379, R380, R418: a warm reset with nothing posted and no Cascade command in flight ends every team and publication, keeps the
memories but for its entry of the error log, and sets the commit point below the next PSN; a cold reset is the state of reset
with the firmware's choices, those within their ranges, and with an entry of the error log for each core whose scan failed.
The model's own choices and readings it rests on: log 5, 78. -/
def Obligations.Resets : Prop :=
  (∀ p ∈ [(Instr.devctlWarmreq, 6), (Instr.dieLinkLoss, 4), (Instr.tcfWatchdog, 5)],
    ∀ s : State, s.posted = [] → s.cascades = [] →
      ∃ t, exec p.1 s = .next t ∧ t.cur = Team.vacant ∧ t.teams = [] ∧ t.pubs = [] ∧ t.commitPoint = s.psnNext - 1
        ∧ t.psnNext = s.psnNext ∧ t.crow = s.crow ∧ t.host = s.host ∧ t.windows = s.windows ∧ t.contexts = s.contexts
        ∧ (∀ a, a < s.dev.errBase + 32 * (s.dev.errHead % 4096) ∨ s.dev.errBase + 32 * (s.dev.errHead % 4096) + 32 ≤ a →
            t.hbm.read a = s.hbm.read a)
        ∧ bits (t.hbm.readN (s.dev.errBase + 32 * (s.dev.errHead % 4096)) 8) 56 8 = 6
        ∧ bits (t.hbm.readN (s.dev.errBase + 32 * (s.dev.errHead % 4096) + 16) 8) 0 32 = p.2
        ∧ (∀ l ∈ t.launches, l.status = .completing ∧ l.code = 3))
  ∧ ∀ (b : BootSetup) (s : State), ∃ t, exec (.coldReset b) s = .next t ∧ t.crow = State.reset.crow
      ∧ t.host = s.host ∧ t.hostBad = s.hostBad ∧ t.teams = [] ∧ t.pubs = []
      ∧ t.psnNext = State.reset.psnNext ∧ t.commitPoint = State.reset.commitPoint
      ∧ t.windows = State.reset.windows ∧ t.contexts = State.reset.contexts ∧ t.launches = [] ∧ t.snaps = []
      ∧ t.dev.retired = [] ∧ t.dev.counterTable = [] ∧ t.dev.lcmap = b.lcmap ∧ t.dev.enable = true
      ∧ (b.ixPoolBase < 2 ^ 40 → b.ixPoolBase % 2 ^ 21 = 0 → t.dev.ixBase = b.ixPoolBase)
      ∧ (2 ^ 40 ≤ b.ixPoolBase ∨ b.ixPoolBase % 2 ^ 21 ≠ 0 → t.dev.ixBase = Device.init.ixBase)
      ∧ (b.spillBase < 2 ^ 40 → b.spillBase % 2 ^ 24 = 0 → t.dev.spillBase = b.spillBase)
      ∧ (b.saveBase < 2 ^ 40 → b.saveBase % 2 ^ 21 = 0 → t.dev.saveBase = b.saveBase)
      ∧ t.dev.errHead = ((List.range 192).filter fun c => !bitAt b.lcmap.toNat c).length
      ∧ (∀ a, a < t.dev.errBase ∨ t.dev.errBase + 32 * t.dev.errHead ≤ a → t.hbm.read a = State.reset.hbm.read a)
      ∧ ∀ n c, ((List.range 192).filter fun c => !bitAt b.lcmap.toNat c)[n]? = some c →
          bits (t.hbm.readN (t.dev.errBase + 32 * n) 8) 56 8 = 9 ∧ t.hbm.readN (t.dev.errBase + 32 * n + 8) 8 = c

/-- R421, R422, R76, R77: the throttle level follows the temperature with its hysteresis, at 110 degrees the device takes a warm reset
with cause 7, the level rises by one above the power cap, and stands at 3 while the coolant flow is low; a refresh window clears
the activation counts and tables of its rows; where the oldest request of a channel has waited for the age cap, it alone is served.
The model's own choices and readings it rests on: log 1, 74, 79. -/
def Obligations.HeatAndRefresh : Prop :=
  (∀ (deg : Nat) (s : State), deg < 110 →
      ∃ t, exec (.junctionTemperature deg) s = .next t ∧ t.dev.degrees = deg ∧ t.dev.hot = (decide (90 ≤ deg) && s.dev.hot)
        ∧ (105 ≤ deg → t.dev.thermLevel = 3) ∧ (deg < 92 → t.dev.thermLevel = 0)
        ∧ (s.dev.thermLevel = 1 → 92 ≤ deg → deg < 100 → t.dev.thermLevel = 1)
        ∧ (s.dev.thermLevel = 0 → 92 ≤ deg → deg < 95 → t.dev.thermLevel = 0)
        ∧ (s.dev.thermLevel = 0 → 95 ≤ deg → deg < 100 → t.dev.thermLevel = 1)
        ∧ (s.dev.thermLevel ≤ 2 → 100 ≤ deg → deg < 105 → t.dev.thermLevel = 2)
        ∧ (s.dev.thermLevel = 2 → 97 ≤ deg → deg < 105 → t.dev.thermLevel = 2)
        ∧ (s.dev.thermLevel = 3 → 102 ≤ deg → t.dev.thermLevel = 3)
        ∧ (s.dev.thermLevel = 3 → 97 ≤ deg → deg < 102 → t.dev.thermLevel = 2)
        ∧ ((s.dev.thermLevel = 2 ∨ s.dev.thermLevel = 3) → 95 ≤ deg → deg < 97 → t.dev.thermLevel = 1)
        ∧ ((s.dev.thermLevel = 2 ∨ s.dev.thermLevel = 3) → 92 ≤ deg → deg < 95 → t.dev.thermLevel = 1)
        ∧ t = s.onDev fun _ => t.dev)
  ∧ (∀ (deg : Nat) (s : State), 110 ≤ deg → s.dev.hot = false → s.posted = [] → s.cascades = [] →
      ∃ t, exec (.junctionTemperature deg) s = .next t ∧ t.dev.hot = true ∧ t.cur = Team.vacant ∧ t.teams = []
        ∧ bits (t.hbm.readN (s.dev.errBase + 32 * (s.dev.errHead % 4096) + 16) 8) 0 32 = 7)
  ∧ (∀ (w : Nat) (s : State), s.dev.pcap < w → w < 2 ^ 16 →
      ∃ t, exec (.powerCapExceeded w) s = .next t ∧ t.dev.power = w ∧ t.dev.powLevel = (if s.dev.level < 3 then s.dev.level + 1 else 3)
        ∧ t = s.onDev fun _ => t.dev)
  ∧ (∀ (low : Bool) (s : State), exec (.coolantFlowLow low) s = .next (s.onDev fun d => { d with coolantLow := low })
      ∧ (s.onDev fun d => { d with coolantLow := true }).dev.level = 3)
  ∧ (∀ s : State,
      exec (.refreshWindow true) s = .next (s.onDev fun d => { d with rows := { d.rows with
          acts := [], listed := d.rows.listed.filter (·.isOrdinary), held := d.rows.held.filter (·.isOrdinary) } })
      ∧ exec (.refreshWindow false) s = .next (s.onDev fun d => { d with rows := { d.rows with
          ordActs := [], listed := d.rows.listed.filter (! ·.isOrdinary), held := d.rows.held.filter (! ·.isOrdinary) } }))
  ∧ ∀ (c : Nat) (o : RowReq) (s : State), o ∈ s.rowQueue c → s.rowHeld o = false → (∀ p ∈ s.rowQueue c, o.stamp ≤ p.stamp) →
      ∃ t, exec (.ageCapExpiry c) s = .next t ∧ c ∈ t.dev.ageBlock ∧ t = s.onDev (fun _ => t.dev)
        ∧ ∀ r ∈ t.rowQueue c, t.mayServe c r = true → ∀ p ∈ t.rowQueue c, r.stamp ≤ p.stamp

/-- R372, R376, R378, R388, R389, R384, R385, R387: what a scrub finds: nothing, a correctable error that is logged, a clean line that
is dropped, a dirty line that ends the context it belongs to and pauses its slice or cluster or, without an owner, resets the device, a sector that is poisoned and
its frame retired, a Basin word that is poisoned. A slice's pause ends; a twin, or a twin's atomic, that does not come counts as a
mismatch: it is logged with the exclusive or of the signatures, and the instance runs again or the launch completes with code 2;
the scans of cores begin and end, and a core that fails leaves LCMAP.
The model's own choices and readings it rests on: log 71, 75, 76, 95. -/
def Obligations.ErrorsAndScans : Prop :=
  (∀ s : State, exec (.patrolScrub .clean) s = .next s
    ∧ (∀ a loc ctx, loc < 60 ∨ loc = 0xFF → a < 2 ^ 64 → (∀ c, ctx = some c → c < 64) →
        ∃ t, exec (.patrolScrub (.corrected a loc ctx)) s = .next t ∧ t.dev.errHead = (s.dev.errHead + 1) % 2 ^ 32
          ∧ bits (t.hbm.readN (s.dev.errBase + 32 * (s.dev.errHead % 4096)) 8) 56 8 = 1
          ∧ bits (t.hbm.readN (s.dev.errBase + 32 * (s.dev.errHead % 4096)) 8) 41 8 = loc
          ∧ bitAt (t.hbm.readN (s.dev.errBase + 32 * (s.dev.errHead % 4096)) 8) 55 = ctx.isSome
          ∧ (∀ c, ctx = some c → bits (t.hbm.readN (s.dev.errBase + 32 * (s.dev.errHead % 4096)) 8) 49 6 = c)
          ∧ t.hbm.readN (s.dev.errBase + 32 * (s.dev.errHead % 4096) + 8) 8 = a ∧ t.cur = s.cur ∧ t.teams = s.teams)
    ∧ (∀ cl line, exec (.patrolScrub (.cleanLine cl line)) s
        = .next (s.setCluster cl { s.cluster cl with lines := (s.cluster cl).lines.filter fun l => l.line != line }))
    ∧ (∀ (cl way n : Nat) (d : DirtySector), cl < 48 → way < 16 → (s.cluster cl).dirty[n]? = some d → Win.owner (s.window d.win) < 64 →
        Ctx.term (s.context (Win.owner (s.window d.win))) = false →
        ∃ t, exec (.patrolScrub (.dirtyLine cl way n)) s = .next t ∧ Ctx.term (t.context (Win.owner (s.window d.win))) = true
          ∧ (t.cluster cl).paused = true ∧ bits (t.hbm.readN (s.dev.errBase + 32 * (s.dev.errHead % 4096)) 8) 56 8 = 3)
    ∧ (∀ pos, physByte pos / 65536 ∈ s.dev.retired →
        exec (.patrolScrub (.hbmSector pos)) s = .next { s with bad := Table.set false s.bad (physSector pos) true })
    ∧ (∀ cra, ∃ t, exec (.patrolScrub (.rowSector cra)) s = .next t ∧ t.crowBad = Table.set false s.crowBad (cra / 32) true
        ∧ (s.dev.retired.length < 4096 → rowFrame cra ∈ t.dev.retired) ∧ t.crow = s.crow ∧ t.cur = s.cur ∧ t.teams = s.teams)
    ∧ ∀ core b r w, exec (.patrolScrub (.basinWord core b r w)) s
        = .next (s.setCore core ((s.core core).setRowPoison b r ((s.core core).rowPoison b r ||| BitVec.ofNat 32 (2 ^ w)))))
  ∧ (∀ (h way n : Nat) (l : HomeLine) (s : State), h < 48 → way < 16 → (s.slice h).lines[n]? = some l →
      (l.dirty = false → exec (.patrolScrub (.homeLine h way n)) s = .next (s.setSlice h ((s.slice h).loseLine l.tag)))
      ∧ (∀ ctx < 64, l.dirty = true → l.own = some ctx → Ctx.term (s.context ctx) = false → s.backing l.tag = none →
        ∃ t, exec (.patrolScrub (.homeLine h way n)) s = .next t ∧ Ctx.term (t.context ctx) = true ∧ (t.slice h).paused = true
          ∧ bits (t.hbm.readN (s.dev.errBase + 32 * (s.dev.errHead % 4096)) 8) 56 8 = 3)
      ∧ (l.dirty = true → l.own = none → s.posted = [] → s.cascades = [] →
        ∃ t, exec (.patrolScrub (.homeLine h way n)) s = .next t ∧ t.cur = Team.vacant ∧ t.teams = []
          ∧ bits (t.hbm.readN (s.dev.errBase + 32 * (s.dev.errHead % 4096) + 16) 8) 0 32 = 1))
  ∧ (∀ (h : Nat) (s : State), (s.slice h).paused = true →
      exec (.slicePauseEnd h) s = .next (s.setSlice h { s.slice h with paused := false }))
  ∧ (∀ (i : Instr) (t u : Team) (l : Launch) (s : State), s.twinOf t = some u → s.launch? t.id.launch = some l →
      t.id.ctx < 64 → t.id.core < 192 → l.status ≠ .completing → l.status ≠ .complete →
      (i = .pairedTwinTimeout t.uid ∧ s.team? t.uid = some t ∧ t.paired.at_.isSome = true ∧ u.paired.at_ = none
        ∨ ∃ h r, i = .pairedAtomicTimeout h ∧ (s.slice h).reqs = [r] ∧ s.team? r.uid = some t ∧ t.paired.role ≠ 0
          ∧ s.twinReq h r = none) →
      ∃ s1 l1, exec i s = .next s1 ∧ s1.launch? t.id.launch = some l1
        ∧ bits (s1.hbm.readN (s.dev.errBase + 32 * (s.dev.errHead % 4096)) 8) 56 8 = 7
        ∧ s1.hbm.readN (s.dev.errBase + 32 * (s.dev.errHead % 4096) + 16) 8 = (t.signature ^^^ u.signature).toNat
        ∧ (if l.mismatched.contains t.id.task || decide (l.prows * l.pcols < 4) then l1.status = .completing ∧ l1.code = 2
          else l1.mismatched = l.mismatched ++ [t.id.task] ∧ l1.status = l.status))
  ∧ (∀ s : State, (∀ c < 192, (s.core c).scanning = false) → (∀ c < 192, s.idleCore c = false) →
      ∃ t, exec .scanInterval s = .next t ∧ t.dev.scanDue = (List.range 192).filter (fun c => bitAt s.dev.lcmap.toNat c)
        ∧ t = s.onDev fun _ => t.dev)
  ∧ ∀ (core : Nat) (pass : Bool) (sig : Word64) (s : State), core < 192 → (s.core core).scanning = true →
      (∀ c < 192, c ≠ core → (s.core c).scanning = false ∧ s.idleCore c = false ∧ (s.core c).scanFlag = false) →
      ∃ t, exec (.scanComplete core pass sig) s = .next t ∧ (t.core core).scanning = false ∧ (t.core core).basin = []
        ∧ (∀ c < 192, bitAt t.dev.lcmap.toNat c = (bitAt s.dev.lcmap.toNat c && (pass || c != core)))

/-! ## Snapshots, configuration, replicas -/

/-- R410, R411: a privileged `snap` and `roll` of a window of their own number one publication and wait; the commit of a snapshot saves
the root under its handle, which `snap` then writes, and after its commit `roll` moves on.
The model's own choices and readings it rests on: log 37, 87. -/
def Obligations.SnapAndRoll : Prop :=
  (∀ (d a : XReg) (w : Nat) (s : State), s.cur.s.priv = true → s.cur.s.phase = .none → s.cur.drained → (s.getX a).toNat = w → w < 256 →
      Win.valid (s.window w) = true → Win.owner (s.window w) = s.cur.id.ctx → Win.logged (s.window w) = true →
      (s.snapCount w < 16 → s.snapTotal < 1024 →
        ∃ t, exec (.snap d a) s = .next t ∧ t.psnNext = s.psnNext + 1 ∧ t.cur.s.phase = .published s.psnNext
          ∧ t.cur.waits = some (.commit s.psnNext) ∧ t.pc = s.pc ∧ t.hbm = s.hbm ∧ t.windows = s.windows
          ∧ t.pubs = s.pubs ++ [{ psn := s.psnNext, who := .snap s.cur.uid w, share := [], data := [], prepared := 0, heldSent := 0
                                  committed := false, noticed := 0 }])
      ∧ (16 ≤ s.snapCount w ∨ 1024 ≤ s.snapTotal → ∃ t, exec (.snap d a) s = .next t ∧ s.wrote t d 0))
  ∧ (∀ (p : Publication) (w : Nat) (s : State), s.mayCommit = some p → p.who = .snap s.cur.uid w → p.share = [] →
      s.cur.s.phase = .published p.psn →
      ∃ t, exec .psnCommit s = .next t ∧ t.commitPoint = s.commitPoint + 1
        ∧ t.cur.s.phase = .snapped (w * 2 ^ 32 + (Win.snapGen (s.window w) + 1))
        ∧ t.snaps = s.snaps ++ [{ handle := w * 2 ^ 32 + (Win.snapGen (s.window w) + 1), win := w, root := Win.root (s.window w)
                                  rootGen := Win.rootGen (s.window w), snapGen := Win.snapGen (s.window w) + 1
                                  depth := Win.depth (s.window w), lsize := Win.lsize (s.window w), psn := p.psn }])
  ∧ (∀ (d a : XReg) (handle : Nat) (s : State), s.cur.s.priv = true → s.cur.s.phase = .snapped handle →
      ∃ t, exec (.snap d a) s = .next t ∧ s.wrote t d (BitVec.ofNat 64 handle))
  ∧ (∀ (a b : XReg) (w : Nat) (q : Snapshot) (s : State), s.cur.s.priv = true → s.cur.s.phase = .none → s.cur.drained →
      (s.getX a).toNat = w → w < 256 → Win.valid (s.window w) = true → Win.owner (s.window w) = s.cur.id.ctx →
      Win.logged (s.window w) = true → s.isReplica w = false → q ∈ s.snaps → q.handle = (s.getX b).toNat → q.win = w →
      ∃ t, exec (.roll a b) s = .next t ∧ t.psnNext = s.psnNext + 1 ∧ t.cur.s.phase = .published s.psnNext
        ∧ t.cur.waits = some (.commit s.psnNext) ∧ t.pc = s.pc ∧ t.hbm = s.hbm ∧ t.windows = s.windows)
  ∧ ∀ (a b : XReg) (psn : Nat) (s : State), s.cur.s.priv = true → s.cur.s.phase = .published psn → psn ≤ s.commitPoint →
      ∃ t, exec (.roll a b) s = .next t ∧ s.wentTo t (s.pc + 4)

/-- R404, R377, R400, R406, R412, R415, R416, R360: a configuration command in its session is applied and answered with status 0, one
out of its session only answered with status 1, and so is one that would clear TERM of a context with a window neither
rolled back nor rebuilt, or that writes a context descriptor with a non-zero checked field. A window, a context, a counter, a peer,
a ring, a route, the RTID, the host's mapping registers, the base of the host memory, an armed takeover, a tenant: each is
written as the command gives it. SNAPFREE releases a snapshot and the index nodes that nothing else reaches; EXPORT writes the
snapshot's view into host memory, zeros where the snapshot holds nothing, and no other byte of it; an SPDM request is
answered with the report or the certificate chain; a takeover by the device owner takes the lost device's RTID; SAVEFULL is
raised on vector 1 while a swap-out waits for room.
The model's own choices and readings it rests on: log 14, 82, 83, 88, 98, 110, 118, 131. -/
def Obligations.FirmwareCommands : Prop :=
  ((∀ (c : MailCmd) (s : State),
      (s.admits c.session c.change = false →
        exec (.mailboxCommand c) s = .next (s.onDev fun d => ({ d with sent := d.sent ++ [.mailbox 1] } : Device).raise 0 2))
      ∧ (s.admits c.session c.change = true → ∃ s1 t, applyChange c.change s = .ok () s1 ∧ exec (.mailboxCommand c) s = .next t
        ∧ t = s1.onDev (fun d => ({ d with
            meas := Table.set 0 d.meas 2 (BitVec.ofNat 512 (byteNum (sha3 (byteList 64 (Table.get 0 d.meas 2).toNat ++ sha3 c.bytes))))
            sent := d.sent ++ [.mailbox 0] } : Device).raise 0 2)
        ∧ t.cur = s.cur ∧ t.teams = s.teams ∧ t.crow = s.crow ∧ t.host = s.host
        ∧ match c.change with
          | .window id d =>
            t.windows = Table.set 0 s.windows id
                (if Win.valid (s.window id) = true ∧ Win.valid d = true ∧ Win.lbase (s.window id) = Win.lbase d
                    ∧ Win.lsize (s.window id) = Win.lsize d ∧ Win.depth (s.window id) = Win.depth d then
                  setDescWord (setDescWord d 5 (descWord (s.window id) 5)) 6 (descWord (s.window id) 6)
                else d)
              ∧ (Win.valid d = true → Win.logged d = true → Win.root d ∉ s.ixUsed → Win.root d < s.poolFrames →
                  (∀ a, s.poolBase + Win.root d * 4096 ≤ a → a < s.poolBase + Win.root d * 4096 + 4096 → t.hbm.read a = 0)
                  ∧ ∀ a, a < s.poolBase + Win.root d * 4096 ∨ s.poolBase + Win.root d * 4096 + 4096 ≤ a → t.hbm.read a = s.hbm.read a)
              ∧ (Win.root d ∈ s.ixUsed → t.hbm = s.hbm)
          | .context id d => t.contexts = Table.set 0 s.contexts id d ∧ t.hbm = s.hbm ∧ t.windows = s.windows
          | .counter id e v => t.dev.counterTable = Table.set 0 s.dev.counterTable id e
              ∧ t.dev.counters = Table.set 0 s.dev.counters id v ∧ t = s.onDev fun _ => t.dev
          | .peer win e => t.peers = Table.set 0 s.peers win e ∧ t.hbm = s.hbm ∧ t.windows = s.windows
          | .ring tenant queue base slots => t = s.onDev (fun _ => t.dev)
              ∧ t.dev.rings = Table.set Ring.init s.dev.rings (8 * tenant + queue) { base := base, slots := slots, next := 0, lap := 0 }
          | .route rtid ports => t.dev.routes = Table.set 0 s.dev.routes rtid ports ∧ t = s.onDev fun _ => t.dev
          | .rtid id => t.dev.rtid = id ∧ t = s.onDev fun _ => t.dev
          | .hostMaps rd wr => t.dev.hostRd = rd ∧ t.dev.hostWr = wr ∧ t = s.onDev fun _ => t.dev
          | .hdmBase base => t.dev.hdmBase = base ∧ t = s.onDev fun _ => t.dev
          | .key _ => t = s.onDev fun _ => t.dev
          | .arm rtid => rtid ∈ t.dev.armed ∧ (∀ x, x ≠ rtid → (x ∈ t.dev.armed ↔ x ∈ s.dev.armed)) ∧ t = s.onDev fun _ => t.dev
          | .tenant id on => (∀ k < 16, bitAt t.dev.tenants.toNat k = if k = id then on else bitAt s.dev.tenants.toNat k)
              ∧ t = s.onDev fun _ => t.dev
          | .reinstate win handle => t.psnNext = s.psnNext + 1 ∧ t.windows = s.windows ∧ t.hbm = s.hbm
              ∧ ∃ p, t.pubs = s.pubs ++ [p] ∧ p.psn = s.psnNext ∧ p.who = .roll 0 win handle ∧ p.share = []))
  ∧ (∀ (session : Nat) (s : State),
      (∀ id, s.admits session (.rtid id) = decide (session = 1))
      ∧ (∀ rd wr, s.admits session (.hostMaps rd wr) = decide (session = 1))
      ∧ (∀ id e v, session ≠ 2 + Ctr.tenant e → s.admits session (.counter id e v) = false)
      ∧ (∀ win e, session ≠ 2 + Win.tenant (s.window win) → s.admits session (.peer win e) = false)
      ∧ (∀ id d, session ≠ 2 + Win.tenant d → s.admits session (.window id d) = false)
      ∧ ∀ id d, session ≠ 2 + Ctx.tenant d → s.admits session (.context id d) = false)
  ∧ (∀ (session id w : Nat) (d : BitVec 512) (s : State),
      (Ctx.term (s.context id) = true → Ctx.term d = false → w ∈ s.dev.broken → Win.owner (s.window w) = id →
        s.admits session (.context id d) = false)
      ∧ (bits (Ctx.xroot d) 46 10 ≠ 0 ∨ bits (Ctx.xroot d) 0 12 ≠ 0 ∨ bits (descWord d 1) 0 39 ≠ 0 ∨ bits d.toNat 256 256 ≠ 0 →
        s.admits session (.context id d) = false))
  ∧ (∀ (win handle : Nat) (s : State),
      (∃ q ∈ s.snaps, q.handle = handle ∧ q.win = win) →
      (∀ p ∈ s.pubs, p.committed = true ∨ ∀ u w h, p.who = .roll u w h → h ≠ handle) →
      ∃ t, exec (.snapfree win handle (2 + Win.tenant (s.window win))) s = .next t
        ∧ t.snaps = s.snaps.filter (fun q => !(q.handle == handle)) ∧ .mailbox 0 ∈ t.dev.sent ∧ t.hbm = s.hbm
        ∧ (∀ f, f ∈ t.ixUsed ↔ f ∈ s.ixUsed ∧ f ∈ t.reachedFrames)
        ∧ t.cur = s.cur ∧ t.teams = s.teams ∧ t.windows = s.windows ∧ t.crow = s.crow ∧ t.host = s.host)
  ∧ (∀ (win handle session : Nat) (s : State), session ≠ 2 + Win.tenant (s.window win) →
      exec (.snapfree win handle session) s = .next (s.onDev fun d => ({ d with sent := d.sent ++ [.mailbox 1] } : Device).raise 0 2))
  ∧ ∀ (a : ExportArgs) (q : Snapshot) (s : State), a.session = some (Win.tenant (s.window a.win)) →
      s.snaps.find? (fun q => q.handle == a.handle && q.win == a.win) = some q → s.exportTarget q a.hostWin = true →
      ∃ t, exec (.exportWindow a) s = .next t ∧ .mailbox 0 ∈ t.dev.sent ∧ t.hbm = s.hbm ∧ t.crow = s.crow ∧ t.snaps = s.snaps
        ∧ t.cur = s.cur ∧ t.teams = s.teams ∧ t.windows = s.windows
        ∧ (∀ x, x < Win.lbase (s.window a.hostWin) % 2 ^ 45
            ∨ Win.lbase (s.window a.hostWin) % 2 ^ 45 + q.lsize * 1024 ≤ x → t.host.read x = s.host.read x)
        ∧ ∀ n < q.lsize * 32, ∀ k < 32, t.host.read (Win.lbase (s.window a.hostWin) % 2 ^ 45 + 32 * n + k)
            = match (s.indexSectors q.root q.depth).reverse.find? (fun p => p.1 == n) with
              | some p => BitVec.ofNat 8 (bits (s.sectorAt p.2 (Win.lbase (s.window q.win) / 32 + n)).data.toNat (8 * k) 8)
              | none => 0)
  ∧ (∀ (n : Nat) (s : State),
    exec (.spdmMeasurement n) s = .next (s.onDev fun d => { d with sent := d.sent ++ [.report (s.report n)] })
    ∧ exec (.spdmChallenge n) s = .next (s.onDev fun d => { d with sent := d.sent ++ [.report (s.report n)] })
    ∧ exec (.spdmCertificate n) s = .next (s.onDev fun d => { d with sent := d.sent ++ [.chain (Config.certificate n)] })
    ∧ (s.report n).take 8 = byteList 8 (Config.reportHead s.dev.rtid.toNat s.dev.fwVersion).toNat
    ∧ ((s.report n).drop 8).take 32 = byteList 32 n ∧ ((s.report n).drop 296).take 8 = byteList 8 s.commitPoint)
  ∧ ((∀ (a : TakeoverArgs) (s : State), a.owner = true →
      (∃ p ∈ s.peers, Peer.isReplica p.2 = true ∧ Peer.rtid p.2 = a.lost) →
      ∃ t, exec (.takeover a) s = .next t ∧ t.dev.rtid = BitVec.ofNat 12 a.lost ∧ .mailbox 0 ∈ t.dev.sent ∧ t.hbm = s.hbm
        ∧ t.cur = s.cur ∧ t.teams = s.teams)
  ∧ (∀ (a : TakeoverArgs) (s : State), a.owner = false →
      exec (.takeover a) s = .next (s.onDev fun d => ({ d with sent := d.sent ++ [.mailbox 1] } : Device).raise 0 2))
  ∧ ∀ s : State, (∃ t ∈ s.allTeams, t.waits = some .save) → exec .savefull s = .next (s.onDev fun d => d.raise 0 1))

/-- R402, R413, R414, R416: the Spillway ships the next burst of a source window and cuts after a publication shipped whole; a replica
takes what comes from its peer, in its turn where appends stall, and publishes it at a cut; a source notes the echo; an armed
route follows a takeover. What does not come from the peer is refused and counted, and what is for another device is dropped and
counted. A cut waits for the bursts of its window, and of its port, that came before it.
The model's own choices and readings it rests on: log 84, 85. -/
def Obligations.Replicas : Prop :=
  (∀ (w p : Nat) (b : List Unshipped) (u : Unshipped) (r : List Unshipped) (s : State), Peer.isSource (s.peer w) = true → b = burstOf s (s.toShip w) →
      b = u :: r → (∀ c ∈ s.dev.cutOwed, c.1 = w → ∀ v ∈ b, v.psn ≤ c.2) → s.portFor (Peer.rtid (s.peer w)) (Peer.ports (s.peer w)) = some p →
      ∃ t, exec (.spillwayShip w) s = .next t ∧ t.dev.unshipped = s.dev.unshipped.filter (fun x => !b.contains x)
        ∧ Table.get 0 t.dev.lastShip w = u.psn ∧ s.dev.sent <+: t.dev.sent
        ∧ t.dev.sent.length = s.dev.sent.length + 1 + (b.length + 7) / 8 ∧ t = s.onDev fun _ => t.dev)
  ∧ (∀ (w p n : Nat) (s : State), Peer.isSource (s.peer w) = true → s.nextCut w = some n →
      s.portFor (Peer.rtid (s.peer w)) (Peer.ports (s.peer w)) = some p →
      ∃ t, exec (.spillwayCut w) s = .next t ∧ t.dev.sent.length = s.dev.sent.length + 1
        ∧ t.dev.cutOwed = s.dev.cutOwed.filter (fun c => c != (w, n)) ∧ t = s.onDev fun _ => t.dev)
  ∧ (∀ (b : ReplicaBurst) (s : State),
      (b.dst ≠ s.dev.rtid.toNat → exec (.replicaSegmentData b) s = .next (s.onDev fun d =>
        { d with fabDrop := (d.fabDrop + (1 + (b.data.length + 7) / 8)) % 2 ^ 64 }))
      ∧ (b.dst = s.dev.rtid.toNat → s.fromPeer b.win b.src b.port true = false → exec (.replicaSegmentData b) s = .next (s.onDev fun d =>
        { d with fabRefuse := (d.fabRefuse + 1) % 2 ^ 64 })))
  ∧ (∀ (b : ReplicaBurst) (v : BitVec 256) (s : State), b.dst = s.dev.rtid.toNat →
      s.fromPeer b.win b.src b.port true = true → b.data = [v] → b.rel < Win.lsize (s.window b.win) * 32 →
      (∀ x ∈ s.dev.arrivals, x.port ≠ b.port) → s.dev.fabRefuse < 2 ^ 64 →
      (s.mayResume (.replica b.port) = true →
        ∃ pos s1, appendRun (108 + b.port) [(Win.lbase (s.window b.win) / 32 + b.rel,
            ⟨v, bitAt b.poison 0 || (b.checks.getD 0 0) != (checkValue v b.rel).toNat⟩)] s = .ok pos s1
          ∧ exec (.replicaSegmentData b) s = .next (s1.onDev fun d =>
            { d with received := d.received ++ [⟨b.win, Win.lbase (s.window b.win) / 32 + b.rel, pos⟩] }))
      ∧ (s.mayResume (.replica b.port) = false →
        exec (.replicaSegmentData b) s = .next ((s.onDev fun d => { d with arrivals := d.arrivals ++ [b] }).stall (.replica b.port))))
  ∧ (∀ (port src win psn : Nat) (s : State), s.fromPeer win src port true = true → (∃ r ∈ s.dev.received, r.win = win) →
      (∀ x ∈ s.dev.arrivals, x.port ≠ port ∧ x.win ≠ win) →
      ∃ t, exec (.replicaCut port { dst := s.dev.rtid.toNat, src := src } win psn) s = .next t ∧ t.psnNext = s.psnNext + 1
        ∧ t.dev.received = s.dev.received.filter (fun r => r.win != win)
        ∧ t.dev.echoes = s.dev.echoes ++ [{ psn := s.psnNext, rtid := src, pwid := Peer.pwid (s.peer win), cut := psn }] ∧ t.hbm = s.hbm)
  ∧ (∀ (port src win psn : Nat) (s : State),
      (s.fromPeer win src port false = true →
        exec (.cutEcho port { dst := s.dev.rtid.toNat, src := src } win psn) s = .next (s.onDev fun d => { d with shipPsn := Table.set 0 d.shipPsn win psn }))
      ∧ (s.fromPeer win src port false = false →
        exec (.cutEcho port { dst := s.dev.rtid.toNat, src := src } win psn) s = .next (s.onDev fun d => { d with fabRefuse := (d.fabRefuse + 1) % 2 ^ 64 })))
  ∧ (∀ (port lost : Nat) (s : State),
      (lost ∈ s.dev.armed → exec (.takeoverFlit port { dst := s.dev.rtid.toNat, src := lost }) s
        = .next (s.onDev fun d => { d with routes := Table.set 0 d.routes lost (BitVec.ofNat 16 (2 ^ port)) }))
      ∧ (lost ∉ s.dev.armed → exec (.takeoverFlit port { dst := s.dev.rtid.toNat, src := lost }) s
        = .next (s.onDev fun d => { d with fabRefuse := (d.fabRefuse + 1) % 2 ^ 64 })))
  ∧ ∀ (port : Nat) (ends : FlitEnds) (win psn : Nat) (s : State), ends.dst ≠ s.dev.rtid.toNat → ∀ i ∈ [Instr.replicaCut port ends win psn,
      .cutEcho port ends win psn, .takeoverFlit port ends],
      exec i s = .next (s.onDev fun d => { d with fabDrop := (d.fabDrop + 1) % 2 ^ 64 })

/-! ## Lane memory words -/

/-- R127, R128, R138, R142, R143: a pass of `vld` gives each active lane its value, the format's bits extended, and changes no other lane;
a pass of `vst` and of `vtst` stores every active lane's bits and changes no register; a pass of `vpref` changes no register. First the
passes whose whole-byte accesses are at hand, `vst` of windows that are not logged, `vtst` of pages the team has copied, `vpref` of lanes
that are dropped; then every pass whose accesses, reads and stores go through.
The model's own choices and readings it rests on: log 4, 40, 42. -/
def Obligations.GathersAndScatters : Prop :=
  (∀ (f : LMem) (r : LaneRun) (w : Nat) (s : State) (lanes : List Nat) (va : Nat → Word64) (leaf : Nat → TlbLeaf) (v : Nat → Nat),
    let c := s.core s.cur.core
    let n := memBits f.fmt / 8
    lanes = s.cur.lanesAt f.mask.toNat w →
    (∀ l, va l = BitVec.ofNat 64 ((s.cur.regLane c f.va.toNat l).1.toNat + (s.cur.regLane c (f.va.toNat + 1) l).1.toNat * 2 ^ 32)
      + f.imm32.signExtend 64) →
    (∀ k ∈ lanes, ∀ l ∈ lanes, (leaf k).covers s.cur.id.ctx (va l).toNat = true → leaf k = leaf l) →
    (memBits f.fmt ∈ [8, 16, 32, 64] ∧ memNarrow f.fmt = none →
      (s.atPass (.vld f) r w → s.cur.apart (regsOf f.fmt f.vd) w →
        (∀ l ∈ lanes, s.atHand (s.asLane Access.load l) (va l) n (leaf l) ∧ s.finds (leaf l) (va l) n (v l)) →
        ∃ t, exec (.vld f) s = .next t ∧ s.passOver (.vld f) (s.begun (.vld f)) t ∧ t.posted = s.posted
          ∧ (∀ j < (regsOf f.fmt f.vd).length, s.putAt t (f.vd.toNat + j) w (lanes.map fun l =>
              (l % 32, BitVec.ofNat 32 (memExtend f.fmt (v l) / 2 ^ (32 * j)))))
          ∧ s.basinBut t ((regsOf f.fmt f.vd).map fun r => s.cur.rowAt r w))
      ∧ ((∀ l, v l = if f.fmt = 0x1C then
            (s.cur.regLane c f.vb.toNat l).1.toNat + (s.cur.regLane c (f.vb.toNat + 1) l).1.toNat * 2 ^ 32
          else (s.cur.regLane c f.vb.toNat l).1.toNat % 2 ^ memBits f.fmt) →
        (s.atPass (.vst f) r w →
          (∀ l ∈ lanes, s.atHand (s.asLane Access.store l) (va l) n (leaf l) ∧ Win.logged (leaf l).desc = false
            ∧ (Win.host (leaf l).desc = false → Win.crow (leaf l).desc = true → craOf ((leaf l).place (va l)) / 2 ^ 28 ≤ 11)) →
          ∃ t, exec (.vst f) s = .next t ∧ s.passOver (.vst f) (s.begun (.vst f)) t ∧ t.clusters = s.clusters ∧ s.basinBut t []
            ∧ t.posted = s.posted ++ lanes.mapIdx fun i l =>
                { id := s.stamp + i, uid := s.cur.uid, colour := storeColour f s.cur
                  target := (PostedTo.of (leaf l).desc ((leaf l).place (va l))).1
                  addr := (PostedTo.of (leaf l).desc ((leaf l).place (va l))).2
                  size := n, data := v l, poison := false, ctx := s.cur.id.ctx, only := none
                  via := ((va l).toNat / 4096, (leaf l).win) })
        ∧ ∀ (page bank : Nat → Nat), s.atPass (.vtst f) r w → s.cur.ctl.level ≠ 0 →
          (∀ l ∈ lanes, s.reaches (s.asLane Access.store l) (va l) n (leaf l) ∧ s.cur.pageKind (va l) = .template (page l)
            ∧ (s.cur.h.copies.find? fun b => b.page == page l).map (·.bank) = some (bank l)) →
          ∃ t, exec (.vtst f) s = .next t ∧ s.passOver (.vtst f) (s.begun (.vtst f)) t ∧ t.clusters = s.clusters ∧ t.posted = s.posted
            ∧ (∀ l ∈ lanes, (∀ k ∈ lanes, l < k → (bank k, (va k).toNat % 4096) ≠ (bank l, (va l).toNat % 4096)) →
                (t.core s.cur.core).rowBytes (bank l) ((va l).toNat % 4096 / 128) ((va l).toNat % 128) n = v l)
            ∧ s.basinBut t (lanes.map fun l => bank l * 32 + (va l).toNat % 4096 / 128)))
    ∧ (s.atPass (.vpref f) r w → f.fmt = 0 →
        (∀ l ∈ lanes, 2 ^ 57 ≤ (va l).toNat ∨ s.atHand (s.asLane Access.load l) (va l) n (leaf l)
            ∧ (Win.logged (leaf l).desc = false ∨ ∃ d, s.sees (leaf l).win ((leaf l).place (va l) / 32) d)) →
        ∃ t, exec (.vpref f) s = .next t ∧ s.passOver (.vpref f) (s.begun (.vpref f)) t ∧ t.posted = s.posted ∧ s.basinBut t []))
  ∧ (∀ (f : LMem) (r : LaneRun) (w : Nat) (xs : List LaneAcc) (got : List (LaneAcc × ReadRes)) (s o u0 u : State),
    s.atPass (.vld f) r w → o = s.opened (.vld f) (pairOf f.va) w →
    passAccesses laneLoad f.fmt f.va.toNat f.imm32 w (s.cur.active f.mask.toNat w) noCheck o = .ok xs u0 →
    (xs.mapM (fun x => do
      let v ← readPieces laneLoad o.cur x f.hint.toNat
      return (x, v)) : M (List (LaneAcc × ReadRes))) u0 = .ok got u →
    (∀ g ∈ got, g.2.poison = false ∧ g.2.stale = []) → u.cur.apart (regsOf f.fmt f.vd) w →
    ∃ t, exec (.vld f) s = .next t ∧ s.passOver (.vld f) u t ∧ t.slices = u.slices ∧ t.posted = u.posted
      ∧ t.clusters = (runM (markFills o.cur o.stamp (.word o.cur.uid r.lpc)) u).clusters
      ∧ (∀ j < (regsOf f.fmt f.vd).length, u.putAt t (f.vd.toNat + j) w (got.map fun g =>
          (g.1.lane % 32, BitVec.ofNat 32 (memExtend f.fmt (bits g.2.value g.1.bit (memBits f.fmt)) / 2 ^ (32 * j)))))
      ∧ u.basinBut t ((regsOf f.fmt f.vd).map fun r => u.cur.rowAt r w))
  ∧ (∀ p ∈ ([(Instr.vst, noCheck), (Instr.vtst, checkTemplateStore)] : List ((LMem → Instr) × (Team → LaneAcc → M Unit))),
    ∀ (f : LMem) (r : LaneRun) (w : Nat) (xs : List LaneAcc) (ps : List (List Part)) (s o u0 u : State),
    s.atPass (p.1 f) r w → o = s.opened (p.1 f) (pairOf f.va ++ regsOf f.fmt f.vb) w →
    passAccesses laneStore f.fmt f.va.toNat f.imm32 w (s.cur.active f.mask.toNat w) p.2 o = .ok xs u0 →
    (xs.mapM (fun x => do return x.parts (← storeBits f.fmt f.vb.toNat x.lane) (memBits f.fmt)) : M (List (List Part))) u0 = .ok ps u0 →
    storeParts { laneStore with priv := o.cur.blk.priv } o.cur ps.flatten (storeColour f o.cur) f.hint.toNat u0 = .ok () u →
    ∃ t, exec (p.1 f) s = .next t ∧ s.passEnded (p.1 f) u t ∧ u.basinBut t [])
  ∧ ∀ (f : LMem) (r : LaneRun) (w : Nat) (s o u : State), s.atPass (.vpref f) r w → o = s.opened (.vpref f) (pairOf f.va) w →
    prefetchWord f o.cur w (s.cur.active f.mask.toNat w) o = .ok () u →
    ∃ t, exec (.vpref f) s = .next t ∧ s.passEnded (.vpref f) u t ∧ u.basinBut t []

/-- R105, R140: a pass of `vldp` and of `vstp` with offsets aligned and inside the slice reads, and writes, the words of each
active lane's private slice, and changes no other row of the Basin and no memory.
The model's own choices and readings it rests on: log 4, 56. -/
def Obligations.PrivateSlices : Prop :=
  ∀ (f : LMem) (r : LaneRun) (w : Nat) (s : State) (lanes : List Nat) (off : Nat → Nat),
    let c := s.core s.cur.core
    let size := memBits f.fmt / 8
    lanes = s.cur.lanesAt f.mask.toNat w → (∀ l, off l = ((s.cur.regLane c f.va.toNat l).1 + f.imm32).toNat) →
    memBits f.fmt ∈ [8, 16, 32, 64] → s.cur.h.privBase.isSome = true →
    (∀ l ∈ lanes, off l % size = 0 ∧ off l + size ≤ 4 * (s.cur.kern.g * (1024 / s.cur.n))) →
    (s.atPass (.vldp f) r w → (∀ l ∈ lanes, (readWords c (privatePlaces s.cur l (off l) size)).2 = false) →
      s.cur.apart (regsOf f.fmt f.vd) w →
      ∃ t, exec (.vldp f) s = .next t ∧ s.passEnded (.vldp f) (s.begun (.vldp f)) t
        ∧ (∀ j < (regsOf f.fmt f.vd).length, s.putAt t (f.vd.toNat + j) w (lanes.map fun l =>
            (l % 32, BitVec.ofNat 32 (memExtend f.fmt (readWords c (privatePlaces s.cur l (off l) size)).1 / 2 ^ (32 * j)))))
        ∧ s.basinBut t ((regsOf f.fmt f.vd).map fun r => s.cur.rowAt r w))
    ∧ (s.atPass (.vstp f) r w →
      ∃ t, exec (.vstp f) s = .next t ∧ s.passEnded (.vstp f) (s.begun (.vstp f)) t
        ∧ (∀ l ∈ lanes, (readWords (t.core s.cur.core) (privatePlaces s.cur l (off l) size)).1 =
            if f.fmt = 0x1C then
              (s.cur.regLane c f.vb.toNat l).1.toNat + (s.cur.regLane c (f.vb.toNat + 1) l).1.toNat * 2 ^ 32
            else (s.cur.regLane c f.vb.toNat l).1.toNat % 2 ^ memBits f.fmt)
        ∧ s.basinBut t (lanes.flatMap fun l => (privatePlaces s.cur l (off l) size).map fun x => x.1 * 32 + x.2.1))

/-- R106, R141: a pass of `vldb` reads, for each active lane, the words at its Basin address in a bank that the team may name; one of
`vstb` into banks of the team's own writes them, where two lanes name one address the higher lane's. A store to pages of other kinds
ends its pass once their stores have been done.
The model's own choices and readings it rests on: log 4, 41, 60. -/
def Obligations.BasinWords : Prop :=
  ∀ (f : LMem) (r : LaneRun) (w : Nat) (s : State) (lanes : List Nat) (addr : Nat → Nat),
    let c := s.core s.cur.core
    let size := memBits f.fmt / 8
    let srcs := f.va.toNat :: regsOf f.fmt f.vb
    let place := fun (l : Nat) => basinPlaces (addr l / 4096) (addr l) size
    let value := fun (l : Nat) => if f.fmt = 0x1C then
        (s.cur.regLane c f.vb.toNat l).1.toNat + (s.cur.regLane c (f.vb.toNat + 1) l).1.toNat * 2 ^ 32
      else (s.cur.regLane c f.vb.toNat l).1.toNat % 2 ^ memBits f.fmt
    lanes = s.cur.lanesAt f.mask.toNat w → (∀ l, addr l = ((s.cur.regLane c f.va.toNat l).1 + f.imm32).toNat) →
    memBits f.fmt ∈ [8, 16, 32, 64] → (∀ l ∈ lanes, addr l < 4096 * numBanks ∧ addr l % size = 0) →
    (∀ o : State, o = s.opened (.vldb f) [f.va.toNat] w → s.atPass (.vldb f) r w →
      (∀ l ∈ lanes, s.bankUse s.cur (addr l / 4096) ≠ .no
        ∧ (∀ q, s.bankUse s.cur (addr l / 4096) = .stash q → bitAt q.filled.toNat (addr l % 4096 / 128) = true
            ∧ (s.cluster s.cur.cluster).rowBehind q (addr l % 4096 / 128) = false
            ∧ s.rowStale s.cur q (addr l % 4096 / 128) (addr l % 128 / 32) = false
            ∧ s.atomicInFlight s.cur.uid q.win ((q.la + addr l % 4096) / 32) = false)
        ∧ (seenWords o o.cur (place l)).2 = false) → s.cur.apart (regsOf f.fmt f.vd) w →
      ∃ t, exec (.vldb f) s = .next t ∧ s.passEnded (.vldb f) (s.begun (.vldb f)) t
        ∧ (∀ j < (regsOf f.fmt f.vd).length, s.putAt t (f.vd.toNat + j) w (lanes.map fun l =>
            (l % 32, BitVec.ofNat 32 (memExtend f.fmt (readWords c (place l)).1 / 2 ^ (32 * j)))))
        ∧ s.basinBut t ((regsOf f.fmt f.vd).map fun r => s.cur.rowAt r w))
    ∧ ((∀ l ∈ lanes, s.bankUse s.cur (addr l / 4096) = .own) → s.atPass (.vstb f) r w →
      ∃ t, exec (.vstb f) s = .next t ∧ s.passEnded (.vstb f) (s.begun (.vstb f)) t
        ∧ (∀ l ∈ lanes, (∀ k ∈ lanes, l < k → addr k ≠ addr l) → (readWords (t.core s.cur.core) (place l)).1 = value l)
        ∧ s.basinBut t (lanes.map fun l => addr l / 4096 * 32 + addr l % 4096 / 128))
    ∧ ∀ (vals : List (Nat × Nat × Nat)) (o u0 u : State), s.atPass (.vstb f) r w → o = s.opened (.vstb f) srcs w →
      (∀ l ∈ lanes, s.bankUse s.cur (addr l / 4096) ≠ .no ∧ s.bankUse s.cur (addr l / 4096) ≠ .fixed) →
      u0 = runM (bump s.cur.core 6 (basinConflicts (lanes.map addr))) o → vals = lanes.map (fun l => (l, addr l, value l)) →
      basinStores o.cur size vals u0 = .ok () u →
      ∃ t, exec (.vstb f) s = .next t ∧ s.passEnded (.vstb f) u t ∧ u.basinBut t []

/-- R144 to R148: the atomics of a pass go to the home slices of their addresses in ascending lane order, and the pass ends when
the last old value has come; those of a host window are done at once. `vldrow` gives the lanes the words of its row, of a host window among them;
`vrowatom` sends one row update and retires when it is done.
The model's own choices and readings it rests on: log 4, 37, 47. -/
def Obligations.LaneAtomicsAndRows : Prop :=
  (∀ g ∈ [Instr.vatom, Instr.vcas], ∀ (f : LMem) (r : LaneRun) (w : Nat) (fl : PassFlight) (s : State), s.atPass (g f) r w →
      s.cur.l.flight = some fl → fl.left = 0 →
      ∃ t, exec (g f) s = .next t ∧ s.passEnded (g f) (s.begun (g f)) t ∧ t.cur.l.flight = none ∧ s.basinBut t [])
  ∧ (∀ (g : LMem → Instr) (f : LMem) (r : LaneRun) (w : Nat) (op : Nat → AtomOp) (opd : BitVec 7 → Nat → Word64) (xs : List LaneAcc)
      (s o u : State),
      (∀ v l, opd v l = if f.fmt = 0x1C then
          BitVec.ofNat 64 ((u.cur.regLane (u.core u.cur.core) v.toNat l).1.toNat
            + (u.cur.regLane (u.core u.cur.core) (v.toNat + 1) l).1.toNat * 2 ^ 32)
        else (u.cur.regLane (u.core u.cur.core) v.toNat l).1.setWidth 64) →
      (g = .vatom ∧ op = (fun l => .lane f.aop.toNat f.fmt.toNat (opd f.vb l))
        ∨ g = .vcas ∧ op = (fun l => .laneCas (memBits f.fmt) (opd f.vc l) (opd f.vb l))) →
      s.atPass (g f) r w → s.cur.l.flight = none → o = s.opened (g f) (touch s.cur.blk.nf (g f)).srcs w →
      passAccesses laneAtomic f.fmt f.va.toNat f.imm32 w (s.cur.active f.mask.toNat w) checkNoTemplate o = .ok xs u →
      (∀ x ∈ xs, x.pieces ≠ [] ∧ ∀ p ∈ x.pieces, u.hostPending o.cur p.place = false) →
      (xs ≠ [] → (∀ x ∈ xs, ∀ p ∈ x.pieces, Win.logged p.place.desc = true) →
        ∃ t, exec (g f) s = .next t ∧ t.cur.l.stall = some .memory ∧ t.cur.l.flight = some { pass := w, left := xs.length }
          ∧ t.hbm = u.hbm ∧ t.host = u.host ∧ u.basinBut t []
          ∧ ∀ h, (t.slice h).reqs.map (fun q => (q.win, q.la, q.what, q.dest)) = (u.slice h).reqs.map (fun q => (q.win, q.la, q.what, q.dest))
              ++ xs.filterMap (fun x => match x.pieces with
                | p :: _ => if homeSlice p.place.la = h then
                    some (p.place.win, p.place.la, op x.lane, AtomDest.lane f.vd.toNat x.lane (f.fmt == 0x1C)) else none
                | [] => none))
      ∧ (∀ (x : LaneAcc) (p : Piece) (a old : Nat), xs = [x] → x.pieces = [p] → Win.logged p.place.desc = false → a = p.place.la % 2 ^ 45 →
        u.hostPoison p.place = false →
        old = bits (u.host.readN (a / 8 * 8) 8) (8 * (a % 8)) (8 * (memBits f.fmt / 8)) → u.cur.apart (regsOf f.fmt f.vd) w →
        let new := setBits (u.host.readN (a / 8 * 8) 8) (8 * (a % 8)) (8 * (memBits f.fmt / 8)) ((op x.lane).apply old)
        ∃ t, exec (g f) s = .next t ∧ s.passEnded (g f) { u with host := u.host.writeN (a / 8 * 8) new 8 } t
          ∧ (∀ j < (regsOf f.fmt f.vd).length, u.putAt t (f.vd.toNat + j) w [(x.lane % 32, BitVec.ofNat 32 (old / 2 ^ (32 * j)))])
          ∧ u.basinBut t ((regsOf f.fmt f.vd).map fun r => u.cur.rowAt r w)))
  ∧ (∀ (f : LMem) (r : LaneRun) (va : Word64) (p : Place64) (ds : List Delivered) (ps : List Nat) (s o u0 u : State),
      s.laneAt (.vldrow f) r → s.laneFit (.vldrow f) → s.laneSound (.vldrow f) → f.fmt ≠ 0x1C →
      ps = passList (s.cur.passSet [f.mask.toNat]) → o = s.begun (.vldrow f) → (∃ w ∈ ps, s.cur.active f.mask.toNat w ≠ 0) →
      (∀ q ∈ r.blk.late, q.1 ≠ f.va.toNat) →
      va = (if f.va = 0 then 0 else Table.get 0 r.blk.xs f.va.toNat) + f.imm32.signExtend 64 →
      locateRow laneLoad o.cur va f.vc.toNat o = .ok p u0 → rowSectorsOf laneLoad o.cur va p f.vc.toNat f.hint.toNat u0 = .ok ds u →
      (∀ d ∈ ds, d.poison = false) → ds.length = 4 * f.vc.toNat →
      ∃ t, exec (.vldrow f) s = .next t ∧ t.cur.l.run = (u.cur.l.run.bind fun q => q.next false) ∧ t.cur.l.passes = none
        ∧ t.cur.l.stall = none ∧ t.hbm = u.hbm ∧ t.clusters = u.clusters ∧ t.slices = u.slices
        ∧ (∀ w ∈ ps, u.putAt t f.vd.toNat w (((o.cur.rowLanes f.mask.toNat f.vc.toNat ps).filter fun l => l / 32 == w).map fun l =>
            (l % 32, BitVec.ofNat 32 (secBytes (ds.getD (l / 8) unwritten).data (4 * (l % 8)) 4))))
        ∧ u.basinBut t (ps.map fun w => u.cur.rowAt f.vd.toNat w))
  ∧ (∀ (f : LMem) (r : LaneRun) (va : Word64) (leaf : TlbLeaf) (ps : List Nat) (s : State),
      let n := f.vc.toNat
      let la := leaf.place va
      s.laneAt (.vldrow f) r → s.laneFit (.vldrow f) → s.laneSound (.vldrow f) → f.fmt ≠ 0x1C →
      ps = passList (s.cur.passSet [f.mask.toNat]) → (∃ w ∈ ps, s.cur.active f.mask.toNat w ≠ 0) →
      (∀ q ∈ r.blk.late, q.1 ≠ f.va.toNat) →
      va = (if f.va = 0 then 0 else Table.get 0 r.blk.xs f.va.toNat) + f.imm32.signExtend 64 →
      1 ≤ n → n ≤ s.cur.n → s.atHand (s.asLane Access.load 0) va (128 * n) leaf → Win.logged leaf.desc = false → Win.host leaf.desc = true →
      (∀ i < 4 * n, s.postedTo s.cur.uid .host ((la + 32 * i) % 2 ^ 45) 32 = false
        ∧ Table.get false s.hostBad ((la + 32 * i) % 2 ^ 45 / 32) = false) →
      ∃ t, exec (.vldrow f) s = .next t ∧ s.retired t r false
        ∧ (∀ w ∈ ps, s.putAt t f.vd.toNat w (((s.cur.rowLanes f.mask.toNat n ps).filter fun l => l / 32 == w).map fun l =>
            (l % 32, BitVec.ofNat 32 (s.host.readN ((la + 32 * (l / 8)) % 2 ^ 45 + 4 * (l % 8)) 4))))
        ∧ s.basinBut t (ps.map fun w => s.cur.rowAt f.vd.toNat w))
  ∧ ∀ (f : LMem) (r : LaneRun) (ps : List Nat) (s o : State), s.laneAt (.vrowatom f) r → s.laneFit (.vrowatom f) →
      s.laneSound (.vrowatom f) → o = s.begun (.vrowatom f) → ps = passList (s.cur.passSet [f.mask.toNat]) →
      (∀ fl, s.cur.l.flight = some fl → fl.left = 0 → ∃ t, exec (.vrowatom f) s = .next t ∧ s.retired t r false)
      ∧ (s.cur.l.flight = none → (∀ w ∈ ps, s.cur.active f.mask.toNat w = 0) →
          ∃ t, exec (.vrowatom f) s = .next t ∧ s.retired t r false)
      ∧ ∀ (va : Word64) (p : Place64) (u0 u : State), s.cur.l.flight = none → (∃ w ∈ ps, s.cur.active f.mask.toNat w ≠ 0) →
          (∀ q ∈ r.blk.late, q.1 ≠ f.va.toNat) →
          va = (if f.va = 0 then 0 else Table.get 0 r.blk.xs f.va.toNat) + f.imm32.signExtend 64 →
          ps.forM (fun w => countReads [f.vb.toNat] w) o = .ok () u0 → locateRow laneAtomic o.cur va f.vc.toNat u0 = .ok p u →
          (∀ w ∈ ps, (u.cur.regRow (u.core u.cur.core) f.vb.toNat w).2 = 0) → Win.logged p.desc = true →
          ∃ t, exec (.vrowatom f) s = .next t ∧ t.cur.l.stall = some .memory ∧ t.cur.l.flight = some { pass := 0, left := 1 }
            ∧ (∃ q, (t.slice (homeSlice p.la)).reqs = (u.slice (homeSlice p.la)).reqs ++ [q] ∧ q.win = p.win ∧ q.la = p.la
                ∧ q.dest = .none ∧ q.what = .row f.aop.toNat f.vc.toNat ((u.cur.rowLanes f.mask.toNat f.vc.toNat ps).map fun l =>
                    (l, (u.cur.regLane (u.core u.cur.core) f.vb.toNat l).1)))
            ∧ t.hbm = u.hbm ∧ u.basinBut t []

/-! ## The Cascade -/

/-- R84, R87, R89: a pass of a Cascade word whose command stands: `vnrld` gives each active lane the word of its bank, `vnrred`
every lane that is not dead the combination of the banks' elements, both once the pseudo-channel serves them; `vnrst` and `vnrclone`
put their effects, in order of arrival, into its queue, and the home-slice copies of what they write are gone. A word without a pass
takes an operation number and retires. CASCADE_COMPLETE carries out the first pass of a command that its pseudo-channel serves now,
and ends the command's number after the last of them.
The model's own choices and readings it rests on: log 4, 45. -/
def Obligations.CascadeWords : Prop :=
  (∀ (f : LMat) (r : LaneRun) (w cw : Nat) (c : Cascade) (s u : State),
    let lanes := lanesOf (u.cur.active f.mask.toNat w)
    let served := u.mayServe (chanOf cw)
      (u.readReq (laneLoad.asker u.cur) (chanOf cw) (lanes.map fun k => cw / 1024 + k) (some (c.uid, c.num))) = true
    (s.atPass (.vnrld f) r w → command f.mask.toNat (oneAddress laneLoad f .word) (s.opened (.vnrld f) [] w) = .ok c u →
      cw = c.base + w * chanBytes → served → (∀ k < 32, u.rowBad (cw + k * 1024) = false) →
      ∃ t, exec (.vnrld f) s = .next t ∧ s.passEnded (.vnrld f) u t
        ∧ u.putAt t f.vd.toNat w (lanes.map fun k => (k, BitVec.ofNat 32 (u.crow.readN (cw + k * 1024) 4)))
        ∧ u.basinBut t [u.cur.rowAt f.vd.toNat w])
    ∧ (s.atPass (.vnrred f) r w →
      command f.mask.toNat (oneAddress laneLoad f (if f.cop = 2 then .pairs else .reduce)) (s.opened (.vnrred f) [] w) = .ok c u →
      cw = c.base + w * chanBytes → served → u.cur.active f.mask.toNat w ≠ 0 →
      (∀ j < 32, cascadePoison u f.cop.toNat (u.cur.active f.mask.toNat w) cw j = none) →
      u.cur.apart (if f.cop = 2 then pairOf f.vd else [f.vd.toNat]) w →
      let out := fun j => tree32 (cascCombine f.cop.toNat (f.fmt == 0x02) f.sat)
        (cascadeInputs u f.cop.toNat (u.cur.active f.mask.toNat w) cw j)
      let live := (List.range 32).filter fun j => !bitAt u.cur.l.dead.toNat (32 * w + j)
      ∃ t, exec (.vnrred f) s = .next t ∧ s.passEnded (.vnrred f) u t
        ∧ u.putAt t f.vd.toNat w (live.filterMap fun j => (out j).map fun v => (j, BitVec.ofNat 32 v.m))
        ∧ (f.cop = 2 → u.putAt t (f.vd.toNat + 1) w (live.filterMap fun j => (out j).map fun v => (j, BitVec.ofNat 32 v.s)))
        ∧ u.basinBut t ((if f.cop = 2 then pairOf f.vd else [f.vd.toNat]).map fun r => u.cur.rowAt r w))
    ∧ (∀ (i : Instr) (es : List RowEffect),
      (i = .vnrst f ∧ command f.mask.toNat (oneAddress laneStore f .word) (s.begun i) = .ok c u
          ∧ (u.cur.regRow (u.core u.cur.core) f.vb.toNat w).2 = 0
          ∧ es = lanes.map (fun k => .bytes (cw + k * 1024) 4 (u.cur.regLane (u.core u.cur.core) f.vb.toNat (32 * w + k)).1.toNat)
        ∨ i = .vnrclone f ∧ command f.mask.toNat (cloneChecks f) (s.begun i) = .ok c u
          ∧ es = lanes.map (fun k =>
              if f.cop = 0 then .copy (c.src + w * chanBytes + k * 1024) (cw + k * 1024) else .fill (cw + k * 1024) (f.cop == 2))) →
      s.atPass i r w → cw = c.base + w * chanBytes →
      ∃ t, exec i s = .next t ∧ s.passOver i u t ∧ u.basinBut t [] ∧ t.clusters = u.clusters ∧ t.posted = u.posted
        ∧ t.slices = (u.dropWritten es).slices
        ∧ t.cascades.map (fun d => (d.uid, d.num, d.queue)) = u.cascades.map (fun d => (d.uid, d.num,
            if d.is c.uid c.num then d.queue ++ [{ chan := chanOf cw, stamp := u.stamp, effects := es }] else d.queue))))
  ∧ (∀ i f, (i = Instr.vnrld f ∨ i = .vnrst f ∨ i = .vnrred f ∨ i = .vnrclone f) → ∀ (r : LaneRun) (s : State), s.laneAt i r → s.laneFit i →
      s.cur.l.passes = none → passList (s.cur.passSet [f.mask.toNat]) = [] →
      ∃ t, exec i s = .next t ∧ t.cur.l.run = r.next false ∧ t.cur.h.tlIssued = s.cur.h.tlIssued.set 7 (s.cur.h.tlIssued.getD 7 0 + 1)
        ∧ t.cascades = s.cascades ∧ t.crow = s.crow ∧ t.hbm = s.hbm ∧ t.cores = s.cores)
  ∧ ∀ (uid num : Nat) (c : Cascade) (q : CascPass) (u : Team) (s : State), (s.cascades.find? fun c => c.is uid num) = some c →
      (c.queue.find? fun q => s.mayServe q.chan (q.request uid num)) = some q → s.team? uid = some u →
      let ends := c.growing = false ∧ c.queue.length = 1
      ∃ t, exec (.cascadeComplete uid num) s = .next t
        ∧ (ends → t.team? uid = some { u with h := u.h.ended 7 num } ∧ t.cascades = s.cascades.filter fun d => !d.is uid num)
        ∧ (¬ends → t.team? uid = some u ∧ t.cascades = s.cascades.map fun d =>
            if d.is uid num then { d with queue := d.queue.filter fun o => o.stamp != q.stamp } else d)
        ∧ t.hbm = s.hbm ∧ t.crow = (q.effects.foldl (fun s e => e.apply s) s).crow ∧ t.slices = (s.dropWritten q.effects).slices
        ∧ (∀ a n v, q.effects = [.bytes a n v] → t.crow.readN a n = v % 256 ^ n
            ∧ ∀ x, x < a ∨ a + n ≤ x → t.crow.read x = s.crow.read x)
        ∧ (∀ src dst, q.effects = [.copy src dst] → s.crow.wf = true → src + 1024 ≤ dst ∨ dst + 1024 ≤ src →
            ∀ x, t.crow.read x = if dst ≤ x ∧ x < dst + 1024 then s.crow.read (src + (x - dst)) else s.crow.read x)

/-! ## Matrix computation -/

/-- R270, R271 to R276: `vwst` stores each active lane's word into its region, `vqput` appends lanes to a FIFO with room, `vadr`
drains a tile into a register, `vaclr` makes, clears and frees a tile.
The model's own choices and readings it rests on: log 4, 56. -/
def Obligations.MatrixWords : Prop :=
  ∀ (f : LMat) (r : LaneRun) (w : Nat) (s : State),
    let c := s.core s.cur.core
    let lanes := s.cur.lanesAt f.mask.toNat w
    (∀ (g : Region) (at_ : Nat → Nat), s.atPass (.vwst f) r w → loopsDone s s.cur s.cur.blk.stamp (fun d => Mx.wreg d == f.vd.toNat) = true →
      s.cur.h.frozen = false → s.cur.region f.vd.toNat = some g → g.inherited = false → f.imm32.toNat % 4 = 0 →
      (∀ l < 32 * s.cur.n, bitAt (s.cur.activeLanes f.mask.toNat).toNat l = true → f.imm32.toNat + 4 * l + 4 ≤ 4096 * g.count) →
      (∀ l, at_ l = f.imm32.toNat + 4 * l) →
      ∃ t, exec (.vwst f) s = .next t ∧ s.passEnded (.vwst f) (s.begun (.vwst f)) t
        ∧ (∀ l ∈ lanes, (t.core s.cur.core).word (g.first + at_ l / 4096) (at_ l % 4096 / 128) (at_ l % 128 / 4)
            = (s.cur.regLane c f.va.toNat l).1)
        ∧ s.basinBut t (lanes.map fun l => (g.first + at_ l / 4096) * 32 + at_ l % 4096 / 128))
    ∧ (∀ q : Fifo, s.atPass (.vqput f) r w → (∀ o ∈ c.runnels, o.ended = true ∨ o.feeds s.cur.uid f.vd.toNat = false) →
      q = c.fifo s.cur.uid f.vd.toNat → q.nbits < 8 → q.bytes.length + 129 ≤ fifoCap →
      ∃ t, exec (.vqput f) s = .next t ∧ s.passEnded (.vqput f) (s.begun (.vqput f)) t ∧ s.basinBut t []
        ∧ (f.fmt = 0 → q.carry = 0 → q.nbits = 0 →
          ((t.core s.cur.core).fifo s.cur.uid f.vd.toNat).bytes = q.bytes ++
            ((lanesOf (maskWord (s.cur.maskReg f.mask.toNat) w)).flatMap fun p =>
              bytesOf (if bitAt (s.cur.active f.mask.toNat w).toNat p then (s.cur.regLane c f.va.toNat (32 * w + p)).1.toNat else 0) 4 false)))
    ∧ (∀ q : Tile, s.atPass (.vadr f) r w → s.cur.tile f.va.toNat = some q → f.imm32.toNat % 32 = 0 → q.float = (f.fmt != 0) →
      (∀ l < 32 * s.cur.n, bitAt (s.cur.activeLanes f.mask.toNat).toNat l = true → f.imm32.toNat + 32 * (l / 32 + 1) ≤ q.rows * q.cols) →
      (∀ l ∈ lanes, bitAt (c.rowPoison (q.place (f.imm32.toNat + l)).1 (q.place (f.imm32.toNat + l)).2.1).toNat
        (q.place (f.imm32.toNat + l)).2.2 = false) →
      ∃ t, exec (.vadr f) s = .next t ∧ s.passEnded (.vadr f) (s.begun (.vadr f)) t
        ∧ s.putAt t f.vd.toNat w (lanes.map fun l => (l % 32, BitVec.ofNat 32 (drainElem s.cur.blk.nf f
            (ditherT ((f.imm32.toNat + l) % 256) (if s.cur.l.passes = none then s.cur.l.dph else s.cur.l.dphAt))
            (c.word (q.place (f.imm32.toNat + l)).1 (q.place (f.imm32.toNat + l)).2.1 (q.place (f.imm32.toNat + l)).2.2).toNat).code))
        ∧ s.basinBut t [s.cur.rowAt f.vd.toNat w])
    ∧ ∀ rows cols : Nat, s.cur.l.run = some r → rows = f.imm32.toNat % 64 → cols = f.imm32.toNat / 2 ^ 16 →
      loopsDone s s.cur s.cur.blk.stamp (fun d => Mx.acc d == f.vd.toNat) = true →
      (∀ b, 0 < rows → rows ≤ 32 → cols % 32 = 0 → 0 < cols → cols ≤ 1024 → s.cur.tile f.vd.toNat = none →
        c.freeRun (ceilDiv (rows * cols) 1024) 1 = some b →
        ∃ t, exec (.vaclr f) s = .next t ∧ t.cur.l.run = r.next false ∧ t.hbm = s.hbm
          ∧ t.cur.tile f.vd.toNat = some { num := f.vd.toNat, first := b, rows := rows, cols := cols, float := f.fmt == 2 }
          ∧ ∀ k < ceilDiv (rows * cols) 1024, (t.core s.cur.core).bank (b + k) = .acc s.cur.uid
              ∧ ∀ i < 32, (t.core s.cur.core).row (b + k) i = 0)
      ∧ (∀ q : Tile, 0 < rows → rows ≤ 32 → cols % 32 = 0 → 0 < cols → cols ≤ 1024 → s.cur.tile f.vd.toNat = some q →
        q.rows = rows → q.cols = cols → q.float = (f.fmt == 2) →
        ∃ t, exec (.vaclr f) s = .next t ∧ t.cur.l.run = r.next false ∧ t.cur.h = s.cur.h ∧ t.hbm = s.hbm
          ∧ ∀ k < q.banks, ∀ i < 32, (t.core s.cur.core).row (q.first + k) i = 0)
      ∧ ∀ q : Tile, rows = 0 → cols = 0 → s.cur.tile f.vd.toNat = some q →
        ∃ t, exec (.vaclr f) s = .next t ∧ t.cur.l.run = r.next false ∧ t.cur.tile f.vd.toNat = none ∧ t.hbm = s.hbm
          ∧ ∀ k < q.banks, (t.core s.cur.core).bank (q.first + k) = .free

/-- R268, R269, R279, R282, R285: `wset` takes a run of free banks for a region, `wfree` gives them back; `mxloop` of a sound
descriptor posts a loop and gives its number; loops that stand outside the table take its free entries, and a grant goes to the loop
that ranks first; a step starts where its bank is its own to take, with the sums of its fragment and slab; its sums land in the row,
and with the last one the loop completes.
The model's own choices and readings it rests on: log 53, 54. -/
def Obligations.RegionsAndLoops : Prop :=
  (∀ (n : BitVec 3) (a b : XReg) (cls : BitVec 2) (F C : Nat) (s : State),
      F = (s.getX a).toNat → C = (s.getX b).toNat → s.cur.h.frozen = false → 0 < C → C ≤ 256 → F + C ≤ 384 → s.cur.region n.toNat = none →
      (∀ i < C, (s.core s.cur.core).bank (F + i) = .free) → (s.core s.cur.core).countBanks BankState.isStat + C ≤ 256 →
      ∃ t, exec (.wset n a b cls) s = .next t ∧ t.pc = s.pc + 4 ∧ t.cur.s.x = s.cur.s.x ∧ t.hbm = s.hbm
        ∧ t.cur.region n.toNat = some { num := n.toNat, first := F, count := C, cls := cls.toNat, inherited := false }
        ∧ (∀ i < C, (t.core s.cur.core).bank (F + i) = .stat s.cur.uid ∧ ∀ k < 32, (t.core s.cur.core).row (F + i) k = 0)
        ∧ ∀ x, (x < F ∨ F + C ≤ x) → (t.core s.cur.core).bank x = (s.core s.cur.core).bank x)
  ∧ (∀ (n : BitVec 3) (g : Region) (s : State), s.cur.h.frozen = false → s.cur.region n.toNat = some g → g.inherited = false →
      loopsDone s s.cur s.stamp (fun d => Mx.wreg d == n.toNat) = true →
      ∃ t, exec (.wfree n) s = .next t ∧ t.pc = s.pc + 4 ∧ t.cur.s.x = s.cur.s.x ∧ t.hbm = s.hbm ∧ t.cur.region n.toNat = none
        ∧ ∀ i < g.count, (t.core s.cur.core).bank (g.first + i) = .free)
  ∧ (∀ (d a : XReg) (desc : List Word64) (n : Nat) (s : State),
      desc = [s.getX a, s.getX (a + 1), s.getX (a + 2), s.getX (a + 3)] →
      (∀ k < 4, Mx.wfmt desc = 0x18 + k ∨ Mx.sfmt desc = 0x18 + k → nfMalformed (s.cur.l.nf.getD k 0) = false) →
      mxReason s s.cur s.cur.l.nf desc = none →
      (∀ x ∈ scaleAddrs desc (((s.cur.region (Mx.wreg desc)).map (·.cls)).getD 0), s.bankUse s.cur (x / 4096) ≠ .no) →
      s.tableUse s.cur.cluster < 32 → n = s.cur.h.tlIssued.getD 6 0 + 1 →
      ∃ t l, exec (.mxloop d a) s = .next t ∧ t.getX d = (if d = 0 then 0 else BitVec.ofNat 64 n) ∧ t.pc = s.pc + 4 ∧ t.hbm = s.hbm
        ∧ t.cores = s.cores ∧ t.cur.h.tlIssued = s.cur.h.tlIssued.set 6 n
        ∧ (t.cluster s.cur.cluster).loops = (s.cluster s.cur.cluster).loops ++ [l]
        ∧ l.uid = s.cur.uid ∧ l.num = n ∧ l.desc = desc ∧ l.nf = s.cur.l.nf ∧ l.granted = false ∧ l.entry = true
        ∧ l.started = List.replicate (Mx.m desc) 0 ∧ l.done = List.replicate (Mx.m desc) 0)
  ∧ (∀ (cl : Nat) (l : Loop) (s u : State), u = runM (reenterLoops cl 32) s →
      ((u.cluster cl).loops.filter (·.granted)).length < 16 → u.grantNext cl = some l →
      ∃ t, exec (.mxloopGrant cl) s = .next t ∧ t.hbm = s.hbm ∧ t.cores = s.cores
        ∧ (t.cluster cl).loops = (u.cluster cl).loops.map (fun x => if x.id = l.id then { x with granted := true } else x)
        ∧ ((∀ o ∈ (s.cluster cl).loops, o.entry = true) → u = s))
  ∧ (∀ (id row cl st : Nat) (l : Loop) (g : Region) (fr : Fragment) (sp : Option (Nat × Nat) × Bool)
      (wp : List (Option (Nat × Nat) × Bool)) (s u v : State),
      s.clusters.findSome? (fun p => (p.2.loops.find? fun l => l.id == id).map fun l => (p.1, l)) = some (cl, l) → l.uid = s.cur.uid →
      stepDue s.cur l row = true → st = l.started.getD row 0 → s.cur.region (Mx.wreg l.desc) = some g →
      let cores := loopCores s.cur l.desc
      let bank := g.first + Mx.bankOf l.desc st
      s.outranked cl l cores bank = false → fragmentOf cl id s.cur l (row * Mx.k l.desc + st) s = .ok fr u →
      stepPairs s.cur l.desc g.cls row st u = .ok (sp, wp) v →
      ∃ t, exec (.matrixStep id row) s = .next t ∧ t.hbm = v.hbm ∧ t.teams = v.teams ∧ t.cur = v.cur
        ∧ (t.cluster cl).loops = (v.cluster cl).loops.map (fun x => if x.id = id then { x with
            started := x.started.set row (st + 1), sums := x.sums ++ [(row, st, stepSums v l g.cls bank cores fr sp wp)] } else x))
  ∧ (∀ (id row cl st : Nat) (l : Loop) (g : Region) (fr : Fragment) (s : State),
      s.clusters.findSome? (fun p => (p.2.loops.find? fun l => l.id == id).map fun l => (p.1, l)) = some (cl, l) → l.uid = s.cur.uid →
      (s.cluster cl).loops.find? (fun l => l.id == id) = some l → s.outranked cl l [s.cur.core] (g.first + Mx.bankOf l.desc st) = false →
      s.cur.resident = true → s.cur.dbg.halted = false → l.granted = true → st = l.started.getD row 0 → row < Mx.m l.desc →
      st < Mx.k l.desc → Mx.reuse l.desc = false → Mx.sscl l.desc = false → Mx.wscl l.desc = false → Mx.span l.desc = false →
      (∀ m < row, ∀ x < Mx.k l.desc, l.started.getD m 0 ≤ x →
        Mx.boff l.desc + x * Mx.binc l.desc ≠ Mx.boff l.desc + st * Mx.binc l.desc) →
      s.cur.region (Mx.wreg l.desc) = some g → row * Mx.k l.desc + st < l.removed →
      l.frags.find? (fun p => p.1 == row * Mx.k l.desc + st) = some (row * Mx.k l.desc + st, fr) →
      let bank := g.first + (Mx.boff l.desc + st * Mx.binc l.desc)
      let rows := (List.range 32).map fun r => (s.core s.cur.core).row bank r
      let bad := fr.poison || (List.range 32).any fun r => (s.core s.cur.core).rowPoison bank r != 0
      ∃ t, exec (.matrixStep id row) s = .next t ∧ t.hbm = s.hbm ∧ t.cur = s.cur
        ∧ (t.cluster cl).loops = (s.cluster cl).loops.map (fun x => if x.id = id then { x with
            frags := x.frags.filter (fun p => p.1 != row * Mx.k l.desc + st)
            started := x.started.set row (st + 1)
            sums := x.sums ++ [(row, st, (slabSums (fr.codes.map fun c => decodeElem (elemOfCode l.nf (Mx.sfmt l.desc)) c) rows
              (classSlot g.cls) (widthOfCode l.nf (Mx.wfmt l.desc)) (classCols g.cls) (elemOfCode l.nf (Mx.wfmt l.desc))
              (List.replicate 32 none)).map fun x => (x, bad))] } else x))
  ∧ ∀ (id row cl st : Nat) (l : Loop) (t : Team) (q : Tile) (sums : List (Sys2Proof.Machine.Num × Bool)) (s : State),
      s.clusters.findSome? (fun p => (p.2.loops.find? fun l => l.id == id).map fun l => (p.1, l)) = some (cl, l) →
      s.team? l.uid = some t → l.sums.find? (fun q => q.1 == row && q.2.1 == l.done.getD row 0) = some (row, st, sums) →
      t.tile (Mx.acc l.desc) = some q →
      ∃ s1, exec (.matrixUpdateLand id row) s = .next s1 ∧ s1.hbm = s.hbm
        ∧ s1.core t.core = (landSums (s.core t.core) q (Mx.sati l.desc) row (Mx.coloff l.desc) sums).1
        ∧ ((∀ x ∈ l.done.set row (st + 1), x = Mx.k l.desc) →
            (s1.cluster cl).loops = (s.cluster cl).loops.filter (fun x => x.id != id)
            ∧ ∃ t1, s1.team? l.uid = some t1 ∧ t1.h = t.h.ended 6 l.num)
        ∧ ((∃ x ∈ l.done.set row (st + 1), x ≠ Mx.k l.desc) →
            (s1.cluster cl).loops.map (fun x => (x.id, x.done)) = (s.cluster cl).loops.map (fun x =>
              (x.id, if x.id = id then l.done.set row (st + 1) else x.done)))

/-! ## Runnels -/

/-- R180 to R188: a start instruction with a sound record and room for it takes an operation number; an engine takes the
operation, moves its units, puts what it still holds of sectors of global memory and ends it, which advances its counter and posts its record; a fatal fault of a unit stops the operation,
and the team takes it at its next scalar word boundary; `evpop` takes the team's oldest record,
or zeros, and `evwait` goes on where there is one.
The model's own choices and readings it rests on: log 51, 52. -/
def Obligations.Runnels : Prop :=
  (∀ p ∈ ([(Instr.rcopy, 0), (Instr.rfeed, 1), (Instr.rspill, 2)] : List ((XReg → XReg → BitVec 1 → BitVec 3 → Instr) × Nat)),
    ∀ (d a : XReg) (post : BitVec 1) (n : BitVec 3) (record : BitVec 512) (k : Nat) (s s1 : State),
      loadRecord s.cur (s.getX a) s = .ok record s1 → Rec.malformed record p.2 = false → (s1.core s.cur.core).runnels.length < 192 →
      ((s1.core s.cur.core).runnels.filter fun r => r.uid == s.cur.uid).length < 64 →
      k = s1.cur.h.tlIssued.getD n.toNat 0 + 1 →
      ∃ t r, exec (p.1 d a post n) s = .next t ∧ t.getX d = (if d = 0 then 0 else BitVec.ofNat 64 k) ∧ t.pc = s1.pc + 4
        ∧ t.hbm = s1.hbm ∧ t.cur.h.tlIssued = s1.cur.h.tlIssued.set n.toNat k
        ∧ (t.core s.cur.core).runnels = (s1.core s.cur.core).runnels ++ [r] ∧ r.kind = p.2 ∧ r.record = record ∧ r.num = k
        ∧ r.ctxNum = n.toNat ∧ r.post = (post == 1) ∧ r.started = false ∧ r.done = 0)
  ∧ (∀ (id core : Nat) (r : Runnel) (t : Team) (s : State), s.runnel? id = some (core, r) → s.team? r.uid = some t → s.cur.uid = r.uid →
      t.resident = true → t.rfault = none → t.dbg.pendf = none → r.ended = false →
      (r.started = false → mayStart (s.core core) t r = true → exec (.runnelStart id) s = .next ((s.setCore core { s.core core with
        runnels := (s.core core).runnels.map fun x => if x.id = id then { x with started := true } else x }).unstall (.engine id)))
      ∧ ((.engine id) ∉ s.stallers ∨ s.mayResume (.engine id) = true →
        (∀ (n : Nat) (bad : Bool) (s1 : State), r.started = true → r.done < Rec.total r.record →
          moveUnits r t r.nextUnits s = .ok (n, bad) s1 →
          exec (.runnelStart id) s = .next ((s1.setCore core { s1.core core with
            runnels := (s1.core core).runnels.map fun x => if x.id = id then
              { x with done := x.done + r.nextUnits.length, bytes := x.bytes + n, status := if bad then 1 else x.status }
              else x }).unstall (.engine id)))
        ∧ (∀ (o : OutSector) (rest : List OutSector) (s1 : State), r.started = true → r.done = Rec.total r.record → r.out = o :: rest →
          enginePut r t o (Rec.lkind r.record == 2) s = .ok () s1 →
          ∃ s2, exec (.runnelStart id) s = .next s2 ∧ s2.hbm = s1.hbm ∧ s2.cur = s1.cur ∧ s2.clusters = s1.clusters
            ∧ (s2.core t.core).runnels = (s1.core t.core).runnels.map fun x => if x.id = id then { x with out := rest } else x)
        ∧ ∀ (q : TrapReq) (s1 : State), r.started = true → r.done < Rec.total r.record → moveUnits r t r.nextUnits s = .error (.trap q) s1 →
        q.recov = false → s1.cur.uid = r.uid → s1.cur.s.phase.boundary = false → (∀ c o, s1.runnel? id = some (c, o) → o.out = []) →
        ∃ s2, exec (.runnelStart id) s = .next s2 ∧ s2.cur.h = s1.cur.h.ended r.ctxNum r.num
          ∧ s2.cur.efault = s1.cur.efault.orElse (fun _ => some q)
          ∧ (s2.core core).runnels = (s1.core core).runnels.filter fun o => o.id != id))
  ∧ (∀ (id core : Nat) (r : Runnel) (t : Team) (s : State), s.runnel? id = some (core, r) → s.team? r.uid = some t → r.started = true →
      r.ended = false → r.done = Rec.total r.record → r.out = [] →
      ∃ s1, exec (.runnelEnd id) s = .next s1 ∧ s1.team? r.uid = some { t with h := t.h.ended r.ctxNum r.num } ∧ s1.hbm = s.hbm
        ∧ (r.post = true → (s1.core core).waitingEvents = (s.core core).waitingEvents ++ [completionRecord r t.id.slot])
        ∧ (r.post = false → (s1.core core).runnels = (s.core core).runnels.filter fun o => o.id != id))
  ∧ (∀ (core : Nat) (e : EventRec) (s : State),
      (s.core core).waitingEvents.find? (fun e => (s.core core).eventRoom e.uid) = some e →
      ∃ t, exec (.completionRecordPost core) s = .next t ∧ (t.core core).events = (s.core core).events ++ [e]
        ∧ (t.core core).waitingEvents = (s.core core).waitingEvents.erase e ∧ t.hbm = s.hbm ∧ t.cur = s.cur)
  ∧ (∀ (r : Runnel) (slot : Nat), r.num < 2 ^ 64 → r.ctxNum < 8 → r.status < 2 → slot < 16 → r.bytes < 2 ^ 32 →
      (completionRecord r slot).lo.toNat = r.num ∧ bits (completionRecord r slot).hi.toNat 63 1 = 1
        ∧ bits (completionRecord r slot).hi.toNat 60 3 = r.ctxNum ∧ bits (completionRecord r slot).hi.toNat 56 4 = r.status
        ∧ bits (completionRecord r slot).hi.toNat 52 4 = slot ∧ bits (completionRecord r slot).hi.toNat 0 32 = r.bytes)
  ∧ (∀ (d : XReg) (s : State), d.toNat % 2 = 0 →
      (s.oldestEvent = none → exec (.evpop d) s = .next ((s.setX d 0).setX (d + 1) 0).advance)
      ∧ ∀ e, s.oldestEvent = some e → ∃ t, exec (.evpop d) s = .next t ∧ t.getX d = (if d = 0 then 0 else e.lo) ∧ t.getX (d + 1) = e.hi
        ∧ (t.core s.cur.core).events = (s.core s.cur.core).events.erase e ∧ t.pc = s.pc + 4 ∧ t.hbm = s.hbm
        ∧ ∀ r, r ≠ d → r ≠ d + 1 → t.getX r = s.getX r)
  ∧ ∀ s : State, (s.eventReady = true → ∃ t, exec .evwait s = .next t ∧ s.wentTo t (s.pc + 4))
      ∧ (s.eventReady = false → exec .evwait s = .next (s.parkCur .event))

/-! ## Two lane rules -/

/-- R232: a pass of `vdot4` gives each active lane c + Σ a[j] × b[j], exact, modulo 2^32 or with SAT clamped to the INT32
range, and FLAGS.O is set where it clamps; the fields without a meaning are zero. -/
def Obligations.DotProducts : Prop :=
  (∀ f : LArith, wellFormed (.vdot4 f) = true →
    f.fmt ∈ [0x07, 0x08, 0x09, 0x0A] ∧ f.na = false ∧ f.nb = false ∧ f.nc = false ∧ f.imm = false ∧ f.spc = false)
  ∧ ∀ (f : LArith) (r : LaneRun) (w : Nat) (s : State) (x : Nat → Int), f.fmt ∈ [0x07, 0x08, 0x09, 0x0A] → f.imm = false → f.spc = false →
      s.atPass (.vdot4 f) r w →
      (∀ k, let c := s.core s.cur.core
        let n := if f.fmt = 0x09 ∨ f.fmt = 0x0A then 4 else 8
        let el := fun (v : Word32) (j : Nat) =>
          if f.fmt = 0x09 then (v.extractLsb' (8 * j) 8).toInt else if f.fmt = 0x0A then ((v.extractLsb' (8 * j) 8).toNat : Int)
          else if f.fmt = 0x07 then (v.extractLsb' (4 * j) 4).toInt else ((v.extractLsb' (4 * j) 4).toNat : Int)
        x k = (s.cur.regLane c f.vc.toNat (32 * w + k)).1.toInt
          + ((List.range n).map fun j => el (s.cur.regLane c f.va.toNat (32 * w + k)).1 j * el (s.cur.regLane c f.vb.toNat (32 * w + k)).1 j).sum) →
      ∃ t, exec (.vdot4 f) s = .next t ∧ s.passEnded (.vdot4 f) (s.begun (.vdot4 f)) t
        ∧ s.putAt t f.vd.toNat w ((lanesOf (s.cur.active f.mask.toNat w)).map fun k =>
            (k, BitVec.ofInt 32 (if f.sat then (if 2 ^ 31 ≤ x k then 2 ^ 31 - 1 else if x k < -2 ^ 31 then -2 ^ 31 else x k) else x k)))
        ∧ s.basinBut t [s.cur.rowAt f.vd.toNat w]
        ∧ (t.cur.l.flagO = true ↔ s.cur.l.flagO = true ∨
            f.sat = true ∧ ∃ k ∈ lanesOf (s.cur.active f.mask.toNat w), 2 ^ 31 ≤ x k ∨ x k < -2 ^ 31)
        ∧ t.cur.l.flagN = s.cur.l.flagN ∧ t.cur.l.flagE = s.cur.l.flagE ∧ t.cur.l.rdx = s.cur.l.rdx

/-- R261: `vmatch` gives each active lane the mask of the active lanes of its lane word that hold the same value of vA, its own
bit among them; RDX and FLAGS stay. -/
def Obligations.LaneMatches : Prop :=
  ∀ (f : LCross) (r : LaneRun) (s : State), s.laneAt (.vmatch f) r → s.laneFit (.vmatch f) → s.laneSound (.vmatch f) → f.fmt = 0 →
    let c := s.core s.cur.core
    ∃ t, exec (.vmatch f) s = .next t ∧ s.retired t r false ∧ t.cur.l.rdx = s.cur.l.rdx
      ∧ t.cur.l.flagE = s.cur.l.flagE ∧ t.cur.l.flagO = s.cur.l.flagO ∧ t.cur.l.flagN = s.cur.l.flagN
      ∧ ∀ w < s.cur.n, w < 32 → ∀ p < 32,
          let v := rowWord (Table.get 0 (t.core s.cur.core).basin (s.cur.rowAt f.vd.toNat w)) p
          let acts := fun k => bitAt (s.cur.activeLanes f.mask.toNat).toNat (32 * w + k)
          (acts p = true → v.getLsbD p = true ∧ ∀ q < 32, v.getLsbD q = (acts q
              && (s.cur.regLane c f.va.toNat (32 * w + q)).1 == (s.cur.regLane c f.va.toNat (32 * w + p)).1))
          ∧ (acts p = false → v = (s.cur.regLane c f.vd.toNat (32 * w + p)).1)

/-! ## Words, steps, invariants -/

/-- R298, R10, R338: the step of a turn is the meaning of the word that stands at the team's PC, decoded from the bytes fetched
there, where the team ranks among those that its core issues: a scalar word whose registers no access has still to write, with no
comparator set, counted in CORECNT word 1; a lane word decoded at an earlier turn, whose sampled address registers have come; a step
of another agent. A pre-emption that waits and can go on comes before every turn. The first turn of a word or pass ends the team's promotion (`countHeld`). `finishTurn` is what follows a word: a
step or halt asked for by debug, or a fault of an engine.
The model's own choices and readings it rests on: log 2, 57. -/
def Obligations.StepRunsDecoded : Prop :=
  (∀ (uid w : Nat) (rest : List Turn) (i : Instr) (s s1 : State), s.takeHeld = none → s.turns = .scalar uid :: rest → s.cur.uid = uid →
      s.cur.mayIssue = true → s.inRank s.cur false = true → s.dev.hot = false → s.cur.efault = none → s.cur.s.phase ≠ .filling →
      fetchScalar s.cur s.pc { s with turns := rest } = .ok w s1 → decodeScalar w = .ok i → s1.cur.s.outs = [] →
      (s.cur.s.counted = false → s1.cur.s.counted = false →
        Ctx.dbgen (s.context s.cur.id.ctx) = false → Ctx.dbgen (s1.context s1.cur.id.ctx) = false →
        let u := (runM (countHeld false) (s1.setCore s1.cur.core ((s1.core s1.cur.core).count 1 1))).withS fun c => { c with counted := true }
        step s = finishTurn uid false (exec i { u with cur := { u.cur with dbg := u.cur.dbg.ran false } }))
      ∧ (s.cur.s.counted = true → s1.cur.s.counted = true → step s = finishTurn uid false (exec i s1)))
  ∧ (∀ (uid : Nat) (rest : List Turn) (i : Instr) (r : LaneRun) (s : State), s.takeHeld = none → s.turns = .lane uid :: rest →
      s.cur.uid = uid → s.cur.mayLane = true → s.laneTurnDue s.cur = true → s.inRank s.cur true = true → s.dev.hot = false → s.cur.l.run = some r →
      r.word = some i →
      (s.cur.l.watched = true ∨ Ctx.dbgen (s.context s.cur.id.ctx) = false ∧ ∀ k ∈ addressRegs i, ∀ q ∈ r.blk.late, q.1 ≠ k) →
      let u := if s.cur.l.watched then { s with turns := rest } else
        runM (do countHeld true; onTeam fun t => { t with dbg := t.dbg.ran true }) { s with turns := rest }
      let v := if u.cur.laneStalled then
        { u.unstall (.team uid) with cur := { u.cur with status := .ready, waits := none } } else u
      step s = finishTurn uid true (exec i { v with cur := { v.cur with l := { v.cur.l with stall := none, watched := true } } }))
  ∧ (∀ (i : Instr) (rest : List Turn) (s : State), s.takeHeld = none → s.turns = .event i :: rest → isEvent i = true →
      step s = exec i { s with turns := rest })
  ∧ (∀ (s : State), (∀ o, s.takeHeld = some o → step s = o) ∧ ((∀ l ∈ s.launches, l.waits = false) → s.takeHeld = none))
  ∧ ∀ (lane : Bool) (t : State), t.cur.dbg.stepping = false → t.cur.dbg.due = 0 → t.cur.efault = none →
      finishTurn t.cur.uid lane (.next t) = .next t

/-- Words of the spec's examples and encodings decode to the instructions they stand for (R20 to R34). -/
def Obligations.DecodeWords : Prop :=
  decodeScalar 0x00E84804 = .ok (.mulhu 7 8 9) ∧ decodeScalar 0x6C64FFFD = .ok (.blt 3 4 (-3)) ∧ decodeScalar 0x84000000 = .ok .ret
    ∧ decodeScalar 0x29007000 = .ok (.lui 8 0x7000) ∧ decodeScalar 0x3CC80100 = .ok (.ldD 6 8 0x100)
    ∧ decodeScalar 0x58C80000 = .ok (.stD 6 8 0) ∧ decodeScalar 0x68E0FFF9 = .ok (.bne 7 0 (-7))
    ∧ decodeScalar 0x5CA63C00 = .ok (.amo 5 6 7 4 0 0) ∧ decodeScalar 0xB4A6000A = .ok (.rcopy 5 6 1 2)
    ∧ decodeScalar 0xCC2C6800 = .ok (.wset 1 12 13 0) ∧ decodeScalar 0xC8680000 = .ok (.mxloop 3 8)
    ∧ decodeScalar 0xC1000000 = .ok (.evpop 8) ∧ decodeScalar 0xDCA60000 = .ok (.qput 5 6 0) ∧ decodeScalar 0xD8000031 = .ok (.bar 3 1)
    ∧ decodeScalar 0xE4000000 = .ok .yield ∧ decodeScalar 0xF8229800 = .ok (.snap 5 6) ∧ decodeScalar 0xF83018E0 = .ok (.roll 6 7)
    ∧ decodeLane 0x188143000040000000000000
        = .ok (.vred { vd := 5, va := 6, vb := 0, vc := 0, mask := 2, fmt := 0, rop := 0, exc := false, vk := 0, bsel := 0
                       imm := false, spc := false, imm32 := 0 })
    ∧ decodeScalar 0xFC000000 = .error .illop ∧ decodeScalar 0x0000001B = .error .illop

/-- R18 to R34: a word and its instruction determine each other. Every well-formed scalar or lane instruction is read back from
its word with every field, and every word, scalar or lane, that decodes is the word of the well-formed instruction it decodes
to, so that a reserved bit is never dropped.
The model's own choices and readings it rests on: log 25. -/
def Obligations.EncodeDecode : Prop :=
  (∀ (i : Instr) (w : Nat), wellFormed i = true → encodeScalar i = some w → w < 2 ^ 32 ∧ decodeScalar w = .ok i)
  ∧ (∀ (i : Instr) (w : Nat), wellFormed i = true → encodeLane i = some w → w < 2 ^ 96 ∧ decodeLane w = .ok i)
  ∧ (∀ (w : Nat) (i : Instr), w < 2 ^ 32 → decodeScalar w = .ok i → encodeScalar i = some w ∧ wellFormed i = true)
  ∧ ∀ (w : Nat) (i : Instr), w < 2 ^ 96 → decodeLane w = .ok i → encodeLane i = some w ∧ wellFormed i = true

/-- Every step keeps the memories (HBM, the compute rows, the host's memory) in their canonical form, from every state. -/
def Obligations.MemoryInvariant : Prop := ∀ s t : State, s.memWf → step s = .next t → t.memWf

/-- What reset leaves (R418, R419): no team, no publication, the PSNs before the first, every window, context and counter zero, every
core in LCMAP, the stated defaults of AGECAP, DISTTHR and PCAP, ENABLE set; the memories stand in their canonical form.
The model's own choices and readings it rests on: log 5, 6. -/
def Obligations.ResetState : Prop :=
  State.reset.memWf ∧ State.reset.teams = [] ∧ State.reset.cur = Team.vacant ∧ State.reset.launches = [] ∧ State.reset.pubs = []
    ∧ State.reset.commitPoint + 1 = State.reset.psnNext
    ∧ (∀ w, State.reset.window w = 0) ∧ (∀ c, State.reset.context c = 0) ∧ (∀ k, State.reset.counter k = 0)
    ∧ (∀ c < 192, bitAt State.reset.dev.lcmap.toNat c = true) ∧ State.reset.snaps = [] ∧ State.reset.dev.retired = []
    ∧ State.reset.dev.ageCap = 16 ∧ State.reset.dev.distThr = 4000 ∧ State.reset.dev.pcap = 1600 ∧ State.reset.dev.enable = true
    ∧ (∀ a, State.reset.hbm.read a = 0) ∧ (∀ a, State.reset.crow.read a = 0)
end

