-- ==== Sys2Proof/Laws/Encode.lean ====
section
/-!
SUPPORT. The encoder: every word fits its width.
-/
namespace Sys2Proof

theorem encSR_lt {c : Nat} (h : c % 2 ^ 11 = c % 2 ^ 26 ∧ c < 2 ^ 32) (d a b : XReg) : encSR c d a b < 2 ^ 32 := by
  simp only [encSR, put]; omega

theorem encSI_lt {c n : Nat} (h : c % 2 ^ 26 = 0 ∧ c < 2 ^ 32 ∧ n ≤ 16) (d a : XReg) (i : BitVec n) : encSI c d a i < 2 ^ 32 := by
  have := Nat.lt_of_lt_of_le i.isLt (Nat.pow_le_pow_right (by decide) h.2.2)
  simp only [encSI, put]; omega

theorem encSU_lt {c n : Nat} (h : c % 2 ^ 26 = 0 ∧ c < 2 ^ 32 ∧ n ≤ 21) (d : XReg) (i : BitVec n) : encSU c d i < 2 ^ 32 := by
  have := Nat.lt_of_lt_of_le i.isLt (Nat.pow_le_pow_right (by decide) h.2.2)
  simp only [encSU, put]; omega

theorem encLow_lt {c n : Nat} (h : c % 2 ^ n = 0 ∧ c + 2 ^ n ≤ 2 ^ 32) (i : BitVec n) : encLow c i < 2 ^ 32 := by
  have := i.isLt
  simp only [encLow, put]; omega

theorem encArith_lt {op : Nat} (h : op < 2 ^ 10) (f : LArith) : encArith op f < 2 ^ 96 := by
  obtain ⟨vd, va, vb, vc, m, fm, rnd, sat, na, nb, nc, bs, im, sp, w⟩ := f
  have b := fun x : Bool => Bool.toNat_le x
  have := b sat; have := b na; have := b nb; have := b nc; have := b im; have := b sp
  simp only [encArith, laneBase]; omega

theorem encMask_lt {op : Nat} (h : op < 2 ^ 10) (f : LMask) : encMask op f < 2 ^ 96 := by
  obtain ⟨vd, va, vb, vc, m, fm, cnd, im, sp, w⟩ := f
  have := Bool.toNat_le im; have := Bool.toNat_le sp
  simp only [encMask, laneBase]; omega

theorem encCross_lt {op : Nat} (h : op < 2 ^ 10) (f : LCross) : encCross op f < 2 ^ 96 := by
  obtain ⟨vd, va, vb, vc, m, fm, rop, ex, vk, bs, im, sp, w⟩ := f
  have := Bool.toNat_le ex; have := Bool.toNat_le im; have := Bool.toNat_le sp
  simp only [encCross, laneBase]; omega

theorem encMem_lt {op : Nat} (h : op < 2 ^ 10) (f : LMem) : encMem op f < 2 ^ 96 := by
  obtain ⟨vd, va, vb, vc, m, fm, sco, cov, col, hint, aop, w⟩ := f
  have := Bool.toNat_le cov
  simp only [encMem, laneBase]; omega

theorem encMat_lt {op : Nat} (h : op < 2 ^ 10) (f : LMat) : encMat op f < 2 ^ 96 := by
  obtain ⟨vd, va, vb, vc, m, fm, rnd, sat, cop, bs, w⟩ := f
  have := Bool.toNat_le sat
  simp only [encMat, laneBase]; omega

theorem encCtl_lt {op : Nat} (h : op < 2 ^ 10) (f : LCtl) : encCtl op f < 2 ^ 96 := by
  obtain ⟨m⟩ := f
  simp only [encCtl]; omega

theorem encHalf_lt (h : Half) : encHalf h < 2 ^ 47 := by
  obtain ⟨op, vd, va, vb, vc, m, fm, md⟩ := h
  simp only [encHalf]; omega

theorem encPair_lt (a b : Half) : 2 ^ 95 + encHalf a * 2 ^ 48 + encHalf b * 2 < 2 ^ 96 := by
  have := encHalf_lt a; have := encHalf_lt b; omega

end Sys2Proof
end

