-- ==== Sys2Proof/Laws/Map.lean ====
section
/-!
SUPPORT. Laws of tables and memories: a read after a write, and the canonical form under every operation.
-/
namespace Sys2Proof.Machine

variable {β : Type}

theorem Table.get_erase_same (d : β) (t : Table β) (k : Nat) : (Table.erase t k).get d k = d := by
  induction t with
  | nil => rfl
  | cons p r ih =>
    obtain ⟨k', v⟩ := p
    by_cases h : k' = k <;> simp [Table.erase, Table.get, h, ih]

theorem Table.get_erase_ne (d : β) (t : Table β) {j k : Nat} (h : j ≠ k) : (Table.erase t k).get d j = t.get d j := by
  induction t with
  | nil => rfl
  | cons p r ih =>
    obtain ⟨k', v⟩ := p
    by_cases hk : k' = k
    · subst hk; simp [Table.erase, Table.get, ih, Ne.symm h]
    · rw [Table.erase, if_neg hk, Table.get, Table.get, ih]

theorem Table.get_insert_same (d : β) (t : Table β) (k : Nat) (v : β) (h : ∀ p ∈ t, p.1 ≠ k) : (Table.insert t k v).get d k = v := by
  induction t with
  | nil => simp [Table.insert, Table.get]
  | cons p r ih =>
    obtain ⟨k', v'⟩ := p
    have hk : k' ≠ k := h (k', v') (by simp)
    by_cases hlt : k < k'
    · simp [Table.insert, Table.get, hlt]
    · simp [Table.insert, Table.get, hlt, hk, ih fun p hp => h p (by simp [hp])]

theorem Table.get_insert_ne (d : β) (t : Table β) (v : β) {j k : Nat} (h : j ≠ k) : (Table.insert t k v).get d j = t.get d j := by
  induction t with
  | nil => simp [Table.insert, Table.get, Ne.symm h]
  | cons p r ih =>
    obtain ⟨k', v'⟩ := p
    by_cases hlt : k < k'
    · simp [Table.insert, Table.get, hlt, Ne.symm h]
    · simp [Table.insert, Table.get, hlt, ih]

theorem Table.erase_key_ne (t : Table β) (k : Nat) : ∀ p ∈ Table.erase t k, p.1 ≠ k := by
  induction t with
  | nil => simp [Table.erase]
  | cons q r ih =>
    obtain ⟨k', v⟩ := q
    by_cases h : k' = k
    · simpa [Table.erase, h] using ih
    · intro p hp
      simp only [Table.erase, h, if_false, List.mem_cons] at hp
      rcases hp with rfl | hp
      · exact h
      · exact ih p hp

/-- A read after a write to the same key. -/
@[simp] theorem Table.get_set_same [DecidableEq β] (d : β) (t : Table β) (k : Nat) (v : β) : (Table.set d t k v).get d k = v := by
  unfold Table.set
  split
  · rename_i h; subst h; exact Table.get_erase_same _ _ _
  · exact Table.get_insert_same _ _ _ _ (Table.erase_key_ne t k)

/-- A read after a write to another key. -/
theorem Table.get_set_ne [DecidableEq β] (d : β) (t : Table β) (v : β) {j k : Nat} (h : j ≠ k) :
    (Table.set d t k v).get d j = t.get d j := by
  unfold Table.set
  split
  · exact Table.get_erase_ne _ _ h
  · rw [Table.get_insert_ne _ _ _ h, Table.get_erase_ne _ _ h]

/-- A read after a write. -/
theorem Table.get_set [DecidableEq β] (d : β) (t : Table β) (j k : Nat) (v : β) :
    (Table.set d t k v).get d j = if j = k then v else t.get d j := by
  by_cases h : j = k
  · subst h; simp
  · simp [h, Table.get_set_ne d t v h]

theorem Table.allAbove_erase (t : Table β) (j k : Nat) (h : Table.allAbove j t = true) : Table.allAbove j (Table.erase t k) = true := by
  induction t with
  | nil => rfl
  | cons p r ih =>
    obtain ⟨k', v⟩ := p
    simp only [Table.allAbove, Bool.and_eq_true, decide_eq_true_eq] at h
    by_cases hk : k' = k
    · simpa [Table.erase, hk] using ih h.2
    · simp [Table.erase, Table.allAbove, hk, h.1, ih h.2]

theorem Table.allAbove_mono (t : Table β) {i j : Nat} (hij : i ≤ j) (h : Table.allAbove j t = true) : Table.allAbove i t = true := by
  induction t with
  | nil => rfl
  | cons p r ih =>
    obtain ⟨k', v⟩ := p
    simp only [Table.allAbove, Bool.and_eq_true, decide_eq_true_eq] at h ⊢
    exact ⟨by omega, ih h.2⟩

theorem Table.allAbove_insert (t : Table β) (j k : Nat) (v : β) (hj : j < k) (h : Table.allAbove j t = true) :
    Table.allAbove j (Table.insert t k v) = true := by
  induction t with
  | nil => simp [Table.insert, Table.allAbove, hj]
  | cons p r ih =>
    obtain ⟨k', v'⟩ := p
    simp only [Table.allAbove, Bool.and_eq_true, decide_eq_true_eq] at h
    by_cases hlt : k < k'
    · simp [Table.insert, Table.allAbove, hlt, hj, h.1, h.2]
    · simp [Table.insert, Table.allAbove, hlt, h.1, ih h.2]

theorem Table.wf_erase [DecidableEq β] (d : β) (t : Table β) (k : Nat) (h : Table.wf d t = true) : Table.wf d (Table.erase t k) = true := by
  induction t with
  | nil => rfl
  | cons p r ih =>
    obtain ⟨k', v⟩ := p
    simp only [Table.wf, Bool.and_eq_true, decide_eq_true_eq] at h
    by_cases hk : k' = k
    · simpa [Table.erase, hk] using ih h.2
    · simp [Table.erase, Table.wf, hk, h.1.1, Table.allAbove_erase r k' k h.1.2, ih h.2]

theorem Table.wf_insert [DecidableEq β] (d : β) (t : Table β) (k : Nat) (v : β) (hv : v ≠ d) (hk : ∀ p ∈ t, p.1 ≠ k)
    (h : Table.wf d t = true) : Table.wf d (Table.insert t k v) = true := by
  induction t with
  | nil => simp [Table.insert, Table.wf, Table.allAbove, hv]
  | cons p r ih =>
    obtain ⟨k', v'⟩ := p
    have hne : k' ≠ k := hk (k', v') (by simp)
    simp only [Table.wf, Bool.and_eq_true, decide_eq_true_eq] at h
    by_cases hlt : k < k'
    · have := Table.allAbove_mono r (Nat.le_of_lt hlt) h.1.2
      simp [Table.insert, Table.wf, Table.allAbove, hlt, hv, h.1.1, h.1.2, h.2, this]
    · have hlt' : k' < k := by omega
      simp [Table.insert, Table.wf, hlt, h.1.1, Table.allAbove_insert r k' k v hlt' h.1.2,
        ih (fun p hp => hk p (by simp [hp])) h.2]

/-- A write keeps the canonical form. -/
theorem Table.wf_set [DecidableEq β] (d : β) (t : Table β) (k : Nat) (v : β) (h : Table.wf d t = true) :
    Table.wf d (Table.set d t k v) = true := by
  unfold Table.set
  split
  · exact Table.wf_erase d t k h
  · rename_i hv
    exact Table.wf_insert d _ k v hv (Table.erase_key_ne t k) (Table.wf_erase d t k h)

/-- Dropping entries keeps the canonical form. -/
theorem Table.allAbove_filter (t : Table β) (f : Nat × β → Bool) (j : Nat) (h : Table.allAbove j t = true) :
    Table.allAbove j (t.filter f) = true := by
  induction t with
  | nil => rfl
  | cons p r ih =>
    obtain ⟨k', v⟩ := p
    simp only [Table.allAbove, Bool.and_eq_true, decide_eq_true_eq] at h
    by_cases hf : f (k', v) = true
    · simp [List.filter, hf, Table.allAbove, h.1, ih h.2]
    · simp [List.filter, hf, ih h.2]

theorem Table.wf_filter [DecidableEq β] (d : β) (t : Table β) (f : Nat × β → Bool) (h : Table.wf d t = true) :
    Table.wf d (t.filter f) = true := by
  induction t with
  | nil => rfl
  | cons p r ih =>
    obtain ⟨k', v⟩ := p
    simp only [Table.wf, Bool.and_eq_true, decide_eq_true_eq] at h
    by_cases hf : f (k', v) = true
    · simp [List.filter, hf, Table.wf, h.1.1, Table.allAbove_filter r f k' h.1.2, ih h.2]
    · simp [List.filter, hf, ih h.2]

/-! ## Memories -/

@[simp] theorem Memory.read_write_same (m : Memory) (a : Nat) (v : Byte) : (m.write a v).read a = v := by
  simp [Memory.read, Memory.write]

theorem Memory.read_write (m : Memory) (a b : Nat) (v : Byte) : (m.write a v).read b = if b = a then v else m.read b := by
  simp [Memory.read, Memory.write, Table.get_set]

theorem Memory.wf_write (m : Memory) (a : Nat) (v : Byte) (h : m.wf = true) : (m.write a v).wf = true :=
  Table.wf_set _ _ _ _ h

theorem Memory.wf_writeN (n : Nat) : ∀ (m : Memory) (a v : Nat), m.wf = true → (m.writeN a v n).wf = true := by
  induction n with
  | zero => intro m a v h; exact h
  | succ n ih => intro m a v h; exact ih _ _ _ (Memory.wf_write m a _ h)

theorem Memory.wf_writeBytes (l : List Byte) : ∀ (m : Memory) (a : Nat), m.wf = true → (m.writeBytes a l).wf = true := by
  induction l with
  | nil => intro m a h; exact h
  | cons b r ih => intro m a h; exact ih _ _ (Memory.wf_write m a b h)

/-- A store of `n` bytes leaves every byte outside them. -/
theorem Memory.read_writeN_outside (n : Nat) : ∀ (m : Memory) (a v b : Nat), (b < a ∨ a + n ≤ b) →
    (m.writeN a v n).read b = m.read b := by
  induction n with
  | zero => intro m a v b _; rfl
  | succ n ih =>
    intro m a v b h
    rw [Memory.writeN, ih _ _ _ _ (by omega), Memory.read_write, if_neg (by omega)]

/-- A load of `n` bytes after a store of `n` bytes at the same address gives the bytes stored. -/
theorem Memory.readN_writeN_same (n : Nat) : ∀ (m : Memory) (a v : Nat), (m.writeN a v n).readN a n = v % 256 ^ n := by
  induction n with
  | zero => intro m a v; simp [Memory.readN, Nat.mod_one]
  | succ n ih =>
    intro m a v
    have h1 : (Memory.writeN (m.write a (BitVec.ofNat 8 v)) (a + 1) (v / 256) n).read a = BitVec.ofNat 8 v := by
      rw [Memory.read_writeN_outside _ _ _ _ _ (by omega)]; simp
    simp only [Memory.readN, Memory.writeN, h1, ih, BitVec.toNat_ofNat]
    rw [show (256 : Nat) ^ (n + 1) = 256 * 256 ^ n from by rw [Nat.pow_succ, Nat.mul_comm], Nat.mod_mul]

theorem Memory.wf_clear (m : Memory) (b n : Nat) (h : m.wf = true) : (Memory.clear m b n).wf = true :=
  Table.wf_filter _ _ _ h

theorem Memory.wf_foldl_write (f : Nat × Byte → Nat) (l : List (Nat × Byte)) : ∀ m : Memory, m.wf = true →
    Memory.wf (List.foldl (fun (h : Memory) (p : Nat × Byte) => h.write (f p) p.2) m l) = true := by
  induction l with
  | nil => intro m h; exact h
  | cons p r ih => intro m h; exact ih _ (Memory.wf_write m _ _ h)

theorem Memory.wf_copy (m : Memory) (a b n : Nat) (h : m.wf = true) : (Memory.copy m a b n).wf = true :=
  Memory.wf_foldl_write (fun p => p.1 - a + b) _ _ (Memory.wf_clear m b n h)

end Sys2Proof.Machine
end

