-- ==== Sys2Proof/Laws/Monad.lean ====
section
/-!
SUPPORT. How computations over the state evaluate: each step of a sequence on the state before it, and what the outcome of a
step is of one that runs to its end, waits, or stops.
-/
namespace Sys2Proof.Machine

variable {α β : Type}

/-! ## The steps of a computation -/

theorem M.bind_run (m : M α) (f : α → M β) (s : State) :
    (m >>= f) s = match m s with | .ok a s' => f a s' | .error e s' => .error e s' := by
  show EStateM.bind m f s = _
  unfold EStateM.bind
  cases m s <;> rfl

/-- The first part runs to its end, and the rest goes on from there. -/
theorem M.bind_ok {m : M α} {f : α → M β} {s s' : State} {a : α} (h : m s = .ok a s') : (m >>= f) s = f a s' := by
  rw [M.bind_run, h]

/-- The first part stops. -/
theorem M.bind_error {m : M α} {f : α → M β} {s s' : State} {e : Stop} (h : m s = .error e s') : (m >>= f) s = .error e s' := by
  rw [M.bind_run, h]

/-- A sequence that runs to its end has run through its first part. -/
theorem M.bind_inv {m : M α} {f : α → M β} {s t : State} {b : β} (h : (m >>= f) s = .ok b t) :
    ∃ a s', m s = .ok a s' ∧ f a s' = .ok b t := by
  rw [M.bind_run] at h
  cases hm : m s with
  | ok a s' => rw [hm] at h; exact ⟨a, s', rfl, h⟩
  | error e s' => rw [hm] at h; cases h

@[simp] theorem M.pure_run (a : α) (s : State) : (pure a : M α) s = .ok a s := rfl
@[simp] theorem M.get_run (s : State) : (get : M State) s = .ok s s := rfl
@[simp] theorem M.set_run (t s : State) : (set t : M PUnit) s = .ok ⟨⟩ t := rfl
@[simp] theorem M.modify_run (f : State → State) (s : State) : (modify f : M PUnit) s = .ok ⟨⟩ (f s) := rfl
@[simp] theorem M.modifyGet_run (f : State → α × State) (s : State) : (modifyGet f : M α) s = .ok (f s).1 (f s).2 := rfl
@[simp] theorem M.throw_run (e : Stop) (s : State) : (throw e : M α) s = .error e s := rfl

/-- A guard that holds. -/
@[simp] theorem M.waitUnless_true (w : WaitFor) (s : State) : waitUnless true w s = .ok ⟨⟩ s := rfl
@[simp] theorem M.waitUnless_false (w : WaitFor) (s : State) : waitUnless false w s = .error (.wait w) s := rfl
@[simp] theorem M.enabled_true (s : State) : enabled true s = .ok ⟨⟩ s := rfl
@[simp] theorem M.enabled_false (s : State) : enabled false s = .error (.wait .memory) s := rfl

/-! ## Named steps -/

@[simp] theorem M.getTeam_run (s : State) : getTeam s = .ok s.cur s := rfl
@[simp] theorem M.onCore_run (k : Nat) (f : Core → Core) (s : State) : onCore k f s = .ok ⟨⟩ (s.setCore k (f (s.core k))) := rfl
@[simp] theorem M.onCluster_run (k : Nat) (f : Cluster → Cluster) (s : State) :
    onCluster k f s = .ok ⟨⟩ (s.setCluster k (f (s.cluster k))) := rfl
@[simp] theorem M.onSlice_run (k : Nat) (f : Slice → Slice) (s : State) : onSlice k f s = .ok ⟨⟩ (s.setSlice k (f (s.slice k))) := rfl
@[simp] theorem M.onDev_run (f : Device → Device) (s : State) : onDev f s = .ok ⟨⟩ (s.onDev f) := rfl
@[simp] theorem M.onTeam_run (f : Team → Team) (s : State) : onTeam f s = .ok ⟨⟩ { s with cur := f s.cur } := rfl
@[simp] theorem M.onScalar_run (f : Scalar → Scalar) (s : State) : onScalar f s = .ok ⟨⟩ (s.withS f) := rfl
@[simp] theorem M.onLane_run (f : Lane → Lane) (s : State) : onLane f s = .ok ⟨⟩ { s with cur := { s.cur with l := f s.cur.l } } := rfl
@[simp] theorem M.onHold_run (f : Holdings → Holdings) (s : State) : onHold f s = .ok ⟨⟩ { s with cur := { s.cur with h := f s.cur.h } } := rfl
@[simp] theorem M.onUid_run (uid : Nat) (f : Team → Team) (s : State) : onUid uid f s = .ok ⟨⟩ (s.onTeamId uid f) := rfl
@[simp] theorem M.nextStamp_run (s : State) : nextStamp s = .ok s.stamp { s with stamp := s.stamp + 1 } := rfl
@[simp] theorem M.drawFree_run (s : State) : drawFree s = .ok (Config.freeValue s.free) { s with free := s.free + 1 } := rfl
@[simp] theorem M.raiseMsix_run (fn vec : Nat) (s : State) : raiseMsix fn vec s = .ok ⟨⟩ (s.onDev fun d => d.raise fn vec) := rfl
@[simp] theorem M.advance_run (s : State) : advance s = .ok ⟨⟩ s.advance := rfl

/-! ## Outcomes -/

/-- A computation of the issuing team that runs to its end. -/
theorem runTeam_ok {m : M Unit} {s s' : State} (h : m s = .ok ⟨⟩ s') : runTeam m s = .next s' := by rw [runTeam, h]

/-- A wait parks the issuing team. -/
theorem runTeam_wait {m : M Unit} {s s' : State} {w : WaitFor} (h : m s = .error (.wait w) s') :
    runTeam m s = .next (parkTeam s.cur.uid s' w) := by rw [runTeam, h]; rfl

/-- A step of another agent that runs to its end. -/
theorem runEventOf_ok {m : M Unit} {uid : Nat} {s s' : State} (h : m s = .ok ⟨⟩ s') : runEventOf uid m s = .next s' := by
  rw [runEventOf, h]

/-- A step of another agent that may not act yet changes nothing. -/
theorem runEventOf_wait {m : M Unit} {uid : Nat} {s s' : State} {w : WaitFor} (h : m s = .error (.wait w) s') :
    runEventOf uid m s = .next s := by rw [runEventOf, h]

/-- A computation of the lane stream that runs to its end. -/
theorem runLane_ok {m : M Unit} {s s' : State} (h : m s = .ok ⟨⟩ s') : runLane m s = .next s' := by rw [runLane, h]

theorem onTeamId_cur (s : State) (f : Team → Team) : s.onTeamId s.cur.uid f = { s with cur := f s.cur } := by
  rw [State.onTeamId, if_pos rfl]

@[simp] theorem parkTeam_cur (s : State) (w : WaitFor) : parkTeam s.cur.uid s w = s.parkCur w := onTeamId_cur ..

end Sys2Proof.Machine
end

