-- ==== Sys2Proof/Laws/PerInstr.lean ====
section
/-!
SUPPORT. Facts of every instruction, one lemma each: an instruction has a scalar word, a lane word, or none, and its word fits
its width.
-/
namespace Sys2Proof.Laws.Width

/-- A scalar word fits 32 bits, a lane word 96, and no instruction has both. -/
def Statement (i : Instr) : Prop :=
  (∀ w, encodeScalar i = some w → w < 2 ^ 32) ∧ (∀ w, encodeLane i = some w → w < 2 ^ 96)
    ∧ (encodeScalar i = none ∨ encodeLane i = none)

theorem scalar {i : Instr} {w : Nat} (h : encodeScalar i = some w) (hl : encodeLane i = none) (hw : w < 2 ^ 32) : Statement i :=
  ⟨fun _ e => Option.some.inj (h.symm.trans e) ▸ hw, fun _ e => (Option.some_ne_none _ (e.symm.trans hl)).elim, .inr hl⟩

theorem lane {i : Instr} {w : Nat} (h : encodeScalar i = none) (hl : encodeLane i = some w) (hw : w < 2 ^ 96) : Statement i :=
  ⟨fun _ e => (Option.some_ne_none _ (e.symm.trans h)).elim, fun _ e => Option.some.inj (hl.symm.trans e) ▸ hw, .inl h⟩

theorem event {i : Instr} (h : encodeScalar i = none) (hl : encodeLane i = none) : Statement i :=
  ⟨fun _ e => (Option.some_ne_none _ (e.symm.trans h)).elim, fun _ e => (Option.some_ne_none _ (e.symm.trans hl)).elim, .inl h⟩

theorem add (d : XReg) (a : XReg) (b : XReg) : Statement (.add d a b) := scalar rfl rfl (encSR_lt (by decide) _ _ _)
theorem sub (d : XReg) (a : XReg) (b : XReg) : Statement (.sub d a b) := scalar rfl rfl (encSR_lt (by decide) _ _ _)
theorem mul (d : XReg) (a : XReg) (b : XReg) : Statement (.mul d a b) := scalar rfl rfl (encSR_lt (by decide) _ _ _)
theorem mulh (d : XReg) (a : XReg) (b : XReg) : Statement (.mulh d a b) := scalar rfl rfl (encSR_lt (by decide) _ _ _)
theorem mulhu (d : XReg) (a : XReg) (b : XReg) : Statement (.mulhu d a b) := scalar rfl rfl (encSR_lt (by decide) _ _ _)
theorem div (d : XReg) (a : XReg) (b : XReg) : Statement (.div d a b) := scalar rfl rfl (encSR_lt (by decide) _ _ _)
theorem divu (d : XReg) (a : XReg) (b : XReg) : Statement (.divu d a b) := scalar rfl rfl (encSR_lt (by decide) _ _ _)
theorem rem (d : XReg) (a : XReg) (b : XReg) : Statement (.rem d a b) := scalar rfl rfl (encSR_lt (by decide) _ _ _)
theorem remu (d : XReg) (a : XReg) (b : XReg) : Statement (.remu d a b) := scalar rfl rfl (encSR_lt (by decide) _ _ _)
theorem and (d : XReg) (a : XReg) (b : XReg) : Statement (.and d a b) := scalar rfl rfl (encSR_lt (by decide) _ _ _)
theorem or (d : XReg) (a : XReg) (b : XReg) : Statement (.or d a b) := scalar rfl rfl (encSR_lt (by decide) _ _ _)
theorem xor (d : XReg) (a : XReg) (b : XReg) : Statement (.xor d a b) := scalar rfl rfl (encSR_lt (by decide) _ _ _)
theorem andn (d : XReg) (a : XReg) (b : XReg) : Statement (.andn d a b) := scalar rfl rfl (encSR_lt (by decide) _ _ _)
theorem shl (d : XReg) (a : XReg) (b : XReg) : Statement (.shl d a b) := scalar rfl rfl (encSR_lt (by decide) _ _ _)
theorem shr (d : XReg) (a : XReg) (b : XReg) : Statement (.shr d a b) := scalar rfl rfl (encSR_lt (by decide) _ _ _)
theorem sar (d : XReg) (a : XReg) (b : XReg) : Statement (.sar d a b) := scalar rfl rfl (encSR_lt (by decide) _ _ _)
theorem rotr (d : XReg) (a : XReg) (b : XReg) : Statement (.rotr d a b) := scalar rfl rfl (encSR_lt (by decide) _ _ _)
theorem min (d : XReg) (a : XReg) (b : XReg) : Statement (.min d a b) := scalar rfl rfl (encSR_lt (by decide) _ _ _)
theorem max (d : XReg) (a : XReg) (b : XReg) : Statement (.max d a b) := scalar rfl rfl (encSR_lt (by decide) _ _ _)
theorem minu (d : XReg) (a : XReg) (b : XReg) : Statement (.minu d a b) := scalar rfl rfl (encSR_lt (by decide) _ _ _)
theorem maxu (d : XReg) (a : XReg) (b : XReg) : Statement (.maxu d a b) := scalar rfl rfl (encSR_lt (by decide) _ _ _)
theorem slt (d : XReg) (a : XReg) (b : XReg) : Statement (.slt d a b) := scalar rfl rfl (encSR_lt (by decide) _ _ _)
theorem sltu (d : XReg) (a : XReg) (b : XReg) : Statement (.sltu d a b) := scalar rfl rfl (encSR_lt (by decide) _ _ _)
theorem seq (d : XReg) (a : XReg) (b : XReg) : Statement (.seq d a b) := scalar rfl rfl (encSR_lt (by decide) _ _ _)
theorem clz (d : XReg) (a : XReg) : Statement (.clz d a) := scalar rfl rfl (by simp only [put]; omega)
theorem ctz (d : XReg) (a : XReg) : Statement (.ctz d a) := scalar rfl rfl (by simp only [put]; omega)
theorem popc (d : XReg) (a : XReg) : Statement (.popc d a) := scalar rfl rfl (by simp only [put]; omega)
theorem addi (d : XReg) (a : XReg) (i : BitVec 16) : Statement (.addi d a i) := scalar rfl rfl (encSI_lt (by decide) _ _ _)
theorem andi (d : XReg) (a : XReg) (i : BitVec 16) : Statement (.andi d a i) := scalar rfl rfl (encSI_lt (by decide) _ _ _)
theorem ori (d : XReg) (a : XReg) (i : BitVec 16) : Statement (.ori d a i) := scalar rfl rfl (encSI_lt (by decide) _ _ _)
theorem xori (d : XReg) (a : XReg) (i : BitVec 16) : Statement (.xori d a i) := scalar rfl rfl (encSI_lt (by decide) _ _ _)
theorem shli (d : XReg) (a : XReg) (s : BitVec 6) : Statement (.shli d a s) := scalar rfl rfl (encSI_lt (by decide) _ _ _)
theorem shri (d : XReg) (a : XReg) (s : BitVec 6) : Statement (.shri d a s) := scalar rfl rfl (encSI_lt (by decide) _ _ _)
theorem sari (d : XReg) (a : XReg) (s : BitVec 6) : Statement (.sari d a s) := scalar rfl rfl (encSI_lt (by decide) _ _ _)
theorem slti (d : XReg) (a : XReg) (i : BitVec 16) : Statement (.slti d a i) := scalar rfl rfl (encSI_lt (by decide) _ _ _)
theorem sltui (d : XReg) (a : XReg) (i : BitVec 16) : Statement (.sltui d a i) := scalar rfl rfl (encSI_lt (by decide) _ _ _)
theorem lui (d : XReg) (i : BitVec 21) : Statement (.lui d i) := scalar rfl rfl (encSU_lt (by decide) _ _)
theorem apc (d : XReg) (i : BitVec 21) : Statement (.apc d i) := scalar rfl rfl (encSU_lt (by decide) _ _)
theorem ldB (d : XReg) (a : XReg) (i : BitVec 16) : Statement (.ldB d a i) := scalar rfl rfl (encSI_lt (by decide) _ _ _)
theorem ldH (d : XReg) (a : XReg) (i : BitVec 16) : Statement (.ldH d a i) := scalar rfl rfl (encSI_lt (by decide) _ _ _)
theorem ldW (d : XReg) (a : XReg) (i : BitVec 16) : Statement (.ldW d a i) := scalar rfl rfl (encSI_lt (by decide) _ _ _)
theorem ldD (d : XReg) (a : XReg) (i : BitVec 16) : Statement (.ldD d a i) := scalar rfl rfl (encSI_lt (by decide) _ _ _)
theorem lduB (d : XReg) (a : XReg) (i : BitVec 16) : Statement (.lduB d a i) := scalar rfl rfl (encSI_lt (by decide) _ _ _)
theorem lduH (d : XReg) (a : XReg) (i : BitVec 16) : Statement (.lduH d a i) := scalar rfl rfl (encSI_lt (by decide) _ _ _)
theorem lduW (d : XReg) (a : XReg) (i : BitVec 16) : Statement (.lduW d a i) := scalar rfl rfl (encSI_lt (by decide) _ _ _)
theorem stB (s : XReg) (a : XReg) (i : BitVec 16) : Statement (.stB s a i) := scalar rfl rfl (encSI_lt (by decide) _ _ _)
theorem stH (s : XReg) (a : XReg) (i : BitVec 16) : Statement (.stH s a i) := scalar rfl rfl (encSI_lt (by decide) _ _ _)
theorem stW (s : XReg) (a : XReg) (i : BitVec 16) : Statement (.stW s a i) := scalar rfl rfl (encSI_lt (by decide) _ _ _)
theorem stD (s : XReg) (a : XReg) (i : BitVec 16) : Statement (.stD s a i) := scalar rfl rfl (encSI_lt (by decide) _ _ _)
theorem amo (d : XReg) (a : XReg) (b : XReg) (c : BitVec 3) (z : BitVec 2) (o : BitVec 4) : Statement (.amo d a b c z o) := scalar rfl rfl (by simp only [put]; omega)
theorem cas (d : XReg) (a : XReg) (b : XReg) (c : BitVec 3) (z : BitVec 2) : Statement (.cas d a b c z) := scalar rfl rfl (by simp only [put]; omega)
theorem beq (a : XReg) (b : XReg) (o : BitVec 16) : Statement (.beq a b o) := scalar rfl rfl (encSI_lt (by decide) _ _ _)
theorem bne (a : XReg) (b : XReg) (o : BitVec 16) : Statement (.bne a b o) := scalar rfl rfl (encSI_lt (by decide) _ _ _)
theorem blt (a : XReg) (b : XReg) (o : BitVec 16) : Statement (.blt a b o) := scalar rfl rfl (encSI_lt (by decide) _ _ _)
theorem bge (a : XReg) (b : XReg) (o : BitVec 16) : Statement (.bge a b o) := scalar rfl rfl (encSI_lt (by decide) _ _ _)
theorem bltu (a : XReg) (b : XReg) (o : BitVec 16) : Statement (.bltu a b o) := scalar rfl rfl (encSI_lt (by decide) _ _ _)
theorem bgeu (a : XReg) (b : XReg) (o : BitVec 16) : Statement (.bgeu a b o) := scalar rfl rfl (encSI_lt (by decide) _ _ _)
theorem jmp (o : BitVec 26) : Statement (.jmp o) := scalar rfl rfl (encLow_lt (by decide) _)
theorem call (o : BitVec 26) : Statement (.call o) := scalar rfl rfl (encLow_lt (by decide) _)
theorem ret : Statement (.ret) := scalar rfl rfl (by decide)
theorem jtab (i : BitVec 5) (t : XReg) : Statement (.jtab i t) := scalar rfl rfl (by simp only [put]; omega)
theorem lpad (l : BitVec 21) : Statement (.lpad l) := scalar rfl rfl (encLow_lt (by decide) _)
theorem lrun (c : BitVec 5) (i : BitVec 21) : Statement (.lrun c i) := scalar rfl rfl (encSU_lt (by decide) _ _)
theorem lwait (n : BitVec 16) : Statement (.lwait n) := scalar rfl rfl (encLow_lt (by decide) _)
theorem mrd (d : XReg) (n : BitVec 5) (k : BitVec 5) : Statement (.mrd d n k) := scalar rfl rfl (encSI_lt (by decide) _ _ _)
theorem mwr (n : BitVec 5) (a : XReg) (k : BitVec 5) : Statement (.mwr n a k) := scalar rfl rfl (encSI_lt (by decide) _ _ _)
theorem rel (s : BitVec 3) (m : BitVec 8) : Statement (.rel s m) := scalar rfl rfl (by simp only [put]; omega)
theorem acq (s : BitVec 3) : Statement (.acq s) := scalar rfl rfl (by simp only [put]; omega)
theorem fence (k : BitVec 3) (m : BitVec 8) : Statement (.fence k m) := scalar rfl rfl (by simp only [put]; omega)
theorem tlwait (a : XReg) (n : BitVec 3) : Statement (.tlwait a n) := scalar rfl rfl (by simp only [put]; omega)
theorem tlread (d : XReg) (n : BitVec 3) : Statement (.tlread d n) := scalar rfl rfl (encSU_lt (by decide) _ _)
theorem rcopy (d : XReg) (a : XReg) (p : BitVec 1) (n : BitVec 3) : Statement (.rcopy d a p n) := scalar rfl rfl (by simp only [put]; omega)
theorem rfeed (d : XReg) (a : XReg) (p : BitVec 1) (n : BitVec 3) : Statement (.rfeed d a p n) := scalar rfl rfl (by simp only [put]; omega)
theorem rspill (d : XReg) (a : XReg) (p : BitVec 1) (n : BitVec 3) : Statement (.rspill d a p n) := scalar rfl rfl (by simp only [put]; omega)
theorem evpop (d : XReg) : Statement (.evpop d) := scalar rfl rfl (by simp only [put]; omega)
theorem evwait : Statement (.evwait) := scalar rfl rfl (by decide)
theorem mxloop (d : XReg) (a : XReg) : Statement (.mxloop d a) := scalar rfl rfl (by simp only [put]; omega)
theorem wset (n : BitVec 3) (a : XReg) (b : XReg) (c : BitVec 2) : Statement (.wset n a b c) := scalar rfl rfl (by simp only [put]; omega)
theorem wfree (n : BitVec 3) : Statement (.wfree n) := scalar rfl rfl (by simp only [put]; omega)
theorem freeze (k : BitVec 2) : Statement (.freeze k) := scalar rfl rfl (encLow_lt (by decide) _)
theorem bar (i : BitVec 4) (s : BitVec 2) : Statement (.bar i s) := scalar rfl rfl (by simp only [put]; omega)
theorem qput (d : XReg) (a : XReg) (b : BitVec 1) : Statement (.qput d a b) := scalar rfl rfl (encSI_lt (by decide) _ _ _)
theorem qget (d : XReg) (a : XReg) (b : BitVec 1) : Statement (.qget d a b) := scalar rfl rfl (encSI_lt (by decide) _ _ _)
theorem yield : Statement (.yield) := scalar rfl rfl (by decide)
theorem exit (s : BitVec 16) : Statement (.exit s) := scalar rfl rfl (encLow_lt (by decide) _)
theorem trap (c : BitVec 16) : Statement (.trap c) := scalar rfl rfl (encLow_lt (by decide) _)
theorem svc (n : BitVec 16) : Statement (.svc n) := scalar rfl rfl (encLow_lt (by decide) _)
theorem sget (d : XReg) (n : BitVec 11) : Statement (.sget d n) := scalar rfl rfl (encSU_lt (by decide) _ _)
theorem sset (a : XReg) (n : BitVec 11) : Statement (.sset a n) := scalar rfl rfl (by simp only [put]; omega)
theorem eret : Statement (.eret) := scalar rfl rfl (by decide)
theorem brk (c : BitVec 16) : Statement (.brk c) := scalar rfl rfl (encLow_lt (by decide) _)
theorem snap (d : XReg) (a : XReg) : Statement (.snap d a) := scalar rfl rfl (by simp only [put]; omega)
theorem roll (a : XReg) (b : XReg) : Statement (.roll a b) := scalar rfl rfl (by simp only [put]; omega)
theorem nop : Statement (.nop) := scalar rfl rfl (by decide)
theorem lanePair (a : Half) (b : Half) : Statement (.lanePair a b) := lane rfl rfl (encPair_lt _ _)
theorem vadd (f : LArith) : Statement (.vadd f) := lane rfl rfl (encArith_lt (by decide) _)
theorem vsub (f : LArith) : Statement (.vsub f) := lane rfl rfl (encArith_lt (by decide) _)
theorem vmul (f : LArith) : Statement (.vmul f) := lane rfl rfl (encArith_lt (by decide) _)
theorem vmulh (f : LArith) : Statement (.vmulh f) := lane rfl rfl (encArith_lt (by decide) _)
theorem vmulhu (f : LArith) : Statement (.vmulhu f) := lane rfl rfl (encArith_lt (by decide) _)
theorem vmad (f : LArith) : Statement (.vmad f) := lane rfl rfl (encArith_lt (by decide) _)
theorem vmin (f : LArith) : Statement (.vmin f) := lane rfl rfl (encArith_lt (by decide) _)
theorem vmax (f : LArith) : Statement (.vmax f) := lane rfl rfl (encArith_lt (by decide) _)
theorem vminu (f : LArith) : Statement (.vminu f) := lane rfl rfl (encArith_lt (by decide) _)
theorem vmaxu (f : LArith) : Statement (.vmaxu f) := lane rfl rfl (encArith_lt (by decide) _)
theorem vand (f : LArith) : Statement (.vand f) := lane rfl rfl (encArith_lt (by decide) _)
theorem vor (f : LArith) : Statement (.vor f) := lane rfl rfl (encArith_lt (by decide) _)
theorem vxor (f : LArith) : Statement (.vxor f) := lane rfl rfl (encArith_lt (by decide) _)
theorem vandn (f : LArith) : Statement (.vandn f) := lane rfl rfl (encArith_lt (by decide) _)
theorem vshl (f : LArith) : Statement (.vshl f) := lane rfl rfl (encArith_lt (by decide) _)
theorem vshr (f : LArith) : Statement (.vshr f) := lane rfl rfl (encArith_lt (by decide) _)
theorem vsar (f : LArith) : Statement (.vsar f) := lane rfl rfl (encArith_lt (by decide) _)
theorem vrotr (f : LArith) : Statement (.vrotr f) := lane rfl rfl (encArith_lt (by decide) _)
theorem vclz (f : LArith) : Statement (.vclz f) := lane rfl rfl (encArith_lt (by decide) _)
theorem vpopc (f : LArith) : Statement (.vpopc f) := lane rfl rfl (encArith_lt (by decide) _)
theorem vbrev (f : LArith) : Statement (.vbrev f) := lane rfl rfl (encArith_lt (by decide) _)
theorem vabs (f : LArith) : Statement (.vabs f) := lane rfl rfl (encArith_lt (by decide) _)
theorem vaddsat (f : LArith) : Statement (.vaddsat f) := lane rfl rfl (encArith_lt (by decide) _)
theorem vsubsat (f : LArith) : Statement (.vsubsat f) := lane rfl rfl (encArith_lt (by decide) _)
theorem vbfx (f : LArith) : Statement (.vbfx f) := lane rfl rfl (encArith_lt (by decide) _)
theorem vbfi (f : LArith) : Statement (.vbfi f) := lane rfl rfl (encArith_lt (by decide) _)
theorem vsel (f : LArith) : Statement (.vsel f) := lane rfl rfl (encArith_lt (by decide) _)
theorem vmov (f : LArith) : Statement (.vmov f) := lane rfl rfl (encArith_lt (by decide) _)
theorem vdot4 (f : LArith) : Statement (.vdot4 f) := lane rfl rfl (encArith_lt (by decide) _)
theorem vrqz (f : LArith) : Statement (.vrqz f) := lane rfl rfl (encArith_lt (by decide) _)
theorem vfadd (f : LArith) : Statement (.vfadd f) := lane rfl rfl (encArith_lt (by decide) _)
theorem vfsub (f : LArith) : Statement (.vfsub f) := lane rfl rfl (encArith_lt (by decide) _)
theorem vfmul (f : LArith) : Statement (.vfmul f) := lane rfl rfl (encArith_lt (by decide) _)
theorem vfma (f : LArith) : Statement (.vfma f) := lane rfl rfl (encArith_lt (by decide) _)
theorem vfmin (f : LArith) : Statement (.vfmin f) := lane rfl rfl (encArith_lt (by decide) _)
theorem vfmax (f : LArith) : Statement (.vfmax f) := lane rfl rfl (encArith_lt (by decide) _)
theorem vfabs (f : LArith) : Statement (.vfabs f) := lane rfl rfl (encArith_lt (by decide) _)
theorem vfneg (f : LArith) : Statement (.vfneg f) := lane rfl rfl (encArith_lt (by decide) _)
theorem vfrnd (f : LArith) : Statement (.vfrnd f) := lane rfl rfl (encArith_lt (by decide) _)
theorem vfclass (f : LArith) : Statement (.vfclass f) := lane rfl rfl (encArith_lt (by decide) _)
theorem vnadd (f : LArith) : Statement (.vnadd f) := lane rfl rfl (encArith_lt (by decide) _)
theorem vnmul (f : LArith) : Statement (.vnmul f) := lane rfl rfl (encArith_lt (by decide) _)
theorem vnfma (f : LArith) : Statement (.vnfma f) := lane rfl rfl (encArith_lt (by decide) _)
theorem vnmax (f : LArith) : Statement (.vnmax f) := lane rfl rfl (encArith_lt (by decide) _)
theorem vnmin (f : LArith) : Statement (.vnmin f) := lane rfl rfl (encArith_lt (by decide) _)
theorem vfdiv (f : LArith) : Statement (.vfdiv f) := lane rfl rfl (encArith_lt (by decide) _)
theorem vfsqrt (f : LArith) : Statement (.vfsqrt f) := lane rfl rfl (encArith_lt (by decide) _)
theorem vrcp (f : LArith) : Statement (.vrcp f) := lane rfl rfl (encArith_lt (by decide) _)
theorem vrsq (f : LArith) : Statement (.vrsq f) := lane rfl rfl (encArith_lt (by decide) _)
theorem vexp2 (f : LArith) : Statement (.vexp2 f) := lane rfl rfl (encArith_lt (by decide) _)
theorem vlog2 (f : LArith) : Statement (.vlog2 f) := lane rfl rfl (encArith_lt (by decide) _)
theorem vsin (f : LArith) : Statement (.vsin f) := lane rfl rfl (encArith_lt (by decide) _)
theorem vcos (f : LArith) : Statement (.vcos f) := lane rfl rfl (encArith_lt (by decide) _)
theorem vtanh (f : LArith) : Statement (.vtanh f) := lane rfl rfl (encArith_lt (by decide) _)
theorem vcvt (f : LArith) : Statement (.vcvt f) := lane rfl rfl (encArith_lt (by decide) _)
theorem vcvtd (f : LArith) : Statement (.vcvtd f) := lane rfl rfl (encArith_lt (by decide) _)
theorem vcvtnf (f : LArith) : Statement (.vcvtnf f) := lane rfl rfl (encArith_lt (by decide) _)
theorem vpack (f : LArith) : Statement (.vpack f) := lane rfl rfl (encArith_lt (by decide) _)
theorem vunpack (f : LArith) : Statement (.vunpack f) := lane rfl rfl (encArith_lt (by decide) _)
theorem vbsc (f : LArith) : Statement (.vbsc f) := lane rfl rfl (encArith_lt (by decide) _)
theorem vbq (f : LArith) : Statement (.vbq f) := lane rfl rfl (encArith_lt (by decide) _)
theorem vbdq (f : LArith) : Statement (.vbdq f) := lane rfl rfl (encArith_lt (by decide) _)
theorem vcmp (f : LMask) : Statement (.vcmp f) := lane rfl rfl (encMask_lt (by decide) _)
theorem vfcmp (f : LMask) : Statement (.vfcmp f) := lane rfl rfl (encMask_lt (by decide) _)
theorem vmlog (f : LMask) : Statement (.vmlog f) := lane rfl rfl (encMask_lt (by decide) _)
theorem vmpop (f : LMask) : Statement (.vmpop f) := lane rfl rfl (encMask_lt (by decide) _)
theorem vmfirst (f : LMask) : Statement (.vmfirst f) := lane rfl rfl (encMask_lt (by decide) _)
theorem vif (f : LMask) : Statement (.vif f) := lane rfl rfl (encMask_lt (by decide) _)
theorem velse (f : LMask) : Statement (.velse f) := lane rfl rfl (encMask_lt (by decide) _)
theorem vendif (f : LMask) : Statement (.vendif f) := lane rfl rfl (encMask_lt (by decide) _)
theorem vbreak (f : LMask) : Statement (.vbreak f) := lane rfl rfl (encMask_lt (by decide) _)
theorem vshfl (f : LCross) : Statement (.vshfl f) := lane rfl rfl (encCross_lt (by decide) _)
theorem vbcast (f : LCross) : Statement (.vbcast f) := lane rfl rfl (encCross_lt (by decide) _)
theorem vrot (f : LCross) : Statement (.vrot f) := lane rfl rfl (encCross_lt (by decide) _)
theorem vvote (f : LCross) : Statement (.vvote f) := lane rfl rfl (encCross_lt (by decide) _)
theorem vred (f : LCross) : Statement (.vred f) := lane rfl rfl (encCross_lt (by decide) _)
theorem vfred (f : LCross) : Statement (.vfred f) := lane rfl rfl (encCross_lt (by decide) _)
theorem vscan (f : LCross) : Statement (.vscan f) := lane rfl rfl (encCross_lt (by decide) _)
theorem vfscan (f : LCross) : Statement (.vfscan f) := lane rfl rfl (encCross_lt (by decide) _)
theorem vmatch (f : LCross) : Statement (.vmatch f) := lane rfl rfl (encCross_lt (by decide) _)
theorem vcompact (f : LCross) : Statement (.vcompact f) := lane rfl rfl (encCross_lt (by decide) _)
theorem vexpand (f : LCross) : Statement (.vexpand f) := lane rfl rfl (encCross_lt (by decide) _)
theorem vld (f : LMem) : Statement (.vld f) := lane rfl rfl (encMem_lt (by decide) _)
theorem vst (f : LMem) : Statement (.vst f) := lane rfl rfl (encMem_lt (by decide) _)
theorem vldp (f : LMem) : Statement (.vldp f) := lane rfl rfl (encMem_lt (by decide) _)
theorem vstp (f : LMem) : Statement (.vstp f) := lane rfl rfl (encMem_lt (by decide) _)
theorem vldb (f : LMem) : Statement (.vldb f) := lane rfl rfl (encMem_lt (by decide) _)
theorem vstb (f : LMem) : Statement (.vstb f) := lane rfl rfl (encMem_lt (by decide) _)
theorem vldrow (f : LMem) : Statement (.vldrow f) := lane rfl rfl (encMem_lt (by decide) _)
theorem vtst (f : LMem) : Statement (.vtst f) := lane rfl rfl (encMem_lt (by decide) _)
theorem vpref (f : LMem) : Statement (.vpref f) := lane rfl rfl (encMem_lt (by decide) _)
theorem vatom (f : LMem) : Statement (.vatom f) := lane rfl rfl (encMem_lt (by decide) _)
theorem vcas (f : LMem) : Statement (.vcas f) := lane rfl rfl (encMem_lt (by decide) _)
theorem vrowatom (f : LMem) : Statement (.vrowatom f) := lane rfl rfl (encMem_lt (by decide) _)
theorem vwst (f : LMat) : Statement (.vwst f) := lane rfl rfl (encMat_lt (by decide) _)
theorem vqput (f : LMat) : Statement (.vqput f) := lane rfl rfl (encMat_lt (by decide) _)
theorem vadr (f : LMat) : Statement (.vadr f) := lane rfl rfl (encMat_lt (by decide) _)
theorem vaclr (f : LMat) : Statement (.vaclr f) := lane rfl rfl (encMat_lt (by decide) _)
theorem vnrred (f : LMat) : Statement (.vnrred f) := lane rfl rfl (encMat_lt (by decide) _)
theorem vnrld (f : LMat) : Statement (.vnrld f) := lane rfl rfl (encMat_lt (by decide) _)
theorem vnrst (f : LMat) : Statement (.vnrst f) := lane rfl rfl (encMat_lt (by decide) _)
theorem vnrclone (f : LMat) : Statement (.vnrclone f) := lane rfl rfl (encMat_lt (by decide) _)
theorem vnop (f : LCtl) : Statement (.vnop f) := lane rfl rfl (encCtl_lt (by decide) _)
theorem vend (f : LCtl) : Statement (.vend f) := lane rfl rfl (encCtl_lt (by decide) _)
theorem laneBlockStart (team : Nat) : Statement (.laneBlockStart team) := event rfl rfl
theorem loadDataReturn (team : Nat) (op : Nat) : Statement (.loadDataReturn team op) := event rfl rfl
theorem homeSliceAtomic (slice : Nat) : Statement (.homeSliceAtomic slice) := event rfl rfl
theorem atomicOldValueReturn (team : Nat) (op : Nat) : Statement (.atomicOldValueReturn team op) := event rfl rfl
theorem atomicCollectionClose (slice : Nat) : Statement (.atomicCollectionClose slice) := event rfl rfl
theorem psnShareArrival (psn : Nat) (slice : Nat) : Statement (.psnShareArrival psn slice) := event rfl rfl
theorem psnCommit : Statement (.psnCommit) := event rfl rfl
theorem heldNotice (psn : Nat) (route : NoticeRoute) : Statement (.heldNotice psn route) := event rfl rfl
theorem commitNotice (psn : Nat) (cluster : Nat) : Statement (.commitNotice psn cluster) := event rfl rfl
theorem segmentSealTimeout (log : Nat) : Statement (.segmentSealTimeout log) := event rfl rfl
theorem skimmerCompact (seg : Nat) : Statement (.skimmerCompact seg) := event rfl rfl
theorem retireNotice (seg : Nat) (cluster : Nat) : Statement (.retireNotice seg cluster) := event rfl rfl
theorem appendResume : Statement (.appendResume) := event rfl rfl
theorem spacealarm : Statement (.spacealarm) := event rfl rfl
theorem spillWaitEnd (team : Nat) : Statement (.spillWaitEnd team) := event rfl rfl
theorem stalecntFlush (cluster : Nat) : Statement (.stalecntFlush cluster) := event rfl rfl
theorem basinStallTimeout (team : Nat) : Statement (.basinStallTimeout team) := event rfl rfl
theorem teamRedispatch (team : Nat) : Statement (.teamRedispatch team) := event rfl rfl
theorem teamRestore (team : Nat) : Statement (.teamRestore team) := event rfl rfl
theorem waitSatisfied (team : Nat) : Statement (.waitSatisfied team) := event rfl rfl
theorem barrierGenerationComplete (team : Nat) : Statement (.barrierGenerationComplete team) := event rfl rfl
theorem yieldEnd (team : Nat) : Statement (.yieldEnd team) := event rfl rfl
theorem teamPromotion (team : Nat) (lane : Bool) : Statement (.teamPromotion team lane) := event rfl rfl
theorem runnelStart (op : Nat) : Statement (.runnelStart op) := event rfl rfl
theorem runnelEnd (op : Nat) : Statement (.runnelEnd op) := event rfl rfl
theorem completionRecordPost (core : Nat) : Statement (.completionRecordPost core) := event rfl rfl
theorem mxloopGrant (cluster : Nat) : Statement (.mxloopGrant cluster) := event rfl rfl
theorem matrixStep (loop : Nat) (row : Nat) : Statement (.matrixStep loop row) := event rfl rfl
theorem matrixUpdateLand (loop : Nat) (row : Nat) : Statement (.matrixUpdateLand loop row) := event rfl rfl
theorem cascadeComplete (team : Nat) (num : Nat) : Statement (.cascadeComplete team num) := event rfl rfl
theorem sealObserved (tenant : Nat) (queue : Nat) : Statement (.sealObserved tenant queue) := event rfl rfl
theorem launchParse (launch : Nat) : Statement (.launchParse launch) := event rfl rfl
theorem dependenceSatisfied (launch : Nat) : Statement (.dependenceSatisfied launch) := event rfl rfl
theorem launchPlace (launch : Nat) : Statement (.launchPlace launch) := event rfl rfl
theorem instanceStamp (launch : Nat) (core : Nat) : Statement (.instanceStamp launch core) := event rfl rfl
theorem templateSpreadCopy (image : Nat) (core : Nat) : Statement (.templateSpreadCopy image core) := event rfl rfl
theorem stageRebalance (launch : Nat) : Statement (.stageRebalance launch) := event rfl rfl
theorem sliceExpiry (launch : Nat) : Statement (.sliceExpiry launch) := event rfl rfl
theorem launchRestore (launch : Nat) : Statement (.launchRestore launch) := event rfl rfl
theorem launchComplete (launch : Nat) : Statement (.launchComplete launch) := event rfl rfl
theorem patrolScrub (find : ScrubFinding) : Statement (.patrolScrub find) := event rfl rfl
theorem slicePauseEnd (slice : Nat) : Statement (.slicePauseEnd slice) := event rfl rfl
theorem dieLinkLoss : Statement (.dieLinkLoss) := event rfl rfl
theorem tcfWatchdog : Statement (.tcfWatchdog) := event rfl rfl
theorem coldReset (boot : BootSetup) : Statement (.coldReset boot) := event rfl rfl
theorem junctionTemperature (degrees : Nat) : Statement (.junctionTemperature degrees) := event rfl rfl
theorem powerCapExceeded (watts : Nat) : Statement (.powerCapExceeded watts) := event rfl rfl
theorem coolantFlowLow (low : Bool) : Statement (.coolantFlowLow low) := event rfl rfl
theorem refreshWindow (compute : Bool) : Statement (.refreshWindow compute) := event rfl rfl
theorem ageCapExpiry (channel : Nat) : Statement (.ageCapExpiry channel) := event rfl rfl
theorem scanInterval : Statement (.scanInterval) := event rfl rfl
theorem scanComplete (core : Nat) (pass : Bool) (sig : Word64) : Statement (.scanComplete core pass sig) := event rfl rfl
theorem pairedTwinTimeout (team : Nat) : Statement (.pairedTwinTimeout team) := event rfl rfl
theorem pairedAtomicTimeout (slice : Nat) : Statement (.pairedAtomicTimeout slice) := event rfl rfl
theorem cxlMemRead (hpa : Nat) : Statement (.cxlMemRead hpa) := event rfl rfl
theorem cxlMemWrite (hpa : Nat) (data : BitVec 512) (be : BitVec 64) (poison : Bool) : Statement (.cxlMemWrite hpa data be poison) := event rfl rfl
theorem hostBatchClose : Statement (.hostBatchClose) := event rfl rfl
theorem msixUnmask (fn : Nat) (vec : Nat) : Statement (.msixUnmask fn vec) := event rfl rfl
theorem xlinvVaRange : Statement (.xlinvVaRange) := event rfl rfl
theorem xlinvContext : Statement (.xlinvContext) := event rfl rfl
theorem xlinvWindow : Statement (.xlinvWindow) := event rfl rfl
theorem xlinvAll : Statement (.xlinvAll) := event rfl rfl
theorem xlinvComplete : Statement (.xlinvComplete) := event rfl rfl
theorem resumeContinue (tenant : Nat) (ctx : Nat) (seq : Nat) : Statement (.resumeContinue tenant ctx seq) := event rfl rfl
theorem resumeKill (tenant : Nat) (ctx : Nat) (seq : Nat) : Statement (.resumeKill tenant ctx seq) := event rfl rfl
theorem devctlEnable (on : Bool) : Statement (.devctlEnable on) := event rfl rfl
theorem devctlWarmreq : Statement (.devctlWarmreq) := event rfl rfl
theorem dbgHalt (core : Nat) (slot : Nat) : Statement (.dbgHalt core slot) := event rfl rfl
theorem dbgResume (core : Nat) (slot : Nat) : Statement (.dbgResume core slot) := event rfl rfl
theorem dbgStep (core : Nat) (slot : Nat) : Statement (.dbgStep core slot) := event rfl rfl
theorem registerWrite (off : Nat) (value : Word64) : Statement (.registerWrite off value) := event rfl rfl
theorem snapfree (win : Nat) (handle : Nat) (session : Nat) : Statement (.snapfree win handle session) := event rfl rfl
theorem exportWindow (args : ExportArgs) : Statement (.exportWindow args) := event rfl rfl
theorem takeover (args : TakeoverArgs) : Statement (.takeover args) := event rfl rfl
theorem mailboxCommand (cmd : MailCmd) : Statement (.mailboxCommand cmd) := event rfl rfl
theorem spdmMeasurement (nonce : Nat) : Statement (.spdmMeasurement nonce) := event rfl rfl
theorem spdmChallenge (nonce : Nat) : Statement (.spdmChallenge nonce) := event rfl rfl
theorem spdmCertificate (slot : Nat) : Statement (.spdmCertificate slot) := event rfl rfl
theorem spillwayShip (win : Nat) : Statement (.spillwayShip win) := event rfl rfl
theorem spillwayCut (win : Nat) : Statement (.spillwayCut win) := event rfl rfl
theorem replicaSegmentData (burst : ReplicaBurst) : Statement (.replicaSegmentData burst) := event rfl rfl
theorem replicaCut (port : Nat) (ends : FlitEnds) (win : Nat) (psn : Nat) : Statement (.replicaCut port ends win psn) := event rfl rfl
theorem cutEcho (port : Nat) (ends : FlitEnds) (win : Nat) (psn : Nat) : Statement (.cutEcho port ends win psn) := event rfl rfl
theorem takeoverFlit (port : Nat) (ends : FlitEnds) : Statement (.takeoverFlit port ends) := event rfl rfl
theorem hostWindowStoreAck (store : Nat) : Statement (.hostWindowStoreAck store) := event rfl rfl
theorem computeRowStoreAtBank (store : Nat) : Statement (.computeRowStoreAtBank store) := event rfl rfl
theorem savefull : Statement (.savefull) := event rfl rfl

end Sys2Proof.Laws.Width
end

