-- ==== Sys2Proof/Laws/State.lean ====
section
/-!
SUPPORT. What the updates of the state leave alone, one lemma per field and update, and what they write.
-/
namespace Sys2Proof.Machine

/-! ## Fields that an update leaves alone -/

@[simp] theorem State.withS_turns (s : State) (f : Scalar → Scalar) : (s.withS f).turns = s.turns := rfl
@[simp] theorem State.withS_free (s : State) (f : Scalar → Scalar) : (s.withS f).free = s.free := rfl
@[simp] theorem State.withS_stamp (s : State) (f : Scalar → Scalar) : (s.withS f).stamp = s.stamp := rfl
@[simp] theorem State.withS_lastCore (s : State) (f : Scalar → Scalar) : (s.withS f).lastCore = s.lastCore := rfl
@[simp] theorem State.withS_teams (s : State) (f : Scalar → Scalar) : (s.withS f).teams = s.teams := rfl
@[simp] theorem State.withS_cores (s : State) (f : Scalar → Scalar) : (s.withS f).cores = s.cores := rfl
@[simp] theorem State.withS_clusters (s : State) (f : Scalar → Scalar) : (s.withS f).clusters = s.clusters := rfl
@[simp] theorem State.withS_slices (s : State) (f : Scalar → Scalar) : (s.withS f).slices = s.slices := rfl
@[simp] theorem State.withS_hbm (s : State) (f : Scalar → Scalar) : (s.withS f).hbm = s.hbm := rfl
@[simp] theorem State.withS_chk (s : State) (f : Scalar → Scalar) : (s.withS f).chk = s.chk := rfl
@[simp] theorem State.withS_bad (s : State) (f : Scalar → Scalar) : (s.withS f).bad = s.bad := rfl
@[simp] theorem State.withS_crow (s : State) (f : Scalar → Scalar) : (s.withS f).crow = s.crow := rfl
@[simp] theorem State.withS_crowBad (s : State) (f : Scalar → Scalar) : (s.withS f).crowBad = s.crowBad := rfl
@[simp] theorem State.withS_host (s : State) (f : Scalar → Scalar) : (s.withS f).host = s.host := rfl
@[simp] theorem State.withS_hostBad (s : State) (f : Scalar → Scalar) : (s.withS f).hostBad = s.hostBad := rfl
@[simp] theorem State.withS_psnNext (s : State) (f : Scalar → Scalar) : (s.withS f).psnNext = s.psnNext := rfl
@[simp] theorem State.withS_commitPoint (s : State) (f : Scalar → Scalar) : (s.withS f).commitPoint = s.commitPoint := rfl
@[simp] theorem State.withS_pubs (s : State) (f : Scalar → Scalar) : (s.withS f).pubs = s.pubs := rfl
@[simp] theorem State.withS_posted (s : State) (f : Scalar → Scalar) : (s.withS f).posted = s.posted := rfl
@[simp] theorem State.withS_cascades (s : State) (f : Scalar → Scalar) : (s.withS f).cascades = s.cascades := rfl
@[simp] theorem State.withS_done (s : State) (f : Scalar → Scalar) : (s.withS f).done = s.done := rfl
@[simp] theorem State.withS_logs (s : State) (f : Scalar → Scalar) : (s.withS f).logs = s.logs := rfl
@[simp] theorem State.withS_segs (s : State) (f : Scalar → Scalar) : (s.withS f).segs = s.segs := rfl
@[simp] theorem State.withS_ixUsed (s : State) (f : Scalar → Scalar) : (s.withS f).ixUsed = s.ixUsed := rfl
@[simp] theorem State.withS_windows (s : State) (f : Scalar → Scalar) : (s.withS f).windows = s.windows := rfl
@[simp] theorem State.withS_contexts (s : State) (f : Scalar → Scalar) : (s.withS f).contexts = s.contexts := rfl
@[simp] theorem State.withS_peers (s : State) (f : Scalar → Scalar) : (s.withS f).peers = s.peers := rfl
@[simp] theorem State.withS_snaps (s : State) (f : Scalar → Scalar) : (s.withS f).snaps = s.snaps := rfl
@[simp] theorem State.withS_images (s : State) (f : Scalar → Scalar) : (s.withS f).images = s.images := rfl
@[simp] theorem State.withS_copies (s : State) (f : Scalar → Scalar) : (s.withS f).copies = s.copies := rfl
@[simp] theorem State.withS_launches (s : State) (f : Scalar → Scalar) : (s.withS f).launches = s.launches := rfl
@[simp] theorem State.withS_dev (s : State) (f : Scalar → Scalar) : (s.withS f).dev = s.dev := rfl

@[simp] theorem State.setX_turns (s : State) (r : XReg) (v : Word64) : (s.setX r v).turns = s.turns := rfl
@[simp] theorem State.setX_free (s : State) (r : XReg) (v : Word64) : (s.setX r v).free = s.free := rfl
@[simp] theorem State.setX_stamp (s : State) (r : XReg) (v : Word64) : (s.setX r v).stamp = s.stamp := rfl
@[simp] theorem State.setX_lastCore (s : State) (r : XReg) (v : Word64) : (s.setX r v).lastCore = s.lastCore := rfl
@[simp] theorem State.setX_teams (s : State) (r : XReg) (v : Word64) : (s.setX r v).teams = s.teams := rfl
@[simp] theorem State.setX_cores (s : State) (r : XReg) (v : Word64) : (s.setX r v).cores = s.cores := rfl
@[simp] theorem State.setX_clusters (s : State) (r : XReg) (v : Word64) : (s.setX r v).clusters = s.clusters := rfl
@[simp] theorem State.setX_slices (s : State) (r : XReg) (v : Word64) : (s.setX r v).slices = s.slices := rfl
@[simp] theorem State.setX_hbm (s : State) (r : XReg) (v : Word64) : (s.setX r v).hbm = s.hbm := rfl
@[simp] theorem State.setX_chk (s : State) (r : XReg) (v : Word64) : (s.setX r v).chk = s.chk := rfl
@[simp] theorem State.setX_bad (s : State) (r : XReg) (v : Word64) : (s.setX r v).bad = s.bad := rfl
@[simp] theorem State.setX_crow (s : State) (r : XReg) (v : Word64) : (s.setX r v).crow = s.crow := rfl
@[simp] theorem State.setX_crowBad (s : State) (r : XReg) (v : Word64) : (s.setX r v).crowBad = s.crowBad := rfl
@[simp] theorem State.setX_host (s : State) (r : XReg) (v : Word64) : (s.setX r v).host = s.host := rfl
@[simp] theorem State.setX_hostBad (s : State) (r : XReg) (v : Word64) : (s.setX r v).hostBad = s.hostBad := rfl
@[simp] theorem State.setX_psnNext (s : State) (r : XReg) (v : Word64) : (s.setX r v).psnNext = s.psnNext := rfl
@[simp] theorem State.setX_commitPoint (s : State) (r : XReg) (v : Word64) : (s.setX r v).commitPoint = s.commitPoint := rfl
@[simp] theorem State.setX_pubs (s : State) (r : XReg) (v : Word64) : (s.setX r v).pubs = s.pubs := rfl
@[simp] theorem State.setX_posted (s : State) (r : XReg) (v : Word64) : (s.setX r v).posted = s.posted := rfl
@[simp] theorem State.setX_cascades (s : State) (r : XReg) (v : Word64) : (s.setX r v).cascades = s.cascades := rfl
@[simp] theorem State.setX_done (s : State) (r : XReg) (v : Word64) : (s.setX r v).done = s.done := rfl
@[simp] theorem State.setX_logs (s : State) (r : XReg) (v : Word64) : (s.setX r v).logs = s.logs := rfl
@[simp] theorem State.setX_segs (s : State) (r : XReg) (v : Word64) : (s.setX r v).segs = s.segs := rfl
@[simp] theorem State.setX_ixUsed (s : State) (r : XReg) (v : Word64) : (s.setX r v).ixUsed = s.ixUsed := rfl
@[simp] theorem State.setX_windows (s : State) (r : XReg) (v : Word64) : (s.setX r v).windows = s.windows := rfl
@[simp] theorem State.setX_contexts (s : State) (r : XReg) (v : Word64) : (s.setX r v).contexts = s.contexts := rfl
@[simp] theorem State.setX_peers (s : State) (r : XReg) (v : Word64) : (s.setX r v).peers = s.peers := rfl
@[simp] theorem State.setX_snaps (s : State) (r : XReg) (v : Word64) : (s.setX r v).snaps = s.snaps := rfl
@[simp] theorem State.setX_images (s : State) (r : XReg) (v : Word64) : (s.setX r v).images = s.images := rfl
@[simp] theorem State.setX_copies (s : State) (r : XReg) (v : Word64) : (s.setX r v).copies = s.copies := rfl
@[simp] theorem State.setX_launches (s : State) (r : XReg) (v : Word64) : (s.setX r v).launches = s.launches := rfl
@[simp] theorem State.setX_dev (s : State) (r : XReg) (v : Word64) : (s.setX r v).dev = s.dev := rfl

@[simp] theorem State.setPc_turns (s : State) (v : Word64) : (s.setPc v).turns = s.turns := rfl
@[simp] theorem State.setPc_free (s : State) (v : Word64) : (s.setPc v).free = s.free := rfl
@[simp] theorem State.setPc_stamp (s : State) (v : Word64) : (s.setPc v).stamp = s.stamp := rfl
@[simp] theorem State.setPc_lastCore (s : State) (v : Word64) : (s.setPc v).lastCore = s.lastCore := rfl
@[simp] theorem State.setPc_teams (s : State) (v : Word64) : (s.setPc v).teams = s.teams := rfl
@[simp] theorem State.setPc_cores (s : State) (v : Word64) : (s.setPc v).cores = s.cores := rfl
@[simp] theorem State.setPc_clusters (s : State) (v : Word64) : (s.setPc v).clusters = s.clusters := rfl
@[simp] theorem State.setPc_slices (s : State) (v : Word64) : (s.setPc v).slices = s.slices := rfl
@[simp] theorem State.setPc_hbm (s : State) (v : Word64) : (s.setPc v).hbm = s.hbm := rfl
@[simp] theorem State.setPc_chk (s : State) (v : Word64) : (s.setPc v).chk = s.chk := rfl
@[simp] theorem State.setPc_bad (s : State) (v : Word64) : (s.setPc v).bad = s.bad := rfl
@[simp] theorem State.setPc_crow (s : State) (v : Word64) : (s.setPc v).crow = s.crow := rfl
@[simp] theorem State.setPc_crowBad (s : State) (v : Word64) : (s.setPc v).crowBad = s.crowBad := rfl
@[simp] theorem State.setPc_host (s : State) (v : Word64) : (s.setPc v).host = s.host := rfl
@[simp] theorem State.setPc_hostBad (s : State) (v : Word64) : (s.setPc v).hostBad = s.hostBad := rfl
@[simp] theorem State.setPc_psnNext (s : State) (v : Word64) : (s.setPc v).psnNext = s.psnNext := rfl
@[simp] theorem State.setPc_commitPoint (s : State) (v : Word64) : (s.setPc v).commitPoint = s.commitPoint := rfl
@[simp] theorem State.setPc_pubs (s : State) (v : Word64) : (s.setPc v).pubs = s.pubs := rfl
@[simp] theorem State.setPc_posted (s : State) (v : Word64) : (s.setPc v).posted = s.posted := rfl
@[simp] theorem State.setPc_cascades (s : State) (v : Word64) : (s.setPc v).cascades = s.cascades := rfl
@[simp] theorem State.setPc_done (s : State) (v : Word64) : (s.setPc v).done = s.done := rfl
@[simp] theorem State.setPc_logs (s : State) (v : Word64) : (s.setPc v).logs = s.logs := rfl
@[simp] theorem State.setPc_segs (s : State) (v : Word64) : (s.setPc v).segs = s.segs := rfl
@[simp] theorem State.setPc_ixUsed (s : State) (v : Word64) : (s.setPc v).ixUsed = s.ixUsed := rfl
@[simp] theorem State.setPc_windows (s : State) (v : Word64) : (s.setPc v).windows = s.windows := rfl
@[simp] theorem State.setPc_contexts (s : State) (v : Word64) : (s.setPc v).contexts = s.contexts := rfl
@[simp] theorem State.setPc_peers (s : State) (v : Word64) : (s.setPc v).peers = s.peers := rfl
@[simp] theorem State.setPc_snaps (s : State) (v : Word64) : (s.setPc v).snaps = s.snaps := rfl
@[simp] theorem State.setPc_images (s : State) (v : Word64) : (s.setPc v).images = s.images := rfl
@[simp] theorem State.setPc_copies (s : State) (v : Word64) : (s.setPc v).copies = s.copies := rfl
@[simp] theorem State.setPc_launches (s : State) (v : Word64) : (s.setPc v).launches = s.launches := rfl
@[simp] theorem State.setPc_dev (s : State) (v : Word64) : (s.setPc v).dev = s.dev := rfl

@[simp] theorem State.advance_turns (s : State) : (s.advance).turns = s.turns := rfl
@[simp] theorem State.advance_free (s : State) : (s.advance).free = s.free := rfl
@[simp] theorem State.advance_stamp (s : State) : (s.advance).stamp = s.stamp := rfl
@[simp] theorem State.advance_lastCore (s : State) : (s.advance).lastCore = s.lastCore := rfl
@[simp] theorem State.advance_teams (s : State) : (s.advance).teams = s.teams := rfl
@[simp] theorem State.advance_cores (s : State) : (s.advance).cores = s.cores := rfl
@[simp] theorem State.advance_clusters (s : State) : (s.advance).clusters = s.clusters := rfl
@[simp] theorem State.advance_slices (s : State) : (s.advance).slices = s.slices := rfl
@[simp] theorem State.advance_hbm (s : State) : (s.advance).hbm = s.hbm := rfl
@[simp] theorem State.advance_chk (s : State) : (s.advance).chk = s.chk := rfl
@[simp] theorem State.advance_bad (s : State) : (s.advance).bad = s.bad := rfl
@[simp] theorem State.advance_crow (s : State) : (s.advance).crow = s.crow := rfl
@[simp] theorem State.advance_crowBad (s : State) : (s.advance).crowBad = s.crowBad := rfl
@[simp] theorem State.advance_host (s : State) : (s.advance).host = s.host := rfl
@[simp] theorem State.advance_hostBad (s : State) : (s.advance).hostBad = s.hostBad := rfl
@[simp] theorem State.advance_psnNext (s : State) : (s.advance).psnNext = s.psnNext := rfl
@[simp] theorem State.advance_commitPoint (s : State) : (s.advance).commitPoint = s.commitPoint := rfl
@[simp] theorem State.advance_pubs (s : State) : (s.advance).pubs = s.pubs := rfl
@[simp] theorem State.advance_posted (s : State) : (s.advance).posted = s.posted := rfl
@[simp] theorem State.advance_cascades (s : State) : (s.advance).cascades = s.cascades := rfl
@[simp] theorem State.advance_done (s : State) : (s.advance).done = s.done := rfl
@[simp] theorem State.advance_logs (s : State) : (s.advance).logs = s.logs := rfl
@[simp] theorem State.advance_segs (s : State) : (s.advance).segs = s.segs := rfl
@[simp] theorem State.advance_ixUsed (s : State) : (s.advance).ixUsed = s.ixUsed := rfl
@[simp] theorem State.advance_windows (s : State) : (s.advance).windows = s.windows := rfl
@[simp] theorem State.advance_contexts (s : State) : (s.advance).contexts = s.contexts := rfl
@[simp] theorem State.advance_peers (s : State) : (s.advance).peers = s.peers := rfl
@[simp] theorem State.advance_snaps (s : State) : (s.advance).snaps = s.snaps := rfl
@[simp] theorem State.advance_images (s : State) : (s.advance).images = s.images := rfl
@[simp] theorem State.advance_copies (s : State) : (s.advance).copies = s.copies := rfl
@[simp] theorem State.advance_launches (s : State) : (s.advance).launches = s.launches := rfl
@[simp] theorem State.advance_dev (s : State) : (s.advance).dev = s.dev := rfl

@[simp] theorem State.jumpTo_turns (s : State) (v : Word64) : (s.jumpTo v).turns = s.turns := rfl
@[simp] theorem State.jumpTo_free (s : State) (v : Word64) : (s.jumpTo v).free = s.free := rfl
@[simp] theorem State.jumpTo_stamp (s : State) (v : Word64) : (s.jumpTo v).stamp = s.stamp := rfl
@[simp] theorem State.jumpTo_lastCore (s : State) (v : Word64) : (s.jumpTo v).lastCore = s.lastCore := rfl
@[simp] theorem State.jumpTo_teams (s : State) (v : Word64) : (s.jumpTo v).teams = s.teams := rfl
@[simp] theorem State.jumpTo_cores (s : State) (v : Word64) : (s.jumpTo v).cores = s.cores := rfl
@[simp] theorem State.jumpTo_clusters (s : State) (v : Word64) : (s.jumpTo v).clusters = s.clusters := rfl
@[simp] theorem State.jumpTo_slices (s : State) (v : Word64) : (s.jumpTo v).slices = s.slices := rfl
@[simp] theorem State.jumpTo_hbm (s : State) (v : Word64) : (s.jumpTo v).hbm = s.hbm := rfl
@[simp] theorem State.jumpTo_chk (s : State) (v : Word64) : (s.jumpTo v).chk = s.chk := rfl
@[simp] theorem State.jumpTo_bad (s : State) (v : Word64) : (s.jumpTo v).bad = s.bad := rfl
@[simp] theorem State.jumpTo_crow (s : State) (v : Word64) : (s.jumpTo v).crow = s.crow := rfl
@[simp] theorem State.jumpTo_crowBad (s : State) (v : Word64) : (s.jumpTo v).crowBad = s.crowBad := rfl
@[simp] theorem State.jumpTo_host (s : State) (v : Word64) : (s.jumpTo v).host = s.host := rfl
@[simp] theorem State.jumpTo_hostBad (s : State) (v : Word64) : (s.jumpTo v).hostBad = s.hostBad := rfl
@[simp] theorem State.jumpTo_psnNext (s : State) (v : Word64) : (s.jumpTo v).psnNext = s.psnNext := rfl
@[simp] theorem State.jumpTo_commitPoint (s : State) (v : Word64) : (s.jumpTo v).commitPoint = s.commitPoint := rfl
@[simp] theorem State.jumpTo_pubs (s : State) (v : Word64) : (s.jumpTo v).pubs = s.pubs := rfl
@[simp] theorem State.jumpTo_posted (s : State) (v : Word64) : (s.jumpTo v).posted = s.posted := rfl
@[simp] theorem State.jumpTo_cascades (s : State) (v : Word64) : (s.jumpTo v).cascades = s.cascades := rfl
@[simp] theorem State.jumpTo_done (s : State) (v : Word64) : (s.jumpTo v).done = s.done := rfl
@[simp] theorem State.jumpTo_logs (s : State) (v : Word64) : (s.jumpTo v).logs = s.logs := rfl
@[simp] theorem State.jumpTo_segs (s : State) (v : Word64) : (s.jumpTo v).segs = s.segs := rfl
@[simp] theorem State.jumpTo_ixUsed (s : State) (v : Word64) : (s.jumpTo v).ixUsed = s.ixUsed := rfl
@[simp] theorem State.jumpTo_windows (s : State) (v : Word64) : (s.jumpTo v).windows = s.windows := rfl
@[simp] theorem State.jumpTo_contexts (s : State) (v : Word64) : (s.jumpTo v).contexts = s.contexts := rfl
@[simp] theorem State.jumpTo_peers (s : State) (v : Word64) : (s.jumpTo v).peers = s.peers := rfl
@[simp] theorem State.jumpTo_snaps (s : State) (v : Word64) : (s.jumpTo v).snaps = s.snaps := rfl
@[simp] theorem State.jumpTo_images (s : State) (v : Word64) : (s.jumpTo v).images = s.images := rfl
@[simp] theorem State.jumpTo_copies (s : State) (v : Word64) : (s.jumpTo v).copies = s.copies := rfl
@[simp] theorem State.jumpTo_launches (s : State) (v : Word64) : (s.jumpTo v).launches = s.launches := rfl
@[simp] theorem State.jumpTo_dev (s : State) (v : Word64) : (s.jumpTo v).dev = s.dev := rfl

@[simp] theorem State.result_turns (s : State) (r : XReg) (v : Word64) : (s.result r v).turns = s.turns := rfl
@[simp] theorem State.result_free (s : State) (r : XReg) (v : Word64) : (s.result r v).free = s.free := rfl
@[simp] theorem State.result_stamp (s : State) (r : XReg) (v : Word64) : (s.result r v).stamp = s.stamp := rfl
@[simp] theorem State.result_lastCore (s : State) (r : XReg) (v : Word64) : (s.result r v).lastCore = s.lastCore := rfl
@[simp] theorem State.result_teams (s : State) (r : XReg) (v : Word64) : (s.result r v).teams = s.teams := rfl
@[simp] theorem State.result_cores (s : State) (r : XReg) (v : Word64) : (s.result r v).cores = s.cores := rfl
@[simp] theorem State.result_clusters (s : State) (r : XReg) (v : Word64) : (s.result r v).clusters = s.clusters := rfl
@[simp] theorem State.result_slices (s : State) (r : XReg) (v : Word64) : (s.result r v).slices = s.slices := rfl
@[simp] theorem State.result_hbm (s : State) (r : XReg) (v : Word64) : (s.result r v).hbm = s.hbm := rfl
@[simp] theorem State.result_chk (s : State) (r : XReg) (v : Word64) : (s.result r v).chk = s.chk := rfl
@[simp] theorem State.result_bad (s : State) (r : XReg) (v : Word64) : (s.result r v).bad = s.bad := rfl
@[simp] theorem State.result_crow (s : State) (r : XReg) (v : Word64) : (s.result r v).crow = s.crow := rfl
@[simp] theorem State.result_crowBad (s : State) (r : XReg) (v : Word64) : (s.result r v).crowBad = s.crowBad := rfl
@[simp] theorem State.result_host (s : State) (r : XReg) (v : Word64) : (s.result r v).host = s.host := rfl
@[simp] theorem State.result_hostBad (s : State) (r : XReg) (v : Word64) : (s.result r v).hostBad = s.hostBad := rfl
@[simp] theorem State.result_psnNext (s : State) (r : XReg) (v : Word64) : (s.result r v).psnNext = s.psnNext := rfl
@[simp] theorem State.result_commitPoint (s : State) (r : XReg) (v : Word64) : (s.result r v).commitPoint = s.commitPoint := rfl
@[simp] theorem State.result_pubs (s : State) (r : XReg) (v : Word64) : (s.result r v).pubs = s.pubs := rfl
@[simp] theorem State.result_posted (s : State) (r : XReg) (v : Word64) : (s.result r v).posted = s.posted := rfl
@[simp] theorem State.result_cascades (s : State) (r : XReg) (v : Word64) : (s.result r v).cascades = s.cascades := rfl
@[simp] theorem State.result_done (s : State) (r : XReg) (v : Word64) : (s.result r v).done = s.done := rfl
@[simp] theorem State.result_logs (s : State) (r : XReg) (v : Word64) : (s.result r v).logs = s.logs := rfl
@[simp] theorem State.result_segs (s : State) (r : XReg) (v : Word64) : (s.result r v).segs = s.segs := rfl
@[simp] theorem State.result_ixUsed (s : State) (r : XReg) (v : Word64) : (s.result r v).ixUsed = s.ixUsed := rfl
@[simp] theorem State.result_windows (s : State) (r : XReg) (v : Word64) : (s.result r v).windows = s.windows := rfl
@[simp] theorem State.result_contexts (s : State) (r : XReg) (v : Word64) : (s.result r v).contexts = s.contexts := rfl
@[simp] theorem State.result_peers (s : State) (r : XReg) (v : Word64) : (s.result r v).peers = s.peers := rfl
@[simp] theorem State.result_snaps (s : State) (r : XReg) (v : Word64) : (s.result r v).snaps = s.snaps := rfl
@[simp] theorem State.result_images (s : State) (r : XReg) (v : Word64) : (s.result r v).images = s.images := rfl
@[simp] theorem State.result_copies (s : State) (r : XReg) (v : Word64) : (s.result r v).copies = s.copies := rfl
@[simp] theorem State.result_launches (s : State) (r : XReg) (v : Word64) : (s.result r v).launches = s.launches := rfl
@[simp] theorem State.result_dev (s : State) (r : XReg) (v : Word64) : (s.result r v).dev = s.dev := rfl

@[simp] theorem State.parkCur_turns (s : State) (w : WaitFor) : (s.parkCur w).turns = s.turns := rfl
@[simp] theorem State.parkCur_free (s : State) (w : WaitFor) : (s.parkCur w).free = s.free := rfl
@[simp] theorem State.parkCur_stamp (s : State) (w : WaitFor) : (s.parkCur w).stamp = s.stamp := rfl
@[simp] theorem State.parkCur_lastCore (s : State) (w : WaitFor) : (s.parkCur w).lastCore = s.lastCore := rfl
@[simp] theorem State.parkCur_teams (s : State) (w : WaitFor) : (s.parkCur w).teams = s.teams := rfl
@[simp] theorem State.parkCur_cores (s : State) (w : WaitFor) : (s.parkCur w).cores = s.cores := rfl
@[simp] theorem State.parkCur_clusters (s : State) (w : WaitFor) : (s.parkCur w).clusters = s.clusters := rfl
@[simp] theorem State.parkCur_slices (s : State) (w : WaitFor) : (s.parkCur w).slices = s.slices := rfl
@[simp] theorem State.parkCur_hbm (s : State) (w : WaitFor) : (s.parkCur w).hbm = s.hbm := rfl
@[simp] theorem State.parkCur_chk (s : State) (w : WaitFor) : (s.parkCur w).chk = s.chk := rfl
@[simp] theorem State.parkCur_bad (s : State) (w : WaitFor) : (s.parkCur w).bad = s.bad := rfl
@[simp] theorem State.parkCur_crow (s : State) (w : WaitFor) : (s.parkCur w).crow = s.crow := rfl
@[simp] theorem State.parkCur_crowBad (s : State) (w : WaitFor) : (s.parkCur w).crowBad = s.crowBad := rfl
@[simp] theorem State.parkCur_host (s : State) (w : WaitFor) : (s.parkCur w).host = s.host := rfl
@[simp] theorem State.parkCur_hostBad (s : State) (w : WaitFor) : (s.parkCur w).hostBad = s.hostBad := rfl
@[simp] theorem State.parkCur_psnNext (s : State) (w : WaitFor) : (s.parkCur w).psnNext = s.psnNext := rfl
@[simp] theorem State.parkCur_commitPoint (s : State) (w : WaitFor) : (s.parkCur w).commitPoint = s.commitPoint := rfl
@[simp] theorem State.parkCur_pubs (s : State) (w : WaitFor) : (s.parkCur w).pubs = s.pubs := rfl
@[simp] theorem State.parkCur_posted (s : State) (w : WaitFor) : (s.parkCur w).posted = s.posted := rfl
@[simp] theorem State.parkCur_cascades (s : State) (w : WaitFor) : (s.parkCur w).cascades = s.cascades := rfl
@[simp] theorem State.parkCur_done (s : State) (w : WaitFor) : (s.parkCur w).done = s.done := rfl
@[simp] theorem State.parkCur_logs (s : State) (w : WaitFor) : (s.parkCur w).logs = s.logs := rfl
@[simp] theorem State.parkCur_segs (s : State) (w : WaitFor) : (s.parkCur w).segs = s.segs := rfl
@[simp] theorem State.parkCur_ixUsed (s : State) (w : WaitFor) : (s.parkCur w).ixUsed = s.ixUsed := rfl
@[simp] theorem State.parkCur_windows (s : State) (w : WaitFor) : (s.parkCur w).windows = s.windows := rfl
@[simp] theorem State.parkCur_contexts (s : State) (w : WaitFor) : (s.parkCur w).contexts = s.contexts := rfl
@[simp] theorem State.parkCur_peers (s : State) (w : WaitFor) : (s.parkCur w).peers = s.peers := rfl
@[simp] theorem State.parkCur_snaps (s : State) (w : WaitFor) : (s.parkCur w).snaps = s.snaps := rfl
@[simp] theorem State.parkCur_images (s : State) (w : WaitFor) : (s.parkCur w).images = s.images := rfl
@[simp] theorem State.parkCur_copies (s : State) (w : WaitFor) : (s.parkCur w).copies = s.copies := rfl
@[simp] theorem State.parkCur_launches (s : State) (w : WaitFor) : (s.parkCur w).launches = s.launches := rfl
@[simp] theorem State.parkCur_dev (s : State) (w : WaitFor) : (s.parkCur w).dev = s.dev := rfl

@[simp] theorem State.setCore_turns (s : State) (k : Nat) (c : Core) : (s.setCore k c).turns = s.turns := rfl
@[simp] theorem State.setCore_free (s : State) (k : Nat) (c : Core) : (s.setCore k c).free = s.free := rfl
@[simp] theorem State.setCore_stamp (s : State) (k : Nat) (c : Core) : (s.setCore k c).stamp = s.stamp := rfl
@[simp] theorem State.setCore_lastCore (s : State) (k : Nat) (c : Core) : (s.setCore k c).lastCore = s.lastCore := rfl
@[simp] theorem State.setCore_cur (s : State) (k : Nat) (c : Core) : (s.setCore k c).cur = s.cur := rfl
@[simp] theorem State.setCore_teams (s : State) (k : Nat) (c : Core) : (s.setCore k c).teams = s.teams := rfl
@[simp] theorem State.setCore_clusters (s : State) (k : Nat) (c : Core) : (s.setCore k c).clusters = s.clusters := rfl
@[simp] theorem State.setCore_slices (s : State) (k : Nat) (c : Core) : (s.setCore k c).slices = s.slices := rfl
@[simp] theorem State.setCore_hbm (s : State) (k : Nat) (c : Core) : (s.setCore k c).hbm = s.hbm := rfl
@[simp] theorem State.setCore_chk (s : State) (k : Nat) (c : Core) : (s.setCore k c).chk = s.chk := rfl
@[simp] theorem State.setCore_bad (s : State) (k : Nat) (c : Core) : (s.setCore k c).bad = s.bad := rfl
@[simp] theorem State.setCore_crow (s : State) (k : Nat) (c : Core) : (s.setCore k c).crow = s.crow := rfl
@[simp] theorem State.setCore_crowBad (s : State) (k : Nat) (c : Core) : (s.setCore k c).crowBad = s.crowBad := rfl
@[simp] theorem State.setCore_host (s : State) (k : Nat) (c : Core) : (s.setCore k c).host = s.host := rfl
@[simp] theorem State.setCore_hostBad (s : State) (k : Nat) (c : Core) : (s.setCore k c).hostBad = s.hostBad := rfl
@[simp] theorem State.setCore_psnNext (s : State) (k : Nat) (c : Core) : (s.setCore k c).psnNext = s.psnNext := rfl
@[simp] theorem State.setCore_commitPoint (s : State) (k : Nat) (c : Core) : (s.setCore k c).commitPoint = s.commitPoint := rfl
@[simp] theorem State.setCore_pubs (s : State) (k : Nat) (c : Core) : (s.setCore k c).pubs = s.pubs := rfl
@[simp] theorem State.setCore_posted (s : State) (k : Nat) (c : Core) : (s.setCore k c).posted = s.posted := rfl
@[simp] theorem State.setCore_cascades (s : State) (k : Nat) (c : Core) : (s.setCore k c).cascades = s.cascades := rfl
@[simp] theorem State.setCore_done (s : State) (k : Nat) (c : Core) : (s.setCore k c).done = s.done := rfl
@[simp] theorem State.setCore_logs (s : State) (k : Nat) (c : Core) : (s.setCore k c).logs = s.logs := rfl
@[simp] theorem State.setCore_segs (s : State) (k : Nat) (c : Core) : (s.setCore k c).segs = s.segs := rfl
@[simp] theorem State.setCore_ixUsed (s : State) (k : Nat) (c : Core) : (s.setCore k c).ixUsed = s.ixUsed := rfl
@[simp] theorem State.setCore_windows (s : State) (k : Nat) (c : Core) : (s.setCore k c).windows = s.windows := rfl
@[simp] theorem State.setCore_contexts (s : State) (k : Nat) (c : Core) : (s.setCore k c).contexts = s.contexts := rfl
@[simp] theorem State.setCore_peers (s : State) (k : Nat) (c : Core) : (s.setCore k c).peers = s.peers := rfl
@[simp] theorem State.setCore_snaps (s : State) (k : Nat) (c : Core) : (s.setCore k c).snaps = s.snaps := rfl
@[simp] theorem State.setCore_images (s : State) (k : Nat) (c : Core) : (s.setCore k c).images = s.images := rfl
@[simp] theorem State.setCore_copies (s : State) (k : Nat) (c : Core) : (s.setCore k c).copies = s.copies := rfl
@[simp] theorem State.setCore_launches (s : State) (k : Nat) (c : Core) : (s.setCore k c).launches = s.launches := rfl
@[simp] theorem State.setCore_dev (s : State) (k : Nat) (c : Core) : (s.setCore k c).dev = s.dev := rfl

@[simp] theorem State.setCluster_turns (s : State) (k : Nat) (c : Cluster) : (s.setCluster k c).turns = s.turns := rfl
@[simp] theorem State.setCluster_free (s : State) (k : Nat) (c : Cluster) : (s.setCluster k c).free = s.free := rfl
@[simp] theorem State.setCluster_stamp (s : State) (k : Nat) (c : Cluster) : (s.setCluster k c).stamp = s.stamp := rfl
@[simp] theorem State.setCluster_lastCore (s : State) (k : Nat) (c : Cluster) : (s.setCluster k c).lastCore = s.lastCore := rfl
@[simp] theorem State.setCluster_cur (s : State) (k : Nat) (c : Cluster) : (s.setCluster k c).cur = s.cur := rfl
@[simp] theorem State.setCluster_teams (s : State) (k : Nat) (c : Cluster) : (s.setCluster k c).teams = s.teams := rfl
@[simp] theorem State.setCluster_cores (s : State) (k : Nat) (c : Cluster) : (s.setCluster k c).cores = s.cores := rfl
@[simp] theorem State.setCluster_slices (s : State) (k : Nat) (c : Cluster) : (s.setCluster k c).slices = s.slices := rfl
@[simp] theorem State.setCluster_hbm (s : State) (k : Nat) (c : Cluster) : (s.setCluster k c).hbm = s.hbm := rfl
@[simp] theorem State.setCluster_chk (s : State) (k : Nat) (c : Cluster) : (s.setCluster k c).chk = s.chk := rfl
@[simp] theorem State.setCluster_bad (s : State) (k : Nat) (c : Cluster) : (s.setCluster k c).bad = s.bad := rfl
@[simp] theorem State.setCluster_crow (s : State) (k : Nat) (c : Cluster) : (s.setCluster k c).crow = s.crow := rfl
@[simp] theorem State.setCluster_crowBad (s : State) (k : Nat) (c : Cluster) : (s.setCluster k c).crowBad = s.crowBad := rfl
@[simp] theorem State.setCluster_host (s : State) (k : Nat) (c : Cluster) : (s.setCluster k c).host = s.host := rfl
@[simp] theorem State.setCluster_hostBad (s : State) (k : Nat) (c : Cluster) : (s.setCluster k c).hostBad = s.hostBad := rfl
@[simp] theorem State.setCluster_psnNext (s : State) (k : Nat) (c : Cluster) : (s.setCluster k c).psnNext = s.psnNext := rfl
@[simp] theorem State.setCluster_commitPoint (s : State) (k : Nat) (c : Cluster) : (s.setCluster k c).commitPoint = s.commitPoint := rfl
@[simp] theorem State.setCluster_pubs (s : State) (k : Nat) (c : Cluster) : (s.setCluster k c).pubs = s.pubs := rfl
@[simp] theorem State.setCluster_posted (s : State) (k : Nat) (c : Cluster) : (s.setCluster k c).posted = s.posted := rfl
@[simp] theorem State.setCluster_cascades (s : State) (k : Nat) (c : Cluster) : (s.setCluster k c).cascades = s.cascades := rfl
@[simp] theorem State.setCluster_done (s : State) (k : Nat) (c : Cluster) : (s.setCluster k c).done = s.done := rfl
@[simp] theorem State.setCluster_logs (s : State) (k : Nat) (c : Cluster) : (s.setCluster k c).logs = s.logs := rfl
@[simp] theorem State.setCluster_segs (s : State) (k : Nat) (c : Cluster) : (s.setCluster k c).segs = s.segs := rfl
@[simp] theorem State.setCluster_ixUsed (s : State) (k : Nat) (c : Cluster) : (s.setCluster k c).ixUsed = s.ixUsed := rfl
@[simp] theorem State.setCluster_windows (s : State) (k : Nat) (c : Cluster) : (s.setCluster k c).windows = s.windows := rfl
@[simp] theorem State.setCluster_contexts (s : State) (k : Nat) (c : Cluster) : (s.setCluster k c).contexts = s.contexts := rfl
@[simp] theorem State.setCluster_peers (s : State) (k : Nat) (c : Cluster) : (s.setCluster k c).peers = s.peers := rfl
@[simp] theorem State.setCluster_snaps (s : State) (k : Nat) (c : Cluster) : (s.setCluster k c).snaps = s.snaps := rfl
@[simp] theorem State.setCluster_images (s : State) (k : Nat) (c : Cluster) : (s.setCluster k c).images = s.images := rfl
@[simp] theorem State.setCluster_copies (s : State) (k : Nat) (c : Cluster) : (s.setCluster k c).copies = s.copies := rfl
@[simp] theorem State.setCluster_launches (s : State) (k : Nat) (c : Cluster) : (s.setCluster k c).launches = s.launches := rfl
@[simp] theorem State.setCluster_dev (s : State) (k : Nat) (c : Cluster) : (s.setCluster k c).dev = s.dev := rfl

@[simp] theorem State.setSlice_turns (s : State) (k : Nat) (c : Slice) : (s.setSlice k c).turns = s.turns := rfl
@[simp] theorem State.setSlice_free (s : State) (k : Nat) (c : Slice) : (s.setSlice k c).free = s.free := rfl
@[simp] theorem State.setSlice_stamp (s : State) (k : Nat) (c : Slice) : (s.setSlice k c).stamp = s.stamp := rfl
@[simp] theorem State.setSlice_lastCore (s : State) (k : Nat) (c : Slice) : (s.setSlice k c).lastCore = s.lastCore := rfl
@[simp] theorem State.setSlice_cur (s : State) (k : Nat) (c : Slice) : (s.setSlice k c).cur = s.cur := rfl
@[simp] theorem State.setSlice_teams (s : State) (k : Nat) (c : Slice) : (s.setSlice k c).teams = s.teams := rfl
@[simp] theorem State.setSlice_cores (s : State) (k : Nat) (c : Slice) : (s.setSlice k c).cores = s.cores := rfl
@[simp] theorem State.setSlice_clusters (s : State) (k : Nat) (c : Slice) : (s.setSlice k c).clusters = s.clusters := rfl
@[simp] theorem State.setSlice_hbm (s : State) (k : Nat) (c : Slice) : (s.setSlice k c).hbm = s.hbm := rfl
@[simp] theorem State.setSlice_chk (s : State) (k : Nat) (c : Slice) : (s.setSlice k c).chk = s.chk := rfl
@[simp] theorem State.setSlice_bad (s : State) (k : Nat) (c : Slice) : (s.setSlice k c).bad = s.bad := rfl
@[simp] theorem State.setSlice_crow (s : State) (k : Nat) (c : Slice) : (s.setSlice k c).crow = s.crow := rfl
@[simp] theorem State.setSlice_crowBad (s : State) (k : Nat) (c : Slice) : (s.setSlice k c).crowBad = s.crowBad := rfl
@[simp] theorem State.setSlice_host (s : State) (k : Nat) (c : Slice) : (s.setSlice k c).host = s.host := rfl
@[simp] theorem State.setSlice_hostBad (s : State) (k : Nat) (c : Slice) : (s.setSlice k c).hostBad = s.hostBad := rfl
@[simp] theorem State.setSlice_psnNext (s : State) (k : Nat) (c : Slice) : (s.setSlice k c).psnNext = s.psnNext := rfl
@[simp] theorem State.setSlice_commitPoint (s : State) (k : Nat) (c : Slice) : (s.setSlice k c).commitPoint = s.commitPoint := rfl
@[simp] theorem State.setSlice_pubs (s : State) (k : Nat) (c : Slice) : (s.setSlice k c).pubs = s.pubs := rfl
@[simp] theorem State.setSlice_posted (s : State) (k : Nat) (c : Slice) : (s.setSlice k c).posted = s.posted := rfl
@[simp] theorem State.setSlice_cascades (s : State) (k : Nat) (c : Slice) : (s.setSlice k c).cascades = s.cascades := rfl
@[simp] theorem State.setSlice_done (s : State) (k : Nat) (c : Slice) : (s.setSlice k c).done = s.done := rfl
@[simp] theorem State.setSlice_logs (s : State) (k : Nat) (c : Slice) : (s.setSlice k c).logs = s.logs := rfl
@[simp] theorem State.setSlice_segs (s : State) (k : Nat) (c : Slice) : (s.setSlice k c).segs = s.segs := rfl
@[simp] theorem State.setSlice_ixUsed (s : State) (k : Nat) (c : Slice) : (s.setSlice k c).ixUsed = s.ixUsed := rfl
@[simp] theorem State.setSlice_windows (s : State) (k : Nat) (c : Slice) : (s.setSlice k c).windows = s.windows := rfl
@[simp] theorem State.setSlice_contexts (s : State) (k : Nat) (c : Slice) : (s.setSlice k c).contexts = s.contexts := rfl
@[simp] theorem State.setSlice_peers (s : State) (k : Nat) (c : Slice) : (s.setSlice k c).peers = s.peers := rfl
@[simp] theorem State.setSlice_snaps (s : State) (k : Nat) (c : Slice) : (s.setSlice k c).snaps = s.snaps := rfl
@[simp] theorem State.setSlice_images (s : State) (k : Nat) (c : Slice) : (s.setSlice k c).images = s.images := rfl
@[simp] theorem State.setSlice_copies (s : State) (k : Nat) (c : Slice) : (s.setSlice k c).copies = s.copies := rfl
@[simp] theorem State.setSlice_launches (s : State) (k : Nat) (c : Slice) : (s.setSlice k c).launches = s.launches := rfl
@[simp] theorem State.setSlice_dev (s : State) (k : Nat) (c : Slice) : (s.setSlice k c).dev = s.dev := rfl

@[simp] theorem State.onDev_turns (s : State) (f : Device → Device) : (s.onDev f).turns = s.turns := rfl
@[simp] theorem State.onDev_free (s : State) (f : Device → Device) : (s.onDev f).free = s.free := rfl
@[simp] theorem State.onDev_stamp (s : State) (f : Device → Device) : (s.onDev f).stamp = s.stamp := rfl
@[simp] theorem State.onDev_lastCore (s : State) (f : Device → Device) : (s.onDev f).lastCore = s.lastCore := rfl
@[simp] theorem State.onDev_cur (s : State) (f : Device → Device) : (s.onDev f).cur = s.cur := rfl
@[simp] theorem State.onDev_teams (s : State) (f : Device → Device) : (s.onDev f).teams = s.teams := rfl
@[simp] theorem State.onDev_cores (s : State) (f : Device → Device) : (s.onDev f).cores = s.cores := rfl
@[simp] theorem State.onDev_clusters (s : State) (f : Device → Device) : (s.onDev f).clusters = s.clusters := rfl
@[simp] theorem State.onDev_slices (s : State) (f : Device → Device) : (s.onDev f).slices = s.slices := rfl
@[simp] theorem State.onDev_hbm (s : State) (f : Device → Device) : (s.onDev f).hbm = s.hbm := rfl
@[simp] theorem State.onDev_chk (s : State) (f : Device → Device) : (s.onDev f).chk = s.chk := rfl
@[simp] theorem State.onDev_bad (s : State) (f : Device → Device) : (s.onDev f).bad = s.bad := rfl
@[simp] theorem State.onDev_crow (s : State) (f : Device → Device) : (s.onDev f).crow = s.crow := rfl
@[simp] theorem State.onDev_crowBad (s : State) (f : Device → Device) : (s.onDev f).crowBad = s.crowBad := rfl
@[simp] theorem State.onDev_host (s : State) (f : Device → Device) : (s.onDev f).host = s.host := rfl
@[simp] theorem State.onDev_hostBad (s : State) (f : Device → Device) : (s.onDev f).hostBad = s.hostBad := rfl
@[simp] theorem State.onDev_psnNext (s : State) (f : Device → Device) : (s.onDev f).psnNext = s.psnNext := rfl
@[simp] theorem State.onDev_commitPoint (s : State) (f : Device → Device) : (s.onDev f).commitPoint = s.commitPoint := rfl
@[simp] theorem State.onDev_pubs (s : State) (f : Device → Device) : (s.onDev f).pubs = s.pubs := rfl
@[simp] theorem State.onDev_posted (s : State) (f : Device → Device) : (s.onDev f).posted = s.posted := rfl
@[simp] theorem State.onDev_cascades (s : State) (f : Device → Device) : (s.onDev f).cascades = s.cascades := rfl
@[simp] theorem State.onDev_done (s : State) (f : Device → Device) : (s.onDev f).done = s.done := rfl
@[simp] theorem State.onDev_logs (s : State) (f : Device → Device) : (s.onDev f).logs = s.logs := rfl
@[simp] theorem State.onDev_segs (s : State) (f : Device → Device) : (s.onDev f).segs = s.segs := rfl
@[simp] theorem State.onDev_ixUsed (s : State) (f : Device → Device) : (s.onDev f).ixUsed = s.ixUsed := rfl
@[simp] theorem State.onDev_windows (s : State) (f : Device → Device) : (s.onDev f).windows = s.windows := rfl
@[simp] theorem State.onDev_contexts (s : State) (f : Device → Device) : (s.onDev f).contexts = s.contexts := rfl
@[simp] theorem State.onDev_peers (s : State) (f : Device → Device) : (s.onDev f).peers = s.peers := rfl
@[simp] theorem State.onDev_snaps (s : State) (f : Device → Device) : (s.onDev f).snaps = s.snaps := rfl
@[simp] theorem State.onDev_images (s : State) (f : Device → Device) : (s.onDev f).images = s.images := rfl
@[simp] theorem State.onDev_copies (s : State) (f : Device → Device) : (s.onDev f).copies = s.copies := rfl
@[simp] theorem State.onDev_launches (s : State) (f : Device → Device) : (s.onDev f).launches = s.launches := rfl

@[simp] theorem State.setWindow_turns (s : State) (k : Nat) (d : BitVec 512) : (s.setWindow k d).turns = s.turns := rfl
@[simp] theorem State.setWindow_free (s : State) (k : Nat) (d : BitVec 512) : (s.setWindow k d).free = s.free := rfl
@[simp] theorem State.setWindow_stamp (s : State) (k : Nat) (d : BitVec 512) : (s.setWindow k d).stamp = s.stamp := rfl
@[simp] theorem State.setWindow_lastCore (s : State) (k : Nat) (d : BitVec 512) : (s.setWindow k d).lastCore = s.lastCore := rfl
@[simp] theorem State.setWindow_cur (s : State) (k : Nat) (d : BitVec 512) : (s.setWindow k d).cur = s.cur := rfl
@[simp] theorem State.setWindow_teams (s : State) (k : Nat) (d : BitVec 512) : (s.setWindow k d).teams = s.teams := rfl
@[simp] theorem State.setWindow_cores (s : State) (k : Nat) (d : BitVec 512) : (s.setWindow k d).cores = s.cores := rfl
@[simp] theorem State.setWindow_clusters (s : State) (k : Nat) (d : BitVec 512) : (s.setWindow k d).clusters = s.clusters := rfl
@[simp] theorem State.setWindow_slices (s : State) (k : Nat) (d : BitVec 512) : (s.setWindow k d).slices = s.slices := rfl
@[simp] theorem State.setWindow_hbm (s : State) (k : Nat) (d : BitVec 512) : (s.setWindow k d).hbm = s.hbm := rfl
@[simp] theorem State.setWindow_chk (s : State) (k : Nat) (d : BitVec 512) : (s.setWindow k d).chk = s.chk := rfl
@[simp] theorem State.setWindow_bad (s : State) (k : Nat) (d : BitVec 512) : (s.setWindow k d).bad = s.bad := rfl
@[simp] theorem State.setWindow_crow (s : State) (k : Nat) (d : BitVec 512) : (s.setWindow k d).crow = s.crow := rfl
@[simp] theorem State.setWindow_crowBad (s : State) (k : Nat) (d : BitVec 512) : (s.setWindow k d).crowBad = s.crowBad := rfl
@[simp] theorem State.setWindow_host (s : State) (k : Nat) (d : BitVec 512) : (s.setWindow k d).host = s.host := rfl
@[simp] theorem State.setWindow_hostBad (s : State) (k : Nat) (d : BitVec 512) : (s.setWindow k d).hostBad = s.hostBad := rfl
@[simp] theorem State.setWindow_psnNext (s : State) (k : Nat) (d : BitVec 512) : (s.setWindow k d).psnNext = s.psnNext := rfl
@[simp] theorem State.setWindow_commitPoint (s : State) (k : Nat) (d : BitVec 512) : (s.setWindow k d).commitPoint = s.commitPoint := rfl
@[simp] theorem State.setWindow_pubs (s : State) (k : Nat) (d : BitVec 512) : (s.setWindow k d).pubs = s.pubs := rfl
@[simp] theorem State.setWindow_posted (s : State) (k : Nat) (d : BitVec 512) : (s.setWindow k d).posted = s.posted := rfl
@[simp] theorem State.setWindow_cascades (s : State) (k : Nat) (d : BitVec 512) : (s.setWindow k d).cascades = s.cascades := rfl
@[simp] theorem State.setWindow_done (s : State) (k : Nat) (d : BitVec 512) : (s.setWindow k d).done = s.done := rfl
@[simp] theorem State.setWindow_logs (s : State) (k : Nat) (d : BitVec 512) : (s.setWindow k d).logs = s.logs := rfl
@[simp] theorem State.setWindow_segs (s : State) (k : Nat) (d : BitVec 512) : (s.setWindow k d).segs = s.segs := rfl
@[simp] theorem State.setWindow_ixUsed (s : State) (k : Nat) (d : BitVec 512) : (s.setWindow k d).ixUsed = s.ixUsed := rfl
@[simp] theorem State.setWindow_contexts (s : State) (k : Nat) (d : BitVec 512) : (s.setWindow k d).contexts = s.contexts := rfl
@[simp] theorem State.setWindow_peers (s : State) (k : Nat) (d : BitVec 512) : (s.setWindow k d).peers = s.peers := rfl
@[simp] theorem State.setWindow_snaps (s : State) (k : Nat) (d : BitVec 512) : (s.setWindow k d).snaps = s.snaps := rfl
@[simp] theorem State.setWindow_images (s : State) (k : Nat) (d : BitVec 512) : (s.setWindow k d).images = s.images := rfl
@[simp] theorem State.setWindow_copies (s : State) (k : Nat) (d : BitVec 512) : (s.setWindow k d).copies = s.copies := rfl
@[simp] theorem State.setWindow_launches (s : State) (k : Nat) (d : BitVec 512) : (s.setWindow k d).launches = s.launches := rfl
@[simp] theorem State.setWindow_dev (s : State) (k : Nat) (d : BitVec 512) : (s.setWindow k d).dev = s.dev := rfl

@[simp] theorem State.setContext_turns (s : State) (k : Nat) (d : BitVec 512) : (s.setContext k d).turns = s.turns := rfl
@[simp] theorem State.setContext_free (s : State) (k : Nat) (d : BitVec 512) : (s.setContext k d).free = s.free := rfl
@[simp] theorem State.setContext_stamp (s : State) (k : Nat) (d : BitVec 512) : (s.setContext k d).stamp = s.stamp := rfl
@[simp] theorem State.setContext_lastCore (s : State) (k : Nat) (d : BitVec 512) : (s.setContext k d).lastCore = s.lastCore := rfl
@[simp] theorem State.setContext_cur (s : State) (k : Nat) (d : BitVec 512) : (s.setContext k d).cur = s.cur := rfl
@[simp] theorem State.setContext_teams (s : State) (k : Nat) (d : BitVec 512) : (s.setContext k d).teams = s.teams := rfl
@[simp] theorem State.setContext_cores (s : State) (k : Nat) (d : BitVec 512) : (s.setContext k d).cores = s.cores := rfl
@[simp] theorem State.setContext_clusters (s : State) (k : Nat) (d : BitVec 512) : (s.setContext k d).clusters = s.clusters := rfl
@[simp] theorem State.setContext_slices (s : State) (k : Nat) (d : BitVec 512) : (s.setContext k d).slices = s.slices := rfl
@[simp] theorem State.setContext_hbm (s : State) (k : Nat) (d : BitVec 512) : (s.setContext k d).hbm = s.hbm := rfl
@[simp] theorem State.setContext_chk (s : State) (k : Nat) (d : BitVec 512) : (s.setContext k d).chk = s.chk := rfl
@[simp] theorem State.setContext_bad (s : State) (k : Nat) (d : BitVec 512) : (s.setContext k d).bad = s.bad := rfl
@[simp] theorem State.setContext_crow (s : State) (k : Nat) (d : BitVec 512) : (s.setContext k d).crow = s.crow := rfl
@[simp] theorem State.setContext_crowBad (s : State) (k : Nat) (d : BitVec 512) : (s.setContext k d).crowBad = s.crowBad := rfl
@[simp] theorem State.setContext_host (s : State) (k : Nat) (d : BitVec 512) : (s.setContext k d).host = s.host := rfl
@[simp] theorem State.setContext_hostBad (s : State) (k : Nat) (d : BitVec 512) : (s.setContext k d).hostBad = s.hostBad := rfl
@[simp] theorem State.setContext_psnNext (s : State) (k : Nat) (d : BitVec 512) : (s.setContext k d).psnNext = s.psnNext := rfl
@[simp] theorem State.setContext_commitPoint (s : State) (k : Nat) (d : BitVec 512) : (s.setContext k d).commitPoint = s.commitPoint := rfl
@[simp] theorem State.setContext_pubs (s : State) (k : Nat) (d : BitVec 512) : (s.setContext k d).pubs = s.pubs := rfl
@[simp] theorem State.setContext_posted (s : State) (k : Nat) (d : BitVec 512) : (s.setContext k d).posted = s.posted := rfl
@[simp] theorem State.setContext_cascades (s : State) (k : Nat) (d : BitVec 512) : (s.setContext k d).cascades = s.cascades := rfl
@[simp] theorem State.setContext_done (s : State) (k : Nat) (d : BitVec 512) : (s.setContext k d).done = s.done := rfl
@[simp] theorem State.setContext_logs (s : State) (k : Nat) (d : BitVec 512) : (s.setContext k d).logs = s.logs := rfl
@[simp] theorem State.setContext_segs (s : State) (k : Nat) (d : BitVec 512) : (s.setContext k d).segs = s.segs := rfl
@[simp] theorem State.setContext_ixUsed (s : State) (k : Nat) (d : BitVec 512) : (s.setContext k d).ixUsed = s.ixUsed := rfl
@[simp] theorem State.setContext_windows (s : State) (k : Nat) (d : BitVec 512) : (s.setContext k d).windows = s.windows := rfl
@[simp] theorem State.setContext_peers (s : State) (k : Nat) (d : BitVec 512) : (s.setContext k d).peers = s.peers := rfl
@[simp] theorem State.setContext_snaps (s : State) (k : Nat) (d : BitVec 512) : (s.setContext k d).snaps = s.snaps := rfl
@[simp] theorem State.setContext_images (s : State) (k : Nat) (d : BitVec 512) : (s.setContext k d).images = s.images := rfl
@[simp] theorem State.setContext_copies (s : State) (k : Nat) (d : BitVec 512) : (s.setContext k d).copies = s.copies := rfl
@[simp] theorem State.setContext_launches (s : State) (k : Nat) (d : BitVec 512) : (s.setContext k d).launches = s.launches := rfl
@[simp] theorem State.setContext_dev (s : State) (k : Nat) (d : BitVec 512) : (s.setContext k d).dev = s.dev := rfl

@[simp] theorem State.onPub_turns (s : State) (k : Nat) (f : Publication → Publication) : (s.onPub k f).turns = s.turns := rfl
@[simp] theorem State.onPub_free (s : State) (k : Nat) (f : Publication → Publication) : (s.onPub k f).free = s.free := rfl
@[simp] theorem State.onPub_stamp (s : State) (k : Nat) (f : Publication → Publication) : (s.onPub k f).stamp = s.stamp := rfl
@[simp] theorem State.onPub_lastCore (s : State) (k : Nat) (f : Publication → Publication) : (s.onPub k f).lastCore = s.lastCore := rfl
@[simp] theorem State.onPub_cur (s : State) (k : Nat) (f : Publication → Publication) : (s.onPub k f).cur = s.cur := rfl
@[simp] theorem State.onPub_teams (s : State) (k : Nat) (f : Publication → Publication) : (s.onPub k f).teams = s.teams := rfl
@[simp] theorem State.onPub_cores (s : State) (k : Nat) (f : Publication → Publication) : (s.onPub k f).cores = s.cores := rfl
@[simp] theorem State.onPub_clusters (s : State) (k : Nat) (f : Publication → Publication) : (s.onPub k f).clusters = s.clusters := rfl
@[simp] theorem State.onPub_slices (s : State) (k : Nat) (f : Publication → Publication) : (s.onPub k f).slices = s.slices := rfl
@[simp] theorem State.onPub_hbm (s : State) (k : Nat) (f : Publication → Publication) : (s.onPub k f).hbm = s.hbm := rfl
@[simp] theorem State.onPub_chk (s : State) (k : Nat) (f : Publication → Publication) : (s.onPub k f).chk = s.chk := rfl
@[simp] theorem State.onPub_bad (s : State) (k : Nat) (f : Publication → Publication) : (s.onPub k f).bad = s.bad := rfl
@[simp] theorem State.onPub_crow (s : State) (k : Nat) (f : Publication → Publication) : (s.onPub k f).crow = s.crow := rfl
@[simp] theorem State.onPub_crowBad (s : State) (k : Nat) (f : Publication → Publication) : (s.onPub k f).crowBad = s.crowBad := rfl
@[simp] theorem State.onPub_host (s : State) (k : Nat) (f : Publication → Publication) : (s.onPub k f).host = s.host := rfl
@[simp] theorem State.onPub_hostBad (s : State) (k : Nat) (f : Publication → Publication) : (s.onPub k f).hostBad = s.hostBad := rfl
@[simp] theorem State.onPub_psnNext (s : State) (k : Nat) (f : Publication → Publication) : (s.onPub k f).psnNext = s.psnNext := rfl
@[simp] theorem State.onPub_commitPoint (s : State) (k : Nat) (f : Publication → Publication) : (s.onPub k f).commitPoint = s.commitPoint := rfl
@[simp] theorem State.onPub_posted (s : State) (k : Nat) (f : Publication → Publication) : (s.onPub k f).posted = s.posted := rfl
@[simp] theorem State.onPub_cascades (s : State) (k : Nat) (f : Publication → Publication) : (s.onPub k f).cascades = s.cascades := rfl
@[simp] theorem State.onPub_done (s : State) (k : Nat) (f : Publication → Publication) : (s.onPub k f).done = s.done := rfl
@[simp] theorem State.onPub_logs (s : State) (k : Nat) (f : Publication → Publication) : (s.onPub k f).logs = s.logs := rfl
@[simp] theorem State.onPub_segs (s : State) (k : Nat) (f : Publication → Publication) : (s.onPub k f).segs = s.segs := rfl
@[simp] theorem State.onPub_ixUsed (s : State) (k : Nat) (f : Publication → Publication) : (s.onPub k f).ixUsed = s.ixUsed := rfl
@[simp] theorem State.onPub_windows (s : State) (k : Nat) (f : Publication → Publication) : (s.onPub k f).windows = s.windows := rfl
@[simp] theorem State.onPub_contexts (s : State) (k : Nat) (f : Publication → Publication) : (s.onPub k f).contexts = s.contexts := rfl
@[simp] theorem State.onPub_peers (s : State) (k : Nat) (f : Publication → Publication) : (s.onPub k f).peers = s.peers := rfl
@[simp] theorem State.onPub_snaps (s : State) (k : Nat) (f : Publication → Publication) : (s.onPub k f).snaps = s.snaps := rfl
@[simp] theorem State.onPub_images (s : State) (k : Nat) (f : Publication → Publication) : (s.onPub k f).images = s.images := rfl
@[simp] theorem State.onPub_copies (s : State) (k : Nat) (f : Publication → Publication) : (s.onPub k f).copies = s.copies := rfl
@[simp] theorem State.onPub_launches (s : State) (k : Nat) (f : Publication → Publication) : (s.onPub k f).launches = s.launches := rfl
@[simp] theorem State.onPub_dev (s : State) (k : Nat) (f : Publication → Publication) : (s.onPub k f).dev = s.dev := rfl

@[simp] theorem State.onLaunch_turns (s : State) (k : Nat) (f : Launch → Launch) : (s.onLaunch k f).turns = s.turns := rfl
@[simp] theorem State.onLaunch_free (s : State) (k : Nat) (f : Launch → Launch) : (s.onLaunch k f).free = s.free := rfl
@[simp] theorem State.onLaunch_stamp (s : State) (k : Nat) (f : Launch → Launch) : (s.onLaunch k f).stamp = s.stamp := rfl
@[simp] theorem State.onLaunch_lastCore (s : State) (k : Nat) (f : Launch → Launch) : (s.onLaunch k f).lastCore = s.lastCore := rfl
@[simp] theorem State.onLaunch_cur (s : State) (k : Nat) (f : Launch → Launch) : (s.onLaunch k f).cur = s.cur := rfl
@[simp] theorem State.onLaunch_teams (s : State) (k : Nat) (f : Launch → Launch) : (s.onLaunch k f).teams = s.teams := rfl
@[simp] theorem State.onLaunch_cores (s : State) (k : Nat) (f : Launch → Launch) : (s.onLaunch k f).cores = s.cores := rfl
@[simp] theorem State.onLaunch_clusters (s : State) (k : Nat) (f : Launch → Launch) : (s.onLaunch k f).clusters = s.clusters := rfl
@[simp] theorem State.onLaunch_slices (s : State) (k : Nat) (f : Launch → Launch) : (s.onLaunch k f).slices = s.slices := rfl
@[simp] theorem State.onLaunch_hbm (s : State) (k : Nat) (f : Launch → Launch) : (s.onLaunch k f).hbm = s.hbm := rfl
@[simp] theorem State.onLaunch_chk (s : State) (k : Nat) (f : Launch → Launch) : (s.onLaunch k f).chk = s.chk := rfl
@[simp] theorem State.onLaunch_bad (s : State) (k : Nat) (f : Launch → Launch) : (s.onLaunch k f).bad = s.bad := rfl
@[simp] theorem State.onLaunch_crow (s : State) (k : Nat) (f : Launch → Launch) : (s.onLaunch k f).crow = s.crow := rfl
@[simp] theorem State.onLaunch_crowBad (s : State) (k : Nat) (f : Launch → Launch) : (s.onLaunch k f).crowBad = s.crowBad := rfl
@[simp] theorem State.onLaunch_host (s : State) (k : Nat) (f : Launch → Launch) : (s.onLaunch k f).host = s.host := rfl
@[simp] theorem State.onLaunch_hostBad (s : State) (k : Nat) (f : Launch → Launch) : (s.onLaunch k f).hostBad = s.hostBad := rfl
@[simp] theorem State.onLaunch_psnNext (s : State) (k : Nat) (f : Launch → Launch) : (s.onLaunch k f).psnNext = s.psnNext := rfl
@[simp] theorem State.onLaunch_commitPoint (s : State) (k : Nat) (f : Launch → Launch) : (s.onLaunch k f).commitPoint = s.commitPoint := rfl
@[simp] theorem State.onLaunch_pubs (s : State) (k : Nat) (f : Launch → Launch) : (s.onLaunch k f).pubs = s.pubs := rfl
@[simp] theorem State.onLaunch_posted (s : State) (k : Nat) (f : Launch → Launch) : (s.onLaunch k f).posted = s.posted := rfl
@[simp] theorem State.onLaunch_cascades (s : State) (k : Nat) (f : Launch → Launch) : (s.onLaunch k f).cascades = s.cascades := rfl
@[simp] theorem State.onLaunch_done (s : State) (k : Nat) (f : Launch → Launch) : (s.onLaunch k f).done = s.done := rfl
@[simp] theorem State.onLaunch_logs (s : State) (k : Nat) (f : Launch → Launch) : (s.onLaunch k f).logs = s.logs := rfl
@[simp] theorem State.onLaunch_segs (s : State) (k : Nat) (f : Launch → Launch) : (s.onLaunch k f).segs = s.segs := rfl
@[simp] theorem State.onLaunch_ixUsed (s : State) (k : Nat) (f : Launch → Launch) : (s.onLaunch k f).ixUsed = s.ixUsed := rfl
@[simp] theorem State.onLaunch_windows (s : State) (k : Nat) (f : Launch → Launch) : (s.onLaunch k f).windows = s.windows := rfl
@[simp] theorem State.onLaunch_contexts (s : State) (k : Nat) (f : Launch → Launch) : (s.onLaunch k f).contexts = s.contexts := rfl
@[simp] theorem State.onLaunch_peers (s : State) (k : Nat) (f : Launch → Launch) : (s.onLaunch k f).peers = s.peers := rfl
@[simp] theorem State.onLaunch_snaps (s : State) (k : Nat) (f : Launch → Launch) : (s.onLaunch k f).snaps = s.snaps := rfl
@[simp] theorem State.onLaunch_images (s : State) (k : Nat) (f : Launch → Launch) : (s.onLaunch k f).images = s.images := rfl
@[simp] theorem State.onLaunch_copies (s : State) (k : Nat) (f : Launch → Launch) : (s.onLaunch k f).copies = s.copies := rfl
@[simp] theorem State.onLaunch_dev (s : State) (k : Nat) (f : Launch → Launch) : (s.onLaunch k f).dev = s.dev := rfl

@[simp] theorem State.touchHbm_turns (s : State) (sec : Nat) : (s.touchHbm sec).turns = s.turns := rfl
@[simp] theorem State.touchHbm_free (s : State) (sec : Nat) : (s.touchHbm sec).free = s.free := rfl
@[simp] theorem State.touchHbm_stamp (s : State) (sec : Nat) : (s.touchHbm sec).stamp = s.stamp := rfl
@[simp] theorem State.touchHbm_lastCore (s : State) (sec : Nat) : (s.touchHbm sec).lastCore = s.lastCore := rfl
@[simp] theorem State.touchHbm_cur (s : State) (sec : Nat) : (s.touchHbm sec).cur = s.cur := rfl
@[simp] theorem State.touchHbm_teams (s : State) (sec : Nat) : (s.touchHbm sec).teams = s.teams := rfl
@[simp] theorem State.touchHbm_cores (s : State) (sec : Nat) : (s.touchHbm sec).cores = s.cores := rfl
@[simp] theorem State.touchHbm_clusters (s : State) (sec : Nat) : (s.touchHbm sec).clusters = s.clusters := rfl
@[simp] theorem State.touchHbm_slices (s : State) (sec : Nat) : (s.touchHbm sec).slices = s.slices := rfl
@[simp] theorem State.touchHbm_hbm (s : State) (sec : Nat) : (s.touchHbm sec).hbm = s.hbm := rfl
@[simp] theorem State.touchHbm_chk (s : State) (sec : Nat) : (s.touchHbm sec).chk = s.chk := rfl
@[simp] theorem State.touchHbm_bad (s : State) (sec : Nat) : (s.touchHbm sec).bad = s.bad := rfl
@[simp] theorem State.touchHbm_crow (s : State) (sec : Nat) : (s.touchHbm sec).crow = s.crow := rfl
@[simp] theorem State.touchHbm_crowBad (s : State) (sec : Nat) : (s.touchHbm sec).crowBad = s.crowBad := rfl
@[simp] theorem State.touchHbm_host (s : State) (sec : Nat) : (s.touchHbm sec).host = s.host := rfl
@[simp] theorem State.touchHbm_hostBad (s : State) (sec : Nat) : (s.touchHbm sec).hostBad = s.hostBad := rfl
@[simp] theorem State.touchHbm_psnNext (s : State) (sec : Nat) : (s.touchHbm sec).psnNext = s.psnNext := rfl
@[simp] theorem State.touchHbm_commitPoint (s : State) (sec : Nat) : (s.touchHbm sec).commitPoint = s.commitPoint := rfl
@[simp] theorem State.touchHbm_pubs (s : State) (sec : Nat) : (s.touchHbm sec).pubs = s.pubs := rfl
@[simp] theorem State.touchHbm_posted (s : State) (sec : Nat) : (s.touchHbm sec).posted = s.posted := rfl
@[simp] theorem State.touchHbm_cascades (s : State) (sec : Nat) : (s.touchHbm sec).cascades = s.cascades := rfl
@[simp] theorem State.touchHbm_done (s : State) (sec : Nat) : (s.touchHbm sec).done = s.done := rfl
@[simp] theorem State.touchHbm_logs (s : State) (sec : Nat) : (s.touchHbm sec).logs = s.logs := rfl
@[simp] theorem State.touchHbm_segs (s : State) (sec : Nat) : (s.touchHbm sec).segs = s.segs := rfl
@[simp] theorem State.touchHbm_ixUsed (s : State) (sec : Nat) : (s.touchHbm sec).ixUsed = s.ixUsed := rfl
@[simp] theorem State.touchHbm_windows (s : State) (sec : Nat) : (s.touchHbm sec).windows = s.windows := rfl
@[simp] theorem State.touchHbm_contexts (s : State) (sec : Nat) : (s.touchHbm sec).contexts = s.contexts := rfl
@[simp] theorem State.touchHbm_peers (s : State) (sec : Nat) : (s.touchHbm sec).peers = s.peers := rfl
@[simp] theorem State.touchHbm_snaps (s : State) (sec : Nat) : (s.touchHbm sec).snaps = s.snaps := rfl
@[simp] theorem State.touchHbm_images (s : State) (sec : Nat) : (s.touchHbm sec).images = s.images := rfl
@[simp] theorem State.touchHbm_copies (s : State) (sec : Nat) : (s.touchHbm sec).copies = s.copies := rfl
@[simp] theorem State.touchHbm_launches (s : State) (sec : Nat) : (s.touchHbm sec).launches = s.launches := rfl

@[simp] theorem State.touchAll_turns (s : State) (secs : List Nat) : (s.touchAll secs).turns = s.turns := rfl
@[simp] theorem State.touchAll_free (s : State) (secs : List Nat) : (s.touchAll secs).free = s.free := rfl
@[simp] theorem State.touchAll_stamp (s : State) (secs : List Nat) : (s.touchAll secs).stamp = s.stamp := rfl
@[simp] theorem State.touchAll_lastCore (s : State) (secs : List Nat) : (s.touchAll secs).lastCore = s.lastCore := rfl
@[simp] theorem State.touchAll_cur (s : State) (secs : List Nat) : (s.touchAll secs).cur = s.cur := rfl
@[simp] theorem State.touchAll_teams (s : State) (secs : List Nat) : (s.touchAll secs).teams = s.teams := rfl
@[simp] theorem State.touchAll_cores (s : State) (secs : List Nat) : (s.touchAll secs).cores = s.cores := rfl
@[simp] theorem State.touchAll_clusters (s : State) (secs : List Nat) : (s.touchAll secs).clusters = s.clusters := rfl
@[simp] theorem State.touchAll_slices (s : State) (secs : List Nat) : (s.touchAll secs).slices = s.slices := rfl
@[simp] theorem State.touchAll_hbm (s : State) (secs : List Nat) : (s.touchAll secs).hbm = s.hbm := rfl
@[simp] theorem State.touchAll_chk (s : State) (secs : List Nat) : (s.touchAll secs).chk = s.chk := rfl
@[simp] theorem State.touchAll_bad (s : State) (secs : List Nat) : (s.touchAll secs).bad = s.bad := rfl
@[simp] theorem State.touchAll_crow (s : State) (secs : List Nat) : (s.touchAll secs).crow = s.crow := rfl
@[simp] theorem State.touchAll_crowBad (s : State) (secs : List Nat) : (s.touchAll secs).crowBad = s.crowBad := rfl
@[simp] theorem State.touchAll_host (s : State) (secs : List Nat) : (s.touchAll secs).host = s.host := rfl
@[simp] theorem State.touchAll_hostBad (s : State) (secs : List Nat) : (s.touchAll secs).hostBad = s.hostBad := rfl
@[simp] theorem State.touchAll_psnNext (s : State) (secs : List Nat) : (s.touchAll secs).psnNext = s.psnNext := rfl
@[simp] theorem State.touchAll_commitPoint (s : State) (secs : List Nat) : (s.touchAll secs).commitPoint = s.commitPoint := rfl
@[simp] theorem State.touchAll_pubs (s : State) (secs : List Nat) : (s.touchAll secs).pubs = s.pubs := rfl
@[simp] theorem State.touchAll_posted (s : State) (secs : List Nat) : (s.touchAll secs).posted = s.posted := rfl
@[simp] theorem State.touchAll_cascades (s : State) (secs : List Nat) : (s.touchAll secs).cascades = s.cascades := rfl
@[simp] theorem State.touchAll_done (s : State) (secs : List Nat) : (s.touchAll secs).done = s.done := rfl
@[simp] theorem State.touchAll_logs (s : State) (secs : List Nat) : (s.touchAll secs).logs = s.logs := rfl
@[simp] theorem State.touchAll_segs (s : State) (secs : List Nat) : (s.touchAll secs).segs = s.segs := rfl
@[simp] theorem State.touchAll_ixUsed (s : State) (secs : List Nat) : (s.touchAll secs).ixUsed = s.ixUsed := rfl
@[simp] theorem State.touchAll_windows (s : State) (secs : List Nat) : (s.touchAll secs).windows = s.windows := rfl
@[simp] theorem State.touchAll_contexts (s : State) (secs : List Nat) : (s.touchAll secs).contexts = s.contexts := rfl
@[simp] theorem State.touchAll_peers (s : State) (secs : List Nat) : (s.touchAll secs).peers = s.peers := rfl
@[simp] theorem State.touchAll_snaps (s : State) (secs : List Nat) : (s.touchAll secs).snaps = s.snaps := rfl
@[simp] theorem State.touchAll_images (s : State) (secs : List Nat) : (s.touchAll secs).images = s.images := rfl
@[simp] theorem State.touchAll_copies (s : State) (secs : List Nat) : (s.touchAll secs).copies = s.copies := rfl
@[simp] theorem State.touchAll_launches (s : State) (secs : List Nat) : (s.touchAll secs).launches = s.launches := rfl

@[simp] theorem State.writeBack_turns (s : State) (v : Option HomeLine) : (s.writeBack v).turns = s.turns := by
  unfold State.writeBack; split
  · split
    · split <;> rfl
    · rfl
  · rfl
@[simp] theorem State.writeBack_free (s : State) (v : Option HomeLine) : (s.writeBack v).free = s.free := by
  unfold State.writeBack; split
  · split
    · split <;> rfl
    · rfl
  · rfl
@[simp] theorem State.writeBack_stamp (s : State) (v : Option HomeLine) : (s.writeBack v).stamp = s.stamp := by
  unfold State.writeBack; split
  · split
    · split <;> rfl
    · rfl
  · rfl
@[simp] theorem State.writeBack_lastCore (s : State) (v : Option HomeLine) : (s.writeBack v).lastCore = s.lastCore := by
  unfold State.writeBack; split
  · split
    · split <;> rfl
    · rfl
  · rfl
@[simp] theorem State.writeBack_cur (s : State) (v : Option HomeLine) : (s.writeBack v).cur = s.cur := by
  unfold State.writeBack; split
  · split
    · split <;> rfl
    · rfl
  · rfl
@[simp] theorem State.writeBack_teams (s : State) (v : Option HomeLine) : (s.writeBack v).teams = s.teams := by
  unfold State.writeBack; split
  · split
    · split <;> rfl
    · rfl
  · rfl
@[simp] theorem State.writeBack_cores (s : State) (v : Option HomeLine) : (s.writeBack v).cores = s.cores := by
  unfold State.writeBack; split
  · split
    · split <;> rfl
    · rfl
  · rfl
@[simp] theorem State.writeBack_clusters (s : State) (v : Option HomeLine) : (s.writeBack v).clusters = s.clusters := by
  unfold State.writeBack; split
  · split
    · split <;> rfl
    · rfl
  · rfl
@[simp] theorem State.writeBack_slices (s : State) (v : Option HomeLine) : (s.writeBack v).slices = s.slices := by
  unfold State.writeBack; split
  · split
    · split <;> rfl
    · rfl
  · rfl
@[simp] theorem State.writeBack_hbm (s : State) (v : Option HomeLine) : (s.writeBack v).hbm = s.hbm := by
  unfold State.writeBack; split
  · split
    · split <;> rfl
    · rfl
  · rfl
@[simp] theorem State.writeBack_chk (s : State) (v : Option HomeLine) : (s.writeBack v).chk = s.chk := by
  unfold State.writeBack; split
  · split
    · split <;> rfl
    · rfl
  · rfl
@[simp] theorem State.writeBack_bad (s : State) (v : Option HomeLine) : (s.writeBack v).bad = s.bad := by
  unfold State.writeBack; split
  · split
    · split <;> rfl
    · rfl
  · rfl
@[simp] theorem State.writeBack_crow (s : State) (v : Option HomeLine) : (s.writeBack v).crow = s.crow := by
  unfold State.writeBack; split
  · split
    · split <;> rfl
    · rfl
  · rfl
@[simp] theorem State.writeBack_crowBad (s : State) (v : Option HomeLine) : (s.writeBack v).crowBad = s.crowBad := by
  unfold State.writeBack; split
  · split
    · split <;> rfl
    · rfl
  · rfl
@[simp] theorem State.writeBack_host (s : State) (v : Option HomeLine) : (s.writeBack v).host = s.host := by
  unfold State.writeBack; split
  · split
    · split <;> rfl
    · rfl
  · rfl
@[simp] theorem State.writeBack_hostBad (s : State) (v : Option HomeLine) : (s.writeBack v).hostBad = s.hostBad := by
  unfold State.writeBack; split
  · split
    · split <;> rfl
    · rfl
  · rfl
@[simp] theorem State.writeBack_psnNext (s : State) (v : Option HomeLine) : (s.writeBack v).psnNext = s.psnNext := by
  unfold State.writeBack; split
  · split
    · split <;> rfl
    · rfl
  · rfl
@[simp] theorem State.writeBack_commitPoint (s : State) (v : Option HomeLine) : (s.writeBack v).commitPoint = s.commitPoint := by
  unfold State.writeBack; split
  · split
    · split <;> rfl
    · rfl
  · rfl
@[simp] theorem State.writeBack_pubs (s : State) (v : Option HomeLine) : (s.writeBack v).pubs = s.pubs := by
  unfold State.writeBack; split
  · split
    · split <;> rfl
    · rfl
  · rfl
@[simp] theorem State.writeBack_posted (s : State) (v : Option HomeLine) : (s.writeBack v).posted = s.posted := by
  unfold State.writeBack; split
  · split
    · split <;> rfl
    · rfl
  · rfl
@[simp] theorem State.writeBack_cascades (s : State) (v : Option HomeLine) : (s.writeBack v).cascades = s.cascades := by
  unfold State.writeBack; split
  · split
    · split <;> rfl
    · rfl
  · rfl
@[simp] theorem State.writeBack_done (s : State) (v : Option HomeLine) : (s.writeBack v).done = s.done := by
  unfold State.writeBack; split
  · split
    · split <;> rfl
    · rfl
  · rfl
@[simp] theorem State.writeBack_logs (s : State) (v : Option HomeLine) : (s.writeBack v).logs = s.logs := by
  unfold State.writeBack; split
  · split
    · split <;> rfl
    · rfl
  · rfl
@[simp] theorem State.writeBack_segs (s : State) (v : Option HomeLine) : (s.writeBack v).segs = s.segs := by
  unfold State.writeBack; split
  · split
    · split <;> rfl
    · rfl
  · rfl
@[simp] theorem State.writeBack_ixUsed (s : State) (v : Option HomeLine) : (s.writeBack v).ixUsed = s.ixUsed := by
  unfold State.writeBack; split
  · split
    · split <;> rfl
    · rfl
  · rfl
@[simp] theorem State.writeBack_windows (s : State) (v : Option HomeLine) : (s.writeBack v).windows = s.windows := by
  unfold State.writeBack; split
  · split
    · split <;> rfl
    · rfl
  · rfl
@[simp] theorem State.writeBack_contexts (s : State) (v : Option HomeLine) : (s.writeBack v).contexts = s.contexts := by
  unfold State.writeBack; split
  · split
    · split <;> rfl
    · rfl
  · rfl
@[simp] theorem State.writeBack_peers (s : State) (v : Option HomeLine) : (s.writeBack v).peers = s.peers := by
  unfold State.writeBack; split
  · split
    · split <;> rfl
    · rfl
  · rfl
@[simp] theorem State.writeBack_snaps (s : State) (v : Option HomeLine) : (s.writeBack v).snaps = s.snaps := by
  unfold State.writeBack; split
  · split
    · split <;> rfl
    · rfl
  · rfl
@[simp] theorem State.writeBack_images (s : State) (v : Option HomeLine) : (s.writeBack v).images = s.images := by
  unfold State.writeBack; split
  · split
    · split <;> rfl
    · rfl
  · rfl
@[simp] theorem State.writeBack_copies (s : State) (v : Option HomeLine) : (s.writeBack v).copies = s.copies := by
  unfold State.writeBack; split
  · split
    · split <;> rfl
    · rfl
  · rfl
@[simp] theorem State.writeBack_launches (s : State) (v : Option HomeLine) : (s.writeBack v).launches = s.launches := by
  unfold State.writeBack; split
  · split
    · split <;> rfl
    · rfl
  · rfl

@[simp] theorem State.putLine_turns (s : State) (h : Nat) (t : LineTag) (i : Nat) (bad dirty : Bool) (own : Option Nat) (hint : Nat) : (s.putLine h t i bad dirty own hint).turns = s.turns := by
  unfold State.putLine; dsimp only; split <;> simp
@[simp] theorem State.putLine_free (s : State) (h : Nat) (t : LineTag) (i : Nat) (bad dirty : Bool) (own : Option Nat) (hint : Nat) : (s.putLine h t i bad dirty own hint).free = s.free := by
  unfold State.putLine; dsimp only; split <;> simp
@[simp] theorem State.putLine_stamp (s : State) (h : Nat) (t : LineTag) (i : Nat) (bad dirty : Bool) (own : Option Nat) (hint : Nat) : (s.putLine h t i bad dirty own hint).stamp = s.stamp := by
  unfold State.putLine; dsimp only; split <;> simp
@[simp] theorem State.putLine_lastCore (s : State) (h : Nat) (t : LineTag) (i : Nat) (bad dirty : Bool) (own : Option Nat) (hint : Nat) : (s.putLine h t i bad dirty own hint).lastCore = s.lastCore := by
  unfold State.putLine; dsimp only; split <;> simp
@[simp] theorem State.putLine_cur (s : State) (h : Nat) (t : LineTag) (i : Nat) (bad dirty : Bool) (own : Option Nat) (hint : Nat) : (s.putLine h t i bad dirty own hint).cur = s.cur := by
  unfold State.putLine; dsimp only; split <;> simp
@[simp] theorem State.putLine_teams (s : State) (h : Nat) (t : LineTag) (i : Nat) (bad dirty : Bool) (own : Option Nat) (hint : Nat) : (s.putLine h t i bad dirty own hint).teams = s.teams := by
  unfold State.putLine; dsimp only; split <;> simp
@[simp] theorem State.putLine_cores (s : State) (h : Nat) (t : LineTag) (i : Nat) (bad dirty : Bool) (own : Option Nat) (hint : Nat) : (s.putLine h t i bad dirty own hint).cores = s.cores := by
  unfold State.putLine; dsimp only; split <;> simp
@[simp] theorem State.putLine_clusters (s : State) (h : Nat) (t : LineTag) (i : Nat) (bad dirty : Bool) (own : Option Nat) (hint : Nat) : (s.putLine h t i bad dirty own hint).clusters = s.clusters := by
  unfold State.putLine; dsimp only; split <;> simp
@[simp] theorem State.putLine_hbm (s : State) (h : Nat) (t : LineTag) (i : Nat) (bad dirty : Bool) (own : Option Nat) (hint : Nat) : (s.putLine h t i bad dirty own hint).hbm = s.hbm := by
  unfold State.putLine; dsimp only; split <;> simp
@[simp] theorem State.putLine_chk (s : State) (h : Nat) (t : LineTag) (i : Nat) (bad dirty : Bool) (own : Option Nat) (hint : Nat) : (s.putLine h t i bad dirty own hint).chk = s.chk := by
  unfold State.putLine; dsimp only; split <;> simp
@[simp] theorem State.putLine_bad (s : State) (h : Nat) (t : LineTag) (i : Nat) (bad dirty : Bool) (own : Option Nat) (hint : Nat) : (s.putLine h t i bad dirty own hint).bad = s.bad := by
  unfold State.putLine; dsimp only; split <;> simp
@[simp] theorem State.putLine_crow (s : State) (h : Nat) (t : LineTag) (i : Nat) (bad dirty : Bool) (own : Option Nat) (hint : Nat) : (s.putLine h t i bad dirty own hint).crow = s.crow := by
  unfold State.putLine; dsimp only; split <;> simp
@[simp] theorem State.putLine_crowBad (s : State) (h : Nat) (t : LineTag) (i : Nat) (bad dirty : Bool) (own : Option Nat) (hint : Nat) : (s.putLine h t i bad dirty own hint).crowBad = s.crowBad := by
  unfold State.putLine; dsimp only; split <;> simp
@[simp] theorem State.putLine_host (s : State) (h : Nat) (t : LineTag) (i : Nat) (bad dirty : Bool) (own : Option Nat) (hint : Nat) : (s.putLine h t i bad dirty own hint).host = s.host := by
  unfold State.putLine; dsimp only; split <;> simp
@[simp] theorem State.putLine_hostBad (s : State) (h : Nat) (t : LineTag) (i : Nat) (bad dirty : Bool) (own : Option Nat) (hint : Nat) : (s.putLine h t i bad dirty own hint).hostBad = s.hostBad := by
  unfold State.putLine; dsimp only; split <;> simp
@[simp] theorem State.putLine_psnNext (s : State) (h : Nat) (t : LineTag) (i : Nat) (bad dirty : Bool) (own : Option Nat) (hint : Nat) : (s.putLine h t i bad dirty own hint).psnNext = s.psnNext := by
  unfold State.putLine; dsimp only; split <;> simp
@[simp] theorem State.putLine_commitPoint (s : State) (h : Nat) (t : LineTag) (i : Nat) (bad dirty : Bool) (own : Option Nat) (hint : Nat) : (s.putLine h t i bad dirty own hint).commitPoint = s.commitPoint := by
  unfold State.putLine; dsimp only; split <;> simp
@[simp] theorem State.putLine_pubs (s : State) (h : Nat) (t : LineTag) (i : Nat) (bad dirty : Bool) (own : Option Nat) (hint : Nat) : (s.putLine h t i bad dirty own hint).pubs = s.pubs := by
  unfold State.putLine; dsimp only; split <;> simp
@[simp] theorem State.putLine_posted (s : State) (h : Nat) (t : LineTag) (i : Nat) (bad dirty : Bool) (own : Option Nat) (hint : Nat) : (s.putLine h t i bad dirty own hint).posted = s.posted := by
  unfold State.putLine; dsimp only; split <;> simp
@[simp] theorem State.putLine_cascades (s : State) (h : Nat) (t : LineTag) (i : Nat) (bad dirty : Bool) (own : Option Nat) (hint : Nat) : (s.putLine h t i bad dirty own hint).cascades = s.cascades := by
  unfold State.putLine; dsimp only; split <;> simp
@[simp] theorem State.putLine_done (s : State) (h : Nat) (t : LineTag) (i : Nat) (bad dirty : Bool) (own : Option Nat) (hint : Nat) : (s.putLine h t i bad dirty own hint).done = s.done := by
  unfold State.putLine; dsimp only; split <;> simp
@[simp] theorem State.putLine_logs (s : State) (h : Nat) (t : LineTag) (i : Nat) (bad dirty : Bool) (own : Option Nat) (hint : Nat) : (s.putLine h t i bad dirty own hint).logs = s.logs := by
  unfold State.putLine; dsimp only; split <;> simp
@[simp] theorem State.putLine_segs (s : State) (h : Nat) (t : LineTag) (i : Nat) (bad dirty : Bool) (own : Option Nat) (hint : Nat) : (s.putLine h t i bad dirty own hint).segs = s.segs := by
  unfold State.putLine; dsimp only; split <;> simp
@[simp] theorem State.putLine_ixUsed (s : State) (h : Nat) (t : LineTag) (i : Nat) (bad dirty : Bool) (own : Option Nat) (hint : Nat) : (s.putLine h t i bad dirty own hint).ixUsed = s.ixUsed := by
  unfold State.putLine; dsimp only; split <;> simp
@[simp] theorem State.putLine_windows (s : State) (h : Nat) (t : LineTag) (i : Nat) (bad dirty : Bool) (own : Option Nat) (hint : Nat) : (s.putLine h t i bad dirty own hint).windows = s.windows := by
  unfold State.putLine; dsimp only; split <;> simp
@[simp] theorem State.putLine_contexts (s : State) (h : Nat) (t : LineTag) (i : Nat) (bad dirty : Bool) (own : Option Nat) (hint : Nat) : (s.putLine h t i bad dirty own hint).contexts = s.contexts := by
  unfold State.putLine; dsimp only; split <;> simp
@[simp] theorem State.putLine_peers (s : State) (h : Nat) (t : LineTag) (i : Nat) (bad dirty : Bool) (own : Option Nat) (hint : Nat) : (s.putLine h t i bad dirty own hint).peers = s.peers := by
  unfold State.putLine; dsimp only; split <;> simp
@[simp] theorem State.putLine_snaps (s : State) (h : Nat) (t : LineTag) (i : Nat) (bad dirty : Bool) (own : Option Nat) (hint : Nat) : (s.putLine h t i bad dirty own hint).snaps = s.snaps := by
  unfold State.putLine; dsimp only; split <;> simp
@[simp] theorem State.putLine_images (s : State) (h : Nat) (t : LineTag) (i : Nat) (bad dirty : Bool) (own : Option Nat) (hint : Nat) : (s.putLine h t i bad dirty own hint).images = s.images := by
  unfold State.putLine; dsimp only; split <;> simp
@[simp] theorem State.putLine_copies (s : State) (h : Nat) (t : LineTag) (i : Nat) (bad dirty : Bool) (own : Option Nat) (hint : Nat) : (s.putLine h t i bad dirty own hint).copies = s.copies := by
  unfold State.putLine; dsimp only; split <;> simp
@[simp] theorem State.putLine_launches (s : State) (h : Nat) (t : LineTag) (i : Nat) (bad dirty : Bool) (own : Option Nat) (hint : Nat) : (s.putLine h t i bad dirty own hint).launches = s.launches := by
  unfold State.putLine; dsimp only; split <;> simp

@[simp] theorem State.touchRows_turns (s : State) (rows : List Nat) : (s.touchRows rows).turns = s.turns := rfl
@[simp] theorem State.touchRows_free (s : State) (rows : List Nat) : (s.touchRows rows).free = s.free := rfl
@[simp] theorem State.touchRows_stamp (s : State) (rows : List Nat) : (s.touchRows rows).stamp = s.stamp := rfl
@[simp] theorem State.touchRows_lastCore (s : State) (rows : List Nat) : (s.touchRows rows).lastCore = s.lastCore := rfl
@[simp] theorem State.touchRows_cur (s : State) (rows : List Nat) : (s.touchRows rows).cur = s.cur := rfl
@[simp] theorem State.touchRows_teams (s : State) (rows : List Nat) : (s.touchRows rows).teams = s.teams := rfl
@[simp] theorem State.touchRows_cores (s : State) (rows : List Nat) : (s.touchRows rows).cores = s.cores := rfl
@[simp] theorem State.touchRows_clusters (s : State) (rows : List Nat) : (s.touchRows rows).clusters = s.clusters := rfl
@[simp] theorem State.touchRows_slices (s : State) (rows : List Nat) : (s.touchRows rows).slices = s.slices := rfl
@[simp] theorem State.touchRows_hbm (s : State) (rows : List Nat) : (s.touchRows rows).hbm = s.hbm := rfl
@[simp] theorem State.touchRows_chk (s : State) (rows : List Nat) : (s.touchRows rows).chk = s.chk := rfl
@[simp] theorem State.touchRows_bad (s : State) (rows : List Nat) : (s.touchRows rows).bad = s.bad := rfl
@[simp] theorem State.touchRows_crow (s : State) (rows : List Nat) : (s.touchRows rows).crow = s.crow := rfl
@[simp] theorem State.touchRows_crowBad (s : State) (rows : List Nat) : (s.touchRows rows).crowBad = s.crowBad := rfl
@[simp] theorem State.touchRows_host (s : State) (rows : List Nat) : (s.touchRows rows).host = s.host := rfl
@[simp] theorem State.touchRows_hostBad (s : State) (rows : List Nat) : (s.touchRows rows).hostBad = s.hostBad := rfl
@[simp] theorem State.touchRows_psnNext (s : State) (rows : List Nat) : (s.touchRows rows).psnNext = s.psnNext := rfl
@[simp] theorem State.touchRows_commitPoint (s : State) (rows : List Nat) : (s.touchRows rows).commitPoint = s.commitPoint := rfl
@[simp] theorem State.touchRows_pubs (s : State) (rows : List Nat) : (s.touchRows rows).pubs = s.pubs := rfl
@[simp] theorem State.touchRows_posted (s : State) (rows : List Nat) : (s.touchRows rows).posted = s.posted := rfl
@[simp] theorem State.touchRows_cascades (s : State) (rows : List Nat) : (s.touchRows rows).cascades = s.cascades := rfl
@[simp] theorem State.touchRows_done (s : State) (rows : List Nat) : (s.touchRows rows).done = s.done := rfl
@[simp] theorem State.touchRows_logs (s : State) (rows : List Nat) : (s.touchRows rows).logs = s.logs := rfl
@[simp] theorem State.touchRows_segs (s : State) (rows : List Nat) : (s.touchRows rows).segs = s.segs := rfl
@[simp] theorem State.touchRows_ixUsed (s : State) (rows : List Nat) : (s.touchRows rows).ixUsed = s.ixUsed := rfl
@[simp] theorem State.touchRows_windows (s : State) (rows : List Nat) : (s.touchRows rows).windows = s.windows := rfl
@[simp] theorem State.touchRows_contexts (s : State) (rows : List Nat) : (s.touchRows rows).contexts = s.contexts := rfl
@[simp] theorem State.touchRows_peers (s : State) (rows : List Nat) : (s.touchRows rows).peers = s.peers := rfl
@[simp] theorem State.touchRows_snaps (s : State) (rows : List Nat) : (s.touchRows rows).snaps = s.snaps := rfl
@[simp] theorem State.touchRows_images (s : State) (rows : List Nat) : (s.touchRows rows).images = s.images := rfl
@[simp] theorem State.touchRows_copies (s : State) (rows : List Nat) : (s.touchRows rows).copies = s.copies := rfl
@[simp] theorem State.touchRows_launches (s : State) (rows : List Nat) : (s.touchRows rows).launches = s.launches := rfl

@[simp] theorem State.stall_turns (s : State) (x : Staller) : (s.stall x).turns = s.turns := rfl
@[simp] theorem State.stall_free (s : State) (x : Staller) : (s.stall x).free = s.free := rfl
@[simp] theorem State.stall_stamp (s : State) (x : Staller) : (s.stall x).stamp = s.stamp := rfl
@[simp] theorem State.stall_lastCore (s : State) (x : Staller) : (s.stall x).lastCore = s.lastCore := rfl
@[simp] theorem State.stall_cur (s : State) (x : Staller) : (s.stall x).cur = s.cur := rfl
@[simp] theorem State.stall_teams (s : State) (x : Staller) : (s.stall x).teams = s.teams := rfl
@[simp] theorem State.stall_cores (s : State) (x : Staller) : (s.stall x).cores = s.cores := rfl
@[simp] theorem State.stall_clusters (s : State) (x : Staller) : (s.stall x).clusters = s.clusters := rfl
@[simp] theorem State.stall_slices (s : State) (x : Staller) : (s.stall x).slices = s.slices := rfl
@[simp] theorem State.stall_hbm (s : State) (x : Staller) : (s.stall x).hbm = s.hbm := rfl
@[simp] theorem State.stall_chk (s : State) (x : Staller) : (s.stall x).chk = s.chk := rfl
@[simp] theorem State.stall_bad (s : State) (x : Staller) : (s.stall x).bad = s.bad := rfl
@[simp] theorem State.stall_crow (s : State) (x : Staller) : (s.stall x).crow = s.crow := rfl
@[simp] theorem State.stall_crowBad (s : State) (x : Staller) : (s.stall x).crowBad = s.crowBad := rfl
@[simp] theorem State.stall_host (s : State) (x : Staller) : (s.stall x).host = s.host := rfl
@[simp] theorem State.stall_hostBad (s : State) (x : Staller) : (s.stall x).hostBad = s.hostBad := rfl
@[simp] theorem State.stall_psnNext (s : State) (x : Staller) : (s.stall x).psnNext = s.psnNext := rfl
@[simp] theorem State.stall_commitPoint (s : State) (x : Staller) : (s.stall x).commitPoint = s.commitPoint := rfl
@[simp] theorem State.stall_pubs (s : State) (x : Staller) : (s.stall x).pubs = s.pubs := rfl
@[simp] theorem State.stall_posted (s : State) (x : Staller) : (s.stall x).posted = s.posted := rfl
@[simp] theorem State.stall_cascades (s : State) (x : Staller) : (s.stall x).cascades = s.cascades := rfl
@[simp] theorem State.stall_done (s : State) (x : Staller) : (s.stall x).done = s.done := rfl
@[simp] theorem State.stall_logs (s : State) (x : Staller) : (s.stall x).logs = s.logs := rfl
@[simp] theorem State.stall_segs (s : State) (x : Staller) : (s.stall x).segs = s.segs := rfl
@[simp] theorem State.stall_ixUsed (s : State) (x : Staller) : (s.stall x).ixUsed = s.ixUsed := rfl
@[simp] theorem State.stall_windows (s : State) (x : Staller) : (s.stall x).windows = s.windows := rfl
@[simp] theorem State.stall_contexts (s : State) (x : Staller) : (s.stall x).contexts = s.contexts := rfl
@[simp] theorem State.stall_peers (s : State) (x : Staller) : (s.stall x).peers = s.peers := rfl
@[simp] theorem State.stall_snaps (s : State) (x : Staller) : (s.stall x).snaps = s.snaps := rfl
@[simp] theorem State.stall_images (s : State) (x : Staller) : (s.stall x).images = s.images := rfl
@[simp] theorem State.stall_copies (s : State) (x : Staller) : (s.stall x).copies = s.copies := rfl
@[simp] theorem State.stall_launches (s : State) (x : Staller) : (s.stall x).launches = s.launches := rfl

/-! ## What an update writes -/

@[simp] theorem State.core_setCore_same (s : State) (k : Nat) (c : Core) : (s.setCore k c).core k = c := Table.get_set_same ..
theorem State.core_setCore_ne (s : State) (c : Core) {j k : Nat} (h : j ≠ k) : (s.setCore k c).core j = s.core j := Table.get_set_ne _ _ _ h
@[simp] theorem State.cluster_setCluster_same (s : State) (k : Nat) (c : Cluster) : (s.setCluster k c).cluster k = c := Table.get_set_same ..
theorem State.cluster_setCluster_ne (s : State) (c : Cluster) {j k : Nat} (h : j ≠ k) : (s.setCluster k c).cluster j = s.cluster j :=
  Table.get_set_ne _ _ _ h
@[simp] theorem State.slice_setSlice_same (s : State) (k : Nat) (c : Slice) : (s.setSlice k c).slice k = c := Table.get_set_same ..
theorem State.slice_setSlice_ne (s : State) (c : Slice) {j k : Nat} (h : j ≠ k) : (s.setSlice k c).slice j = s.slice j :=
  Table.get_set_ne _ _ _ h
@[simp] theorem State.onDev_dev (s : State) (f : Device → Device) : (s.onDev f).dev = f s.dev := rfl
@[simp] theorem State.window_setWindow_same (s : State) (k : Nat) (d : BitVec 512) : (s.setWindow k d).window k = d := Table.get_set_same ..
theorem State.window_setWindow_ne (s : State) (d : BitVec 512) {j k : Nat} (h : j ≠ k) : (s.setWindow k d).window j = s.window j :=
  Table.get_set_ne _ _ _ h
@[simp] theorem State.context_setContext_same (s : State) (k : Nat) (d : BitVec 512) : (s.setContext k d).context k = d := Table.get_set_same ..
@[simp] theorem State.withS_cur (s : State) (f : Scalar → Scalar) : (s.withS f).cur = { s.cur with s := f s.cur.s } := rfl
@[simp] theorem State.advance_pc (s : State) : s.advance.pc = s.pc + 4 := rfl
@[simp] theorem State.jumpTo_pc (s : State) (v : Word64) : (s.jumpTo v).pc = v := rfl
@[simp] theorem State.result_pc (s : State) (r : XReg) (v : Word64) : (s.result r v).pc = s.pc + 4 := rfl
@[simp] theorem State.setX_pc (s : State) (r : XReg) (v : Word64) : (s.setX r v).pc = s.pc := rfl
@[simp] theorem State.getX_zero (s : State) : s.getX 0 = 0 := by rw [State.getX, xget, if_pos rfl]
@[simp] theorem State.advance_getX (s : State) (r : XReg) : s.advance.getX r = s.getX r := rfl
@[simp] theorem State.jumpTo_getX (s : State) (v : Word64) (r : XReg) : (s.jumpTo v).getX r = s.getX r := rfl

/-- A register after a write: `x0` reads zero whatever is written to it (01 R11). -/
theorem State.getX_setX (s : State) (d r : XReg) (v : Word64) :
    (s.setX d v).getX r = if r = 0 then 0 else if r = d then v else s.getX r := by
  show xget (xset s.cur.s.x d v) r = if r = 0 then 0 else if r = d then v else xget s.cur.s.x r
  unfold xget xset
  by_cases hr : r = 0
  · rw [if_pos hr, if_pos hr]
  · rw [if_neg hr, if_neg hr, if_neg hr]
    by_cases hd : d = 0
    · rw [if_pos hd, if_neg (by rw [hd]; exact hr)]
    · rw [if_neg hd, Table.get_set]
      by_cases h : r = d
      · rw [if_pos h, if_pos (by rw [h])]
      · rw [if_neg h, if_neg (fun e => h (BitVec.eq_of_toNat_eq e))]

theorem State.getX_result (s : State) (d r : XReg) (v : Word64) :
    (s.result d v).getX r = if r = 0 then 0 else if r = d then v else s.getX r := State.getX_setX s d r v

/-! ## Teams by number -/

/-- A team after a change of it that keeps its number. -/
theorem State.team?_onTeamId {s : State} {uid : Nat} {f : Team → Team} {t : Team} (h : s.team? uid = some t)
    (hf : ∀ u, (f u).uid = u.uid) : (s.onTeamId uid f).team? uid = some (f t) := by
  unfold State.team? State.onTeamId at *
  by_cases hc : s.cur.uid = uid
  · rw [if_pos hc] at h ⊢
    simp only [hf, hc, if_true]
    exact congrArg (fun x => some (f x)) (Option.some.inj h)
  · rw [if_neg hc] at h
    simp only [hc, if_false]
    revert h
    induction s.teams with
    | nil => intro h; simp at h
    | cons a r ih =>
      intro h
      by_cases ha : a.uid = uid
      · simp only [List.find?_cons, ha, beq_self_eq_true, Option.some.injEq] at h
        subst h
        simp [hf, ha]
      · have e : (a.uid == uid) = false := beq_false_of_ne ha
        simp only [List.find?_cons, e] at h
        simpa [ha] using ih h

theorem State.team?_uid {s : State} {uid : Nat} {t : Team} (h : s.team? uid = some t) : t.uid = uid := by
  unfold State.team? at h
  split at h
  · rename_i hc; exact Option.some.inj h ▸ hc
  · have := List.find?_some h; simpa using this

end Sys2Proof.Machine
end

