-- ==== Sys2Proof/Tests/Slice0.lean ====
section
/-!
SUPPORT. Tests of the model: well-formedness, decoding, single steps, and a state that meets the hypotheses of each statement.
-/
open Sys2Proof Sys2Proof.Machine

namespace Sys2Proof.Tests

-- One theorem at a time: many kernel evaluations at once would each hold a thread.
set_option Elab.async false

/-! ## Decoding -/

/-- Lane fields with the register, mask and format fields given and every other field zero. -/
def tArith (vd va vb vc mask fmt : Nat) : LArith :=
  { vd := BitVec.ofNat 7 vd, va := BitVec.ofNat 7 va, vb := BitVec.ofNat 7 vb, vc := BitVec.ofNat 7 vc
    mask := BitVec.ofNat 4 mask, fmt := BitVec.ofNat 5 fmt, rnd := 0, sat := false, na := false, nb := false, nc := false
    bsel := 0, imm := false, spc := false, imm32 := 0 }

def tMask (vd va vb vc mask fmt : Nat) : LMask :=
  { vd := BitVec.ofNat 7 vd, va := BitVec.ofNat 7 va, vb := BitVec.ofNat 7 vb, vc := BitVec.ofNat 7 vc
    mask := BitVec.ofNat 4 mask, fmt := BitVec.ofNat 5 fmt, cnd := 0, imm := false, spc := false, imm32 := 0 }

def tCross (vd va vb vc mask fmt : Nat) : LCross :=
  { vd := BitVec.ofNat 7 vd, va := BitVec.ofNat 7 va, vb := BitVec.ofNat 7 vb, vc := BitVec.ofNat 7 vc
    mask := BitVec.ofNat 4 mask, fmt := BitVec.ofNat 5 fmt, rop := 0, exc := false, vk := 0, bsel := 0, imm := false
    spc := false, imm32 := 0 }

def tMem (vd va vb vc mask fmt : Nat) : LMem :=
  { vd := BitVec.ofNat 7 vd, va := BitVec.ofNat 7 va, vb := BitVec.ofNat 7 vb, vc := BitVec.ofNat 7 vc
    mask := BitVec.ofNat 4 mask, fmt := BitVec.ofNat 5 fmt, scope := 0, cov := false, col := 0, hint := 0, aop := 0
    imm32 := 0 }

def tMat (vd va vb vc mask fmt : Nat) : LMat :=
  { vd := BitVec.ofNat 7 vd, va := BitVec.ofNat 7 va, vb := BitVec.ofNat 7 vb, vc := BitVec.ofNat 7 vc
    mask := BitVec.ofNat 4 mask, fmt := BitVec.ofNat 5 fmt, rnd := 0, sat := false, cop := 0, bsel := 0, imm32 := 0 }

/-- Words of the alu rows of the opcode table, their fields filled in by hand (01 R18 to R23). -/
theorem test_decode_alu : ∀ p ∈ ([
     (0x022AA800, .add 17 10 21), (0x022AA801, .sub 17 10 21), (0x022AA802, .mul 17 10 21), (0x022AA803, .mulh 17 10 21),
     (0x022AA804, .mulhu 17 10 21), (0x022AA805, .div 17 10 21), (0x022AA806, .divu 17 10 21), (0x022AA807, .rem 17 10 21),
     (0x022AA808, .remu 17 10 21), (0x022AA809, .and 17 10 21), (0x022AA80A, .or 17 10 21), (0x022AA80B, .xor 17 10 21),
     (0x022AA80C, .andn 17 10 21), (0x022AA80D, .shl 17 10 21), (0x022AA80E, .shr 17 10 21), (0x022AA80F, .sar 17 10 21),
     (0x022AA810, .rotr 17 10 21), (0x022AA811, .min 17 10 21), (0x022AA812, .max 17 10 21), (0x022AA813, .minu 17 10 21),
     (0x022AA814, .maxu 17 10 21), (0x022AA815, .slt 17 10 21), (0x022AA816, .sltu 17 10 21), (0x022AA817, .seq 17 10 21),
     (0x022A0018, .clz 17 10), (0x022A0019, .ctz 17 10), (0x022A001A, .popc 17 10)] : List (Nat × Instr)), (decodeScalar p.1).toOption = some p.2 := by decide +kernel

/-- Words of the immediate rows of the opcode table, their fields filled in by hand (01 R18 to R23). -/
theorem test_decode_immediate : ∀ p ∈ ([
     (0x062A8001, .addi 17 10 0x8001), (0x0A2A8001, .andi 17 10 0x8001), (0x0E2A8001, .ori 17 10 0x8001),
     (0x122A8001, .xori 17 10 0x8001), (0x162A002A, .shli 17 10 0x2a), (0x1A2A002A, .shri 17 10 0x2a),
     (0x1E2A002A, .sari 17 10 0x2a), (0x222A8001, .slti 17 10 0x8001), (0x262A8001, .sltui 17 10 0x8001),
     (0x2A218001, .lui 17 0x18001), (0x2E218001, .apc 17 0x18001)] : List (Nat × Instr)), (decodeScalar p.1).toOption = some p.2 := by decide +kernel

/-- Words of the memory rows of the opcode table, their fields filled in by hand (01 R18 to R23). -/
theorem test_decode_memory : ∀ p ∈ ([
     (0x322A8001, .ldB 17 10 0x8001), (0x362A8001, .ldH 17 10 0x8001), (0x3A2A8001, .ldW 17 10 0x8001),
     (0x3E2A8001, .ldD 17 10 0x8001), (0x422A8001, .lduB 17 10 0x8001), (0x462A8001, .lduH 17 10 0x8001),
     (0x4A2A8001, .lduW 17 10 0x8001), (0x4E2A8001, .stB 17 10 0x8001), (0x522A8001, .stH 17 10 0x8001),
     (0x562A8001, .stW 17 10 0x8001), (0x5A2A8001, .stD 17 10 0x8001), (0x5E2AAD48, .amo 17 10 21 5 1 8),
     (0x622AAC00, .cas 17 10 21 4 0)] : List (Nat × Instr)), (decodeScalar p.1).toOption = some p.2 := by decide +kernel

/-- Words of the transfer rows of the opcode table, their fields filled in by hand (01 R18 to R23). -/
theorem test_decode_transfer : ∀ p ∈ ([
     (0x662A8003, .beq 17 10 0x8003), (0x69558003, .bne 10 21 0x8003), (0x6D558003, .blt 10 21 0x8003),
     (0x71558003, .bge 10 21 0x8003), (0x75558003, .bltu 10 21 0x8003), (0x79558003, .bgeu 10 21 0x8003),
     (0x7E000001, .jmp 0x2000001), (0x82000001, .call 0x2000001), (0x84000000, .ret), (0x880AA800, .jtab 10 21),
     (0x8C010001, .lpad 0x10001), (0x93E18001, .lrun 31 0x18001)] : List (Nat × Instr)), (decodeScalar p.1).toOption = some p.2 := by decide +kernel

/-- Words of the order rows of the opcode table, their fields filled in by hand (01 R18 to R23). -/
theorem test_decode_order : ∀ p ∈ ([
     (0x94008001, .lwait 0x8001), (0x9A2F0010, .mrd 17 15 16), (0x9DEA000F, .mwr 15 10 15), (0xA0000481, .rel 4 0x81),
     (0xA4000500, .acq 5), (0xA8000281, .fence 2 0x81), (0xAC0A0006, .tlwait 10 6), (0xB2200006, .tlread 17 6),
     (0xB62A000D, .rcopy 17 10 1 5), (0xBA2A000D, .rfeed 17 10 1 5), (0xBE2A0005, .rspill 17 10 0 5), (0xC3800000, .evpop 28),
     (0xC4000000, .evwait)] : List (Nat × Instr)), (decodeScalar p.1).toOption = some p.2 := by decide +kernel

/-- Words of the system rows of the opcode table, their fields filled in by hand (01 R18 to R23). -/
theorem test_decode_system : ∀ p ∈ ([
     (0xCA380000, .mxloop 17 24), (0xCCEAA802, .wset 7 10 21 2), (0xD0E00000, .wfree 7), (0xD4000001, .freeze 1),
     (0xD80000D2, .bar 13 2), (0xDE2A0001, .qput 17 10 1), (0xE22A0000, .qget 17 10 0), (0xE4000000, .yield),
     (0xE8008001, .exit 0x8001), (0xEC001234, .trap 0x1234), (0xF0008001, .svc 0x8001), (0xF6200421, .sget 17 0x421),
     (0xF40A0C0B, .sset 10 0x40b), (0xF8000000, .eret), (0xF8101234, .brk 0x1234), (0xF828A800, .snap 17 10),
     (0xF8302AA0, .roll 10 21), (0xF8400000, .nop)] : List (Nat × Instr)), (decodeScalar p.1).toOption = some p.2 := by decide +kernel

/-- Lane words laid out by hand from 01 R26 to R34 decode to their instructions. -/
theorem test_decode_lane_integer : ∀ p ∈ ([
     (0x001071230120180000000000, .vadd { tArith 65 98 35 0 9 0 with sat := true, na := true }),
     (0x003071230121040000000000, .vsub { tArith 65 98 35 0 9 1 with nb := true }),
     (0x005071000120004080000001, .vmul { tArith 65 98 0 0 9 0 with imm := true, imm32 := 0x80000001 }),
     (0x0070710A0120002000000000, .vmulh { tArith 65 98 10 0 9 0 with spc := true }),
     (0x009071230120000000000000, .vmulhu (tArith 65 98 35 0 9 0)),
     (0x00B071239B21020000000000, .vmad { tArith 65 98 35 77 9 1 with nc := true }),
     (0x00D071230120080000000000, .vmin { tArith 65 98 35 0 9 0 with na := true }),
     (0x00F071230121000000000000, .vmax (tArith 65 98 35 0 9 1)),
     (0x011071230120000000000000, .vminu (tArith 65 98 35 0 9 0)),
     (0x013071230121000000000000, .vmaxu (tArith 65 98 35 0 9 1)),
     (0x0150710001200040000000FF, .vand { tArith 65 98 0 0 9 0 with imm := true, imm32 := 0xff }),
     (0x017071230120000000000000, .vor (tArith 65 98 35 0 9 0)),
     (0x019071230120000000000000, .vxor (tArith 65 98 35 0 9 0)),
     (0x01B071230120000000000000, .vandn (tArith 65 98 35 0 9 0)),
     (0x01D071230121100000000000, .vshl { tArith 65 98 35 0 9 1 with sat := true }),
     (0x01F071230120000000000000, .vshr (tArith 65 98 35 0 9 0)),
     (0x021071230121000000000000, .vsar (tArith 65 98 35 0 9 1)),
     (0x023071230120000000000000, .vrotr (tArith 65 98 35 0 9 0)),
     (0x025071000120000000000000, .vclz (tArith 65 98 0 0 9 0)),
     (0x027071000121000000000000, .vpopc (tArith 65 98 0 0 9 1)),
     (0x029071000120000000000000, .vbrev (tArith 65 98 0 0 9 0)),
     (0x02B071000121100000000000, .vabs { tArith 65 98 0 0 9 1 with sat := true }),
     (0x02D071230120000000000000, .vaddsat (tArith 65 98 35 0 9 0)),
     (0x02F071230121000000000000, .vsubsat (tArith 65 98 35 0 9 1)),
     (0x031071230120008000000000, .vbfx { tArith 65 98 35 0 9 0 with bsel := 1 }),
     (0x033071239B20000000000000, .vbfi (tArith 65 98 35 77 9 0)),
     (0x035071239B21000000000000, .vsel (tArith 65 98 35 77 9 1)),
     (0x037040040120002000000000, .vmov { tArith 65 0 4 0 9 0 with spc := true }),
     (0x039071239B29100000000000, .vdot4 { tArith 65 98 35 77 9 9 with sat := true }),
     (0x03B071239B2700000000001F, .vrqz { tArith 65 98 35 77 9 7 with imm32 := 31 })] : List (Nat × Instr)), (decodeLane p.1).toOption = some p.2 := by decide +kernel

/-- Lane words laid out by hand from 01 R26 to R34 decode to their instructions. -/
theorem test_decode_lane_float : ∀ p ∈ ([
     (0x081071230122880000000000, .vfadd { tArith 65 98 35 0 9 2 with rnd := 4, na := true }),
     (0x083071230123200000000000, .vfsub { tArith 65 98 35 0 9 3 with rnd := 1 }),
     (0x085071230124100000000000, .vfmul { tArith 65 98 35 0 9 4 with sat := true }),
     (0x087071239B25020000000000, .vfma { tArith 65 98 35 77 9 5 with nc := true }),
     (0x089071230122000000000000, .vfmin (tArith 65 98 35 0 9 2)),
     (0x08B071230123000000000000, .vfmax (tArith 65 98 35 0 9 3)),
     (0x08D071000122000000000000, .vfabs (tArith 65 98 0 0 9 2)),
     (0x08F071000124000000000000, .vfneg (tArith 65 98 0 0 9 4)),
     (0x091071000122600000000000, .vfrnd { tArith 65 98 0 0 9 2 with rnd := 3 }),
     (0x093071000125000000000000, .vfclass (tArith 65 98 0 0 9 5)),
     (0x09507123012CA00000000000, .vnadd { tArith 65 98 35 0 9 12 with rnd := 5 }),
     (0x097071230130000000000000, .vnmul (tArith 65 98 35 0 9 16)),
     (0x099071239B38100000000000, .vnfma { tArith 65 98 35 77 9 24 with sat := true }),
     (0x09B07123012F000000000000, .vnmax (tArith 65 98 35 0 9 15)),
     (0x09D07123013B040000000000, .vnmin { tArith 65 98 35 0 9 27 with nb := true }),
     (0x0A1071000122004040000000, .vfdiv { tArith 65 98 0 0 9 2 with imm := true, imm32 := 0x40000000 }),
     (0x0A3071000123400000000000, .vfsqrt { tArith 65 98 0 0 9 3 with rnd := 2 }),
     (0x0A5071000124080000000000, .vrcp { tArith 65 98 0 0 9 4 with na := true }),
     (0x0A7071000125000000000000, .vrsq (tArith 65 98 0 0 9 5)),
     (0x0A9071000122100000000000, .vexp2 { tArith 65 98 0 0 9 2 with sat := true }),
     (0x0AB071000123000000000000, .vlog2 (tArith 65 98 0 0 9 3)),
     (0x0AD071000122000000000000, .vsin (tArith 65 98 0 0 9 2)),
     (0x0AF071000124000000000000, .vcos (tArith 65 98 0 0 9 4)),
     (0x0B1071000122000000000000, .vtanh (tArith 65 98 0 0 9 2))] : List (Nat × Instr)), (decodeLane p.1).toOption = some p.2 := by decide +kernel

/-- Lane words laid out by hand from 01 R26 to R34 decode to their instructions. -/
theorem test_decode_lane_format : ∀ p ∈ ([
     (0x10107100012C100000000002, .vcvt { tArith 65 98 0 0 9 12 with imm32 := 2, sat := true }),
     (0x103071000130000000000004, .vcvtd { tArith 65 98 0 0 9 16 with imm32 := 4 }),
     (0x10507100013A008000000000, .vcvtnf { tArith 65 98 0 0 9 26 with bsel := 1 }),
     (0x107071000127000000000000, .vpack (tArith 65 98 0 0 9 7)),
     (0x109071000129000000000000, .vunpack (tArith 65 98 0 0 9 9)),
     (0x10B071000131008000000000, .vbsc { tArith 65 98 0 0 9 17 with bsel := 1 }),
     (0x10D071230135A00000000000, .vbq { tArith 65 98 35 0 9 21 with rnd := 5 }),
     (0x10F071230137008000000000, .vbdq { tArith 65 98 35 0 9 23 with bsel := 1 })] : List (Nat × Instr)), (decodeLane p.1).toOption = some p.2 := by decide +kernel

/-- Lane words laid out by hand from 01 R26 to R34 decode to their instructions. -/
theorem test_decode_lane_mask : ∀ p ∈ ([
     (0x1403F1230120900000000000, .vcmp { tMask 15 98 35 0 9 0 with cnd := 9 }),
     (0x1423F100012470403F800000, .vfcmp { tMask 15 98 0 0 9 4 with cnd := 7, imm := true, imm32 := 0x3f800000 }),
     (0x1443C70D0000600000000000, .vmlog { tMask 15 14 13 0 0 0 with cnd := 6 }),
     (0x146007800120000000000000, .vmpop (tMask 0 15 0 0 9 0)),
     (0x148007000120000000000000, .vmfirst (tMask 0 14 0 0 9 0)),
     (0x14A3C7000000000000000000, .vif (tMask 15 14 0 0 0 0)),
     (0x14C3C0000000000000000000, .velse (tMask 15 0 0 0 0 0)),
     (0x14E040000000000000000000, .vendif (tMask 1 0 0 0 0 0)),
     (0x1503C7000000000000000000, .vbreak (tMask 15 14 0 0 0 0))] : List (Nat × Instr)), (decodeLane p.1).toOption = some p.2 := by decide +kernel

/-- Lane words laid out by hand from 01 R26 to R34 decode to their instructions. -/
theorem test_decode_lane_cross : ∀ p ∈ ([
     (0x18103123993C000000000010, .vshfl { tCross 64 98 35 76 9 28 with imm32 := 16 }),
     (0x183071009B200000000003FF, .vbcast { tCross 65 98 0 77 9 0 with imm32 := 0x3ff }),
     (0x185071009B20000000000001, .vrot { tCross 65 98 0 77 9 0 with imm32 := 1 }),
     (0x1863F1000120040000000000, .vvote { tCross 15 98 0 0 9 0 with vk := 2 }),
     (0x189071000121700000000000, .vred { tCross 65 98 0 0 9 1 with rop := 7 }),
     (0x18B071000125A00000000000, .vfred { tCross 65 98 0 0 9 5 with rop := 10 }),
     (0x18D071000120480000000000, .vscan { tCross 65 98 0 0 9 0 with rop := 4, exc := true }),
     (0x18F071000122800000000000, .vfscan { tCross 65 98 0 0 9 2 with rop := 8 }),
     (0x191071000120000000000000, .vmatch (tCross 65 98 0 0 9 0)),
     (0x193071009B20000000000000, .vcompact (tCross 65 98 0 77 9 0)),
     (0x19503100013C000000000000, .vexpand (tCross 64 98 0 0 9 28))] : List (Nat × Instr)), (decodeLane p.1).toOption = some p.2 := by decide +kernel

/-- Lane words laid out by hand from 01 R26 to R34 decode to their instructions. -/
theorem test_decode_lane_memory : ∀ p ∈ ([
     (0x1C107100012D0180FFFFFFF8, .vld { tMem 65 98 0 0 9 13 with hint := 3, imm32 := 0xfffffff8 }),
     (0x1C203124013C1F0000000000, .vst { tMem 0 98 36 0 9 28 with cov := true, col := 7, hint := 2 }),
     (0x1C5070800129000000000004, .vldp { tMem 65 97 0 0 9 9 with imm32 := 4 }),
     (0x1C6030A3012A000000000000, .vstp (tMem 0 97 35 0 9 10)),
     (0x1C903080013C000000000000, .vldb (tMem 64 97 0 0 9 28)),
     (0x1CA030A30122000000000000, .vstb (tMem 0 97 35 0 9 2)),
     (0x1CD04F802125C08000000000, .vldrow { tMem 65 31 0 16 9 5 with scope := 6, hint := 1 }),
     (0x1CE031230126000000000000, .vtst (tMem 0 98 35 0 9 6)),
     (0x1D0031000120010000000000, .vpref { tMem 0 98 0 0 9 0 with hint := 2 }),
     (0x1D3071230125A03000000000, .vatom { tMem 65 98 35 0 9 5 with scope := 5, aop := 12 }),
     (0x1D503124993C800000000000, .vcas { tMem 64 98 36 76 9 28 with scope := 4 }),
     (0x1D600FA31122C00800000000, .vrowatom { tMem 0 31 35 8 9 2 with scope := 6, aop := 2 })] : List (Nat × Instr)), (decodeLane p.1).toOption = some p.2 := by decide +kernel

/-- Lane words laid out by hand from 01 R26 to R34 decode to their instructions. -/
theorem test_decode_lane_matrix : ∀ p ∈ ([
     (0x2001F1000120000000001000, .vwst { tMat 7 98 0 0 9 0 with imm32 := 0x1000 }),
     (0x2020F1000137000000000000, .vqput (tMat 3 98 0 0 9 23)),
     (0x20504780012CB00000000020, .vadr { tMat 65 15 0 0 9 12 with rnd := 5, sat := true, imm32 := 0x20 }),
     (0x2063C0000122000004000020, .vaclr { tMat 15 0 0 0 9 2 with imm32 := 0x4000020 }),
     (0x22100F800122080000000000, .vnrred { tMat 64 31 0 0 9 2 with cop := 2 }),
     (0x22304F800120000000000400, .vnrld { tMat 65 31 0 0 9 0 with imm32 := 0x400 }),
     (0x22400FA30122000000000000, .vnrst (tMat 0 31 35 0 9 2)),
     (0x2267CF000120000000000000, .vnrclone (tMat 31 30 0 0 9 0))] : List (Nat × Instr)), (decodeLane p.1).toOption = some p.2 := by decide +kernel

/-- Lane words laid out by hand from 01 R26 to R34 decode to their instructions. -/
theorem test_decode_lane_control_and_pairs : ∀ p ∈ ([
     (0x240000000120000000000000, .vnop ⟨9⟩),
     (0x242000000000000000000000, .vend ⟨0⟩),
     (0x80818918090487071239BE26, .lanePair ⟨0, 64, 98, 35, 0, 9, 0, 4⟩ ⟨67, 65, 98, 35, 77, 15, 2, 3⟩),
     (0xCEFE041000C025F818000210, .lanePair ⟨78, 127, 1, 2, 0, 0, 24, 0⟩ ⟨18, 126, 3, 0, 0, 1, 1, 0⟩)] : List (Nat × Instr)), (decodeLane p.1).toOption = some p.2 := by decide +kernel
/-! ## Ill-formed instructions, one for each check -/

/-- 01 R20 to R23: fields of scalar words outside the values the spec assigns. -/
theorem test_ill_formed_scalar : ∀ i ∈ ([.amo 1 2 3 3 0 0, .amo 1 2 3 6 0 0, .amo 1 2 3 4 2 0, .amo 1 2 3 4 0 9, .cas 1 2 3 3 0,
    .cas 1 2 3 4 2, .mrd 1 16 0, .mrd 1 0 17, .mwr 16 1 0, .mwr 0 1 16, .rel 0 1, .rel 6 1, .rel 4 0, .acq 0, .acq 6,
    .fence 3 1, .fence 0 0, .rcopy 1 2 0 6, .rfeed 1 2 0 6, .rspill 1 2 0 7, .evpop 3, .evpop 30, .mxloop 1 2, .mxloop 1 0,
    .mxloop 1 28, .wset 0 1 2 3, .freeze 3, .bar 0 3] : List Instr), wellFormed i = false := by decide +kernel

/-- 11 R230 to R246, 01 R31: formats, unused registers, modifiers, immediates and special operands of the arithmetic classes. -/
theorem test_ill_formed_arithmetic : ∀ i ∈ ([.vadd (tArith 1 2 3 0 0 2), .vmulh (tArith 1 2 3 0 0 1), .vmov (tArith 1 2 3 0 0 0),
    .vadd (tArith 1 2 3 4 0 0), .vminu { tArith 1 2 3 0 0 0 with na := true }, .vminu { tArith 1 2 3 0 0 0 with nb := true },
    .vadd { tArith 1 2 3 0 0 0 with nc := true }, .vand { tArith 1 2 3 0 0 0 with sat := true },
    .vadd { tArith 1 2 3 0 0 0 with rnd := 1 }, .vfadd { tArith 1 2 3 0 0 2 with rnd := 5 },
    .vnadd { tArith 1 2 3 0 0 0x0C with rnd := 6 }, .vadd { tArith 1 2 3 0 0 0 with bsel := 1 },
    .vbfx { tArith 1 2 3 0 0 0 with bsel := 2 }, .vclz { tArith 1 2 0 0 0 0 with imm := true },
    .vclz { tArith 1 2 0 0 0 0 with spc := true }, .vadd { tArith 1 2 0 0 0 0 with imm := true, spc := true },
    .vadd { tArith 1 2 3 0 0 0 with imm := true }, .vclz (tArith 1 2 3 0 0 0), .vadd { tArith 1 2 11 0 0 0 with spc := true },
    .vadd { tArith 1 2 3 0 0 0 with imm32 := 1 }, .vrqz { tArith 1 2 3 4 0 7 with imm32 := 32 },
    .vcvt { tArith 1 2 0 0 0 0x05 with imm32 := 2 }, .vcvt { tArith 1 2 0 0 0 0 with imm32 := 0x18 },
    .vcvtd { tArith 1 2 0 0 0 0x02 with imm32 := 2 }, .vcvtd { tArith 1 2 0 0 0 0x0C with imm32 := 0 },
    .vcvtnf { tArith 1 2 0 0 0 0x18 with bsel := 1, rnd := 5 }, .vpack (tArith 1 121 0 0 0 7), .vunpack (tArith 121 1 0 0 0 7),
    .vdot4 (tArith 1 2 3 4 0 0), .vbsc (tArith 1 2 0 0 0 0x10)] : List Instr), wellFormed i = false := by decide +kernel

/-- 12 R249, R250: mask numbers, conditions and unused fields of the mask class. -/
theorem test_ill_formed_mask : ∀ i ∈ ([.vcmp (tMask 16 1 2 0 0 0), .vcmp (tMask 0 1 2 3 0 0), .vcmp (tMask 0 1 2 0 0 1),
    .vcmp { tMask 0 1 2 0 0 0 with cnd := 10 }, .vcmp { tMask 0 1 2 0 0 0 with imm := true }, .vfcmp (tMask 0 1 2 0 0 5),
    .vfcmp { tMask 0 1 2 0 0 2 with cnd := 8 }, .vmlog (tMask 0 16 1 0 0 0), .vmlog (tMask 0 1 16 0 0 0), .vmlog (tMask 0 1 2 0 1 0),
    .vmlog { tMask 0 1 2 0 0 0 with imm32 := 1 }, .vmpop (tMask 0 1 2 0 0 0), .vmfirst { tMask 0 1 0 0 0 0 with cnd := 1 },
    .vif (tMask 0 1 0 0 0 0), .vif (tMask 1 1 0 0 1 0), .velse (tMask 0 0 0 0 0 0), .velse (tMask 1 1 0 0 0 0),
    .vendif (tMask 16 0 0 0 0 0), .vendif (tMask 0 0 0 0 0 0), .vbreak (tMask 0 1 0 0 0 0), .vbreak (tMask 1 16 0 0 0 0)] : List Instr),
    wellFormed i = false := by decide +kernel

/-- 12 R256, R257, 01 R32: operators, vote kinds, pairs and offsets of the cross-lane class. -/
theorem test_ill_formed_cross_lane : ∀ i ∈ ([.vshfl (tCross 1 2 3 4 0 1), .vshfl (tCross 1 2 3 4 0 0x1C),
    .vshfl { tCross 1 2 3 4 0 0 with imm32 := 17 }, .vshfl { tCross 1 2 3 4 0 0 with imm := true },
    .vshfl { tCross 1 2 11 4 0 0 with spc := true }, .vshfl { tCross 1 2 3 4 0 0 with bsel := 1 }, .vbcast (tCross 1 2 3 4 0 0),
    .vbcast { tCross 1 2 0 4 0 0 with imm32 := 1024 }, .vrot { tCross 1 2 0 4 0 0 with rop := 1 }, .vvote (tCross 1 2 0 4 0 0),
    .vred { tCross 1 2 0 0 0 0 with rop := 8 }, .vred (tCross 1 2 0 0 0 2), .vred { tCross 1 2 0 0 0 0 with exc := true },
    .vfred { tCross 1 2 0 0 0 2 with rop := 7 }, .vfred { tCross 1 2 0 0 0 2 with rop := 11 }, .vscan { tCross 1 2 0 0 0 0 with vk := 1 },
    .vfscan (tCross 1 2 0 0 0 2), .vmatch (tCross 1 2 0 0 0 1), .vcompact { tCross 1 2 0 3 0 0 with imm32 := 1 },
    .vexpand (tCross 1 2 0 3 0 0)] : List Instr), wellFormed i = false := by decide +kernel

/-- 06 R136, R137: formats, pairs, scopes, colours, hints and operations of the memory class. -/
theorem test_ill_formed_memory : ∀ i ∈ ([.vld (tMem 1 2 0 0 0 0x07 |> fun f => { f with scope := 1 }), .vld (tMem 1 3 0 0 0 0),
    .vld (tMem 1 2 0 0 0 0x1C), .vld { tMem 1 2 0 0 0 0 with cov := true }, .vld { tMem 1 2 0 0 0 0 with col := 1 },
    .vst (tMem 1 2 3 0 0 0), .vst (tMem 0 2 3 0 0 0x1C), .vst { tMem 0 2 3 0 0 0 with aop := 1 }, .vldp (tMem 1 2 0 0 0 0x06),
    .vldp { tMem 1 2 0 0 0 0 with hint := 1 }, .vstp (tMem 0 2 3 4 0 0), .vldb (tMem 1 2 3 0 0 0), .vstb (tMem 0 2 3 0 0 0x0C),
    .vldrow { tMem 1 32 0 1 0 0 with scope := 6 }, .vldrow { tMem 1 2 0 3 0 0 with scope := 6 }, .vldrow (tMem 1 2 0 1 0 0),
    .vtst { tMem 0 2 3 0 0 0 with hint := 1 }, .vpref { tMem 0 2 0 0 0 0 with hint := 3 }, .vpref (tMem 0 2 0 0 0 2),
    .vatom { tMem 1 2 3 0 0 2 with scope := 4 }, .vatom { tMem 1 2 3 0 0 0 with scope := 3 },
    .vatom { tMem 1 2 3 0 0 0x05 with scope := 4, aop := 13 }, .vcas { tMem 1 2 3 4 0 0x1C with scope := 4 },
    .vrowatom { tMem 0 2 3 1 0 2 with scope := 6, aop := 1 }, .vrowatom { tMem 0 2 3 0 0 2 with scope := 6, aop := 2 }] : List Instr),
    wellFormed i = false := by decide +kernel

/-- 13 R272, R273, R290, 03 R86: numbers of regions, FIFOs and tiles, formats and Cascade operators. -/
theorem test_ill_formed_matrix : ∀ i ∈ ([.vwst (tMat 8 1 0 0 0 0), .vwst (tMat 0 1 0 0 0 2), .vqput (tMat 4 1 0 0 0 0),
    .vqput { tMat 0 1 0 0 0 0 with imm32 := 1 }, .vadr (tMat 1 16 0 0 0 0), .vadr { tMat 1 0 0 0 0 0 with rnd := 1 },
    .vadr { tMat 1 0 0 0 0 2 with rnd := 5 }, .vadr { tMat 1 0 0 0 0 0x0C with rnd := 6 }, .vaclr (tMat 16 0 0 0 0 0),
    .vaclr { tMat 0 0 0 0 0 0 with imm32 := 64 }, .vaclr (tMat 0 0 0 0 0 2), .vnrred (tMat 1 32 0 0 0 0),
    .vnrred { tMat 1 0 0 0 0 0 with cop := 3 }, .vnrred { tMat 1 0 0 0 0 2 with cop := 2 }, .vnrred { tMat 0 0 0 0 0 0 with cop := 2 },
    .vnrred { tMat 0 0 0 0 0 2 with sat := true }, .vnrld (tMat 1 32 0 0 0 0), .vnrst (tMat 1 0 2 0 0 0),
    .vnrclone (tMat 32 0 0 0 0 0), .vnrclone { tMat 1 2 0 0 0 0 with cop := 1 }, .vnrclone { tMat 1 0 0 0 0 0 with cop := 3 }] : List Instr),
    wellFormed i = false := by decide +kernel

/-- 01 R27, R35: halves that are no halves, and pairs that break a condition of pairing. -/
theorem test_ill_formed_pairs : ∀ p ∈ ([(⟨0x1E, 0, 1, 2, 0, 0, 0, 0⟩, ⟨1, 1, 1, 2, 0, 0, 0, 0⟩), (⟨0x40, 0, 1, 2, 0, 0, 2, 6⟩, ⟨1, 1, 1, 2, 0, 0, 0, 0⟩),
    (⟨0, 0, 1, 2, 0, 0, 0, 1⟩, ⟨1, 1, 1, 2, 0, 0, 0, 0⟩), (⟨0, 0, 1, 2, 0, 0, 0, 0⟩, ⟨0x44, 1, 1, 2, 0, 0, 2, 1⟩),
    (⟨0x51, 0, 1, 0, 0, 0, 2, 0⟩, ⟨1, 1, 1, 2, 0, 0, 0, 0⟩), (⟨0, 0, 1, 2, 0, 0, 0, 0⟩, ⟨1, 2, 1, 2, 0, 0, 0, 0⟩),
    (⟨0, 0, 1, 2, 0, 0, 0, 0⟩, ⟨5, 9, 3, 4, 5, 0, 0, 0⟩), (⟨0, 0, 1, 2, 0, 0, 0, 0⟩, ⟨1, 3, 0, 2, 0, 0, 0, 0⟩)] : List (Half × Half)),
    wellFormed (.lanePair p.1 p.2) = false := by decide +kernel

/-- Reserved bits, unassigned encodings and broken pairs are refused by name (01 R22, R26, R34, R35). -/
theorem test_decode_refuses : decodeScalar 0x00E84820 = .error .illop ∧ decodeScalar 0x84000001 = .error .illop
    ∧ decodeScalar 0x6000003F = .error .illop ∧ decodeScalar 0xD800001C = .error .illop ∧ decodeScalar 0xF8500000 = .error .illop
    ∧ decodeLane (0x1E * 2 ^ 85) = .error .illop ∧ decodeLane (0x120 * 2 ^ 85 + 1) = .error .illop
    ∧ decodeLane (0x130 * 2 ^ 85) = .error .illop ∧ decodeLane (2 ^ 95 + 2 ^ 87 + 1) = .error .illop
    ∧ decodeLane (2 ^ 95) = .error .illpair := by
  refine ⟨?_, ?_, ?_, ?_, ?_, ?_, ?_, ?_, ?_, ?_⟩ <;> rfl

/-- The steps of other agents have no words; a word of the table's width is read by the decoder. -/
theorem test_table_words : encode .psnCommit = none ∧ decodeTableWord 96 (0x120 * 2 ^ 85) = some (.vnop ⟨0⟩)
    ∧ decodeTableWord 32 0xF8400000 = some .nop ∧ decodeTableWord 16 0 = none := by decide +kernel

/-! ## Small states -/

/-- A computation runs to its end with a value and a state that satisfy `p`. -/
def okB {α : Type} (r : EStateM.Result Stop State α) (p : α → State → Bool) : Bool :=
  match r with
  | .ok a t => p a t
  | .error _ _ => false

theorem okB_spec {α : Type} {r : EStateM.Result Stop State α} {p : α → State → Bool} (h : okB r p = true) :
    ∃ a t, r = .ok a t ∧ p a t = true := by
  cases r with
  | ok a t => exact ⟨a, t, rfl, h⟩
  | error e t => cases h

/-- A step answers a next state that satisfies `p`. -/
def nextB (r : Host.Outcome State Fault Refusal) (p : State → Bool) : Bool :=
  match r with
  | .next t => p t
  | _ => false

theorem nextB_spec {r : Host.Outcome State Fault Refusal} {p : State → Bool} (h : nextB r p = true) :
    ∃ t, r = .next t ∧ p t = true := by
  cases r with
  | next t => exact ⟨t, rfl, h⟩
  | fault f => cases h
  | refused f => cases h

/-- A value is there and satisfies `p`; a list holds one value, or two, that satisfy it. -/
def someB {α : Type} (o : Option α) (p : α → Bool) : Bool := match o with | some a => p a | none => false
def oneB {α : Type} (l : List α) (p : α → Bool) : Bool := match l with | [a] => p a | _ => false
def twoB {α : Type} (l : List α) (p : α → α → Bool) : Bool := match l with | [a, b] => p a b | _ => false

theorem someB_spec {α : Type} {o : Option α} {p : α → Bool} (h : someB o p = true) : ∃ a, o = some a ∧ p a = true := by
  cases o with
  | some a => exact ⟨a, rfl, h⟩
  | none => cases h

theorem oneB_spec {α : Type} {l : List α} {p : α → Bool} (h : oneB l p = true) : ∃ a, l = [a] ∧ p a = true := by
  match l, h with
  | [a], h => exact ⟨a, rfl, h⟩

theorem twoB_spec {α : Type} {l : List α} {p : α → α → Bool} (h : twoB l p = true) : ∃ a b, l = [a, b] ∧ p a b = true := by
  match l, h with
  | [a, b], h => exact ⟨a, b, rfl, h⟩

/-- A team that issues scalar words, and one that runs a lane block, each with its word placed (log 22). -/
def tS : State := State.reset.withFetchWord 32 0xF8400000
def tL : State := State.reset.withFetchWord 96 (0x120 * 2 ^ 85)

/-- Registers set. -/
def regs (l : List (XReg × Word64)) (s : State) : State := l.foldl (fun s p => s.setX p.1 p.2) s

/-- The issuing team changed. -/
def State.withCur (s : State) (f : Team → Team) : State := { s with cur := f s.cur }

/-- A state without its measurements and the activations of ordinary rows, whose values are opaque (log 14, log 1), so that two states
can be compared. -/
def bare (s : State) : State := { s with dev := { s.dev with meas := [], rows := RowTrack.init } }

/-- The uid of the probe's team. -/
def tU : Nat := 1

/-- The state a run of steps reaches; the state itself where one of them stops. -/
def runAll (l : List Instr) (s : State) : State :=
  l.foldl (fun s i => match exec i s with | .next t => t | _ => s) s

/-- A leaf of the core's TLB for page `vpn`: window `win` from address `la`, readable and writable (05 R113). -/
def withLeaf (vpn la win : Nat) (desc : BitVec 512) (s : State) : State :=
  let c := s.core 0
  { s.setCore 0 { c with tlb := { ctx := 0, vpn := vpn, pages := 1, la := la, entry := 25, lvl := 0, win := win, desc := desc } :: c.tlb } with
    windows := Table.set 0 s.windows win desc }

/-- Window 1 in host memory with its own atomics, from host address 2^21, and window 2 over the compute rows (02 R52). -/
def tHostDesc : BitVec 512 := BitVec.ofNat 512 (2 ^ 46 + 2 ^ 45 + 2 ^ 42 + 2 ^ 40 + (2 ^ 45 + 2 ^ 21) * 2 ^ 64 + 64 * 2 ^ 128)
def tRowDesc : BitVec 512 := BitVec.ofNat 512 (2 * 2 ^ 46 + 2 ^ 45 + 2 ^ 41 + 2 ^ 45 * 2 ^ 64 + 4096 * 2 ^ 128)

/-- The same team with page 0x100 in host memory and page 0x200 in the compute rows. -/
def tHost : State := withLeaf 0x200 (2 ^ 45) 2 tRowDesc (withLeaf 0x100 (2 ^ 45 + 2 ^ 21) 1 tHostDesc tS)

/-- A value stored at 0x3008: its sector is dirty; then appended to the log. -/
def tDirty : State := runAll [.stD 1 2 0] (regs [(1, 0x8182838485868788), (2, 0x3008)] tS)
def tApp : State := runM (appendDirty tDirty.cur 255) tDirty

/-- The same published, then prepared at every slice, then announced to every cluster, and then committed. -/
def tPub : State := runAll [.rel 4 1] tApp
def tPrep : State := runAll ((List.range 48).map fun h => .psnShareArrival 1 h) tPub
def tHeld : State := runAll ((List.range 48).map fun c => .heldNotice 1 ⟨0, c⟩) tPrep
def tCommit : State := runAll [.psnCommit] tHeld

/-- The block that runs in the probe's lane stream, and a team of two lane words beside it. -/
def tRun : LaneRun := tL.cur.l.run.getD { blk := LaneBlock.none, lpc := 0, done := 0, word := none }
def tL2 : State := State.withCur tL fun t =>
  { t with ctl := { t.ctl with nlw := 2 }, l := { t.l with m := [(0, allLanes 2)], pt := freshTable 64 4 2 (fun p => p) } }

/-- Lanes of a register set, in lane word `w` from lane 0 on. -/
def lanes (r w : Nat) (vals : List Nat) (s : State) : State :=
  runM (writeLanes r w (vals.mapIdx fun i v => (i, BitVec.ofNat 32 v))) s

/-- One lane of a register. -/
def laneOf (s : State) (r l : Nat) : Nat := (s.cur.regLane (s.core s.cur.core) r l).1.toNat

/-- Lane masks set. -/
def masks (l : List (Nat × Nat)) (s : State) : State :=
  State.withCur s fun t => l.foldl (fun t p => t.setMask p.1 (BitVec.ofNat 1024 p.2)) t

/-- Bytes stored by the scalar stream at addresses, so that its task sees them. -/
def poke (l : List (Nat × Nat)) (s : State) : State :=
  l.foldl (fun s p => runAll [.stD 28 29 0] (regs [(28, BitVec.ofNat 64 p.2), (29, BitVec.ofNat 64 p.1)] s)) s

/-- A sector of a granule of window 0 in place before anything runs: sector `k` of the granule, at place `i` of the probe's segment. -/
def sectorIn (gran k i v : Nat) (s : State) : State :=
  (s.putSector (probePos + i) (granSec gran + k) { data := BitVec.ofNat 256 v, poison := false }).setNodeEntry 0 gran
    (mkGranule 1 0 (probePos + i) (2 ^ k))

/-- A launch record of context 0, tenant 0, queue 0: `nx` instances, `ns` stages of weight 1 on one cluster each (16 R330). -/
def tRec (nx ns : Nat) : BitVec 1024 :=
  BitVec.ofNat 1024 (0x8000 + (nx + 2 ^ 32) * 2 ^ 64 + 2 ^ 128
    + (2 ^ 60 + ns * 2 ^ 56 + ns * 2 ^ 52 + (List.range ns).foldl (fun n k => n + 2 ^ (20 + 4 * k)) 0) * 2 ^ 192)

/-- A kernel of 64 registers and one lane word, its code at 0x2000 (16 R331). -/
def tKernel : BitVec 1024 := BitVec.ofNat 1024 (0x2000 + 0x2000 * 2 ^ 64 + 8 * 2 ^ 47 * 2 ^ 256)

/-- A launch of two stages that runs, both with cores, and a queue of two entries between them. -/
def tStage (cores : List Nat) : StageRun := { StageRun.init with clusters := (cores.map (· / 4)).eraseDups, cores := cores, top := 2 }
def tLaunch : Launch :=
  { Launch.fresh 0 0 0 0 (tRec 4 2) with
    kdesc := tKernel, status := .running, placed := true, stages := [tStage [0, 1], tStage [4]], queues := [{ cap := 2, entries := [], places := [] }] }

/-- The probe's team as an instance of a stage of that launch. -/
def tInst (stage : Nat) : State :=
  { State.withCur tS (fun t => { t with id := { t.id with stage := stage }, ctl := { t.ctl with gang := true } }) with launches := [tLaunch] }

/-- A phase of the team's word. -/
def phased (p : Phase) (s : State) : State := s.withS fun c => { c with phase := p }


/-- The block that runs stands at a lane word whose registers fit and are sound; and at its pass of a lane word. -/
def laneB (s : State) (i : Instr) : Bool :=
  decide (s.cur.l.run.isSome = true ∧ (s.cur.l.passes = none ∨ s.cur.l.passes = some (s.cur.passesOf i (touch s.cur.blk.nf i).masks)))
  && decide ((∀ r ∈ (touch s.cur.blk.nf i).named, r < 128 ∧ r < s.cur.nregs) ∧ ∀ k ∈ nfNamed i, nfMalformed (s.cur.blk.nf.getD k 0) = false)
  && decide ((∀ r ∈ (touch s.cur.blk.nf i).srcs, ∀ w < s.cur.n, (s.cur.regRow (s.core s.cur.core) r w).2 = 0)
      ∧ ∀ r ∈ (touch s.cur.blk.nf i).dsts, Pte.shr (s.cur.pte r) = false
        ∧ (Pte.form (s.cur.pte r) = Form.full ∨ ∀ w < s.cur.n, (s.cur.regRow (s.core s.cur.core) r w).2 = 0))
def atB (s : State) (i : Instr) (w : Nat) : Bool :=
  laneB s i && decide ((s.cur.l.passes = none → s.cur.l.pix = 0) ∧ s.cur.passOfWord i = some w)

theorem laneB_spec {s : State} {i : Instr} (h : laneB s i = true) : s.laneAt i (s.cur.l.run.getD tRun) ∧ s.laneFit i ∧ s.laneSound i := by
  simp only [laneB, Bool.and_eq_true, decide_eq_true_eq] at h
  obtain ⟨r, hr⟩ := Option.isSome_iff_exists.mp h.1.1.1
  exact ⟨⟨by rw [hr]; rfl, h.1.1.2⟩, h.1.2, h.2⟩

theorem atB_spec {s : State} {i : Instr} {w : Nat} (h : atB s i w = true) : s.atPass i (s.cur.l.run.getD tRun) w := by
  simp only [atB, Bool.and_eq_true, decide_eq_true_eq] at h
  exact ⟨(laneB_spec h.1).1, (laneB_spec h.1).2.1, (laneB_spec h.1).2.2, h.2.1, h.2.2⟩

/-- The leaf that the core of the issuing team holds for an address. -/
def noLeaf : TlbLeaf := { ctx := 0, vpn := 0, pages := 0, la := 0, entry := 0, lvl := 0, win := 0, desc := 0 }
def leafAt (s : State) (va : Word64) : TlbLeaf :=
  ((s.core s.cur.core).tlb.find? fun l => l.covers s.cur.id.ctx va.toNat).getD noLeaf

/-- An access reaches that leaf; and memory through it. -/
def reachB (s : State) (a : Access) (va : Word64) (n : Nat) : Bool :=
  decide (va.toNat < 2 ^ 57 ∧ va.toNat % n = 0
    ∧ ((s.core s.cur.core).tlb.find? fun l => l.covers s.cur.id.ctx va.toNat) = some (leafAt s va))
  && @decide (s.windowFits { a with size := n } va (leafAt s va)) (by unfold State.windowFits; infer_instance)
def handB (s : State) (a : Access) (va : Word64) (n : Nat) : Bool := reachB s a va n && decide (s.cur.pageKind va = .memory)

theorem handB_spec {s : State} {a : Access} {va : Word64} {n : Nat} (h : handB s a va n = true) : s.atHand a va n (leafAt s va) := by
  simp only [handB, reachB, Bool.and_eq_true, decide_eq_true_eq] at h
  exact ⟨⟨h.1.1.1, h.1.1.2.1, h.1.1.2.2, h.1.2⟩, h.2⟩

/-- The issuing team sees this data in a sector. -/
def seesB (s : State) (win sec : Nat) (data : BitVec 256) : Bool :=
  let c := s.cluster s.cur.cluster
  !c.paused && !s.atomicInFlight s.cur.uid win sec &&
  match c.dirtyOf s.cur.uid win sec with
  | some d => !d.poison && data == d.data
  | none => (c.ownPending s.cur.uid win sec).isNone && (c.clusterPending s.cur win sec).isNone &&
    match c.ixb.find? fun e => e.isFor win (sec / 32) with
    | some e => decide (e.heldBy = []) && !ownNewer s.cur e && !c.raisedNewer s.cur e &&
      match s.resolve e.entry (sec % 32) with
      | .none => data == 0
      | .at_ p => decide (c.pubHit p = some false ∧ s.sectorHeld p sec false = ⟨data, false⟩)
      | .bad => false
    | none => false

theorem seesB_spec {s : State} {win sec : Nat} {data : BitVec 256} (h : seesB s win sec data = true) : s.sees win sec data := by
  simp only [seesB, Bool.and_eq_true] at h
  obtain ⟨⟨h0, h1⟩, h2⟩ := h
  refine ⟨by simpa using h0, by simpa using h1, ?_⟩
  split at h2 <;> rename_i o ho <;> (try simp only [ho])
  · simpa using h2
  · simp only [Bool.and_eq_true, Option.isNone_iff_eq_none] at h2
    obtain ⟨⟨h3, h4⟩, h5⟩ := h2
    refine ⟨h3, h4, ?_⟩
    split at h5
    · rename_i e he
      simp only [Bool.and_eq_true, decide_eq_true_eq] at h5
      obtain ⟨⟨⟨h6, h7⟩, h8⟩, h9⟩ := h5
      refine ⟨e, he, h6, by simpa using h7, by simpa using h8, ?_⟩
      split at h9 <;> rename_i hp <;> simp_all
    · cases h5

/-- The bytes of a load at an address that a leaf covers are at hand, with this value. -/
def findsB (s : State) (l : TlbLeaf) (va : Word64) (n v : Nat) (data : BitVec 256) : Bool :=
  let la := l.place va
  let d := l.desc
  if Win.logged d = true then seesB s l.win (la / 32) data && decide (v = secBytes data (la % 32) n)
  else if Win.host d = true then decide (s.postedTo s.cur.uid .host (la % 2 ^ 45) n = false
    ∧ Table.get false s.hostBad (la % 2 ^ 45 / 32) = false ∧ v = s.host.readN (la % 2 ^ 45) n)
  else if Win.crow d = true then
    decide (craOf la / 2 ^ 28 ≤ 11 ∧ s.postedTo s.cur.uid .computeRow (craOf la) n = false
      ∧ (s.slice (homeSlice la)).hit (.crow (craOf la / 128)) (craOf la / 32 % 4) = some false ∧ v = s.crow.readN (craOf la) n)
  else decide (s.postedTo s.cur.uid .sysReg (la - Win.lbase d) n = false)
    && someB (sysRead s.cur.id.tenant (la - Win.lbase d) s) fun w => v == w.toNat

theorem findsB_spec {s : State} {l : TlbLeaf} {va : Word64} {n v : Nat} {data : BitVec 256} (h : findsB s l va n v data = true) :
    s.finds l va n v := by
  unfold findsB at h
  unfold State.finds
  dsimp only at h ⊢
  split at h <;> rename_i h1 <;> simp only [h1, if_true]
  · simp only [Bool.and_eq_true, decide_eq_true_eq] at h
    exact ⟨data, seesB_spec h.1, h.2⟩
  · split at h <;> rename_i h2 <;> simp only [h2, if_true]
    · simpa using h
    · split at h <;> rename_i h3 <;> simp only [h3, if_true]
      · simpa using h
      · simp only [Bool.and_eq_true, decide_eq_true_eq] at h
        obtain ⟨w, hw, hv⟩ := someB_spec h.2
        exact ⟨h.1, w, hw, by simpa using hv⟩

/-- Page 0x300 in the registers, through window 3 (26 R419). -/
def tSysDesc : BitVec 512 := BitVec.ofNat 512 (3 * 2 ^ 46 + 2 ^ 45 + 2 ^ 37 + 0x3FFF00000000 * 2 ^ 64 + 65536 * 2 ^ 128)
def tSys : State := withLeaf 0x300 0x3FFF00000000 3 tSysDesc tHost

/-- The index pool has frames left for the node copies and new nodes of `n` granules. -/
def roomB (s : State) (n : Nat) : Bool := @decide (s.nodeRoom n) (by unfold State.nodeRoom; infer_instance)

/-- Nothing holds a swap-out back; a core takes a copy of an image; a core takes a swapped team. -/
def saveB (s : State) (t : Team) : Bool := @decide (s.maySave t) (by unfold State.maySave; infer_instance)
def spreadB (s : State) (i : Image) (core : Nat) : Bool :=
  (i.banks.all fun b => (s.contentBank core b.id).isSome || match b.role with | .regPage _ => true | _ => false)
    && decide (s.missingBanks i core ≤ (s.core core).freeBanks.length)

def restoreB (s : State) (t : Team) (v : SavedTeam) (core : Nat) : Bool :=
  t.image.isNone && t.h.privBase.isSome
    && @decide (0 < s.freeSlots core ∧ (∀ r ∈ t.h.regions, r.inherited = true) ∧ t.h.tiles = [] ∧ t.h.stash = [] ∧ t.h.copies = [] ∧ v.pend = []
      ∧ ((s.core core).freeRun (32 * t.kern.g) 32).isSome = true ∧ v.banks.length + 32 * t.kern.g ≤ (s.core core).freeBanks.length
      ∧ (s.core core).runnels.length + v.runnels.length ≤ 192 ∧ (s.core core).events.length + v.events.length ≤ 256
      ∧ s.commitPoint ≤ (s.cluster (core / 4)).noticed) (by infer_instance)
/-! ## Scalar words: results from R295 to R297, and states that meet the statements' hypotheses -/

/-- Corners of R295 and R296. -/
theorem test_scalar_results : ∀ p ∈ ([(.add 3 1 2, 2 ^ 64 - 1, 2, 1), (.sub 3 1 2, 0, 1, 2 ^ 64 - 1), (.mul 3 1 2, 2 ^ 63, 3, 2 ^ 63),
    (.mulh 3 1 2, 2 ^ 64 - 1, 1, 2 ^ 64 - 1), (.mulhu 3 1 2, 2 ^ 64 - 1, 2 ^ 64 - 1, 2 ^ 64 - 2), (.div 3 1 2, 2 ^ 64 - 7, 2, 2 ^ 64 - 3),
    (.div 3 1 2, 5, 0, 2 ^ 64 - 1), (.div 3 1 2, 2 ^ 63, 2 ^ 64 - 1, 2 ^ 63), (.divu 3 1 2, 5, 0, 2 ^ 64 - 1),
    (.rem 3 1 2, 2 ^ 64 - 7, 2, 2 ^ 64 - 1), (.rem 3 1 2, 2 ^ 63, 2 ^ 64 - 1, 0), (.remu 3 1 2, 7, 0, 7), (.andn 3 1 2, 15, 5, 10),
    (.shl 3 1 2, 1, 65, 2), (.shr 3 1 2, 2 ^ 63, 63, 1), (.sar 3 1 2, 2 ^ 63, 63, 2 ^ 64 - 1), (.rotr 3 1 2, 1, 1, 2 ^ 63), (.rotr 3 1 2, 9, 64, 9),
    (.min 3 1 2, 2 ^ 64 - 1, 1, 2 ^ 64 - 1), (.minu 3 1 2, 2 ^ 64 - 1, 1, 1), (.slt 3 1 2, 2 ^ 64 - 1, 1, 1), (.sltu 3 1 2, 2 ^ 64 - 1, 1, 0),
    (.clz 3 1, 0, 0, 64), (.ctz 3 1, 8, 0, 3), (.popc 3 1, 2 ^ 64 - 1, 0, 64), (.addi 3 1 0xFFFF, 0, 0, 2 ^ 64 - 1), (.andi 3 1 0xFFFF, 2 ^ 64 - 1, 0, 0xFFFF),
    (.sari 3 1 63, 2 ^ 63, 0, 2 ^ 64 - 1), (.sltui 3 1 0xFFFF, 5, 0, 1), (.lui 3 0x1FFFFF, 0, 0, 2 ^ 64 - 0x10000), (.apc 3 1, 0, 0, 0x12000)] :
      List (Instr × Nat × Nat × Nat)),
    nextB (exec p.1 (regs [(1, BitVec.ofNat 64 p.2.1), (2, BitVec.ofNat 64 p.2.2.1)] tS)) (fun t =>
      t.getX 3 == BitVec.ofNat 64 p.2.2.2 && t.pc == 0x2004 && t.getX 1 == BitVec.ofNat 64 p.2.1) = true := by decide +kernel

/-- R297: taken and not taken, forwards and backwards, and `x0` as a destination (01 R11). -/
theorem test_transfers : ∀ p ∈ ([(.beq 1 2 0xFFFF, 0x1FFC), (.bne 1 2 4, 0x2004), (.blt 1 0 4, 0x2010), (.bge 1 0 4, 0x2004), (.bltu 1 0 4, 0x2004),
    (.bgeu 1 0 4, 0x2010), (.jmp 0x3FFFFFF, 0x1FFC), (.call 2, 0x2008), (.ret, 0x2440), (.add 0 1 2, 0x2004)] : List (Instr × Word64)),
    nextB (exec p.1 (regs [(1, -1), (2, -1), (30, 0x2440)] tS)) (fun t => t.pc == p.2 && t.getX 0 == 0) = true := by decide +kernel

/-- Hypotheses of Transfers: a branch whose condition holds and one whose does not, and an aligned x30. -/
theorem witness_Transfers : (tS.getX 1 = tS.getX 2) ∧ ¬ tS.getX 1 ≠ tS.getX 2 ∧ (tS.getX 30).toNat % 4 = 0 := by decide +kernel


/-- R131: a store and a load back of its bytes, sign-extended or not, through the register. -/
theorem test_load_after_store : ∀ p ∈ ([(.ldB 3 2 7, 0xFFFFFFFFFFFFFF81), (.lduH 3 2 6, 0x8182), (.ldW 3 2 0, 0xFFFFFFFF85868788), (.ldD 3 2 0, 0x8182838485868788)] :
      List (Instr × Word64)),
    nextB (exec p.1 tDirty) (fun t => nextB (exec (.loadDataReturn tU tDirty.stamp) { t with turns := [] }) fun u =>
      u.getX 3 == p.2 && u.cur.s.outs == []) = true := by decide +kernel

/-- Loads: the bytes at hand in a dirty sector, in a line of the cluster cache, in a host window, on a compute row whose copy the home
slice holds, in a register; an access that goes through; and a return whose access is outstanding. -/
theorem witness_Loads :
    (handB tDirty { Access.load with priv := false, sysOk := true } 0x3008 8
      && findsB tDirty (leafAt tDirty 0x3008) 0x3008 8 0x8182838485868788 (0x8182838485868788 <<< 64)) = true
    ∧ (let s := runAll [.ldD 3 2 0] (regs [(2, 0x7008)] (sectorIn 28 0 5 (0xABCD * 2 ^ 64) tS))
      handB s { Access.load with priv := false, sysOk := false } 0x7008 2 && findsB s (leafAt s 0x7008) 0x7008 2 0xABCD (0xABCD <<< 64)) = true
    ∧ (handB tHost { Access.load with priv := false, sysOk := false } 0x100004 4 && findsB tHost (leafAt tHost 0x100004) 0x100004 4 0 0) = true
    ∧ (let s := runAll [.ldD 3 2 0] (regs [(2, 0x200008)] tHost)
      handB s { Access.load with priv := false, sysOk := false } 0x200008 1 && findsB s (leafAt s 0x200008) 0x200008 1 0 0) = true
    ∧ (handB tSys { Access.load with priv := false, sysOk := true } 0x300020 8 && findsB tSys (leafAt tSys 0x300020) 0x300020 8 16 0) = true
    ∧ okB (scalarLoad { Access.load with priv := tDirty.cur.s.priv, sysOk := true } tDirty.cur (tDirty.getX 2 + (0 : BitVec 16).signExtend 64) 8 tDirty)
      (fun v s1 => v == 0x8182838485868788 && nextB (exec (.ldD 3 2 0) tDirty) fun t =>
        decide (t.cur.s.outs = [{ op := s1.stamp, kind := .load, rd := 3, val := some 0x8182838485868788, val2 := none }])
          && t.pc == tDirty.pc + 4) = true
    ∧ nextB (exec (.ldD 3 2 0) tDirty) (fun t => decide ((t.team? tU).isSome = true
        ∧ (t.cur.s.outs.find? fun x => x.op == tDirty.stamp).isSome = true ∧ ∀ o ∈ t.cur.s.outs, o.val.isSome = true ∧ o.val2 = none)) = true := by
  decide +kernel

/-- Stores: a sector that the task sees, dirty and clean, with room for it; a host window, a compute row and a register; an access
that goes through; a sector its task holds dirty, with the merged view. -/
theorem witness_Stores :
    (handB tDirty { Access.store with priv := false, sysOk := true } 0x3010 8 && seesB tDirty 0 0x180 (0x8182838485868788 <<< 64)) = true
    ∧ tDirty.roomForSector 0 0x180
    ∧ (let s := runAll [.ldD 3 2 0] (regs [(2, 0x7008)] (sectorIn 28 0 5 (0xABCD * 2 ^ 64) tS))
      (handB s { Access.store with priv := false, sysOk := false } 0x7002 2 && seesB s 0 0x380 (0xABCD <<< 64)) = true ∧ s.roomForSector 0 0x380)
    ∧ (∀ p ∈ ([(0x100004, 4, false), (0x200008, 1, false), (0x300020, 8, true)] : List (Word64 × Nat × Bool)),
        handB tSys { Access.store with priv := false, sysOk := p.2.2 } p.1 p.2.1 = true ∧ Win.logged (leafAt tSys p.1).desc = false
        ∧ (Win.host (leafAt tSys p.1).desc = false → Win.crow (leafAt tSys p.1).desc = true →
            craOf ((leafAt tSys p.1).place p.1) / 2 ^ 28 ≤ 11))
    ∧ okB (storeVa { Access.store with priv := tDirty.cur.s.priv } tDirty.cur (tDirty.getX 2 + (1 : BitVec 16).signExtend 64) 1
        ((tDirty.getX 1).toNat % 2 ^ 8) tDirty.cur.ctl.dcol 0 tDirty)
      (fun _ s1 => nextB (exec (.stB 1 2 1) tDirty) fun t => decide (bare t = bare s1.advance ∧ t.hbm = tDirty.hbm)) = true
    ∧ tDirty.atomicInFlight tU 0 0x180 = false
    ∧ someB ((tDirty.cluster tDirty.cur.cluster).dirtyOf tDirty.cur.uid 0 0x180) (fun d => decide (d.data.toNat = 0x8182838485868788 * 2 ^ 64)
        && okB (storeSector tDirty.cur 0 0x180 16 1 0x55 5 0 false tDirty) fun _ s1 => decide (s1.hbm = tDirty.hbm)
          && okB (viewSector tDirty.cur 0 0x180 0 s1) fun v _ =>
            decide (v.1.data.toNat = 0x55 * 2 ^ 128 + 0x8182838485868788 * 2 ^ 64 ∧ v.2 = false)) = true := by
  unfold State.roomForSector
  decide +kernel
/-! ## Atomics, publications, ordering -/

/-- AtomicsIssue: an access that stands on a logged window, for `amo` and for `cas`; its request and its register. -/
theorem witness_AtomicsIssue :
    okB (locate { Access.atomic with priv := tDirty.cur.s.priv, size := 8 } tDirty.cur (tDirty.getX 2) 8 tDirty) (fun p s1 =>
      decide (tDirty.cur.pageKind (tDirty.getX 2) = .memory ∧ Win.logged p.desc = true)
        && nextB (exec (.amo 5 2 1 5 1 8) tDirty) (fun t => decide ((t.slice (homeSlice p.la)).reqs.map (fun r => (r.la, r.what, r.sys))
            = [(0x3008, .amo 8 64 0x8182838485868788, true)] ∧ t.cur.s.outs.map (fun o => (o.op, o.rd, o.val)) = [(s1.stamp, 5, none)] ∧ t.pc = s1.pc + 4))
        && nextB (exec (.cas 5 2 1 4 1) tDirty) (fun t => decide ((t.slice (homeSlice p.la)).reqs.map (fun r => (r.what, r.sys))
            = [(.cas 64 0 0x8182838485868788, false)]))) = true := by decide +kernel

/-- The same on a host window: the word of host memory is read and written at once. -/
theorem witness_HostAtomic :
    let s := regs [(1, 7), (2, 0x100008)] { tHost with host := Memory.writeN [] (2 ^ 21 + 8) 0xFFFFFFFE 4 }
    okB (locate { Access.atomic with priv := s.cur.s.priv, size := 4 } s.cur (s.getX 2) 4 s) (fun p s1 =>
      decide (s.cur.pageKind (s.getX 2) = .memory ∧ Win.logged p.desc = false ∧ p.la % 4 = 0
          ∧ s1.postedTo s.cur.uid .host (p.la % 2 ^ 45 / 8 * 8) 8 = false ∧ Table.get false s1.hostBad (p.la % 2 ^ 45 / 32) = false)
        && nextB (exec (.amo 5 2 1 4 0 0) s) (fun t => decide (t.host.readN (2 ^ 21 + 8) 8 = 5
            ∧ t.cur.s.outs.map (·.val) = [some (0xFFFFFFFFFFFFFFFE : Word64)]))) = true := by decide +kernel

/-- R132: signed and unsigned extremes of the atomics. -/
theorem test_atomic_values : amoNew 4 32 0xFFFFFFFF 1 = 0xFFFFFFFF ∧ amoNew 6 32 0xFFFFFFFF 1 = 1 ∧ amoNew 0 32 0xFFFFFFFF 1 = 0
    ∧ amoNew 5 64 (2 ^ 63) 1 = 1 := by decide +kernel

/-- A word at 0x3008 published and applied, with an atomic on it at its home slice. -/
def tAmo : State := runAll [.amo 5 2 1 4 1 0] { tS with
  cur := tCommit.cur, clusters := tCommit.clusters, hbm := tCommit.hbm, chk := tCommit.chk, segs := tCommit.segs, logs := tCommit.logs
  ixUsed := tCommit.ixUsed, windows := tCommit.windows, stamp := tCommit.stamp, psnNext := 2, commitPoint := 1 }
def tAmoH : Nat := homeSlice 0x3008

/-- HomeSliceAtomic: a sector read from its log, and one that the open collection holds. -/
def tAmo2 : State := runAll [.homeSliceAtomic tAmoH, .amo 5 2 1 4 1 0] tAmo
theorem witness_HomeSliceAtomic :
    oneB (tAmo.slice tAmoH).reqs (fun r => decide ((tAmo.slice tAmoH).paused = false ∧ tAmo.heldBack r = false
        ∧ tAmo.behindOther tAmoH (fun q => tAmo.heldBack q || tAmo.loneReq tAmoH q || tAmo.noRoom tAmoH q) r = false ∧ r.what = .amo 0 64 0x8182838485868788
        ∧ (((tAmo.team? r.uid).map (·.paired.role)) = some 0)
        ∧ okB (atomicView r.win (r.la / 32) ((tAmo.team? r.uid).getD Team.vacant).taskNum (tAmo.setSlice tAmoH { tAmo.slice tAmoH with reqs := [] }))
          (fun d _ => decide (d.poison = false ∧ secBytes d.data 8 8 = 0x8182838485868788)
              && nextB (exec (.homeSliceAtomic tAmoH) tAmo) fun t => decide (t.done.map (fun d => (d.old, d.inColl)) = [(0x8182838485868788, true)]
                ∧ ((t.slice tAmoH).coll.map (·.map fun x => secBytes x.data 8 8)) = some [0x03050709_0B0D0F10] ∧ (t.slice tAmoH).reqs = [])) = true)) = true
    ∧ oneB (tAmo2.slice tAmoH).reqs (fun r => decide ((tAmo2.slice tAmoH).paused = false ∧ tAmo2.heldBack r = false
        ∧ (((tAmo2.team? r.uid).map (·.paired.role)) = some 0) ∧ sliceOfGran (r.la / 1024) = tAmoH
        ∧ ((tAmo2.slice tAmoH).inColl r.win (r.la / 32)).isSome = true
        ∧ nextB (exec (.homeSliceAtomic tAmoH) tAmo2) (fun t => decide
            ((t.slice tAmoH).coll.map (·.map fun x => secBytes x.data 8 8) = some [0x84878A8D_90939698])) = true)) = true := by decide +kernel

theorem witness_AtomicReturns :
    let s := runAll [.homeSliceAtomic tAmoH] tAmo
    oneB s.done fun d => decide ((s.team? d.req.uid).isSome = true ∧ d.req.dest = .scalar (d.req.id - 1) ∧ d.poison = false ∧ s.mayReturn d = true
        ∧ d.req.what = .amo 0 64 0x8182838485868788 ∧ (s.cur.s.outs.map fun o => (o.op, o.val2)) = [(d.req.id - 1, none)]
        ∧ nextB (exec (.atomicOldValueReturn d.req.uid (d.req.id - 1)) s) (fun t => decide (t.getX 5 = 0x8182838485868788 ∧ t.cur.s.outs = []
            ∧ (t.cluster 0).ixb.any (fun e => e.gran == 12) = false)) = true) := by decide +kernel

/-- CollectionsAndCommits: a collection whose turn it is; a publication every slice has prepared and every cluster has been told of, with
room in the index pool; and none to commit. -/
theorem witness_CollectionsAndCommits :
    (let s := runAll [.homeSliceAtomic tAmoH] tAmo;
      s.mayResume (.slice tAmoH) = true ∧ someB (s.slice tAmoH).coll (fun _ => nextB (exec (.atomicCollectionClose tAmoH) s) fun t =>
        decide (t.psnNext = s.psnNext + 1 ∧ t.pubs.map (fun p => p.share.map fun u => (u.win, u.gran)) = [[(0, 12)]])) = true)
    ∧ someB tHeld.mayCommit (fun p => decide (p.psn = 1 ∧ roomB tHeld p.share.length = true)
        && nextB (exec .psnCommit tHeld) fun t => decide (t.commitPoint = 1)) = true
    ∧ tPrep.mayCommit = none := by decide +kernel

theorem witness_SlicePrepares :
    let h := sliceOfGran 12
    someB (tPub.pub? 1) fun p => decide (bitAt p.prepared h = false ∧ (tPub.slice h).prepared + 1 = 1 ∧ (tPub.slice h).paused = false
        ∧ (∀ u ∈ p.atSlice h, ∀ o ∈ tPub.copiers u.win u.gran, (tPub.slice o).paused = false) ∧ roomB tPub (p.atSlice h).length = true
        ∧ nextB (exec (.psnShareArrival 1 h) tPub) (fun t => decide ((t.slice h).prepared = 1)) = true) := by decide +kernel

theorem witness_Notices :
    someB (tPrep.pub? 1) (fun p => p.mayHold 0 0 && nextB (exec (.heldNotice 1 ⟨0, 0⟩) tPrep) (fun t => ((t.cluster 0).ixb.any fun e => e.heldBy == [1])
          == (tPrep.cluster 0).ixb.any fun e => p.touches e.win e.gran)) = true
    ∧ someB (tCommit.pub? 1) (fun p => tCommit.mayNotice p 0 && nextB (exec (.commitNotice 1 0) tCommit) (fun t => decide ((t.cluster 0).noticed = 1))) = true := by decide +kernel

/-- LocalReleases: a drained team with an update that stands appended. -/
theorem witness_LocalReleases : (tApp.cur.l.queue = [] ∧ tApp.cur.l.run = none ∧ tApp.cur.s.outs = []) ∧ tApp.cur.s.phase = .none
    ∧ tApp.cur.paired.role = 0 ∧ enginesDone tApp tApp.cur 1 = true ∧ postsDone tApp tApp.cur 1 .computeRow = true
    ∧ (∀ d ∈ (tApp.cluster tApp.cur.cluster).dirty, d.uid = tApp.cur.uid → bitAt 1 d.colour = false)
    ∧ nextB (exec (.rel 3 1) tApp) (fun t => decide ((t.cluster 0).weir.map (·.level) = [.cluster tApp.stamp] ∧ t.pubs = [] ∧ t.pc = tApp.pc + 4)) = true
    ∧ nextB (exec (.rel 1 1) tApp) (fun t => decide (t.pc = tApp.pc + 4)) = true := by decide +kernel

/-- DeviceReleases: with an update to publish, and with the publication committed. -/
theorem witness_DeviceReleases : (∃ p ∈ (tApp.cluster tApp.cur.cluster).weir, p.uid = tApp.cur.uid ∧ bitAt 1 p.colour = true ∧ p.pub = none)
    ∧ tApp.commitPoint < tApp.psnNext ∧ (tPub.cur.status = .waiting ∧ tPub.cur.waits = some (.commit 1) ∧ tPub.cur.s.phase = .published 1)
    ∧ tCommit.cur.s.phase = .published 1 ∧ 1 ≤ tCommit.commitPoint
    ∧ nextB (exec (.rel 4 1) tCommit) (fun t => decide (t.pc = tCommit.pc + 4 ∧ t.cur.s.phase = .none)) = true := by decide +kernel

/-- Acquires: commit notices that have come, and one still to come. -/
theorem witness_Acquires : (tCommit.cur.l.queue = [] ∧ tCommit.cur.l.run = none ∧ tCommit.cur.s.outs = [])
    ∧ tApp.commitPoint ≤ (tApp.cluster tApp.cur.cluster).noticed ∧ (tCommit.cluster tCommit.cur.cluster).noticed < tCommit.commitPoint
    ∧ nextB (exec (.acq 4) tApp) (fun t => decide (t.pc = tApp.pc + 4)) = true
    ∧ nextB (exec (.acq 3) tApp) (fun t => decide (t.cur.clAcq = tApp.stamp)) = true
    ∧ nextB (exec (.acq 5) tCommit) (fun t => decide (t.cur.waits = some .commitNotices ∧ t.pc = tCommit.pc)) = true := by decide +kernel

/-- FencesAndTimelines: a store fence with no store of its colours outstanding, a load fence beside a dirty sector; a counter reached and one not. -/
theorem witness_FencesAndTimelines : (∀ p ∈ tApp.posted, p.uid = tApp.cur.uid → bitAt 1 p.colour = false)
    ∧ nextB (exec (.fence 0 1) tApp) (fun t => decide (t.pc = tApp.pc + 4)) = true
    ∧ nextB (exec (.fence 2 1) tDirty) (fun t => decide (t.pc = tDirty.pc + 4)) = true
    ∧ (let s := regs [(4, 3)] (State.withCur tS fun t => { t with h := { t.h with tlIssued := [0, 0, 0, 0, 0, 3, 0, 4], tl := [0, 0, 0, 0, 0, 3, 0, 2] } })
      ((s.getX 4).toNat ≤ s.cur.h.tlIssued.getD 5 0 ∧ (s.getX 4).toNat ≤ s.cur.h.tl.getD 5 0)
      ∧ ((s.getX 4).toNat ≤ s.cur.h.tlIssued.getD 7 0 ∧ s.cur.h.tl.getD 7 0 < (s.getX 4).toNat)
      ∧ nextB (exec (.tlwait 4 5) s) (fun t => decide (t.pc = s.pc + 4)) = true
      ∧ nextB (exec (.tlwait 4 7) s) (fun t => decide (t.cur.waits = some (.timeline 7 3))) = true
      ∧ nextB (exec (.tlread 6 7) s) (fun t => decide (t.getX 6 = 2)) = true) := by decide +kernel

/-- PostedStoresArrive: a posted store to a compute row and one to host memory. -/
theorem witness_PostedStoresArrive :
    let s := runAll [.stW 1 2 0, .stW 1 3 0] (regs [(1, 0x11223344), (2, 0x100004), (3, 0x200008)] tHost)
    twoB s.posted fun p q => decide (p.target = .host ∧ s.oldestOfWord p = true ∧ q.target = .computeRow ∧ s.mayServe (chanOf q.addr) { stamp := q.id, rows := [q.addr / 1024], cmd := none } = true
        ∧ nextB (exec (.hostWindowStoreAck p.id) s) (fun t => decide (t.host.readN (2 ^ 21) 12 = 0x11223344 * 2 ^ 32 ∧ t.posted = [q])) = true
        ∧ nextB (exec (.computeRowStoreAtBank q.id) s) (fun t => decide (t.crow.readN 4 12 = 0x11223344 * 2 ^ 32 ∧ t.posted = [p])) = true) := by decide +kernel

/-! ## Lane words -/

/-- Two lane words of values for `v1`, `v2` and `v3`. -/
def tArithL : State := lanes 1 0 [0xFFFFFFFF, 5, 7] (lanes 2 0 [2, 3] (lanes 1 1 [10] tL2))

/-- LaneArithmeticPass: the first of two passes, and the last with the pass set fixed. -/
theorem witness_LaneArithmeticPass :
    (let s := tArithL; let f := tArith 3 1 2 0 0 0;
      s.laneAt (.vadd f) tRun ∧ s.laneFit (.vadd f) ∧ s.laneSound (.vadd f) ∧ (s.cur.l.passes = none → s.cur.l.pix = 0)
        ∧ s.cur.nextPass [f.mask.toNat] = some 0
        ∧ nextB (exec (.vadd f) s) (fun t => decide (laneOf t 3 0 = 1 ∧ laneOf t 3 1 = 8 ∧ laneOf t 3 32 = 0 ∧ t.cur.l.pix = 1)) = true)
    ∧ (let f := tArith 3 1 2 0 0 0; let s := runAll [.vadd f] tArithL;
      s.laneAt (.vadd f) tRun ∧ s.cur.nextPass [f.mask.toNat] = some 1
        ∧ nextB (exec (.vadd f) s) (fun t => decide (laneOf t 3 0 = 1 ∧ laneOf t 3 32 = 10 ∧ t.cur.l.run = none ∧ t.cur.l.pix = 0)) = true) := by
  unfold State.laneAt State.laneFit State.laneSound State.soundReg
  decide +kernel

/-- Results of one pass of lane words, one lane each: sources `v1`, `v2`, `v3` (11 R230 to R239). -/
theorem test_lane_results : ∀ p ∈ ([(.vmulh (tArith 4 1 2 0 0 0), 0xFFFFFFFF, 2, 0, 0xFFFFFFFF), (.vmulhu (tArith 4 1 2 0 0 0), 0xFFFFFFFF, 2, 0, 1),
    (.vmad (tArith 4 1 2 3 0 0), 3, 5, 7, 22), (.vmin (tArith 4 1 2 0 0 0), 0xFFFFFFFF, 1, 0, 0xFFFFFFFF), (.vminu (tArith 4 1 2 0 0 0), 0xFFFFFFFF, 1, 0, 1),
    (.vandn (tArith 4 1 2 0 0 0), 15, 5, 0, 10), (.vshl (tArith 4 1 2 0 0 0), 1, 33, 0, 2), (.vsar (tArith 4 1 2 0 0 0), 0x80000000, 31, 0, 0xFFFFFFFF),
    (.vclz (tArith 4 1 0 0 0 0), 0, 0, 0, 32), (.vbrev (tArith 4 1 0 0 0 0), 1, 0, 0, 0x80000000), (.vaddsat (tArith 4 1 2 0 0 0), 0xFFFFFFFF, 2, 0, 0xFFFFFFFF),
    (.vadd { tArith 4 1 2 0 0 0 with sat := true }, 0x7FFFFFFF, 1, 0, 0x7FFFFFFF), (.vadd { tArith 4 1 0 0 0 0 with imm := true, imm32 := 0xFFFFFFFF }, 1, 0, 0, 0),
    (.vadd { tArith 4 1 2 0 0 0 with spc := true }, 1, 0, 0, 1), (.vbfx (tArith 4 1 2 0 0 0), 0xABCD, 0x808, 0, 0xAB), (.vdot4 (tArith 4 1 2 3 0 9), 0xFF, 0x02, 7, 5),
    (.vadd (tArith 4 1 2 0 0 1), 0xFFFF0001, 0x00010001, 0, 0x00000002), (.vfadd (tArith 4 1 2 0 0 2), 0x3F800000, 0x40000000, 0, 0x40400000),
    (.vfmul (tArith 4 1 2 0 0 2), 0x7F7FFFFF, 0x40000000, 0, 0x7F800000), (.vfma (tArith 4 1 2 3 0 2), 0x3F800000, 0x40000000, 0x3F800000, 0x40400000),
    (.vfdiv (tArith 4 1 2 0 0 2), 0x3F800000, 0x40400000, 0, 0x3EAAAAAB), (.vfsqrt (tArith 4 1 0 0 0 2), 0x40800000, 0, 0, 0x40000000),
    (.vfneg (tArith 4 1 0 0 0 2), 0, 0, 0, 0x80000000), (.vcvt (tArith 4 1 0 0 0 2), 3, 0, 0, 0x40400000)] : List (Instr × Nat × Nat × Nat × Nat)),
    nextB (exec p.1 (lanes 1 0 [p.2.1] (lanes 2 0 [p.2.2.1] (lanes 3 0 [p.2.2.2.1] tL)))) (fun t => laneOf t 4 0 == p.2.2.2.2 && t.cur.l.run == none) = true := by
  decide +kernel

theorem witness_PackAndPairPasses :
    (∀ g ∈ [Instr.vpack, Instr.vunpack], let f := tArith 8 16 0 0 0 7;
      tL.laneAt (g f) tRun ∧ tL.laneFit (g f) ∧ tL.laneSound (g f) ∧ (tL.cur.l.passes = none → tL.cur.l.pix = 0) ∧ tL.cur.nextPass [f.mask.toNat] = some 0
        ∧ nextB (exec (g f) tL) (fun t => decide (t.cur.l.run = none)) = true)
    ∧ (let a : Half := ⟨0, 4, 1, 2, 0, 0, 0, 0⟩; let b : Half := ⟨2, 5, 1, 2, 0, 0, 0, 0⟩; let s := lanes 1 0 [6] (lanes 2 0 [7] tL);
      s.laneAt (.lanePair a b) tRun ∧ s.laneFit (.lanePair a b) ∧ s.laneSound (.lanePair a b)
        ∧ s.cur.nextPass [a.toArith.mask.toNat, b.toArith.mask.toNat] = some 0
        ∧ nextB (exec (.lanePair a b) s) (fun t => decide (laneOf t 4 0 = 13 ∧ laneOf t 5 0 = 42 ∧ t.cur.l.run = none)) = true) := by
  unfold State.laneAt State.laneFit State.laneSound State.soundReg
  decide +kernel

/-- Words of WholeWords on a team whose registers are sound; the first active lane of a mask, and none. -/
def tMasked : State := masks [(2, 0b1010), (3, 0), (1, 0b0110)] (lanes 1 0 [5, 6, 7, 8] tL)

theorem witness_WholeWords :
    (∀ i ∈ ([.vbsc (tArith 4 1 0 0 0 0x11), .vbq (tArith 4 1 2 0 0 0x11), .vbdq (tArith 4 1 2 0 0 0x11), .vcmp { tMask 4 1 2 0 0 0 with cnd := 1 },
        .vfcmp (tMask 4 1 2 0 0 2), .vmpop (tMask 0 2 0 0 0 0), .vmfirst (tMask 0 2 0 0 0 0), .vshfl (tCross 4 1 2 3 0 0), .vbcast (tCross 4 1 0 3 0 0),
        .vrot (tCross 4 1 0 3 0 0), .vcompact (tCross 4 1 0 3 2 0), .vexpand (tCross 4 1 0 0 2 0), .vvote (tCross 4 1 0 0 0 0), .vmatch (tCross 4 1 0 0 0 0),
        .vred (tCross 4 1 0 0 1 0), .vfred { tCross 4 1 0 0 0 2 with rop := 8 }, .vscan (tCross 4 1 0 0 0 0), .vfscan { tCross 4 1 0 0 0 2 with rop := 9 }] : List Instr),
      tMasked.laneAt i tRun ∧ tMasked.laneFit i ∧ tMasked.laneSound i ∧ nextB (exec i tMasked) (fun t => decide (t.cur.l.run = none)) = true)
    ∧ nextB (exec (.vmpop (tMask 0 2 0 0 0 0)) tMasked) (fun t => decide (t.cur.l.rdx = 2)) = true
    ∧ nextB (exec (.vmfirst (tMask 0 2 0 0 0 0)) tMasked) (fun t => decide (t.cur.l.rdx = 1)) = true
    ∧ nextB (exec (.vmfirst (tMask 0 3 0 0 0 0)) tMasked) (fun t => decide (t.cur.l.rdx = 0xFFFFFFFF)) = true
    ∧ nextB (exec (.vcompact (tCross 4 1 0 3 2 0)) tMasked) (fun t => decide (t.cur.l.rdx = 2 ∧ laneOf t 4 0 = 6 ∧ laneOf t 4 1 = 8)) = true
    ∧ nextB (exec (.vred (tCross 4 1 0 0 1 0)) tMasked) (fun t => decide (laneOf t 4 31 = 13 ∨ t.cur.l.rdx = 13)) = true := by
  unfold State.laneAt State.laneFit State.laneSound State.soundReg
  decide +kernel

theorem witness_MaskWords : tMasked.cur.l.run = some tRun ∧ tMasked.laneAt (.vmlog (tMask 4 2 1 0 0 0)) tRun ∧ tMasked.laneAt (.vif (tMask 5 2 0 0 0 0)) tRun
    ∧ tMasked.laneAt (.velse (tMask 1 0 0 0 0 0)) tRun ∧ tMasked.laneAt (.vendif (tMask 1 0 0 0 0 0)) tRun ∧ tMasked.laneAt (.vbreak (tMask 15 2 0 0 0 0)) tRun
    ∧ nextB (exec (.vmlog { tMask 4 2 1 0 0 0 with cnd := 0b0110 }) tMasked) (fun t => decide (t.cur.maskReg 4 = 0b1100)) = true
    ∧ nextB (exec (.vif (tMask 5 2 0 0 0 0)) tMasked) (fun t => decide (t.cur.maskReg 0 = 0b1010 ∧ t.cur.maskReg 5 = 0xFFFFFFFF)) = true
    ∧ nextB (exec (.velse (tMask 1 0 0 0 0 0)) tMasked) (fun t => decide (t.cur.maskReg 0 = 0)) = true
    ∧ nextB (exec (.vendif (tMask 1 0 0 0 0 0)) tMasked) (fun t => decide (t.cur.maskReg 0 = 0b0110)) = true
    ∧ nextB (exec (.vbreak (tMask 1 2 0 0 0 0)) tMasked) (fun t => decide (t.cur.maskReg 0 = 0xFFFFFFF5 ∧ t.cur.maskReg 1 = 0b0100 ∧ t.cur.maskReg 2 = 0)) = true := by
  unfold State.laneAt
  decide +kernel

/-- LaneBlocks: a queue with room, a queue whose head may start, blocks within and above the bound, a block that runs. -/
theorem witness_LaneBlocks :
    let s := runAll [.lrun 1 0] tS
    (tS.cur.l.outstanding < 16 ∧ tS.cur.s.outs = []) ∧ (s.cur.l.queue.length = 1 ∧ s.cur.l.run = none ∧ s.cur.resident = true ∧ (s.team? tU).isSome = true)
      ∧ s.cur.l.outstanding ≤ (1 : BitVec 16).toNat ∧ (0 : BitVec 16).toNat < s.cur.l.outstanding ∧ tL.cur.l.run = some tRun
      ∧ nextB (exec (.laneBlockStart tU) s) (fun t => decide ((t.cur.l.run.map fun r => (r.lpc, r.done)) = some (0, 0) ∧ t.cur.l.queue = [])) = true
      ∧ nextB (exec (.lwait 0) s) (fun t => decide (t.cur.waits = some (.lanes 0))) = true
      ∧ nextB (exec (.vnop ⟨0⟩) tL) (fun t => decide (t.cur.l.run = none)) = true := by decide +kernel

/-- MaskAndSystemRegisters: no lane word outstanding, in user mode and in privileged mode; the lowest and the highest double word of a
mask, its summary, and a double word above the team's lanes, which keeps what is written (14 R304). -/
theorem witness_MaskAndSystemRegisters :
    let s := regs [(1, 0x0123456789ABCDEF)] tS
    (s.cur.l.quiet fun t => t.mdsts.contains 0) = true ∧ (s.cur.l.quiet fun t => t.masks.contains 3 || t.mdsts.contains 3) = true
      ∧ (s.cur.l.quiet fun t => t.flags) = true ∧ (s.cur.l.quiet fun t => t.rdx) = true
      ∧ (State.withCur s fun t => { t with s := { t.s with priv := true } }).cur.s.priv = true
      ∧ nextB (exec (.mrd 2 0 0) s) (fun t => decide (t.getX 2 = 0xFFFFFFFF)) = true ∧ nextB (exec (.mrd 2 0 15) s) (fun t => decide (t.getX 2 = 0)) = true
      ∧ nextB (exec (.mrd 2 0 16) s) (fun t => decide (t.getX 2 = 1)) = true
      ∧ nextB (exec (.mwr 3 1 15) s) (fun t => decide (t.cur.maskReg 3 = 0x0123456789ABCDEF <<< 960)) = true
      ∧ okB (sysReg 0x001 s) (fun v _ => decide (v = some (teamIdWord s.cur))) = true
      ∧ nextB (exec (.sset 1 0x002) s) (fun t => decide (t.cur.l.flagE = true ∧ t.cur.l.flagO = true ∧ t.cur.l.flagN = true)) = true
      ∧ nextB (exec (.sset 1 0x00B) s) (fun t => decide (t.cur.l.nf = [0, 0, 0, 0x0123456789ABCDEF])) = true
      ∧ nextB (exec (.sget 2 0x040) s) (fun t => decide (t.free = s.free + 1)) = true := by decide +kernel

/-- A table of two entries at 0x4000, the second a landing pad of label 7 at 0x2010 (01 R43). -/
def tJump : State := regs [(1, 1), (2, 0x4000)] (poke [(0x4000, 7 * 2 ^ 32 + 2), (0x4008, 4 * 2 ^ 32), (0x2010, 0x8C000007)] tS)

theorem witness_JumpTables :
    okB (scalarLoad { Access.load with priv := tJump.cur.s.priv } tJump.cur (tJump.getX 2) 8 tJump) (fun hdr s1 =>
      decide (hdr / 2 ^ 53 = 0 ∧ hdr % 2 ^ 32 ≠ 0 ∧ hdr % 2 ^ 32 ≤ 65536 ∧ (tJump.getX 1).toNat < hdr % 2 ^ 32)
      && okB (scalarLoad { Access.load with priv := tJump.cur.s.priv } tJump.cur (tJump.getX 2 + 8 + 4 * tJump.getX 1) 4 s1) (fun ent s2 =>
        okB (fetchScalar tJump.cur (tJump.cur.kern.scode + BitVec.ofNat 64 (4 * ent)) s2) (fun w _ => decide (w = 0x23 * 2 ^ 26 + hdr / 2 ^ 32 % 2 ^ 21)))) = true
    ∧ nextB (exec (.jtab 1 2) tJump) (fun t => decide (t.pc = 0x2010)) = true := by decide +kernel

/-- The boundaries of the table: its last entry alone, and an index one past it, which traps (01 R43, 14 R299). -/
theorem test_jump_table_bound : nextB (exec (.jtab 1 2) (regs [(1, 2)] tJump)) (fun t => decide (t.pc ≠ 0x2010 ∧ t.cur.uid = 0)) = true := by decide +kernel

/-- A service table at 0x4000 with two services and a trap hook at 0x2040 (21 R362, R363). -/
def tSvc : State :=
  let s := probeSector 16 3 (2 ^ 16 + 2 + 0x2040 * 2 ^ 64 + 0x2080 * 2 ^ 192) tS
  { s with contexts := Table.set 0 s.contexts 0 (setDescWord (s.context 0) 3 0x4000) }

theorem witness_ServiceCalls : tSvc.cur.s.priv = false ∧ tSvc.cur.l.outstanding = 0 ∧ Ctx.svctab (tSvc.context tSvc.cur.id.ctx) ≠ 0
    ∧ okB (loadPriv64 tSvc.cur (BitVec.ofNat 64 (Ctx.svctab (tSvc.context tSvc.cur.id.ctx))) tSvc) (fun hdr s1 =>
        decide (hdr / 2 ^ 17 = 0 ∧ 1 < hdr % 2 ^ 16)
          && okB (loadPriv64 tSvc.cur (BitVec.ofNat 64 (Ctx.svctab (tSvc.context tSvc.cur.id.ctx) + 16 + 8 * 1)) s1) fun e _ => decide (e ≠ 0 ∧ e % 4 = 0)) = true
    ∧ nextB (exec (.svc 1) tSvc) (fun t => decide (t.pc = 0x2080 ∧ t.cur.s.priv = true ∧ t.cur.s.srpc = tSvc.pc + 4 ∧ t.cur.s.hook = none ∧ t.cur.l.outstanding = 0)
        && nextB (exec .eret t) fun u => decide (u.pc = tSvc.pc + 4 ∧ u.cur.s.priv = false)) = true := by decide +kernel

/-- FaultsAndHooks: a trap of a task with a hook, and a breakpoint with debug and without it. -/
theorem witness_FaultsAndHooks :
    tSvc.cur.paired.role = 0 ∧ tSvc.cur.s.hook = none ∧ Ctx.dbgen (tSvc.context tSvc.cur.id.ctx) = false
    ∧ okB (fatalStop tSvc.cur.uid (recordWords tSvc.cur { noTrap with code := 0x04, w2 := (9 : BitVec 16).setWidth 64 }) tSvc) (fun _ s1 =>
        okB (findHook s1.cur s1) fun h s2 => decide (s1.cur.uid = tSvc.cur.uid ∧ s2.cur.uid = tSvc.cur.uid)
          && (match h with | .run pc => pc == 0x2040 | _ => false)) = true
    ∧ noTrap.src = 0 ∧ noTrap.pc = none ∧ noTrap.priv = none ∧ noTrap.code < 256
    ∧ (let s := { tSvc with contexts := Table.set 0 tSvc.contexts 0 (tSvc.context 0 ||| BitVec.ofNat 512 (2 ^ 126)) };
      Ctx.dbgen (s.context s.cur.id.ctx) = true ∧ nextB (exec (.brk 9) s) (fun t => decide (t.cur.dbg.halted = true ∧ t.cur.dbg.brk = 9 ∧ t.cur.dbg.reason = 4)) = true)
    ∧ nextB (exec (.brk 9) tSvc) (fun t => decide ((t.cur.faultrec.getD 0 0).toNat / 2 ^ 56 = 5)) = true := by decide +kernel

/-- R365: the hook runs privileged with the record kept; without a hook the team ends (21 R354). -/
theorem test_trap_with_hook : nextB (exec (.trap 9) tSvc) (fun t => decide (t.pc = 0x2040 ∧ t.cur.s.priv = true
    ∧ (t.cur.s.hook.map fun h => (h.saved.getD 2 0)) = some 9)) = true := by decide +kernel

theorem test_trap_without_hook : nextB (exec (.trap 9) tS) (fun t => decide (t.cur.uid = 0)) = true := by decide +kernel
/-! ## Teams, barriers, queues -/

theorem witness_TeamTurns :
    nextB (exec .yield tS) (fun s => someB (s.team? tU) fun u => decide (u.yielding = true)
      && nextB (exec (.yieldEnd tU) s) fun t => decide (t.cur.yielding = false ∧ t.cur.age = s.stamp)) = true
    ∧ someB (tS.team? tU) (fun u => decide (u.mayIssue = true ∧ u.promoted = 0)
        && nextB (exec (.teamPromotion tU false) tS) fun t => decide (t.cur.promoted = tS.stamp)) = true
    ∧ someB (tL.team? tU) (fun u => decide (u.mayLane = true ∧ u.l.stall = none ∧ u.lanePromoted = 0)
        && nextB (exec (.teamPromotion tU true) tL) fun t => decide (t.cur.lanePromoted = tL.stamp)) = true
    ∧ someB (tCommit.team? tU) (fun u => decide (u.status = .waiting ∧ u.dbg.halted = false ∧ u.rfault = none ∧ tCommit.waitHolds u = true)
        && nextB (exec (.waitSatisfied tU) tCommit) fun t => decide (t.cur.status = .ready ∧ t.cur.waits = none)) = true := by decide +kernel

/-- TeamEnds: an instance, a launch template and a cluster template whose release has committed. -/
theorem witness_TeamEnds :
    (let s := phased (.published 0) (tInst 0);
      (s.cur.l.queue = [] ∧ s.cur.l.run = none ∧ s.cur.s.outs = []) ∧ timelinesDone s.cur = true ∧ runnelsDone s s.cur = true
      ∧ 0 ≤ s.commitPoint ∧ s.cur.ctl.level = 0 ∧ s.cur.paired.role = 0
      ∧ someB (s.launch? s.cur.id.launch) (fun l => decide (s.cur.id.stage < l.stages.length)) = true
      ∧ nextB (exec (.exit 5) s) (fun t => decide (bare { t with launches := [], cores := [], stamp := 0 } = bare { t with cur := Team.vacant, teams := [], launches := [], cores := [], stamp := 0 }) &&
          someB (t.launch? 0) fun l => decide ((l.stage 0).ended = 1 ∧ l.nonzero = 1)) = true)
    ∧ (let s := State.withCur (phased (.published 0) (tInst 0)) fun t => { t with ctl := { t.ctl with level := 2 } };
      nextB (exec (.freeze 2) s) (fun t => decide (t.cur.uid = 0) && someB (t.launch? 0) fun l => decide ((l.stage 0).top = 1 ∧ (l.stage 0).opening = [0])) = true
      ∧ nextB (exec (.freeze 0) s) (fun t => decide (t.cur.uid = 0) && someB (t.launch? 0) fun l => decide ((l.stage 0).top = 2)) = true)
    ∧ (let s := State.withCur (phased (.published 0) (tInst 0)) fun t => { t with ctl := { t.ctl with level := 1 } };
      nextB (exec (.freeze 1) s) (fun t => decide (t.cur.uid = 0)) = true) := by decide +kernel

/-- Barriers: a drained team, a complete generation of each scope, and a waiting participant. -/
theorem witness_Barriers :
    (let s := State.withCur (phased (.arrived 19 1) (tInst 0)) fun t => { t with arrived := [(19, 1)] };
      s.cur.ctl.level = 0 ∧ s.cur.ctl.gang = true ∧ s.cur.s.phase = .arrived (16 + (3 : BitVec 4).toNat) 1 ∧ s.barrierDone s.cur (16 + (3 : BitVec 4).toNat) 1 = true
      ∧ nextB (exec (.bar 3 1) s) (fun t => decide (t.pc = s.pc + 4 ∧ t.cur.clAcq = s.stamp)) = true)
    ∧ (let s := State.withCur (phased (.arrived 47 1) (tInst 0)) fun t => { t with arrived := [(47, 1)] };
      s.cur.s.phase = .arrived (32 + (15 : BitVec 4).toNat) 1 ∧ s.barrierDone s.cur (32 + (15 : BitVec 4).toNat) 1 = true
      ∧ s.commitPoint ≤ (s.cluster s.cur.cluster).noticed ∧ nextB (exec (.bar 15 2) s) (fun t => decide (t.pc = s.pc + 4)) = true)
    ∧ (let s := State.withCur (phased (.arrived 19 1) (tInst 0)) fun t => { t with arrived := [(19, 1)], status := .waiting, waits := some .barrier };
      someB (s.team? tU) (fun u => decide (u.status = .waiting ∧ u.ctl.level = 0 ∧ u.dbg.halted = false ∧ s.barrierOpen u = true
          ∧ ∀ v ∈ s.allTeams, v.waits = some .barrier → v.rfault = none)
        && nextB (exec (.barrierGenerationComplete tU) s) fun t => decide (t.cur.status = .ready)) = true)
    ∧ nextB (exec (.bar 0 0) tS) (fun t => decide (t.pc = tS.pc + 4)) = true := by decide +kernel

/-- StageQueues: a queue with room, and a full one; a closed empty queue, and an open one; an entry to take, its stores made at once; and
one whose stores stand. -/
theorem witness_StageQueues :
    (let s := regs [(2, 0x3000)] (phased (.published 0) (poke [(0x3000, 77)] (tInst 0)));
      s.cur.ctl.level = 0 ∧ (s.getX 2).toNat % 64 = 0 ∧ 0 ≤ s.commitPoint
      ∧ someB (s.launch? s.cur.id.launch) (fun l => decide (s.cur.id.stage + 1 < l.nstage)) = true
      ∧ okB (loadEntry s.cur (s.getX 2) (phased .released s)) (fun e s1 =>
          someB (s1.queue? s.cur s.cur.id.stage) (fun q => decide (q.entries.length < q.cap)) && decide (s1.queuePlace s.cur = some 1)
          && nextB (exec (.qput 4 2 0) s) fun t => decide (((t.queue? s.cur 0).map (·.entries)) = some [e] ∧ e.toNat = 77 ∧ t.getX 4 = 0)) = true)
    ∧ (let s := { regs [(2, 0x3000)] (phased (.published 0) (poke [(0x3000, 77)] (tInst 0))) with
          launches := [{ tLaunch with queues := [{ cap := 2, entries := [0x55, 0x66], places := [1, 1] }] }] };
      okB (loadEntry s.cur (s.getX 2) (phased .released s)) (fun _ s1 =>
          someB (s1.queue? s.cur s.cur.id.stage) (fun q => decide (q.cap ≤ q.entries.length ∧ s1.cur.uid = s.cur.uid))
          && nextB (exec (.qput 4 2 1) s) (fun t => decide (t.getX 4 = 1 ∧ t.pc = s.pc + 4))
          && nextB (exec (.qput 4 2 0) s) fun t => decide (t.cur.waits = some .queue ∧ t.cur.s.phase = .none ∧ t.pc = s.pc)) = true)
    ∧ (let s := regs [(2, 0x3000)] (tInst 1);
      s.cur.s.phase = .none ∧ s.cur.id.stage ≠ 0 ∧ someB (s.queue? s.cur (s.cur.id.stage - 1)) (fun q => q.entries == []) = true ∧ s.queueClosed s.cur (s.cur.id.stage - 1) = false
      ∧ nextB (exec (.qget 4 2 1) s) (fun t => decide (t.getX 4 = 1 ∧ t.pc = s.pc + 4)) = true
      ∧ nextB (exec (.qget 4 2 0) s) (fun t => decide (t.cur.waits = some .queue)) = true
      ∧ (let u := { s with launches := [tLaunch.onStage 0 fun g => { g with ended := 4 }] };
        u.queueClosed u.cur (u.cur.id.stage - 1) = true ∧ nextB (exec (.qget 4 2 0) u) (fun t => decide (t.getX 4 = 2)) = true)
      ∧ (let u := phased .queued s; (u.cur.l.queue = [] ∧ u.cur.l.run = none ∧ u.cur.s.outs = [])
        ∧ u.commitPoint ≤ (u.cluster u.cur.cluster).noticed ∧ nextB (exec (.qget 4 2 0) u) (fun t => decide (t.getX 4 = 0 ∧ t.pc = u.pc + 4)) = true))
    ∧ (let s := { regs [(2, 0x3040)] (tInst 1) with launches := [{ tLaunch with queues := [{ cap := 2, entries := [0x55, 0x66], places := [1, 1] }] }] };
      s.cur.ctl.level = 0 ∧ (s.getX 2).toNat % 64 = 0 ∧ s.cur.s.phase = .none
      ∧ okB (storeEntry s.cur (s.getX 2) 0x55 s) (fun _ s1 => decide ((s1.queue? s.cur 0).map (·.entries) = some [0x55, 0x66]
        ∧ s1.cur.uid = s.cur.uid ∧ s1.cur.id = s.cur.id ∧ (s1.cur.l.queue = [] ∧ s1.cur.l.run = none ∧ s1.cur.s.outs = [])
        ∧ s1.commitPoint ≤ (s1.cluster s1.cur.cluster).noticed)) = true) := by decide +kernel

/-- R323: an entry goes through the queue as it was put. -/
theorem test_queue_entry :
    let s := { regs [(2, 0x3040)] (tInst 1) with launches := [{ tLaunch with queues := [{ cap := 2, entries := [0x55, 0x66], places := [1, 1] }] }] }
    nextB (exec (.qget 4 2 0) s) (fun t => decide (((t.queue? t.cur 0).map (·.entries)) = some [0x66])
      && nextB (exec (.ldD 5 2 0) t) fun u => decide (u.cur.s.outs.map (·.val) = [some 0x55])) = true := by decide +kernel
/-! ## Templates, launches, stopped teams -/

/-- The launch template of a stage after its `freeze`: with instances to come (0), or with cluster templates to come (2). -/
def tFrozen (k : BitVec 2) : State :=
  runAll [.freeze k] (State.withCur (phased (.published 0) (tInst 0)) fun t => { t with ctl := { t.ctl with level := 2 } })

theorem witness_Spreading :
    (let s := tFrozen 0;
      someB (s.imageFor 0 0 1) fun i => someB (s.launch? i.launch) fun l =>
        decide (s.image? i.id = some i ∧ l.status = .running ∧ i.level = 1 ∧ (l.stage i.stage).cores.contains 1 = true ∧ s.copyOn i.id 1 = none
          ∧ (l.stage i.stage).next < l.total ∧ (s.imageFor l.id i.stage 1).map (·.id) = some i.id ∧ 0 < s.freeSlots 1 ∧ s.regionsFit i 1 = true ∧ spreadB s i 1 = true)
        && okB (spreadTo i 1 s) fun _ s1 => nextB (exec (.templateSpreadCopy i.id 1) s) fun t => decide (bare t = bare s1)) = true
    ∧ (let s := tFrozen 2;
      oneB s.images fun i => someB (s.launch? i.launch) fun l => someB (s.levelOneCore i 0) fun c =>
        decide (c / 4 = 0 ∧ l.status = .running ∧ i.level = 2 ∧ (l.stage i.stage).opening.contains 0 = true ∧ s.allTeams.map (·.status) = [.ended])
        && okB (spreadTo i c s) fun _ s1 => okB (startChild l i c (levelOneTask 0) 1 Paired.init s1) fun uid s2 =>
          nextB (exec (.templateSpreadCopy i.id c) s) fun t => decide (bare t = bare s2) && (t.team? uid).isSome) = true
    ∧ (let s := tFrozen 0;
      someB (s.launch? 0) fun l => someB (s.imageFor l.id 0 0) fun i =>
        decide (l.status = .running ∧ l.gang = false ∧ l.paired = false ∧ (List.range l.nstage).find? (fun k => (l.stage k).cores.contains 0) = some 0
          ∧ l.nextInstance 0 = some (0, []) ∧ s.stampCore l 0 (l.coresFor 0 []) = some 0
          ∧ s.commitPoint ≤ (s.cluster 0).noticed)
        && okB (startChild l i 0 0 0 Paired.init s) fun _ s1 =>
          nextB (exec (.instanceStamp 0 0) s) fun t => decide (t.teams = s1.teams) && someB (t.launch? 0) fun l => decide ((l.stage 0).next = 1)) = true
    ∧ (let s := { tS with launches := [{ tLaunch with queues := [{ cap := 2, entries := [1, 2], places := [1, 1] }] }] };
      someB (s.launch? 0) fun l => decide (l.status = .running ∧ l.gang = false ∧ l.stopping = false ∧ l.nstage = 2 ∧ l.stages.length = 2 ∧ (l.stage 1).next < l.total
          ∧ (l.stage 0).cores = [0, 1] ∧ s.inService 0 = true ∧ s.inService 1 = true)
        && nextB (exec (.stageRebalance 0) s) fun t => someB (t.launch? 0) fun l => decide ((l.stage 0).cores = [0] ∧ (l.stage 1).cores = [4, 1])) = true := by decide +kernel
/-- The kernel of the launch record stored at 0x8000 (R331), and its record in the second slot of a ring of two (R328). -/
def tKern : State :=
  ((List.range 4).foldl (fun s k => s.putSector (probePos + 3 + k) (granSec 32 + k)
      { data := BitVec.ofNat 256 (tKernel.toNat / 2 ^ (256 * k)), poison := false }) tS).setNodeEntry 0 32 (mkGranule 1 0 (probePos + 3) 15)
def tRing : State :=
  { tKern with
    host := Memory.writeN [] 0x1080 ((tRec 4 2).toNat + 0x81 * 2 ^ 1016) 128
    dev := { tKern.dev with rings := Table.set Ring.init [] 0 { base := 0x1000, slots := 2, next := 1, lap := 1 } } }

theorem witness_LaunchQueue :
    (let r := Table.get Ring.init tRing.dev.rings (8 * 0 + 0);
      tRing.dev.enable = true ∧ r.slots ≠ 0 ∧ tRing.host.read (r.base + 128 * r.next + 127) = 0x81 ∧ r.lap % 2 = 1 ∧ tRing.launches.length < 256
      ∧ (tRing.inQueue 0 0).length < 8 ∧ r.next + 1 = r.slots
      ∧ nextB (exec (.sealObserved 0 0) tRing) (fun t => decide (t.host.read 0x10FF = 0 ∧ (t.dev.rings.map fun p => (p.2.next, p.2.lap)) = [(0, 2)])
          && oneB t.launches fun l => decide (l.status = .sealed_ ∧ l.slot = 1 ∧ l.total = 4)) = true)
    ∧ (let l := Launch.fresh 9 0 0 0 0; let s := { tKern with launches := [l] };
      s.launch? 9 = some l ∧ (∀ o ∈ s.inQueue 0 0, o.status = .sealed_ → l.id ≤ o.id) ∧ l.badRecord = true
      ∧ nextB (exec (.launchParse 9) s) (fun t => someB (t.launch? 9) fun l => decide (l.status = .completing ∧ l.reason = 1)) = true)
    ∧ (let l := Launch.fresh 9 1 0 0 (tRec 4 2); let s := { tKern with launches := [l] };
      l.badRecord = false ∧ s.badOwner l = true
      ∧ nextB (exec (.launchParse 9) s) (fun t => someB (t.launch? 9) fun l => decide (l.status = .completing ∧ l.reason = 2)) = true)
    ∧ (let l := Launch.fresh 9 0 0 0 (tRec 4 2); let s := { tKern with launches := [l] };
      l.badRecord = false ∧ s.badOwner l = false ∧ Ctx.term (s.context l.ctx) = false
      ∧ okB (readKernel l s) (fun k s1 => someB k fun k => decide (s1.launch? 9 = some l ∧ ({ l with kdesc := k } : Launch).badKernel = false
          ∧ ({ l with kdesc := k } : Launch).shapeReason = 0 ∧ k = tKernel)) = true
      ∧ nextB (exec (.launchParse 9) s) (fun t => decide (t.launch? 9 = some { l with kdesc := tKernel, status := .waiting })) = true)
    ∧ (let l := { Launch.fresh 9 0 0 0 (tRec 4 2) with status := .waiting }; let s := { tKern with launches := [l] };
      s.oldestWaiting l = true ∧ s.depMet l 0 = true ∧ s.depMet l 1 = true
      ∧ nextB (exec (.dependenceSatisfied 9) s) (fun t => someB (t.launch? 9) fun l => decide (l.status = .ready)) = true) := by decide +kernel

/-- R332: a dependence on a counter below its value is not met; at it, it is. -/
theorem test_dependence :
    let l := { Launch.fresh 9 0 0 0 (BitVec.ofNat 1024 ((tRec 4 2).toNat + (2 ^ 63 + 5) * 2 ^ 384 + 7 * 2 ^ 448)) with status := .waiting }
    let s := fun (v : Nat) => { tS with launches := [l], dev := { tS.dev with counters := [(5, BitVec.ofNat 64 v)] } }
    (s 6).depMet l 0 = false ∧ (s 7).depMet l 0 = true := by decide +kernel

/-- A launch of one stage and one instance, its record asking for pre-emption, in a state of its own. -/
def tOne (st : LaunchStatus) : Launch :=
  { Launch.fresh 0 0 0 0 (BitVec.ofNat 1024 ((tRec 1 1).toNat + 2 ^ (768 + 46) + (2 ^ 63 + 7) * 2 ^ 640)) with
    kdesc := tKernel, status := st, stages := [tStage [0]], placed := decide (st = .running) }
def tRun1 : State :=
  { tS with
    launches := [tOne .running, { Launch.fresh 5 1 0 0 (tRec 4 2) with kdesc := tKernel, status := .ready }]
    dev := { tS.dev with lcmap := 1, counterTable := [(7, BitVec.ofNat 64 (2 ^ 63))], counters := [(7, 41)] } }

theorem witness_LaunchRun :
    (let l := tOne .ready; let s := { tRun1 with launches := [l] };
      s.servedBefore l = false ∧ someB (s.candidate l) (fun o => okB (placeAt l o s) fun _ s1 =>
        decide (l.nstage = 1) && someB (s.topPlan l (((l.dealt o).getD 0 []).headD 0)) (fun p => decide (s.commitPoint ≤ (s.cluster (p.core / 4)).noticed))
        && nextB (exec (.launchPlace 0) s) fun t => decide (bare t = bare s1 ∧ t.teams.map (fun u => (u.ctl.level, u.s.pc)) = [(2, 0x2000)])) = true)
    ∧ (let l := tOne .swapped; let s := { tRun1 with launches := [l] };
      s.servedBefore l = false ∧ someB (s.candidate l) (fun o => s.queuesFit l o &&
        nextB (exec (.launchRestore 0) s) fun t => someB (t.launch? 0) fun l => decide (l.status = .running ∧ l.origin = o)) = true) := by decide +kernel

/-- LaunchRun: a slice that runs out. Its teams are saved; they have to come to a boundary; the pool has no room; one is halted. -/
theorem witness_SliceExpiry :
    (someB (tRun1.launch? 0) fun l => decide (l.status = .running ∧ l.preempt = true ∧ l.held = false ∧ l.stopping = false ∧ tRun1.sliceRuns l = true ∧ tRun1.anyHalted 0 = false)
        && okB (preempt 0 tRun1) fun _ _ => true) = true
    ∧ (let s := phased (.published 1) tRun1;
      s.anyHalted 0 = false ∧ (match preempt 0 s with | .error (.wait w) _ => w != .save | _ => false) = true
      ∧ nextB (exec (.sliceExpiry 0) s) (fun t => (t.launch? 0).any fun l => l.held && l.stopping) = true)
    ∧ (let s := tRun1.onDev fun d => { d with saveFrames := 0 };
      (match preempt 0 s with | .error (.wait .save) _ => true | _ => false) = true
      ∧ nextB (exec (.sliceExpiry 0) s) (fun t => (t.launch? 0).any fun l => l.held && !l.stopping) = true)
    ∧ (let s := { tRun1 with contexts := Table.set 0 tRun1.contexts 0 (setDescWord (tRun1.context 0) 2 (2 ^ 60)) };
      s.anyHalted 0 = false ∧ (s.allTeams.filter fun t => t.resident && t.id.launch == 0) = [s.cur] ∧ saveB s s.cur = true
      ∧ 2 ^ 57 ≤ (BitVec.ofNat 64 (Ctx.fqbase (s.context 0)
          + 64 * ((Table.get 0 s.dev.fqSeq 0 + 1) % 2 ^ 32 % 2 ^ Ctx.fqlog2 (s.context 0)))).toNat
      ∧ nextB (exec (.sliceExpiry 0) s) (fun t => decide (t.cur.status = .swapped ∧ t.cur.saved = some (s.savedOf s.cur))) = true)
    ∧ (let s := State.withCur tRun1 fun t => { t with dbg := { t.dbg with halted := true } };
      s.anyHalted 0 = true ∧ nextB (exec (.sliceExpiry 0) s) (fun t => decide (t.cur.status = .ready)) = true) := by decide +kernel

/-- LaunchRun: a summary that has committed, and one still to number. -/
theorem witness_LaunchComplete :
    (let s := { tRun1 with launches := [{ tOne .completing with bound := some 0 }] };
      0 ≤ s.commitPoint ∧ s.dev.owed = [] ∧ someB (s.launch? 0) (fun l => decide (l.hasCctr = true ∧ s.ownsCounter l.tenant l.cctr = true ∧ l.bound = some 0)) = true
      ∧ nextB (exec (.launchComplete 0) s) (fun t => decide (t.launches = [] ∧ t.counter 7 = 42)) = true)
    ∧ (let s := { tRun1 with launches := [tOne .completing] };
      someB (s.launch? 0) (fun l => decide (l.bound = none ∧ l.caddr = 0 ∧ l.code ≠ 4)) = true
      ∧ nextB (exec (.launchComplete 0) s) (fun t => someB (t.launch? 0) fun l => decide (l.bound = some 0)) = true) := by decide +kernel
/-- The probe's team swapped out for a cause. -/
def tSwapped (c : Option SwapCause) : State := State.withCur tS fun t => { t with status := .swapped, cause := c }

theorem witness_StoppedTeams :
    (someB ((tSwapped (some .spill)).team? tU) fun t => decide (t.status = .swapped ∧ t.cause = some .spill ∧ 4096 + ((tSwapped (some .spill)).cluster t.cluster).inSpill ≤ spillCap)
        && nextB (exec (.spillWaitEnd tU) (tSwapped (some .spill))) fun t => decide (t.cur.cause = none)) = true
    ∧ (someB ((tSwapped (some (.basin 300 none))).team? tU) fun t => decide (t.cause = some (.basin 300 none) ∧ 300 ≤ ((tSwapped none).core t.core).freeBanks.length)
        && nextB (exec (.teamRedispatch tU) (tSwapped (some (.basin 300 none)))) fun t => decide (t.cur.cause = none)) = true
    ∧ (let s := State.withCur { tRun1 with cores := [] } fun t => { t with
        status := .swapped, h := { t.h with privBase := none }
        saved := some { banks := [{ bank := 7, rows := [(0, 77)], poison := [] }], pend := [], fifos := [], events := [], waitingEvents := [], runnels := [], loops := [] } };
      someB (s.team? tU) fun t => decide (t.status = .swapped ∧ t.cause = none ∧ s.placedTeam t = true)
        && okB (restoreTeam tU t.core s) fun _ s1 => nextB (exec (.teamRestore tU) s) fun u => decide (bare u = bare s1 ∧ u.cur.status = .ready ∧ (u.core 0).row 0 0 = 77)) = true
    ∧ (let s := State.withCur { tRun1 with cores := [] } fun t => { t with
        status := .swapped
        saved := some { banks := [{ bank := 7, rows := [(0, 77)], poison := [] }], pend := [], fifos := [], events := [], waitingEvents := [], runnels := [], loops := [] } };
      someB (s.team? tU) fun t => someB t.saved fun v => decide (t.cause = none ∧ s.placedTeam t = true) && restoreB s t v t.core
        && nextB (exec (.teamRestore tU) s) fun u => decide (u.cur.status = .ready ∧ u.cur.saved = none ∧ u.cur.id.core = t.core)) = true
    ∧ (let s := State.withCur (tS.setCore 0 { tS.core 0 with banks := (List.range 384).map fun b => (b, .reg (if b < 4 then tU else 99)) }) fun t => { t with status := .waiting, waits := some .basin };
      let r : TrapReq := { noTrap with code := 0x0C, src := 0, recov := true, w2 := 1 };
      someB (s.team? tU) fun t => decide (t.basinStall = true ∧ (s.core t.core).freeBanks = [] ∧ t.l.stall ≠ some .basin)
        && saveB s t
        && okB (swapOut tU (.basin 1 none) (s.onTeamId tU fun u => { u with status := .ready, waits := none, rfault := none, faultrec := recordWords u r })) fun _ s1 =>
          decide (s1.cur.status = .swapped ∧ bits (s1.cur.faultrec.getD 0 0).toNat 56 8 = 0x0C)
          && nextB (exec (.basinStallTimeout tU) s) fun u => decide (bare u = bare s1 ∧ u.cur.saved = some (s.savedOf s.cur))) = true
    ∧ (let s := tSwapped (some (.notPresent 7));
      Ctx.tenant (s.context 0) = 0 ∧ s.notPresent 0 8 = none
      ∧ someB (s.notPresent 0 7) (fun t => decide (s.team? t.uid = some t ∧ s.placedTeam t = false)) = true
      ∧ nextB (exec (.resumeContinue 0 0 7) s) (fun u => decide (u.cur.cause = none)) = true
      ∧ nextB (exec (.resumeKill 0 0 7) s) (fun u => decide (u.cur.cause = some .kill)) = true
      ∧ nextB (exec (.resumeKill 3 0 7) s) (fun u => decide (bare u = bare s)) = true) := by decide +kernel

theorem witness_DebugCommands :
    (someB (tL.teamIn 0 0) fun t => decide (tL.team? t.uid = some t ∧ t.dbg.halted = false ∧ t.atBoundary = true)
      && nextB (exec (.dbgHalt 0 0) tL) fun u => decide (u.cur.dbg.halted = true ∧ bitAt u.cur.dbg.reason 0 = true ∧ u.cur.status = .waiting)) = true
    ∧ (let s := runAll [.dbgHalt 0 0] tL;
      someB (s.teamIn 0 0) (fun t => decide (s.team? t.uid = some t ∧ t.dbg.halted = true ∧ t.dbg.reason = 1 ∧ t.dbg.pendf = none ∧ t.dbg.haltReq = false)) = true
      ∧ nextB (exec (.dbgResume 0 0) s) (fun u => decide (u.cur.dbg.halted = false ∧ u.cur.status = .ready)) = true
      ∧ nextB (exec (.dbgStep 0 0) s) (fun u => decide (u.cur.dbg.stepping = true ∧ u.cur.dbg.stepL = true)) = true) := by decide +kernel

theorem witness_LogUpkeep :
    (tS.log 0).seg = some probeSeg ∧ 0 < (tS.log 0).off
    ∧ (let s := runAll [.segmentSealTimeout 0] tS;
      let mine := s.liveEntries.filter (fun g => s.sectorsIn g.2.2 probeSeg != [] || mapIn g.2.2 probeSeg);
      s.goesFirst probeSeg = true ∧ (∀ g ∈ mine, s.locked g.1 g.2.1 = false) ∧ mine.length = 3 ∧ s.malformedEntries = []
      ∧ roomB s mine.length = true ∧ 3933 + 2 * mine.length ≤ s.freeSegs
      ∧ okB (mine.forM (fun g => moveGranule (probeSeg / segsPerStack) probeSeg g.1 g.2.1 g.2.2) s) (fun _ s1 =>
          nextB (exec (.skimmerCompact probeSeg) s) fun t => decide ((Table.get Segment.dflt t.segs probeSeg).retiring = some 0 ∧ t.hbm = s1.hbm)) = true)
    ∧ (let s := { tS.setCluster 0 { tS.cluster 0 with ixb := [{ win := 0, gran := 0, entry := mkGranule 1 0 probePos 1, psn := 0, superseded := false, heldBy := [], stamp := 0, filledAt := 0, fill := none }] } with
        segs := Table.set Segment.dflt tS.segs probeSeg { Segment.dflt with retiring := some (2 ^ 48 - 1 - 1) } };
      bitAt (2 ^ 48 - 1 - 1) 0 = false ∧ (s.cluster 0).ixb ≠ []
      ∧ nextB (exec (.retireNotice probeSeg 0) s) (fun t => decide ((t.segs.map (·.1)) = (s.segs.map (·.1)).erase probeSeg ∧ (t.cluster 0).ixb.length < (s.cluster 0).ixb.length)) = true)
    ∧ (let s := (State.withCur tS fun t => { t with status := .waiting, waits := some .space }).stall (.team tU);
      s.stallers = [.team tU] ∧ s.mayAppend (s.stallerLog (.team tU)) = true ∧ s.resumeNext = some (.team s.cur.uid) ∧ (s.team? tU).map (·.rfault) = some none
      ∧ nextB (exec .appendResume s) (fun t => decide (t.cur.status = .ready ∧ t.cur.waits = none)) = true)
    ∧ (let s := tS.setCluster 3 { tS.cluster 3 with stale := [(0, 5)] };
      (s.cluster 3).stale = [(0, 5)] ∧ nextB (exec (.stalecntFlush 3) s) (fun t => decide (Win.staleCnt (t.window 0) = 5 ∧ (t.cluster 3).stale = [])) = true) := by decide +kernel

/-- LogUpkeep, HostAccess, Replicas: appends that stall because 380,000 segments are in use. -/
def tFull (n : Nat) : State :=
  { State.withCur tS (fun t => { t with status := .waiting, waits := some .space }) with
    segs := List.replicate n (probeSeg, Segment.dflt), dev := { tS.dev with batchLines := [0] } }

theorem tFull_full (n l : Nat) (h : 380000 ≤ n) (hl : l < 48 ∨ 108 ≤ l) : (tFull n).mayAppend l = false := by
  have hf : (tFull n).freeSegs ≤ 5024 := by
    have hl : (tFull n).segs.length = n := List.length_replicate
    have hz : (tFull n).lostSegs = [] := rfl
    have hr : (tFull n).reservedIn 0 393216 = 8192 := rfl
    simp only [State.freeSegs, hl, hz, hr, numSegments, List.length_nil]
    omega
  simp only [State.mayAppend]
  simp
  omega

theorem witness_SpaceAlarm : (tFull 380000).dev.spaceAlarm = false ∧ (tFull 380000).appendsStall = true := by
  refine ⟨rfl, ?_⟩
  have h : ((tFull 380000).cur.stalledAppend && !(tFull 380000).mayAppend (tFull 380000).cur.cluster) = true := by
    rw [show (tFull 380000).cur.cluster = 0 from rfl, tFull_full _ _ (Nat.le_refl _) (.inl (by decide))]
    rfl
  simp only [State.appendsStall, State.allTeams, List.any_cons, h, Bool.true_or]

theorem witness_StalledHost : (tFull 380000).dev.batchLines ≠ [] ∧ (tFull 380000).mayResume .host = false
    ∧ (tFull 380000).mayResume (.replica 3) = false := by
  refine ⟨by decide, ?_, ?_⟩ <;> simp only [State.mayResume, State.stallerLog] <;>
    rw [tFull_full _ _ (Nat.le_refl _) (.inr (by decide)), Bool.false_and]
/-! ## The host, resets, errors -/

/-- The host's window over window 0: reads and writes allowed. -/
def tHostMap (s : State) : State := s.onDev fun d => { d with hostRd := 1, hostWr := 1 }

/-- HostAccess: reads and writes refused; a read of committed data beside a sector never written; a whole line joins the batch, and part of
a sector that the batch holds; a batch that closes. -/
theorem witness_HostAccess :
    (tS.hostWindow 0x3000 false = none ∧ nextB (exec (.cxlMemRead 0x3000) tS) (fun t => decide (t.dev.sent = [.readData 0x3000 0 true] ∧ t.dev.hostRefuse = 1)) = true)
    ∧ (let s := tHostMap tCommit;
      s.hostWindow 0x3010 false = some (0, 0x3000) ∧ s.locked 0 (0x3000 / 1024) = false
      ∧ someB (s.granEntry (s.window 0) (0x3000 / 1024)) (fun e => decide (s.resolve e 0 ≠ .bad ∧ s.resolve e 1 ≠ .bad)) = true
      ∧ nextB (exec (.cxlMemRead 0x3010) s) (fun t => decide (t.dev.sent = s.dev.sent ++ [.readData 0x3010 (BitVec.ofNat 512 (0x8182838485868788 * 2 ^ 64)) false])) = true)
    ∧ (tS.hostWindow 0x3000 true = none ∧ nextB (exec (.cxlMemWrite 0x3000 0 1 false) tS) (fun t => decide (t.dev.hostRefuse = 1)) = true)
    ∧ (let s := tHostMap tS;
      s.hostWindow 0x3000 true = some (0, 0x3000) ∧ s.dev.batch.length < 200
      ∧ nextB (exec (.cxlMemWrite 0x3000 5 (BitVec.allOnes 64) false) s) (fun t => decide (t.dev.batch.map (fun d => (d.sec, d.data)) = [(0x180, 5), (0x181, 0)] ∧ t.dev.batchLines = [0x3000]
          ∧ t.hostWindow 0x3020 true = some (0, 0x3000) ∧ halfEnables 6 1 = 0 ∧ 0 < halfEnables 6 0 ∧ halfEnables 6 0 < 2 ^ 32 - 1
          ∧ (t.dev.batch.find? fun d => d.win == 0 && d.sec == 0x3000 / 32).isSome = true)
        && nextB (exec (.cxlMemWrite 0x3020 0x778899 6 false) t) (fun u =>
            decide ((u.dev.batch.find? fun d => d.sec == 0x180).map (·.data) = some 0x778805 ∧ u.dev.batchLines = [0x3000, 0x3020]))
        && okB (appendSectors 124 t.dev.batch (t.unstall .host)) fun share _ => decide (t.dev.batchLines ≠ [] ∧ t.mayResume .host = true)
          && nextB (exec .hostBatchClose t) fun u => decide (u.psnNext = t.psnNext + 1 ∧ u.dev.batch = [] ∧ (u.pubs.map (·.share)) = [share])) = true) := by decide +kernel

/-- HostRegisters: a pending message of a masked vector; a value at each end of a range is kept, one beyond it ignored. -/
theorem witness_HostRegisters :
    (let s := tS.onDev fun d => { d with pending := [(1, 3)], masked := [(1, 3)] };
      (1, 3) ∈ s.dev.pending ∧ nextB (exec (.msixUnmask 1 3) s) (fun t => decide (t.dev.sent = [.msix 1 3] ∧ t.dev.pending = [] ∧ t.dev.masked = [])) = true)
    ∧ ((1, 4) ∉ tS.dev.pending ∧ bits (BitVec.ofNat 64 (2 ^ 8)).toNat 8 56 ≠ 0
        ∧ nextB (exec (.registerWrite (0x100000 + 0x200 * 191 + 0x120) (BitVec.ofNat 64 (2 ^ 8 + 2 ^ 6))) tS) (fun t => decide (bare t = bare tS)) = true)
    ∧ nextB (exec (.registerWrite 0x0020 256) tS) (fun t => decide (t.dev.ageCap = 256)) = true
    ∧ nextB (exec (.registerWrite 0x0028 65535) tS) (fun t => decide (t.dev.distThr = 65535)) = true
    ∧ nextB (exec (.registerWrite 0x0028 65536) tS) (fun t => decide (t.dev.distThr = 4000)) = true
    ∧ nextB (exec (.registerWrite 0x00A0 720) tS) (fun t => decide (t.dev.scanInt = 720)) = true
    ∧ nextB (exec (.registerWrite 0x00F0 899) tS) (fun t => decide (t.dev.pcap = 1600)) = true := by decide +kernel

/-- A translation of context 0 in the core's TLB, and a command in the queue. -/
def tInv (a b : Word64) : State := (withLeaf 0x100 0 0 probeWindow tS).onDev fun d => { d with xlQueue := [(a, b)] }

def tBusy : State := (tInv 0 0).onDev fun d => { d with xlBusy := some [7] }

theorem witness_Invalidations :
    (nextB (exec .xlinvVaRange (tInv 1 (0x100 * 2 ^ 12))) fun t => decide (t.dev.xlBusy = some [] ∧ (t.core 0).tlb = [])) = true
    ∧ (nextB (exec .xlinvVaRange (tInv 1 (0x101 * 2 ^ 12))) fun t => decide ((t.core 0).tlb ≠ [])) = true
    ∧ (nextB (exec .xlinvContext (tInv (BitVec.ofNat 64 (2 ^ 62)) 0)) fun t => decide ((t.core 0).tlb = [])) = true
    ∧ (nextB (exec .xlinvWindow (tInv (BitVec.ofNat 64 (2 * 2 ^ 62 + 5 * 2 ^ 48)) 0)) fun t => decide ((t.core 0).tlb ≠ [])) = true
    ∧ (nextB (exec .xlinvAll (tInv (BitVec.ofNat 64 (3 * 2 ^ 62)) 0)) fun t => decide ((t.core 0).tlb = [])) = true
    ∧ ((∀ o ∈ [7], o ∉ tBusy.inFlight fun _ _ _ => true) ∧ nextB (exec .xlinvComplete tBusy) (fun t => decide (t.dev.xlBusy = none ∧ t.dev.xlQueue = [] ∧ t.dev.xlDone = 1)) = true) := by decide +kernel

/-- Resets: nothing posted, no Cascade command in flight. -/
theorem witness_Resets : (tDirty.posted = [] ∧ tDirty.cascades = [])
    ∧ nextB (exec .devctlWarmreq tDirty) (fun t => decide (t.cur.uid = 0 ∧ t.pubs = [] ∧ t.commitPoint = 0
        ∧ bits (t.hbm.readN t.dev.errBase 8) 56 8 = 6 ∧ bits (t.hbm.readN (t.dev.errBase + 16) 8) 0 32 = 6)) = true := by decide +kernel

theorem witness_HeatAndRefresh :
    (let s := tS.onDev fun d => { d with thermLevel := 1 };
      nextB (exec (.junctionTemperature 92) s) (fun t => decide (t.dev.thermLevel = 1)) = true
      ∧ nextB (exec (.junctionTemperature 91) s) (fun t => decide (t.dev.thermLevel = 0)) = true
      ∧ nextB (exec (.junctionTemperature 99) s) (fun t => decide (t.dev.thermLevel = 1)) = true
      ∧ nextB (exec (.junctionTemperature 105) s) (fun t => decide (t.dev.thermLevel = 3)) = true)
    ∧ nextB (exec (.junctionTemperature 95) tS) (fun t => decide (t.dev.thermLevel = 1)) = true
    ∧ (tS.dev.pcap < 1601 ∧ nextB (exec (.powerCapExceeded 1601) tS) (fun t => decide (t.dev.powLevel = 1)) = true)
    ∧ (tDirty.dev.hot = false ∧ tDirty.posted = [] ∧ tDirty.cascades = []
        ∧ nextB (exec (.junctionTemperature 110) tDirty) (fun t => decide (t.dev.hot = true ∧ t.cur.uid = 0 ∧ t.dev.thermLevel = 3)) = true)
    ∧ (let s := runAll [.stW 1 3 0] (regs [(1, 7), (3, 0x200008)] tHost);
      oneB (s.rowQueue 0) (fun r => !s.rowHeld r && nextB (exec (.ageCapExpiry 0) s) fun t => decide (t.dev.ageBlock = [0] ∧ t.mayServe 0 r = true)) = true)
    ∧ (∀ p ∈ ([(0, 92, 0), (0, 100, 2), (2, 97, 2), (2, 104, 2), (3, 102, 3), (3, 101, 2), (3, 96, 1), (2, 92, 1)] : List (Nat × Nat × Nat)),
        nextB (exec (.junctionTemperature p.2.1) (tS.onDev fun d => { d with thermLevel := p.1 })) (fun t => decide (t.dev.thermLevel = p.2.2)) = true) := by decide +kernel

/-- Two copies of a task, the primary at its comparison point. -/
def tPair : State :=
  let c := tS.cur
  { State.withCur tS fun t => { t with paired := { role := 1, twin := 9, sig := 5, at_ := some { kind := 0, key := 0, sig := 5 } } } with
    teams := [{ c with uid := 9, id := { c.id with core := 4 }, paired := { role := 2, twin := tU, sig := 5, at_ := none } }] }

def tLone : AtomReq :=
  { uid := tU, ctx := 0, cluster := 0, win := 0, la := 0x3000, what := .amo 0 64 1, dest := .none, sys := false, va := 0x3000, pc := 0, id := 50 }

/-- The device with core 0 alone in service, which the probe's team holds; and with core 5 under scan beside it. -/
def tNoIdle : State := tS.onDev fun d => { d with lcmap := 1 }
def tScan : State := (tS.setCore 5 { tS.core 5 with scanning := true }).onDev fun d => { d with lcmap := 33 }

/-- ErrorsAndScans: what a scrub can find, a line of each kind among them; a pause; a twin that has not come, on a launch of too few
clusters and on one that may run it again; a lone atomic of a pair; and the scans. -/
def tLine (dirty : Bool) (own : Option Nat) : State :=
  tS.setSlice 2 { tS.slice 2 with lines := [{ tag := .result 0 5, valid := 1, bad := 0, dirty := dirty, own := own, prot := 1 }] }
def tPairIn (clusters : Nat) : State :=
  { tPair with launches := [{ Launch.fresh 0 0 0 0 (BitVec.ofNat 1024 (((tRec 4 1).toNat) + (clusters - 1) * 2 ^ (192 + 60))) with status := .running, stages := [tStage [0]] }] }

theorem witness_ErrorsAndScans :
    (nextB (exec (.patrolScrub (.corrected 0x40 47 (some 63))) tS) fun t => decide (t.dev.errHead = 1 ∧ t.hbm.readN t.dev.errBase 8 / 2 ^ 41 = 2 ^ 15 + 2 ^ 14 + 63 * 2 ^ 8 + 47)) = true
    ∧ ((tDirty.cluster 0).dirty[0]?.isSome = true ∧ Ctx.term (tDirty.context 0) = false
      ∧ nextB (exec (.patrolScrub (.dirtyLine 0 15 0)) tDirty) (fun t => decide (Ctx.term (t.context 0) = true ∧ (t.cluster 0).paused = true)) = true)
    ∧ (let s := tS.onDev fun d => { d with retired := [physByte probePos / 65536] };
      physByte probePos / 65536 ∈ s.dev.retired ∧ nextB (exec (.patrolScrub (.hbmSector probePos)) s) (fun t => decide (t.bad = [(probePos, true)])) = true)
    ∧ (tS.dev.retired.length < 4096 ∧ nextB (exec (.patrolScrub (.rowSector 0x40)) tS) (fun t => decide (t.crowBad = [(2, true)] ∧ t.dev.retired = [2 ^ 24])) = true)
    ∧ (((tLine false none).slice 2).lines[0]?.isSome = true
      ∧ nextB (exec (.patrolScrub (.homeLine 2 3 0)) (tLine false none)) (fun t => decide ((t.slice 2).lines = [])) = true)
    ∧ (let s := tLine true (some 0);
      Ctx.term (s.context 0) = false ∧ s.backing (.result 0 5) = none
      ∧ nextB (exec (.patrolScrub (.homeLine 2 3 0)) s) (fun t => decide (Ctx.term (t.context 0) = true ∧ (t.slice 2).paused = true)) = true)
    ∧ (let s := tLine true none;
      s.posted = [] ∧ s.cascades = [] ∧ nextB (exec (.patrolScrub (.homeLine 2 3 0)) s) (fun t => decide (t.teams = [] ∧ t.cur.uid = 0)) = true)
    ∧ (let s := tS.setSlice 2 { tS.slice 2 with paused := true }; (s.slice 2).paused = true ∧ nextB (exec (.slicePauseEnd 2) s) (fun t => decide ((t.slice 2).paused = false)) = true)
    ∧ (∀ p ∈ ([(1, .completing, 2, []), (4, .running, 0, [0])] : List (Nat × LaunchStatus × Nat × List Nat)),
        let s := tPairIn p.1;
        someB (s.team? tU) (fun t => someB (s.twinOf t) fun u => decide (t.paired.at_.isSome = true ∧ u.paired.at_ = none ∧ u.uid = 9 ∧ t.id.ctx < 64 ∧ t.id.core < 192)
          && someB (s.launch? t.id.launch) (fun l => decide (l.status = .running))
          && nextB (exec (.pairedTwinTimeout tU) s) fun v => decide (v.teams = []) &&
            someB (v.launch? 0) fun l => decide (l.status = p.2.1 ∧ l.code = p.2.2.1 ∧ l.mismatched = p.2.2.2)) = true)
    ∧ (let s := (tPairIn 4).setSlice 3 { tPair.slice 3 with reqs := [tLone] };
      s.twinReq 3 tLone = none ∧ someB (s.team? tU) (fun t => (s.twinOf t).isSome && decide (t.paired.role ≠ 0)) = true
      ∧ nextB (exec (.pairedAtomicTimeout 3) s) (fun v => decide ((v.slice 3).reqs = [] ∧ v.teams = [])) = true)
    ∧ ((∀ c < 192, (tNoIdle.core c).scanning = false) ∧ (∀ c < 192, tNoIdle.idleCore c = false)
      ∧ nextB (exec .scanInterval tNoIdle) (fun t => decide (t.dev.scanDue = [0])) = true)
    ∧ ((tScan.core 5).scanning = true ∧ (∀ c < 192, c ≠ 5 → (tScan.core c).scanning = false ∧ tScan.idleCore c = false ∧ (tScan.core c).scanFlag = false)
      ∧ nextB (exec (.scanComplete 5 true 0) tScan) (fun t => decide ((t.core 5).scanning = false ∧ t.dev.lcmap = 33)) = true
      ∧ nextB (exec (.scanComplete 5 false 0) tScan) (fun t => decide (t.dev.lcmap = 1)) = true) := by decide +kernel
/-! ## Snapshots, configuration, replicas -/

/-- The probe's team in privileged mode, x2 naming window 0 and x3 handle 12 of a snapshot of it. -/
def tSnapRec (handle psn : Nat) : Snapshot :=
  { handle := handle, win := 0, root := 0, rootGen := 0, snapGen := 0, depth := 0, lsize := 64, psn := psn }
def tPriv : State := { State.withCur (regs [(3, 12)] tS) (fun t => { t with s := { t.s with priv := true } }) with snaps := [tSnapRec 12 0] }

theorem witness_SnapAndRoll :
    (tPriv.cur.s.priv = true ∧ tPriv.cur.s.phase = .none ∧ (tPriv.cur.l.queue = [] ∧ tPriv.cur.l.run = none ∧ tPriv.cur.s.outs = [])
      ∧ (tPriv.getX 2).toNat = 0 ∧ Win.valid (tPriv.window 0) = true ∧ Win.owner (tPriv.window 0) = tPriv.cur.id.ctx ∧ Win.logged (tPriv.window 0) = true
      ∧ tPriv.snapCount 0 < 16 ∧ tPriv.snapTotal < 1024
      ∧ nextB (exec (.snap 5 2) tPriv) (fun t => decide (t.psnNext = 2 ∧ t.cur.waits = some (.commit 1) ∧ (t.pubs.map (·.who)) = [.snap tU 0])) = true)
    ∧ (let s := { tPriv with snaps := (List.range 16).map fun h => tSnapRec h 0 };
      16 ≤ s.snapCount 0 ∧ nextB (exec (.snap 5 2) s) (fun t => decide (t.getX 5 = 0 ∧ t.pc = s.pc + 4)) = true)
    ∧ (let s := phased (.published 0) tPriv;
      0 ≤ s.commitPoint ∧ nextB (exec (.roll 2 3) s) (fun t => decide (t.pc = s.pc + 4)) = true)
    ∧ nextB (exec (.snap 5 2) (phased (.snapped 12) tPriv)) (fun t => decide (t.getX 5 = 12 ∧ t.pc = tPriv.pc + 4)) = true
    ∧ (tPriv.isReplica 0 = false ∧ (tPriv.getX 3).toNat = 12
      ∧ nextB (exec (.roll 2 3) tPriv) (fun t => decide (t.psnNext = 2 ∧ t.cur.waits = some (.commit 1) ∧ (t.pubs.map (·.who)) = [.roll tU 0 12])) = true) := by decide +kernel

def tLost : State := { tS with peers := [(0, BitVec.ofNat 128 (3 * 2 ^ 126 + 5 * 2 ^ 114))] }

theorem witness_FirmwareCommands :
    (let c : MailCmd := { session := 3, change := .rtid 9, bytes := [] };
      tS.admits c.session c.change = false ∧ nextB (exec (.mailboxCommand c) tS) (fun t => decide (t.dev.rtid = 0 ∧ .mailbox 1 ∈ t.dev.sent)) = true)
    ∧ (tS.admits 1 (.rtid 9) = true ∧ nextB (exec (.mailboxCommand { session := 1, change := .rtid 9, bytes := [] }) tS) (fun t => decide (t.dev.rtid = 9)) = true)
    ∧ (let s := { tS with contexts := [(0, BitVec.ofNat 512 ((2 ^ 63 + 2 ^ 61) * 2 ^ 64))], dev := { tS.dev with broken := [0] } };
      Ctx.term (s.context 0) = true ∧ Ctx.term probeContext = false ∧ bits (Ctx.xroot 1) 0 12 ≠ 0 ∧ 0 ∈ s.dev.broken ∧ Win.owner (s.window 0) = 0
      ∧ s.admits 2 (.context 0 probeContext) = false ∧ State.admits { s with cur := Team.vacant, dev := { s.dev with broken := [] } } 2 (.context 0 probeContext) = true)
    ∧ (Win.tenant (tPriv.window 0) = 0 ∧ tPriv.pubs = [] ∧ nextB (exec (.snapfree 0 12 2) tPriv) (fun t => decide (t.snaps = [])) = true
      ∧ nextB (exec (.snapfree 0 12 3) tPriv) (fun t => decide (t.snaps.length = 1)) = true)
    ∧ (let s := { tHost with snaps := [tSnapRec 12 0] };
      someB (s.snaps.find? fun q => q.handle == 12 && q.win == 0) (fun q => s.exportTarget q 1) = true
      ∧ nextB (exec (.exportWindow { win := 0, handle := 12, hostWin := 1, session := some 0 }) s) (fun t => decide (t.host.readN (2 ^ 21 + 4096) 8 = 2 ^ 3 + 2 ^ 4 + 2 ^ 5 + 1)) = true)
    ∧ (Peer.isReplica (tLost.peer 0) = true ∧ Peer.rtid (tLost.peer 0) = 5 ∧ (0, tLost.peer 0) ∈ tLost.peers
      ∧ nextB (exec (.takeover { lost := 5, owners := [(0, 0)], owner := true }) tLost) (fun t => decide (t.dev.rtid = 5 ∧ Peer.replica (t.peer 0) = false)) = true
      ∧ nextB (exec (.takeover { lost := 5, owners := [], owner := false }) tLost) (fun t => decide (t.dev.rtid = 0)) = true)
    ∧ (let s := State.withCur tS fun t => { t with status := .waiting, waits := some .save };
      s.cur.waits = some .save ∧ nextB (exec .savefull s) (fun t => decide ((0, 1) ∈ t.dev.pending)) = true) := by decide +kernel

/-- Window 0 as a source for the peer 5 at port 1, with two sectors of PSN 1 and one of PSN 2 to ship; and as a replica of it. -/
def tSource : State :=
  { runAll [.segmentSealTimeout 0] tS with
    peers := [(0, BitVec.ofNat 128 (2 * 2 ^ 126 + 5 * 2 ^ 114 + 7 * 2 ^ 106 + 2 * 2 ^ 90))]
    dev := { tS.dev with
      routes := [(5, 2)], lastShip := [(0, 1)]
      unshipped := [⟨0, 1, 0, some probePos⟩, ⟨0, 1, 1, some (probePos + 1)⟩, ⟨0, 2, 9, some (probePos + 2)⟩] } }
def tReplica : State :=
  { tS with peers := [(0, BitVec.ofNat 128 (3 * 2 ^ 126 + 5 * 2 ^ 114 + 7 * 2 ^ 106 + 2 * 2 ^ 90))], dev := { tS.dev with received := [⟨0, 9, probePos⟩] } }
def tBurst : ReplicaBurst :=
  { port := 1, dst := 0, src := 5, win := 0, rel := 9, poison := 0, checks := [(checkValue 77 9).toNat], data := [77] }

theorem witness_Replicas :
    (Peer.isSource (tSource.peer 0) = true ∧ (burstOf tSource (tSource.toShip 0)).map (·.sec) = [0, 1] ∧ tSource.dev.cutOwed = []
      ∧ tSource.portFor (Peer.rtid (tSource.peer 0)) (Peer.ports (tSource.peer 0)) = some 1
      ∧ nextB (exec (.spillwayShip 0) tSource) (fun t => decide (t.dev.unshipped.map (·.sec) = [9] ∧ t.dev.sent.length = 2
          ∧ t.nextCut 0 = some 1)
        && nextB (exec (.spillwayCut 0) t) fun u => decide (u.dev.sent.length = 3)) = true)
    ∧ (tBurst.dst = tReplica.dev.rtid.toNat ∧ tReplica.fromPeer tBurst.win tBurst.src tBurst.port true = true
      ∧ tBurst.rel < Win.lsize (tReplica.window 0) * 32 ∧ tReplica.mayResume (.replica 1) = true ∧ tReplica.dev.arrivals = [] ∧ tReplica.dev.fabRefuse < 2 ^ 64
      ∧ okB (appendRun 109 [(Win.lbase (tReplica.window 0) / 32 + 9, ⟨77, bitAt 0 0 || (checkValue 77 9).toNat != (checkValue 77 9).toNat⟩)] tReplica) (fun pos s1 =>
          nextB (exec (.replicaSegmentData tBurst) tReplica) fun t => decide (t.hbm = s1.hbm ∧ t.dev.received.map (fun r => (r.sec, r.pos)) = [(9, probePos), (9, pos)])) = true)
    ∧ (nextB (exec (.replicaSegmentData { tBurst with dst := 3 }) tReplica) fun t => decide (t.dev.fabDrop = 2)) = true
    ∧ (tReplica.fromPeer 0 6 1 true = false ∧ nextB (exec (.replicaSegmentData { tBurst with src := 6 }) tReplica) (fun t => decide (t.dev.fabRefuse = 1)) = true)
    ∧ nextB (exec (.replicaCut 1 ⟨0, 5⟩ 0 44) tReplica) (fun t => decide (t.psnNext = 2 ∧ t.dev.received = [] ∧ t.dev.echoes = [{ psn := 1, rtid := 5, pwid := 7, cut := 44 }])) = true
    ∧ (tSource.fromPeer 0 5 1 false = true ∧ nextB (exec (.cutEcho 1 ⟨0, 5⟩ 0 44) tSource) (fun t => decide (t.dev.shipPsn = [(0, 44)])) = true)
    ∧ (tReplica.fromPeer 0 5 1 false = false ∧ nextB (exec (.cutEcho 1 ⟨0, 5⟩ 0 44) tReplica) (fun t => decide (t.dev.fabRefuse = 1)) = true)
    ∧ (let s := tS.onDev fun d => { d with armed := [5] };
      5 ∈ s.dev.armed ∧ nextB (exec (.takeoverFlit 3 ⟨0, 5⟩) s) (fun t => decide (t.dev.routes = [(5, 8)])) = true
      ∧ nextB (exec (.takeoverFlit 3 ⟨0, 6⟩) s) (fun t => decide (t.dev.fabRefuse = 1)) = true)
    ∧ (∀ i ∈ [Instr.replicaCut 1 ⟨9, 5⟩ 0 44, .cutEcho 1 ⟨9, 5⟩ 0 44, .takeoverFlit 1 ⟨9, 5⟩], nextB (exec i tReplica) fun t => decide (t.dev.fabDrop = 1)) := by decide +kernel
/-! ## Lane memory words -/

/-- Two active lanes with addresses in `v10` and `v11`, values in `v12`, and bytes at the addresses. -/
def tLm : State :=
  masks [(2, 0b11)] (lanes 10 0 [0x3000, 0x3008] (lanes 12 0 [0x55, 0x66] (poke [(0x3000, 0xFFFFFF85), (0x3008, 0x1234)] tL)))

/-- The same in a template whose page 0x3000 is a template page in bank 64. -/
def tTm : State :=
  let s := tLm.setCore 0 ((tLm.core 0).setBank 64 (.stash tU))
  State.withCur s fun t => { t with
    ctl := { t.ctl with level := 2 }, kern := { t.kern with tbase := 0x3000, tpages := 1 }
    h := { t.h with copies := [{ page := 0, bank := 64, win := 0, la := 0, filled := BitVec.allOnes 32, fills := [] }] } }

/-- The same with addresses in a host window and on a compute row. -/
def tLh : State := lanes 10 0 [0x100004, 0x200008] (withLeaf 0x200 (2 ^ 45) 2 tRowDesc (withLeaf 0x100 (2 ^ 45 + 2 ^ 21) 1 tHostDesc tLm))

/-- The address of a lane of the word. -/
def tVa (s : State) (f : LMem) (l : Nat) : Word64 :=
  let c := s.core s.cur.core
  BitVec.ofNat 64 ((s.cur.regLane c f.va.toNat l).1.toNat + (s.cur.regLane c (f.va.toNat + 1) l).1.toNat * 2 ^ 32) + f.imm32.signExtend 64

/-- GathersAndScatters: bytes at hand, of `vld` in logged memory, of `vst` in a host window and a compute row, of `vtst` in a page of the
team's own; lanes of `vpref` that are dropped, and that see their sector; and passes whose accesses, reads and stores go through. -/
theorem witness_GathersAndScatters :
    (let f := tMem 4 10 0 0 2 0; let va := tVa tLm f; let data : BitVec 256 := 0xFFFFFF85 ||| 0x1234 <<< 64;
      tLm.cur.lanesAt f.mask.toNat 0 = [0, 1] ∧ memBits f.fmt = 32 ∧ memNarrow f.fmt = none ∧ atB tLm (.vld f) 0 = true
      ∧ ((regsOf f.fmt f.vd).map fun r => tLm.cur.rowAt r 0).Nodup ∧ leafAt tLm (va 0) = leafAt tLm (va 1)
      ∧ (∀ p ∈ [(0, 0xFFFFFF85), (1, 0x1234)], handB tLm (tLm.asLane Access.load p.1) (va p.1) 4 = true
          ∧ findsB tLm (leafAt tLm (va p.1)) (va p.1) 4 p.2 data = true)
      ∧ nextB (exec (.vld f) tLm) (fun t => decide (laneOf t 4 0 = 0xFFFFFF85 ∧ laneOf t 4 1 = 0x1234)) = true
      ∧ nextB (exec (.vld { f with fmt := 9 }) tLm) (fun t => decide (laneOf t 4 0 = 0xFFFFFF85 ∧ laneOf t 4 1 = 0x34)) = true)
    ∧ (let f := tMem 0 10 12 0 2 0; let va := tVa tLh f;
      tLh.cur.lanesAt f.mask.toNat 0 = [0, 1] ∧ atB tLh (.vst f) 0 = true
      ∧ (∀ k ∈ [0, 1], ∀ l ∈ [0, 1], (leafAt tLh (va k)).covers tLh.cur.id.ctx (va l).toNat = true → leafAt tLh (va k) = leafAt tLh (va l))
      ∧ (∀ l ∈ [0, 1], handB tLh (tLh.asLane Access.store l) (va l) 4 = true ∧ Win.logged (leafAt tLh (va l)).desc = false
          ∧ craOf ((leafAt tLh (va l)).place (va l)) / 2 ^ 28 ≤ 11)
      ∧ nextB (exec (.vst f) tLh) (fun t => decide (t.posted.map (fun p => (p.target, p.addr, p.size, p.data))
          = [(.host, 2 ^ 21 + 4, 4, 0x55), (.computeRow, 8, 4, 0x66)])) = true)
    ∧ (let f := tMem 0 10 12 0 2 0; let va := tVa tTm f;
      tTm.cur.lanesAt f.mask.toNat 0 = [0, 1] ∧ atB tTm (.vtst f) 0 = true ∧ tTm.cur.ctl.level ≠ 0
      ∧ (∀ l ∈ [0, 1], reachB tTm (tTm.asLane Access.store l) (va l) 4 = true ∧ tTm.cur.pageKind (va l) = .template 0
          ∧ (tTm.cur.h.copies.find? fun b => b.page == 0).map (·.bank) = some 64)
      ∧ nextB (exec (.vtst f) tTm) (fun t => decide (((t.core 0).row 64 0).toNat = 0x55 + 0x66 * 2 ^ 64)) = true)
    ∧ (let f := tMem 0 10 0 0 2 0; let s := lanes 11 0 [0, 2 ^ 25] tLm; let va := tVa s f;
      s.cur.lanesAt f.mask.toNat 0 = [0, 1] ∧ atB s (.vpref f) 0 = true ∧ f.fmt = 0 ∧ 2 ^ 57 ≤ (va 1).toNat
      ∧ handB s (s.asLane Access.load 0) (va 0) 4 = true ∧ seesB s 0 0x180 (0xFFFFFF85 ||| 0x1234 <<< 64) = true
      ∧ nextB (exec (.vpref f) s) (fun t => decide (t.cur.l.run = none)) = true)
    ∧ (let f := tMem 4 10 0 0 2 0; let o := tLm.opened (.vld f) (pairOf f.va) 0;
      okB (passAccesses laneLoad f.fmt f.va.toNat f.imm32 0 (tLm.cur.active f.mask.toNat 0) noCheck o) (fun xs u0 =>
          okB ((xs.mapM (fun x => do
            let v ← readPieces laneLoad o.cur x f.hint.toNat
            return (x, v)) : M (List (LaneAcc × ReadRes))) u0) (fun got _ => got.all fun g => !g.2.poison && g.2.stale == [])) = true)
    ∧ (let f := tMem 0 10 12 0 2 0; let o := tLm.opened (.vst f) (pairOf f.va ++ regsOf f.fmt f.vb) 0;
      atB tLm (.vst f) 0 = true
      ∧ okB (passAccesses laneStore f.fmt f.va.toNat f.imm32 0 (tLm.cur.active f.mask.toNat 0) noCheck o) (fun xs u0 =>
          xs.length == 2 && okB ((xs.mapM (fun x => do return x.parts (← storeBits f.fmt f.vb.toNat x.lane) (memBits f.fmt)) : M (List (List Part))) u0) (fun ps _ =>
            okB (storeParts { laneStore with priv := o.cur.blk.priv } o.cur ps.flatten (storeColour f o.cur) f.hint.toNat u0) fun _ _ => true)) = true
      ∧ nextB (exec (.vst f) tLm) (fun t => nextB (exec (.ldW 5 6 0) (regs [(6, 0x3008)] t)) fun u => decide (u.cur.s.outs.map (·.val) = [some 0x66])) = true)
    ∧ (let f := tMem 0 10 0 0 2 0; let o := tLm.opened (.vpref f) (pairOf f.va) 0;
      atB tLm (.vpref f) 0 = true ∧ okB (prefetchWord f o.cur 0 (tLm.cur.active f.mask.toNat 0) o) (fun _ _ => true) = true) := by decide +kernel

/-- Offsets at the start of a private slice and in its last word, and its words written. -/
def tPs : State := masks [(2, 0b11)] (lanes 10 0 [0, 4092] (lanes 12 0 [0x81, 0x99] tL))

theorem witness_PrivateSlices :
    (let f := tMem 4 10 0 0 2 9; let size := memBits f.fmt / 8; let s := runAll [.vstp (tMem 0 10 12 0 2 0)] tPs; let s := State.withCur s (fun t => { t with l := { t.l with run := some tRun } });
      let off := fun (l : Nat) => ((s.cur.regLane (s.core s.cur.core) f.va.toNat l).1 + f.imm32).toNat;
      memBits f.fmt ∈ [8, 16, 32, 64] ∧ s.cur.h.privBase.isSome = true
      ∧ (∀ l ∈ s.cur.lanesAt f.mask.toNat 0, off l % size = 0 ∧ off l + size ≤ 4 * (s.cur.kern.g * (1024 / s.cur.n)))
      ∧ atB s (.vldp f) 0 = true ∧ (∀ l ∈ s.cur.lanesAt f.mask.toNat 0, (readWords (s.core s.cur.core) (privatePlaces s.cur l (off l) size)).2 = false)
      ∧ ((regsOf f.fmt f.vd).map fun r => s.cur.rowAt r 0).Nodup
      ∧ nextB (exec (.vldp f) s) (fun t => decide (laneOf t 4 0 = 0xFFFFFF81 ∧ laneOf t 4 1 = 0xFFFFFF99)) = true)
    ∧ (let f := tMem 0 10 12 0 2 0; let size := memBits f.fmt / 8;
      let off := fun (l : Nat) => ((tPs.cur.regLane (tPs.core tPs.cur.core) f.va.toNat l).1 + f.imm32).toNat;
      memBits f.fmt ∈ [8, 16, 32, 64] ∧ (∀ l ∈ tPs.cur.lanesAt f.mask.toNat 0, off l % size = 0 ∧ off l + size ≤ 4 * (tPs.cur.kern.g * (1024 / tPs.cur.n)))
      ∧ off 1 + size = 4096 ∧ atB tPs (.vstp f) 0 = true
      ∧ nextB (exec (.vstp f) tPs) (fun t => decide (laneOf t 12 0 = 0x81)) = true) := by decide +kernel

/-- Basin addresses in the last bank of the team's own and in its register page of `v12`; and two in banks of its own. -/
def tBw (a : List Nat) : State := masks [(2, 0b11)] (lanes 10 0 a (lanes 12 0 [0x81, 0x99] tL))
def tAddr (s : State) (f : LMem) (l : Nat) : Nat := ((s.cur.regLane (s.core s.cur.core) f.va.toNat l).1 + f.imm32).toNat

theorem witness_BasinWords :
    (let f := tMem 4 10 0 0 2 0; let s := tBw [63 * 4096 + 4092, 12 / 4 * 128]; let o := s.opened (.vldb f) [f.va.toNat] 0;
      (∀ l ∈ s.cur.lanesAt f.mask.toNat 0, tAddr s f l < 4096 * numBanks ∧ tAddr s f l % 4 = 0)
      ∧ s.bankUse s.cur (tAddr s f 0 / 4096) = .own ∧ s.bankUse s.cur (tAddr s f 1 / 4096) = .regs 0 ∧ atB s (.vldb f) 0 = true
      ∧ (∀ l ∈ [0, 1], (seenWords o o.cur (basinPlaces (tAddr s f l / 4096) (tAddr s f l) 4)).2 = false)
      ∧ ((regsOf f.fmt f.vd).map fun r => s.cur.rowAt r 0).Nodup
      ∧ nextB (exec (.vldb f) s) (fun t => decide (laneOf t 4 0 = 0 ∧ laneOf t 4 1 = 0x81)) = true)
    ∧ (let f := tMem 0 10 12 0 2 0; let s := tBw [32 * 4096, 63 * 4096 + 4092];
      (∀ l ∈ s.cur.lanesAt f.mask.toNat 0, tAddr s f l < 4096 * numBanks ∧ tAddr s f l % 4 = 0 ∧ s.bankUse s.cur (tAddr s f l / 4096) = .own)
      ∧ atB s (.vstb f) 0 = true
      ∧ nextB (exec (.vstb f) s) (fun t => decide ((t.core 0).word 32 0 0 = 0x81 ∧ (t.core 0).word 63 31 31 = 0x99)) = true)
    ∧ (let f := tMem 0 10 12 0 2 0; let s := tBw [12, 63 * 4096]; let o := s.opened (.vstb f) (f.va.toNat :: regsOf f.fmt f.vb) 0;
      atB s (.vstb f) 0 = true ∧ (∀ l ∈ s.cur.lanesAt f.mask.toNat 0, s.bankUse s.cur (tAddr s f l / 4096) ≠ .no ∧ s.bankUse s.cur (tAddr s f l / 4096) ≠ .fixed)
      ∧ okB (basinStores o.cur 4 [(0, 12, 0x81), (1, 63 * 4096, 0x99)] (runM (bump s.cur.core 6 (basinConflicts [12, 63 * 4096])) o)) (fun _ _ => true) = true
      ∧ nextB (exec (.vstb f) s) (fun t => decide (laneOf t 0 3 = 0x81)) = true) := by decide +kernel
/-! ## Lane atomics, rows, the Cascade -/

/-- A pass whose atomics have all come back. -/
def tBack (s : State) : State := State.withCur s fun t => { t with l := { t.l with flight := some { pass := 0, left := 0 }, stall := none } }

/-- The accesses of the first pass of a lane atomic. -/
def tXs (i : Instr) (f : LMem) (s : State) : EStateM.Result Stop State (List LaneAcc) :=
  passAccesses laneAtomic f.fmt f.va.toNat f.imm32 0 (s.cur.active f.mask.toNat 0) checkNoTemplate
    (s.opened i (touch s.cur.blk.nf i).srcs 0)

/-- One lane with an address in host memory, and the stream's x7 at one there. -/
def tLa1 : State :=
  let s := masks [(2, 1)] (lanes 10 0 [0x100008] (lanes 12 0 [5] { withLeaf 0x100 (2 ^ 45 + 2 ^ 21) 1 tHostDesc tL with host := Memory.writeN [] (2 ^ 21 + 8) 7 4 }))
  State.withCur s (fun t => { t with l := { t.l with run := t.l.run.map fun (r : LaneRun) => { r with blk := { r.blk with xs := [(7, 0x100000)] } } } })

theorem witness_LaneAtomicsAndRows :
    (let f := tMem 4 10 12 0 2 0; atB (tBack tLm) (.vatom f) 0 = true ∧ atB (tBack tLm) (.vcas f) 0 = true
      ∧ nextB (exec (.vatom f) (tBack tLm)) (fun t => decide (t.cur.l.run = none ∧ t.cur.l.flight = none)) = true)
    ∧ (let f := tMem 4 10 12 0 2 0; atB tLm (.vatom f) 0 = true ∧ tLm.cur.l.flight = none
      ∧ okB (tXs (.vatom f) f tLm) (fun xs u =>
          xs.length == 2 && xs.all fun x => x.pieces != [] && x.pieces.all fun p => !u.hostPending tLm.cur p.place && Win.logged p.place.desc) = true
      ∧ nextB (exec (.vatom f) tLm) (fun t => decide (t.cur.l.stall = some .memory ∧ t.cur.l.flight = some { pass := 0, left := 2 }
          ∧ (t.slice (homeSlice 0x3000)).reqs.map (fun q => (q.la, q.what)) = [(0x3000, .lane 0 0 0x55), (0x3008, .lane 0 0 0x66)])) = true)
    ∧ (let f := tMem 4 10 12 14 2 0; atB tLm (.vcas f) 0 = true
      ∧ okB (tXs (.vcas f) f tLm) (fun xs _ => xs.length == 2) = true
      ∧ nextB (exec (.vcas f) tLm) (fun t => decide ((t.slice (homeSlice 0x3000)).reqs.map (fun q => q.what) = [.laneCas 32 0 0x55, .laneCas 32 0 0x66])) = true)
    ∧ (let f := tMem 4 10 12 0 2 0; atB tLa1 (.vatom f) 0 = true ∧ ((regsOf f.fmt f.vd).map fun r => tLa1.cur.rowAt r 0).Nodup
      ∧ okB (tXs (.vatom f) f tLa1) (fun xs u =>
          oneB xs fun x => oneB x.pieces fun p => !Win.logged p.place.desc && !u.hostPending tLa1.cur p.place && !u.hostPoison p.place) = true
      ∧ nextB (exec (.vatom f) tLa1) (fun t => decide (t.cur.l.run = none ∧ laneOf t 4 0 = 7 ∧ t.host.readN (2 ^ 21 + 8) 4 = 12)) = true)
    ∧ (let f := { tMem 4 0 0 1 2 0 with imm32 := 0x3000 }; let o := tLm.begun (.vldrow f);
      laneB tLm (.vldrow f) = true ∧ passList (tLm.cur.passSet [2]) = [0] ∧ tLm.cur.active 2 0 ≠ 0 ∧ tRun.blk.late = []
      ∧ okB (locateRow laneLoad o.cur 0x3000 1 o) (fun p u0 => okB (rowSectorsOf laneLoad o.cur 0x3000 p 1 0 u0) fun ds _ => ds.length == 4 && ds.all fun d => !d.poison) = true
      ∧ nextB (exec (.vldrow f) tLm) (fun t => decide (laneOf t 4 0 = 0xFFFFFF85 ∧ laneOf t 4 1 = 0 ∧ t.cur.l.run = none)) = true)
    ∧ (let f := { tMem 4 7 0 1 2 0 with imm32 := 0 }; let r := tLa1.cur.l.run.getD tRun; let va : Word64 := 0x100000;
      laneB tLa1 (.vldrow f) = true ∧ passList (tLa1.cur.passSet [2]) = [0] ∧ tLa1.cur.active 2 0 ≠ 0 ∧ r.blk.late = []
      ∧ va = Table.get 0 r.blk.xs f.va.toNat + f.imm32.signExtend 64 ∧ 1 ≤ tLa1.cur.n
      ∧ handB tLa1 (tLa1.asLane Access.load 0) va 128 = true ∧ Win.logged (leafAt tLa1 va).desc = false ∧ Win.host (leafAt tLa1 va).desc = true
      ∧ (∀ i < 4, tLa1.postedTo tLa1.cur.uid .host (((leafAt tLa1 va).place va + 32 * i) % 2 ^ 45) 32 = false
        ∧ Table.get false tLa1.hostBad (((leafAt tLa1 va).place va + 32 * i) % 2 ^ 45 / 32) = false)
      ∧ nextB (exec (.vldrow f) (masks [(2, 0b101)] tLa1)) (fun t => decide (laneOf t 4 2 = 7 ∧ laneOf t 4 0 = 0 ∧ t.cur.l.run = none)) = true)
    ∧ (let f := { tMem 0 0 12 1 2 0 with imm32 := 0x3000 }; let o := tLm.begun (.vrowatom f);
      laneB tLm (.vrowatom f) = true ∧ laneB (tBack tLm) (.vrowatom f) = true
      ∧ okB (([0] : List Nat).forM (fun w => countReads [f.vb.toNat] w) o) (fun _ u0 => okB (locateRow laneAtomic o.cur 0x3000 1 u0) fun p u =>
          Win.logged p.desc && (u.cur.regRow (u.core u.cur.core) f.vb.toNat 0).2 == 0) = true
      ∧ nextB (exec (.vrowatom f) tLm) (fun t => decide (t.cur.l.stall = some .memory
          ∧ (t.slice (homeSlice 0x3000)).reqs.map (fun q => (q.la, q.what)) = [(0x3000, .row 0 1 [(0, 0x55), (1, 0x66)])])) = true
      ∧ nextB (exec (.vrowatom f) (tBack tLm)) (fun t => decide (t.cur.l.run = none)) = true)
    ∧ (let f := { tMem 0 0 12 1 3 0 with imm32 := 0x3000 }; let s := masks [(3, 0)] tLm;
      laneB s (.vrowatom f) = true ∧ (∀ w ∈ passList (s.cur.passSet [3]), s.cur.active 3 w = 0)
      ∧ nextB (exec (.vrowatom f) s) (fun t => decide (t.cur.l.run = none)) = true) := by decide +kernel

/-- Two compute rows of one pseudo-channel at x5 and x6, words in banks 0 and 1 of the first, and two active lanes. -/
def tCr : State :=
  let s := masks [(2, 0b11)] (lanes 12 0 [0x55, 0x66] (withLeaf 0x208 (2 ^ 45 + 0x8000) 2 tRowDesc (withLeaf 0x200 (2 ^ 45) 2 tRowDesc tL)))
  { State.withCur s (fun t => { t with l := { t.l with
      run := t.l.run.map fun (r : LaneRun) => { r with blk := { r.blk with xs := [(5, 0x200000), (6, 0x208000)] } } } }) with
    crow := Memory.writeN (Memory.writeN [] 0 7 4) 1024 9 4 }

/-- A command of the team with these passes still to be served; and the state that holds it. -/
def tCs (qs : List CascPass) (growing : Bool) : Cascade := { uid := tU, ctx := 0, num := 1, base := 0, src := 0, queue := qs, named := [0], growing := growing, via := [] }
def tQ (stamp : Nat) (e : RowEffect) : CascPass := { chan := 0, stamp := stamp, effects := [e] }
def tHeldCs (qs : List CascPass) (growing : Bool) : State := { tCr with cascades := [tCs qs growing] }

/-- The command's pass of the first lane word is served by its pseudo-channel. -/
def servedB (c : Cascade) (u : State) (mask : Nat) : Bool :=
  decide (c.base = 0) && u.mayServe (chanOf c.base)
    (u.readReq (laneLoad.asker u.cur) (chanOf c.base) ((lanesOf (u.cur.active mask 0)).map fun k => c.base / 1024 + k) (some (c.uid, c.num)))

/-- The first pass of the command that is served. -/
def firstServed (s : State) (c : Cascade) (q : CascPass) : Bool :=
  (s.cascades.find? fun c => c.is tU 1) == some c && (c.queue.find? fun q => s.mayServe q.chan (q.request tU 1)) == some q && (s.team? tU).isSome

theorem witness_CascadeWords :
    (let f := tMat 4 5 0 0 2 0;
      atB tCr (.vnrld f) 0 = true ∧ okB (command f.mask.toNat (oneAddress laneLoad f .word) (tCr.opened (.vnrld f) [] 0)) (fun c u => servedB c u 2
        && (List.range 32).all fun k => !u.rowBad (c.base + k * 1024)) = true
      ∧ nextB (exec (.vnrld f) tCr) (fun t => decide (t.cur.l.run = none ∧ laneOf t 4 0 = 7 ∧ laneOf t 4 1 = 9)) = true)
    ∧ (let f := tMat 4 5 0 0 2 0;
      atB tCr (.vnrred f) 0 = true ∧ okB (command f.mask.toNat (oneAddress laneLoad f .reduce) (tCr.opened (.vnrred f) [] 0)) (fun c u => servedB c u 2
          && u.cur.active 2 0 != 0
          && ((List.range 32).all fun j => (cascadePoison u 0 (u.cur.active 2 0) c.base j).isNone) && decide (([4].map fun r => u.cur.rowAt r 0).Nodup)) = true
      ∧ nextB (exec (.vnrred f) tCr) (fun t => decide (laneOf t 4 0 = 16)) = true)
    ∧ (let f := tMat 0 5 12 0 2 0;
      atB tCr (.vnrst f) 0 = true ∧ okB (command f.mask.toNat (oneAddress laneStore f .word) (tCr.begun (.vnrst f))) (fun c u =>
        decide (c.base = 0) && (u.cur.regRow (u.core u.cur.core) 12 0).2 == 0) = true
      ∧ nextB (exec (.vnrst f) tCr) (fun t => decide (t.cascades.map (fun d => (d.queue.map fun q => (q.chan, q.effects), d.growing))
          = [([(0, [.bytes 0 4 0x55, .bytes 1024 4 0x66])], false)])) = true)
    ∧ (let f := tMat 6 5 0 0 2 0;
      atB tCr (.vnrclone f) 0 = true ∧ okB (command f.mask.toNat (cloneChecks f) (tCr.begun (.vnrclone f))) (fun c _ => decide (c.base = 0x8000 ∧ c.src = 0)) = true
      ∧ nextB (exec (.vnrclone f) tCr) (fun t => decide (t.cascades.map (fun d => d.queue.map (·.effects)) = [[[.copy 0 0x8000, .copy 1024 0x8400]]])
        && nextB (exec (.cascadeComplete tU 1) t) fun u => decide (u.crow.readN 0x8000 4 = 7 ∧ u.crow.readN 0x8400 4 = 9)) = true)
    ∧ (let f := tMat 4 5 0 0 3 0; let s := masks [(3, 0)] tCr;
      laneB s (.vnrld f) = true ∧ s.cur.l.passes = none ∧ passList (s.cur.passSet [3]) = []
      ∧ nextB (exec (.vnrld f) s) (fun t => decide (t.cur.l.run = none ∧ t.cur.h.tlIssued.getD 7 0 = 1)) = true)
    ∧ (let q := tQ 0 (.bytes 8 4 3); let s := tHeldCs [q] false;
      firstServed s (tCs [q] false) q = true ∧ tCr.crow.wf = true
      ∧ nextB (exec (.cascadeComplete tU 1) s) (fun t => decide (t.crow.readN 0 12 = 7 + 3 * 2 ^ 64 ∧ t.cascades = [])) = true)
    ∧ (let q := tQ 0 (.copy 0 0x8000); let p := tQ 1 (.bytes 8 4 3); let s := tHeldCs [q, p] true;
      firstServed s (tCs [q, p] true) q = true ∧ ¬((tCs [q, p] true).growing = false)
      ∧ nextB (exec (.cascadeComplete tU 1) s) (fun t => decide (t.crow.readN 0x8000 4 = 7 ∧ t.cascades = [tCs [p] true])) = true) := by decide +kernel
/-! ## Matrix computation, engines -/

/-- A region in banks 64 and 65, a tile of 32 × 32 in bank 70, and values in `v12`. -/
def tMx : State :=
  let s := masks [(2, 0b11)] (lanes 12 0 [0x55, 0x66] tL)
  let c := ((List.range 2).foldl (fun (c : Core) i => c.setBank (64 + i) (.stat tU)) (s.core 0)).setBank 70 (.acc tU)
  State.withCur (s.setCore 0 c) fun t => { t with h := { t.h with
    regions := [{ num := 1, first := 64, count := 2, cls := 0, inherited := false }]
    tiles := [{ num := 3, first := 70, rows := 32, cols := 32, float := false }] } }

theorem witness_MatrixWords :
    (let f := { tMat 1 12 0 0 2 0 with imm32 := 8184 };
      atB tMx (.vwst f) 0 = true ∧ loopsDone tMx tMx.cur tMx.cur.blk.stamp (fun d => Mx.wreg d == f.vd.toNat) = true ∧ tMx.cur.h.frozen = false
      ∧ someB (tMx.cur.region f.vd.toNat) (fun g => decide (g.inherited = false ∧ f.imm32.toNat % 4 = 0
          ∧ ∀ l < 32 * tMx.cur.n, bitAt (tMx.cur.activeLanes f.mask.toNat).toNat l = true → f.imm32.toNat + 4 * l + 4 ≤ 4096 * g.count)) = true
      ∧ nextB (exec (.vwst f) tMx) (fun t => decide ((t.core 0).word 65 31 30 = 0x55 ∧ (t.core 0).word 65 31 31 = 0x66)) = true)
    ∧ (let f := tMat 2 12 0 0 2 0; let c := tMx.core 0;
      atB tMx (.vqput f) 0 = true ∧ (∀ o ∈ c.runnels, o.ended = true ∨ o.feeds tU f.vd.toNat = false) ∧ (c.fifo tU 2).nbits < 8 ∧ (c.fifo tU 2).carry = 0
      ∧ (c.fifo tU 2).nbits = 0 ∧ (c.fifo tU 2).bytes.length + 129 ≤ fifoCap
      ∧ nextB (exec (.vqput f) tMx) (fun t => decide (((t.core 0).fifo tU 2).bytes.map (·.1) = [0x55, 0, 0, 0, 0x66, 0, 0, 0])) = true)
    ∧ (let f := { tMat 4 3 0 0 2 0 with imm32 := 992 };
      atB tMx (.vadr f) 0 = true ∧ someB (tMx.cur.tile f.va.toNat) (fun q => decide (f.imm32.toNat % 32 = 0 ∧ q.float = (f.fmt != 0)
          ∧ (∀ l < 32 * tMx.cur.n, bitAt (tMx.cur.activeLanes f.mask.toNat).toNat l = true → f.imm32.toNat + 32 * (l / 32 + 1) ≤ q.rows * q.cols)
          ∧ ∀ l ∈ tMx.cur.lanesAt f.mask.toNat 0, bitAt ((tMx.core 0).rowPoison (q.place (f.imm32.toNat + l)).1 (q.place (f.imm32.toNat + l)).2.1).toNat
              (q.place (f.imm32.toNat + l)).2.2 = false)) = true
      ∧ nextB (exec (.vadr f) (tMx.setCore 0 ((tMx.core 0).setRow 70 31 77))) (fun t => decide (laneOf t 4 0 = 77)) = true)
    ∧ (let f := { tMat 5 0 0 0 0 2 with imm32 := BitVec.ofNat 32 (32 + 64 * 2 ^ 16) };
      loopsDone tMx tMx.cur tMx.cur.blk.stamp (fun d => Mx.acc d == 5) = true ∧ tMx.cur.tile 5 = none ∧ (tMx.core 0).freeRun (ceilDiv (32 * 64) 1024) 1 = some 4
      ∧ nextB (exec (.vaclr f) tMx) (fun t => decide (t.cur.tile 5 = some { num := 5, first := 4, rows := 32, cols := 64, float := true } ∧ (t.core 0).bank 5 = .acc tU)) = true)
    ∧ (let f := { tMat 3 0 0 0 0 0 with imm32 := BitVec.ofNat 32 (32 + 32 * 2 ^ 16) }; let s := tMx.setCore 0 ((tMx.core 0).setRow 70 31 77);
      someB (s.cur.tile 3) (fun q => decide (q.rows = 32 ∧ q.cols = 32 ∧ q.float = (f.fmt == 2))) = true
      ∧ nextB (exec (.vaclr f) s) (fun t => decide ((t.core 0).row 70 31 = 0)) = true)
    ∧ nextB (exec (.vaclr (tMat 3 0 0 0 0 0)) tMx) (fun t => decide (t.cur.tile 3 = none ∧ (t.core 0).bank 70 = .free)) = true := by decide +kernel

/-- A scalar stream with a region of class 2 in banks 64 and 65, a tile of 1 × 64, and at x8 a loop of K steps of INT16 (13 R277). -/
def tMs (k : Nat) : State :=
  let c := ((List.range 2).foldl (fun (c : Core) i => c.setBank (64 + i) (.stat tU)) (tS.core 0)).setBank 70 (.acc tU)
  regs [(8, BitVec.ofNat 64 (3 * 2 ^ 60 + 2 ^ 57 + 0x0B * 2 ^ 44 + 0x0B * 2 ^ 39 + 2 ^ 16 + k)), (9, BitVec.ofNat 64 (2 ^ 56))]
    (State.withCur (tS.setCore 0 ((c.setRow 64 0 (5 + 6 * 2 ^ 16)).setRow 64 31 7)) fun t => { t with h := { t.h with
      regions := [{ num := 1, first := 64, count := 2, cls := 2, inherited := false }]
      tiles := [{ num := 3, first := 70, rows := 1, cols := 64, float := false }] } })

/-- The same with its loop posted and granted, its first fragment removed; and with the sums of a step. -/
def tMg (k : Nat) : State :=
  let s := runAll [.mxloopGrant 0] (runAll [.mxloop 5 8] (tMs k))
  s.setCluster 0 { s.cluster 0 with loops := (s.cluster 0).loops.map fun (l : Loop) =>
    { l with removed := 1, frags := [(0, { codes := 2 :: List.replicate 30 0 ++ [0xFFFF], poison := false })] } }
def tMu (k : Nat) : State :=
  let s := tMg k
  s.setCluster 0 { s.cluster 0 with loops := (s.cluster 0).loops.map fun (l : Loop) =>
    { l with started := [1], frags := [], sums := [(0, 0, (List.range 64).map fun i => (.fin (i == 1) (if i < 2 then 9 else 0) 0, false))] } }

theorem witness_RegionsAndLoops :
    (let s := regs [(2, 128), (3, 256)] tS;
      s.cur.h.frozen = false ∧ s.cur.region 7 = none ∧ (∀ i < 256, (s.core 0).bank (128 + i) = .free) ∧ (s.core 0).countBanks BankState.isStat + 256 ≤ 256
      ∧ nextB (exec (.wset 7 2 3 1) s) (fun t => decide (t.cur.region 7 = some { num := 7, first := 128, count := 256, cls := 1, inherited := false }
          ∧ (t.core 0).bank 383 = .stat tU)) = true)
    ∧ (let s := tMs 1;
      loopsDone s s.cur s.stamp (fun d => Mx.wreg d == 1) = true ∧ nextB (exec (.wfree 1) s) (fun t => decide (t.cur.region 1 = none ∧ (t.core 0).bank 65 = .free)) = true)
    ∧ (let s := tMs 1; let desc := [s.getX 8, s.getX 9, s.getX 10, s.getX 11];
      mxReason s s.cur s.cur.l.nf desc = none ∧ scaleAddrs desc 2 = [] ∧ s.tableUse 0 < 32
      ∧ nextB (exec (.mxloop 5 8) s) (fun t => decide (t.getX 5 = 1 ∧ (t.cluster 0).loops.length = 1)
          && someB (t.grantNext 0) fun l => nextB (exec (.mxloopGrant 0) t) fun u => decide ((u.cluster 0).loops.map (fun x => (x.id, x.granted)) = [(l.id, true)])) = true)
    ∧ (let s := (runAll [.mxloop 5 8] (tMs 1)); let o := s.setCluster 0 { s.cluster 0 with loops := (s.cluster 0).loops.map fun (l : Loop) => { l with entry := false } };
      nextB (exec (.mxloopGrant 0) o) (fun u => decide ((u.cluster 0).loops.map (fun x => (x.entry, x.granted)) = [(true, true)])) = true)
    ∧ (oneB ((tMg 1).cluster 0).loops fun l => someB ((tMg 1).cur.region (Mx.wreg l.desc)) fun g =>
        decide (stepDue (tMg 1).cur l 0 = true ∧ (tMg 1).outranked 0 l (loopCores (tMg 1).cur l.desc) (g.first + Mx.bankOf l.desc 0) = false
          ∧ (tMg 1).outranked 0 l [0] (g.first + Mx.bankOf l.desc 0) = false)
        && okB (fragmentOf 0 l.id (tMg 1).cur l 0 (tMg 1)) fun fr u => okB (stepPairs (tMg 1).cur l.desc g.cls 0 0 u) fun p v =>
          fr.codes.length == 32 && (stepSums v l g.cls (g.first + Mx.bankOf l.desc 0) (loopCores (tMg 1).cur l.desc) fr p.1 p.2).length == 64) = true
    ∧ (oneB ((tMg 1).cluster 0).loops fun l => decide (l.uid = (tMg 1).cur.uid ∧ (tMg 1).cur.resident = true ∧ l.granted = true ∧ Mx.m l.desc = 1 ∧ Mx.k l.desc = 1
          ∧ Mx.reuse l.desc = false ∧ Mx.sscl l.desc = false ∧ Mx.wscl l.desc = false ∧ Mx.span l.desc = false ∧ l.started = [0])
        && nextB (exec (.matrixStep l.id 0) (tMg 1)) fun t => oneB (t.cluster 0).loops fun l => oneB l.sums fun x =>
          decide ((x.2.2.map fun y => (y.1.toInt, y.2)).take 3 = [(3, false), (12, false), (0, false)])) = true
    ∧ (oneB ((tMu 1).cluster 0).loops fun l => decide (l.done = [0] ∧ ((tMu 1).cur.tile (Mx.acc l.desc)).isSome = true)
        && nextB (exec (.matrixUpdateLand l.id 0) (tMu 1)) fun t => decide ((t.cluster 0).loops = [] ∧ (t.core 0).word 70 0 0 = 9 ∧ (t.core 0).word 70 0 1 = 0xFFFFFFF7
          ∧ t.cur.h.tl.getD 6 0 = 1)) = true
    ∧ (oneB ((tMu 2).cluster 0).loops fun l =>
        nextB (exec (.matrixUpdateLand l.id 0) (tMu 2)) fun t => decide ((t.cluster 0).loops.map (·.done) = [[1]])) = true := by decide +kernel

/-- A stream record at 0x3000 of one unit of four bytes between 0x4000 and a local side (08 R176), its address in x2. -/
def tRnl (lkind laddr : Nat) : State :=
  regs [(2, 0x3000)] (poke [(0x3000, 0x4000), (0x3008, laddr), (0x3020, 2 ^ 48 + 2 ^ 32 + 2 ^ 16 + 1), (0x3030, 2 * 2 ^ 61 + lkind * 2 ^ 59), (0x4000, 0x99)] tS)

/-- A copy to Basin bank 63 that posts its completion record: issued, taken by an engine, its unit moved. -/
def tCopy : State := runAll [.rcopy 5 2 1 4] (tRnl 0 (63 * 4096))
def tCopyId : Nat := ((tCopy.core 0).runnels.map (·.id)).headD 0
def tDone : State := runAll [.runnelStart tCopyId, .runnelStart tCopyId] tCopy

/-- The same with its global address beyond the space, in the middle of a word. -/
def tFar : State := phased .released (runAll [.rcopy 5 2 1 4] (poke [(0x3000, 2 ^ 60)] (tRnl 0 (63 * 4096))))
def tFarId : Nat := ((tFar.core 0).runnels.map (·.id)).headD 0

/-- A computation ends in a trap that satisfies `p`. -/
def trapB {α : Type} (r : EStateM.Result Stop State α) (p : TrapReq → State → Bool) : Bool :=
  match r with
  | .error (.trap q) t => p q t
  | _ => false

theorem witness_Runnels :
    (∀ p ∈ ([(.rcopy 5 2 1 4, 0, 0, 63 * 4096), (.rfeed 5 2 1 4, 1, 1, 3), (.rspill 5 2 0 4, 2, 0, 63 * 4096)] : List (Instr × Nat × Nat × Nat)),
      okB (loadRecord (tRnl p.2.2.1 p.2.2.2).cur 0x3000 (tRnl p.2.2.1 p.2.2.2)) (fun r s1 => !Rec.malformed r p.2.1 && (s1.core 0).runnels == []) = true
      ∧ nextB (exec p.1 (tRnl p.2.2.1 p.2.2.2)) (fun t => decide (t.getX 5 = 1 ∧ ((t.core 0).runnels.map fun r => (r.kind, r.num, r.ctxNum)) = [(p.2.1, 1, 4)])) = true)
    ∧ someB (tCopy.runnel? tCopyId) (fun x => decide (tCopy.cur.uid = x.2.uid ∧ tCopy.cur.resident = true ∧ tCopy.cur.dbg.pendf = none ∧ x.2.ended = false
        ∧ x.2.started = false ∧ mayStart (tCopy.core x.1) tCopy.cur x.2 = true)) = true
    ∧ someB ((runAll [.runnelStart tCopyId] tCopy).runnel? tCopyId) (fun x => decide (x.2.started = true ∧ x.2.done < Rec.total x.2.record)
        && okB (moveUnits x.2 tCopy.cur x.2.nextUnits (runAll [.runnelStart tCopyId] tCopy)) fun n _ => decide (n = (4, false))) = true
    ∧ someB ((runAll [.runnelStart tFarId] tFar).runnel? tFarId) (fun x => decide (x.2.done < Rec.total x.2.record
          ∧ (runAll [.runnelStart tFarId] tFar).cur.s.phase.boundary = false)
        && trapB (moveUnits x.2 tFar.cur x.2.nextUnits (runAll [.runnelStart tFarId] tFar)) (fun q u => !q.recov && u.cur.uid == x.2.uid)
        && nextB (exec (.runnelStart tFarId) (runAll [.runnelStart tFarId] tFar)) fun t =>
          decide (t.cur.efault.isSome = true ∧ (t.core 0).runnels = [] ∧ t.cur.h.tl.getD 4 0 = 1)) = true
    ∧ oneB (tCopy.core 0).runnels (fun r => decide (r.num < 2 ^ 64 ∧ r.ctxNum < 8 ∧ r.status < 2 ∧ r.bytes < 2 ^ 32)) = true
    ∧ someB (tDone.runnel? tCopyId) (fun x => decide (x.2.started = true ∧ x.2.ended = false ∧ x.2.done = Rec.total x.2.record ∧ (tDone.core 0).word 63 0 0 = 0x99)) = true
    ∧ nextB (exec (.runnelEnd tCopyId) tDone) (fun t => decide (t.cur.h.tl.getD 4 0 = 1) && someB ((t.core 0).waitingEvents.find? fun e => (t.core 0).eventRoom e.uid) fun e =>
        nextB (exec (.completionRecordPost 0) t) fun u => decide ((u.core 0).events = [e] ∧ u.oldestEvent = some e ∧ u.eventReady = true)
          && nextB (exec (.evpop 8) u) fun v => decide (v.getX 8 = 1 ∧ (v.getX 9).toNat = 2 ^ 63 + 4 * 2 ^ 60 + 4 ∧ (v.core 0).events = [])) = true
    ∧ (tS.oldestEvent = none ∧ nextB (exec (.evpop 8) tS) (fun t => decide (t.getX 8 = 0 ∧ t.getX 9 = 0)) = true)
    ∧ (tCopy.eventReady = false ∧ nextB (exec .evwait tCopy) (fun t => decide (t.cur.waits = some .event)) = true)
    ∧ nextB (exec .evwait (runAll [.completionRecordPost 0] (runAll [.runnelEnd tCopyId] tDone))) (fun t => decide (t.pc = tDone.pc + 4)) = true := by decide +kernel
/-! ## Two lane rules, steps, invariants -/

/-- DotProducts: two products that overflow the INT32 range with SAT, and a lane word whose sum wraps without it. -/
theorem witness_DotProducts :
    wellFormed (.vdot4 (tArith 4 1 2 3 0 9)) = true
    ∧ (let s := lanes 1 0 [0x7F7F7F7F, 0xFF] (lanes 2 0 [0x7F7F7F7F, 2] (lanes 3 0 [0x7FFFFFFF, 7] tL));
      atB s (.vdot4 (tArith 4 1 2 3 0 9)) 0 = true
      ∧ nextB (exec (.vdot4 (tArith 4 1 2 3 0 9)) s) (fun t => decide (laneOf t 4 0 = 0x8000FC03 ∧ laneOf t 4 1 = 5 ∧ t.cur.l.flagO = false)) = true
      ∧ nextB (exec (.vdot4 { tArith 4 1 2 3 0 9 with sat := true }) s) (fun t => decide (laneOf t 4 0 = 0x7FFFFFFF ∧ t.cur.l.flagO = true)) = true) := by decide +kernel

theorem witness_LaneMatches :
    laneB tMasked (.vmatch (tCross 4 1 0 0 0 0)) = true
    ∧ nextB (exec (.vmatch (tCross 4 1 0 0 0 0)) (lanes 1 0 [9, 8, 9] tL)) (fun t => decide (laneOf t 4 0 = 5 ∧ laneOf t 4 1 = 2 ∧ laneOf t 4 31 = 0xFFFFFFF8)) = true := by decide +kernel

/-- StepRunsDecoded: the turn of a scalar word, of a lane word already decoded, and of another agent. -/
theorem witness_StepRunsDecoded :
    (tS.turns = [.scalar tU] ∧ tS.cur.uid = tU ∧ tS.cur.mayIssue = true ∧ tS.inRank tS.cur false = true ∧ tS.dev.hot = false
      ∧ tS.cur.efault = none ∧ tS.cur.s.phase ≠ .filling
      ∧ okB (fetchScalar tS.cur tS.pc { tS with turns := [] }) (fun w s1 => decide (w = 0xF8400000 ∧ (decodeScalar w).toOption = some .nop ∧ s1.cur.s.outs = []
          ∧ s1.cur.s.counted = false ∧ Ctx.dbgen (s1.context s1.cur.id.ctx) = false)) = true)
    ∧ (State.withCur tS fun t => { t with s := { t.s with counted := true } }).cur.s.counted = true
    ∧ (let s := State.withCur tL fun t => { t with l := { t.l with run := t.l.run.map fun (r : LaneRun) => { r with word := some (.vnop ⟨0⟩) } } };
      s.turns = [.lane tU] ∧ s.cur.mayLane = true ∧ s.laneTurnDue s.cur = true ∧ s.inRank s.cur true = true ∧ s.dev.hot = false
      ∧ someB s.cur.l.run (fun r => decide (r.word = some (.vnop ⟨0⟩) ∧ r.blk.late = [])) = true ∧ Ctx.dbgen (s.context s.cur.id.ctx) = false
      ∧ s.cur.l.watched = false ∧ (State.withCur s fun t => { t with l := { t.l with watched := true } }).cur.l.watched = true
      ∧ nextB (step s) (fun t => decide (t.cur.l.run = none)) = true)
    ∧ (isEvent (.yieldEnd tU) = true ∧ tS.cur.dbg.stepping = false ∧ tS.cur.dbg.due = 0 ∧ tS.cur.efault = none) := by decide +kernel

/-- R338: the first step after the placement runs the word placed. -/
theorem test_first_step : nextB (step tS) (fun t => decide (t.pc = 0x2004 ∧ t.turns = [])) = true
    ∧ nextB (step (State.reset.withFetchWord 32 0xD8000031)) (fun t => decide (t.cur.uid = 0)) = true := by decide +kernel

/-- EncodeDecode: an instruction of each stream, and a word that decodes. -/
theorem witness_EncodeDecode :
    wellFormed (.addi 1 2 0x8000) = true ∧ (encodeScalar (.addi 1 2 0x8000)).isSome = true
    ∧ wellFormed (.vred (tCross 5 6 0 0 2 0)) = true ∧ (encodeLane (.vred (tCross 5 6 0 0 2 0))).isSome = true
    ∧ (decodeScalar 0xE4000000).toOption = some .yield ∧ (decodeLane (0x120 * 2 ^ 85)).toOption = some (.vnop ⟨0⟩) := by decide +kernel

/-- MemoryInvariant: a state of listed memory whose step answers. -/
theorem witness_MemoryInvariant : tS.memWf ∧ tS.hbm ≠ [] ∧ nextB (step tS) (fun t => decide (t.hbm ≠ [])) = true :=
  ⟨⟨by decide +kernel, by decide +kernel, by decide +kernel⟩, by decide +kernel, by decide +kernel⟩

/-! ## Clauses with conditions of their own -/

/-- DeviceReleases: system scope with an update to publish, with a posted store under way, and with nothing to publish. -/
theorem witness_SystemReleases :
    (postsDone tApp tApp.cur 1 .host = true ∧ postsDone tApp tApp.cur 1 .sysReg = true
      ∧ nextB (exec (.rel 5 1) tApp) (fun t => decide (t.cur.waits = some (.commit 1)
          ∧ (t.pubs.flatMap fun p => p.share.map fun u => (u.win, u.gran, u.runs.map (·.live))) = [(0, 12, [1])])) = true)
    ∧ (let s := runAll [.stW 1 2 0] (regs [(1, 7), (2, 0x100004)] tHost);
      (s.cur.l.queue = [] ∧ s.cur.l.run = none ∧ s.cur.s.outs = []) ∧ s.cur.s.phase = .none ∧ enginesDone s s.cur 1 = true
      ∧ postsDone s s.cur 1 .computeRow = true ∧ (postsDone s s.cur 1 .host && postsDone s s.cur 1 .sysReg) = false
      ∧ nextB (exec (.rel 5 1) s) (fun t => decide (t.cur.waits = some .drain)) = true)
    ∧ ((tS.cluster tS.cur.cluster).weir = [] ∧ (∀ d ∈ (tS.cluster tS.cur.cluster).dirty, d.uid ≠ tS.cur.uid)
      ∧ nextB (exec (.rel 4 1) tS) (fun t => decide (t.pc = tS.pc + 4 ∧ t.pubs = [])) = true) := by decide +kernel

/-- As many quarantined ways as every set of a slice has. -/
def tQuar : List Nat := (List.range 1024).flatMap fun k => List.replicate 16 (16 * k)

theorem quar_full (set n : Nat) (h : set < n) :
    16 ≤ (((List.range n).flatMap fun k => List.replicate 16 (16 * k)).filter fun q => q / 16 == set).length := by
  induction n with
  | zero => omega
  | succ n ih =>
    rw [List.range_succ, List.flatMap_append, List.filter_append, List.length_append]
    by_cases hs : set = n
    · subst hs
      have : ((List.flatMap (fun k => List.replicate 16 (16 * k)) [set]).filter fun q => q / 16 == set).length = 16 := by
        simp
      omega
    · have := ih (by omega)
      omega

/-- HomeSliceAtomic: a result that finds no way in its set; here every way of the slice is quarantined. -/
def tNoWay : State := tAmo2.setSlice tAmoH { tAmo2.slice tAmoH with lines := [], quar := tQuar }

theorem witness_ResultWaits : (tNoWay.slice tAmoH).hasRoom (.result 0 (0x3008 / 32 / 4)) = false
    ∧ ((tNoWay.slice tAmoH).inColl 0 (0x3008 / 32)).isSome = true := by
  refine ⟨?_, by decide +kernel⟩
  have hl : (tNoWay.slice tAmoH).lines = [] := by decide +kernel
  have hq : (tNoWay.slice tAmoH).quar = tQuar := by rw [tNoWay, State.slice_setSlice_same]
  have hs := quar_full (LineTag.set (.result 0 (0x3008 / 32 / 4))) 1024 (Nat.mod_lt _ (by decide))
  have hn := Nat.le_trans hs (List.length_filter_le _ _)
  rw [show ((List.range 1024).flatMap fun k => List.replicate 16 (16 * k)) = tQuar from rfl] at hs hn
  simp only [Slice.hasRoom, Slice.line?, Slice.fullSet, hl, hq, List.find?_nil, Option.isSome_none, List.length_nil, List.filter_nil, Nat.zero_add,
    Bool.false_or]
  rw [if_neg (by omega), if_neg (by omega)]
  rfl

/-- PackAndPairPasses: forms that are well formed, and destinations whose rows are apart. -/
theorem witness_PackAndPairRows : wellFormed (.vpack (tArith 8 16 0 0 0 7)) = true ∧ wellFormed (.vunpack (tArith 8 16 0 0 0 7)) = true
    ∧ (((List.range (elemsPerLane 4)).map fun j => 8 + j).map fun r => tL.cur.rowAt r 0).Nodup ∧ ([4, 5].map fun r => tL.cur.rowAt r 0).Nodup
    ∧ nextB (exec (.vpack (tArith 8 16 0 0 0 7)) (lanes 16 0 [0x15] (lanes 17 0 [0x2A] tL))) (fun t => decide (laneOf t 8 0 = 0xA5)) = true
    ∧ nextB (exec (.vunpack (tArith 8 16 0 0 0 7)) (lanes 16 0 [0xF5] tL)) (fun t => decide (laneOf t 8 0 = 5 ∧ laneOf t 9 0 = 0xFFFFFFFF)) = true := by
  decide +kernel

/-- WholeWords: a condition, a reduction and a form within their bounds, a pair apart, and what a block's scale is made from. -/
theorem witness_WholeWordValues :
    (∀ w < tMasked.cur.n, ∀ v < tMasked.cur.n, tMasked.cur.rowAt 4 w ≠ tMasked.cur.rowAt 5 v) ∧ wellFormed (.vbq (tArith 4 1 2 0 0 0x11)) = true
    ∧ nextB (exec (.vcmp { tMask 4 1 1 0 2 0 with cnd := 0 }) tMasked) (fun t => decide ((t.cur.maskReg 4).toNat = 0b1010)) = true
    ∧ nextB (exec (.vvote { tCross 4 1 0 0 2 0 with vk := 3 }) tMasked) (fun t => decide (laneOf t 4 1 = 0b1010 ∧ t.cur.l.rdx = 2)) = true
    ∧ nextB (exec (.vscan { tCross 4 1 0 0 2 0 with exc := true }) tMasked) (fun t => decide (laneOf t 4 1 = 0 ∧ laneOf t 4 3 = 6 ∧ t.cur.l.rdx = 14)) = true
    ∧ nextB (exec (.vred (tCross 4 1 0 0 3 0)) tMasked) (fun t => decide (t.cur.l.flagE = true ∧ t.cur.l.rdx = 0 ∧ laneOf t 4 0 = 0)) = true
    ∧ (let el := elemOfCode [0, 0, 0, 0] 0x11; let one := decodeF fp32 0x3F800000;
      (elemMax el).isZero = false ∧ one.isZero = false ∧ (decodeF fp32 0).isZero = true
      ∧ (match decodeF fp32 0x7F800000 with | .fin _ _ _ => false | _ => true) = true ∧ (blockScale el [decodeF fp32 0]).1 = 127
      ∧ (blockScale el [one]).1 < 254 ∧ 0 < (blockScale el [one]).1) := by decide +kernel

/-- ServiceCalls: a service called, and left, while a lane block is outstanding. -/
theorem witness_ServiceWaits : 0 < tL.cur.l.outstanding ∧ tL.cur.s.priv = false
    ∧ nextB (exec (.svc 1) tL) (fun t => decide (t.cur.waits = some (.lanes 0) ∧ t.pc = tL.pc)) = true
    ∧ (let s := State.withCur tL fun t => { t with s := { t.s with priv := true } };
      s.cur.s.priv = true ∧ nextB (exec .eret s) (fun t => decide (t.cur.waits = some (.lanes 0) ∧ t.pc = tL.pc)) = true) := by decide +kernel

/-- FaultsAndHooks: the privileged forms in user mode, on a task whose context has a hook. -/
theorem witness_PrivilegedForms : tSvc.cur.s.priv = false ∧ ∀ i ∈ [Instr.eret, .snap 5 2, .roll 2 3, .sset 1 0x020],
    someB ((encodeScalar i).map (BitVec.ofNat 64)) (fun w =>
      okB (fatalStop tSvc.cur.uid (recordWords tSvc.cur { noTrap with code := 0x03, w2 := w }) tSvc) (fun _ s1 =>
        okB (findHook s1.cur s1) fun h s2 => decide (s1.cur.uid = tSvc.cur.uid ∧ s2.cur.uid = tSvc.cur.uid)
          && (match h with | .run pc => pc == 0x2040 | _ => false))
      && nextB (exec i tSvc) fun t => decide (t.pc = 0x2040 ∧ t.cur.s.priv = true ∧ bits (t.cur.faultrec.getD 0 0).toNat 56 8 = 3
          ∧ t.cur.faultrec.getD 2 0 = w ∧ t.psnNext = tSvc.psnNext)) = true := by decide +kernel

/-- LaunchRun: way 15 of the cluster a swapped launch would return to has no room for its entry. -/
def tStuck : Launch := { tOne .swapped with queues := [{ cap := 2, entries := [1], places := [0] }] }
def tStuckIn : State :=
  let s := tRun1.setCluster 0 { tRun1.cluster 0 with quar := List.replicate 2048 15 }
  { s with launches := [tStuck] }

theorem witness_QueuesDoNotFit : tStuckIn.queuesFit tStuck 0 = false ∧ ({ tRun1 with launches := [tStuck] } : State).queuesFit tStuck 0 = true
    ∧ ({ tRun1 with launches := [tStuck] } : State).candidate tStuck = some 0 := by
  refine ⟨?_, by decide +kernel, by decide +kernel⟩
  have hr : tStuckIn.wayRoom 0 = 0 := by
    simp only [State.wayRoom, tStuckIn, State.cluster, State.setCluster, Table.get_set_same]
    rw [List.filter_replicate, if_pos (by decide), List.length_replicate]
  have hp : tStuck.queues.flatMap (·.places) = [0] := rfl
  have hm : moveCluster tStuck.origin 0 0 = 0 := by decide
  simp [State.queuesFit, hp, hm, hr]

/-- Invalidations: a leaf that the command does not name stays. -/
theorem witness_KeptLeaf : (((tInv 0 0).core 0).tlb.all fun l => l.ctx != 5 && l.win != 9) = true
    ∧ ((tInv 0 0).core 0).tlb ≠ [] ∧ ∀ k ∈ [0, 1, 2], (((tInv 0 0).dropTranslations k 5 9 0 1).core 0).tlb = ((tInv 0 0).core 0).tlb := by decide +kernel

/-- Resets: a cold reset whose bases lie in their ranges, but for one, and whose scan fails on two cores. -/
theorem witness_ColdReset :
    nextB (exec (.coldReset { ixPoolBase := 2 ^ 21, ixPoolFrames := 512, spillBase := 2 ^ 24 + 1, saveBase := 2 ^ 22, saveFrames := 1024, errBase := 2 ^ 23
                              lcmap := BitVec.ofNat 192 (2 ^ 192 - 1 - 2 ^ 7 - 2 ^ 191) }) tS) (fun t =>
      decide (t.dev.ixBase = 2 ^ 21 ∧ t.dev.spillBase = Device.init.spillBase ∧ t.dev.saveBase = 2 ^ 22 ∧ t.dev.errHead = 2)) = true := by decide +kernel

/-- SnapAndRoll: the commit of a snapshot that every slice has prepared and every cluster has been told of. -/
def tSnapAll : State :=
  runAll (.snap 5 2 :: ((List.range 48).map fun h => .psnShareArrival 1 h) ++ (List.range 48).map fun c => .heldNotice 1 ⟨0, c⟩) tPriv

theorem witness_SnapCommit :
    someB tSnapAll.mayCommit (fun p => decide (p.who = .snap tSnapAll.cur.uid 0 ∧ p.share = [] ∧ tSnapAll.cur.s.phase = .published p.psn)) = true
    ∧ nextB (exec .psnCommit tSnapAll) (fun t => decide (t.snaps.length = 2 ∧ t.cur.s.phase = .snapped 1)) = true := by decide +kernel

/-- FirmwareCommands: a command of each kind that its session admits. -/
theorem witness_Configuration :
    let s := { tPriv with cur := Team.vacant }
    (∀ p ∈ ([(2, .window 7 (BitVec.ofNat 512 (2 ^ 45 + 2 ^ 44 + 2 ^ 36 * 2 ^ 64 + 64 * 2 ^ 128 + 5 * 2 ^ 192))), (2, .context 5 probeContext), (2, .counter 9 (BitVec.ofNat 64 (2 ^ 63)) 3), (2, .peer 0 0),
        (1, .ring 3 7 128 16), (1, .route 5 3), (1, .rtid 9), (1, .hostMaps 1 2), (1, .hdmBase (2 ^ 45)), (1, .arm 5), (1, .tenant 15 true)] :
          List (Nat × MailChange)),
      s.admits p.1 p.2 = true ∧ nextB (exec (.mailboxCommand { session := p.1, change := p.2, bytes := [] }) s) (fun t => decide (.mailbox 0 ∈ t.dev.sent)) = true)
    ∧ (let s := s.onDev fun d => { d with broken := [0] };
      s.admits 2 (.reinstate 0 12) = true ∧ s.admits 3 (.reinstate 0 12) = false
      ∧ nextB (exec (.mailboxCommand { session := 2, change := .reinstate 0 12, bytes := [] }) s) (fun t => decide (t.psnNext = s.psnNext + 1)) = true) := by decide +kernel

/-- Runnels: an operation that has moved its only unit still holds the sector it wrote part of. -/
def tSpill : State :=
  let s := runAll [.rspill 5 2 1 4] (tRnl 0 (63 * 4096))
  runAll [.runnelStart (((s.core 0).runnels.map (·.id)).headD 0), .runnelStart (((s.core 0).runnels.map (·.id)).headD 0)] s

theorem witness_HeldSectors :
    oneB (tSpill.core 0).runnels fun r => decide (r.started = true ∧ r.done = Rec.total r.record ∧ r.ended = false ∧ r.out.length = 1 ∧ tSpill.stallers = []
        ∧ (tSpill.runnel? r.id).isSome = true)
      && (match r.out with | o :: _ => okB (enginePut r tSpill.cur o (Rec.lkind r.record == 2) tSpill) (fun _ _ => true) | [] => false)
      && nextB (exec (.runnelStart r.id) tSpill) fun t => oneB (t.core 0).runnels fun q => decide (q.out = []) := by decide +kernel

/-- StepRunsDecoded: no pre-emption waits; and one that waits is taken before the turn. -/
theorem witness_TakenFirst : tS.takeHeld.isNone = true ∧ tL.takeHeld.isNone = true
    ∧ (let s := { tRun1 with launches := [{ tOne .running with held := true }] };
      s.takeHeld.isSome = true ∧ nextB (step s) (fun t => decide (t.cur.status = .swapped ∧ t.turns = s.turns)) = true) := by decide +kernel

end Sys2Proof.Tests
end

/-! # Instruction words (01 R18 to R34)

A word is its fields laid side by side, so a word equals the word built from a list of fields exactly when each field cut
out of it is the one listed (`pack_eq_iff`). The layout of every format, stated once through that lemma, then reads in both
directions: from the encoder's sum to the decoder's fields, and back. -/

namespace Sys2Proof.InstructionWord

/-- Settles O57: each word is decoded by evaluation. -/
theorem decodeWords : Obligations.DecodeWords := by
  unfold Obligations.DecodeWords
  exact ⟨rfl, rfl, rfl, rfl, rfl, rfl, rfl, rfl, rfl, rfl, rfl, rfl, rfl, rfl, rfl, rfl, rfl, rfl, rfl, rfl⟩

/-! ## Fields side by side -/

theorem fld_eq_iff {w lo n : Nat} {v : BitVec n} : fld w lo n = v ↔ w / 2 ^ lo % 2 ^ n = v.toNat := by
  rw [← BitVec.toNat_inj, fld, BitVec.toNat_ofNat]

theorem fld_eq_ofNat_iff {w lo n k : Nat} : fld w lo n = BitVec.ofNat n k ↔ w / 2 ^ lo % 2 ^ n = k % 2 ^ n := by
  rw [fld_eq_iff, BitVec.toNat_ofNat]

theorem fld_eq_ofBool_iff {w lo : Nat} {b : Bool} : fld w lo 1 = BitVec.ofBool b ↔ fbit w lo = b := by
  rw [fld_eq_iff]
  cases b <;> simp [fbit]

/-- A field of a word: its width and its value. -/
abbrev Field := (n : Nat) × BitVec n

/-- The word of a list of fields from bit 0 up, with the number `top` in the bits above them. -/
def pack : List Field → Nat → Nat
  | [], top => top
  | ⟨n, v⟩ :: r, top => v.toNat + 2 ^ n * pack r top

/-- The word holds the listed fields from bit `lo` up, and the number `top` in the bits above them. -/
def Holds (w lo : Nat) : List Field → Nat → Prop
  | [], top => w / 2 ^ lo = top
  | ⟨n, v⟩ :: r, top => fld w lo n = v ∧ Holds w (lo + n) r top

theorem toNat_add_mul_eq_div_iff {n : Nat} (v : BitVec n) (r w lo : Nat) :
    v.toNat + 2 ^ n * r = w / 2 ^ lo ↔ fld w lo n = v ∧ r = w / 2 ^ (lo + n) := by
  have h := Nat.div_mod_unique (a := w / 2 ^ lo) (d := r) (c := v.toNat) (Nat.two_pow_pos n)
  rw [fld_eq_iff, pow_add, ← Nat.div_div_eq_div_mul, eq_comm (a := r), and_comm, h]
  exact (and_iff_left v.isLt).symm

theorem pack_eq_div_iff (w top : Nat) : ∀ l lo, pack l top = w / 2 ^ lo ↔ Holds w lo l top
  | [], _ => eq_comm
  | ⟨n, v⟩ :: r, lo => by rw [pack, toNat_add_mul_eq_div_iff, pack_eq_div_iff w top r, Holds]

theorem pack_eq_iff {l : List Field} {top w : Nat} : pack l top = w ↔ Holds w 0 l top := by
  rw [← pack_eq_div_iff, pow_zero, Nat.div_one]

theorem eq_iff_holds {x w top : Nat} (l : List Field) (h : x = pack l top) : x = w ↔ Holds w 0 l top := h ▸ pack_eq_iff

/-! ## Formats of the scalar words (01 R18) -/

theorem encSR_eq_iff {c w : Nat} {d a b : XReg} (hc : c < 2 ^ 11) :
    encSR c d a b = w ↔ Holds w 0 [⟨11, .ofNat 11 c⟩, ⟨5, b⟩, ⟨5, a⟩, ⟨5, d⟩] 0 :=
  eq_iff_holds _ (by simp only [encSR, put, pack, BitVec.toNat_ofNat]; omega)

/-- The bits between a field of `n` bits and bit `m`. -/
theorem two_pow_mul_two_pow_sub {n m : Nat} (h : n ≤ m) (x : Nat) : 2 ^ n * (2 ^ (m - n) * x) = 2 ^ m * x := by
  rw [← Nat.mul_assoc, ← pow_add, Nat.add_sub_of_le h]

theorem encSI_eq_iff {n c w : Nat} {d a : XReg} {i : BitVec n} (hn : n ≤ 16) (hc : c % 2 ^ 26 = 0) :
    encSI c d a i = w ↔ Holds w 0 [⟨n, i⟩, ⟨16 - n, 0#(16 - n)⟩, ⟨5, a⟩, ⟨5, d⟩] (c / 2 ^ 26) := by
  refine eq_iff_holds _ ?_
  simp only [encSI, put, pack, BitVec.toNat_ofNat, Nat.zero_mod, Nat.zero_add, two_pow_mul_two_pow_sub hn]
  omega

theorem encSU_eq_iff {n c w : Nat} {d : XReg} {i : BitVec n} (hn : n ≤ 21) (hc : c % 2 ^ 26 = 0) :
    encSU c d i = w ↔ Holds w 0 [⟨n, i⟩, ⟨21 - n, 0#(21 - n)⟩, ⟨5, d⟩] (c / 2 ^ 26) := by
  refine eq_iff_holds _ ?_
  simp only [encSU, put, pack, BitVec.toNat_ofNat, Nat.zero_mod, Nat.zero_add, two_pow_mul_two_pow_sub hn]
  omega

theorem encLow_eq_iff {n c w : Nat} {i : BitVec n} (hn : n ≤ 26) (hc : c % 2 ^ 26 = 0) :
    encLow c i = w ↔ Holds w 0 [⟨n, i⟩, ⟨26 - n, 0#(26 - n)⟩] (c / 2 ^ 26) := by
  refine eq_iff_holds _ ?_
  simp only [encLow, put, pack, BitVec.toNat_ofNat, Nat.zero_mod, Nat.zero_add, two_pow_mul_two_pow_sub hn]
  omega

/-- Two registers over a constant: the one-source operations and `mxloop`. -/
theorem put_regs_eq_iff {c w : Nat} {d a : XReg} (hc : c % 2 ^ 26 < 2 ^ 16) :
    c + put d 21 + put a 16 = w ↔ Holds w 0 [⟨16, .ofNat 16 c⟩, ⟨5, a⟩, ⟨5, d⟩] (c / 2 ^ 26) :=
  eq_iff_holds _ (by simp only [put, pack, BitVec.toNat_ofNat]; omega)

/-- A kind and a mask: `rel` and `fence`. -/
theorem put_mask_eq_iff {c w : Nat} {s : BitVec 3} {m : BitVec 8} (hc : c % 2 ^ 26 = 0) :
    c + put s 8 + put m 0 = w ↔ Holds w 0 [⟨8, m⟩, ⟨3, s⟩, ⟨15, 0#15⟩] (c / 2 ^ 26) :=
  eq_iff_holds _ (by simp only [put, pack, BitVec.toNat_ofNat]; omega)

/-- The Runnel operations. -/
theorem put_runnel_eq_iff {c w : Nat} {d a : XReg} {p : BitVec 1} {n : BitVec 3} (hc : c % 2 ^ 26 = 0) :
    c + put d 21 + put a 16 + put p 3 + put n 0 = w
      ↔ Holds w 0 [⟨3, n⟩, ⟨1, p⟩, ⟨12, 0#12⟩, ⟨5, a⟩, ⟨5, d⟩] (c / 2 ^ 26) :=
  eq_iff_holds _ (by simp only [put, pack, BitVec.toNat_ofNat]; omega)

theorem encodeScalar_amo_iff {w : Nat} {d a b : XReg} {c : BitVec 3} {z : BitVec 2} {o : BitVec 4} :
    encodeScalar (.amo d a b c z o) = some w
      ↔ Holds w 0 [⟨4, o⟩, ⟨2, 0#2⟩, ⟨2, z⟩, ⟨3, c⟩, ⟨5, b⟩, ⟨5, a⟩, ⟨5, d⟩] 0x17 :=
  Option.some_inj.trans (eq_iff_holds _ (by simp only [put, pack, BitVec.toNat_ofNat]; omega))

theorem encodeScalar_cas_iff {w : Nat} {d a b : XReg} {c : BitVec 3} {z : BitVec 2} :
    encodeScalar (.cas d a b c z) = some w ↔ Holds w 0 [⟨6, 0#6⟩, ⟨2, z⟩, ⟨3, c⟩, ⟨5, b⟩, ⟨5, a⟩, ⟨5, d⟩] 0x18 :=
  Option.some_inj.trans (eq_iff_holds _ (by simp only [put, pack, BitVec.toNat_ofNat]; omega))

theorem encodeScalar_jtab_iff {w : Nat} {i t : XReg} :
    encodeScalar (.jtab i t) = some w ↔ Holds w 0 [⟨11, 0#11⟩, ⟨5, t⟩, ⟨5, i⟩, ⟨5, 0#5⟩] 0x22 :=
  Option.some_inj.trans (eq_iff_holds _ (by simp only [put, pack, BitVec.toNat_ofNat]; omega))

theorem encodeScalar_acq_iff {w : Nat} {s : BitVec 3} :
    encodeScalar (.acq s) = some w ↔ Holds w 0 [⟨8, 0#8⟩, ⟨3, s⟩, ⟨15, 0#15⟩] 0x29 :=
  Option.some_inj.trans (eq_iff_holds _ (by simp only [put, pack, BitVec.toNat_ofNat]; omega))

theorem encodeScalar_tlwait_iff {w : Nat} {a : XReg} {n : BitVec 3} :
    encodeScalar (.tlwait a n) = some w ↔ Holds w 0 [⟨3, n⟩, ⟨13, 0#13⟩, ⟨5, a⟩, ⟨5, 0#5⟩] 0x2B :=
  Option.some_inj.trans (eq_iff_holds _ (by simp only [put, pack, BitVec.toNat_ofNat]; omega))

theorem encodeScalar_evpop_iff {w : Nat} {d : XReg} :
    encodeScalar (.evpop d) = some w ↔ Holds w 0 [⟨21, 0#21⟩, ⟨5, d⟩] 0x30 :=
  Option.some_inj.trans (eq_iff_holds _ (by simp only [put, pack, BitVec.toNat_ofNat]; omega))

theorem encodeScalar_wset_iff {w : Nat} {n : BitVec 3} {a b : XReg} {c : BitVec 2} :
    encodeScalar (.wset n a b c) = some w
      ↔ Holds w 0 [⟨2, c⟩, ⟨9, 0#9⟩, ⟨5, b⟩, ⟨5, a⟩, ⟨3, n⟩, ⟨2, 0#2⟩] 0x33 :=
  Option.some_inj.trans (eq_iff_holds _ (by simp only [put, pack, BitVec.toNat_ofNat]; omega))

theorem encodeScalar_wfree_iff {w : Nat} {n : BitVec 3} :
    encodeScalar (.wfree n) = some w ↔ Holds w 0 [⟨21, 0#21⟩, ⟨3, n⟩, ⟨2, 0#2⟩] 0x34 :=
  Option.some_inj.trans (eq_iff_holds _ (by simp only [put, pack, BitVec.toNat_ofNat]; omega))

theorem encodeScalar_bar_iff {w : Nat} {i : BitVec 4} {s : BitVec 2} :
    encodeScalar (.bar i s) = some w ↔ Holds w 0 [⟨2, s⟩, ⟨2, 0#2⟩, ⟨4, i⟩, ⟨18, 0#18⟩] 0x36 :=
  Option.some_inj.trans (eq_iff_holds _ (by simp only [put, pack, BitVec.toNat_ofNat]; omega))

theorem encodeScalar_sset_iff {w : Nat} {a : XReg} {n : BitVec 11} :
    encodeScalar (.sset a n) = some w ↔ Holds w 0 [⟨11, n⟩, ⟨5, 1#5⟩, ⟨5, a⟩, ⟨5, 0#5⟩] 0x3D :=
  Option.some_inj.trans (eq_iff_holds _ (by simp only [put, pack, BitVec.toNat_ofNat]; omega))

theorem encodeScalar_brk_iff {w : Nat} {c : BitVec 16} :
    encodeScalar (.brk c) = some w ↔ Holds w 0 [⟨16, c⟩, ⟨10, 16#10⟩] 0x3E :=
  Option.some_inj.trans (eq_iff_holds _ (by simp only [encLow, put, pack, BitVec.toNat_ofNat]; omega))

theorem encodeScalar_snap_iff {w : Nat} {d a : XReg} :
    encodeScalar (.snap d a) = some w ↔ Holds w 0 [⟨10, 0#10⟩, ⟨5, a⟩, ⟨5, d⟩, ⟨6, 2#6⟩] 0x3E :=
  Option.some_inj.trans (eq_iff_holds _ (by simp only [put, pack, BitVec.toNat_ofNat]; omega))

theorem encodeScalar_roll_iff {w : Nat} {a b : XReg} :
    encodeScalar (.roll a b) = some w ↔ Holds w 0 [⟨5, 0#5⟩, ⟨5, b⟩, ⟨5, a⟩, ⟨11, 96#11⟩] 0x3E :=
  Option.some_inj.trans (eq_iff_holds _ (by simp only [put, pack, BitVec.toNat_ofNat]; omega))

/-! ## Scalar words -/

/-- The fields of an instruction's scalar word are those of the instruction: one case per layout. -/
theorem scalarFields_of_encodeScalar {i : Instr} {w : Nat} (h : encodeScalar i = some w) : scalarFields w = some i := by
  cases i
  case ret | evwait | yield | eret | nop => cases h; rfl
  case add | sub | mul | mulh | mulhu | div | divu | rem | remu | and | or | xor | andn | shl | shr | sar | rotr | min | max
      | minu | maxu | slt | sltu | seq =>
    obtain ⟨hf, rfl, rfl, rfl, hop⟩ := (encSR_eq_iff (by decide)).1 (Option.some.inj h)
    rw [scalarFields, show w / 2 ^ 26 = _ from hop, decodeOp00, show w / 2 ^ 0 % 2 ^ 11 = _ from fld_eq_ofNat_iff.1 hf]
    rfl
  case clz | ctz | popc =>
    obtain ⟨hf, rfl, rfl, hop⟩ := (put_regs_eq_iff (by decide)).1 (Option.some.inj h)
    have hf : w / 2 ^ 0 % 2 ^ 16 = _ := fld_eq_ofNat_iff.1 hf
    rw [scalarFields, show w / 2 ^ 26 = _ from hop, decodeOp00, show w / 2 ^ 0 % 2 ^ 11 = w / 2 ^ 0 % 2 ^ 16 by omega, hf]
    rfl
  case addi | andi | ori | xori | slti | sltui | ldB | ldH | ldW | ldD | lduB | lduH | lduW | stB | stH | stW | stD
      | beq | bne | blt | bge | bltu | bgeu =>
    obtain ⟨rfl, -, rfl, rfl, hop⟩ := (encSI_eq_iff (by decide) (by decide)).1 (Option.some.inj h)
    rw [scalarFields, show w / 2 ^ 26 = _ from hop]
    rfl
  case shli | shri | sari | mrd | mwr | qput | qget =>
    obtain ⟨rfl, hr, rfl, rfl, hop⟩ := (encSI_eq_iff (by decide) (by decide)).1 (Option.some.inj h)
    rw [scalarFields, show w / 2 ^ 26 = _ from hop]
    exact if_pos (fld_eq_ofNat_iff.1 hr)
  case lui | apc | lrun =>
    obtain ⟨rfl, -, rfl, hop⟩ := (encSU_eq_iff (by decide) (by decide)).1 (Option.some.inj h)
    rw [scalarFields, show w / 2 ^ 26 = _ from hop]
    rfl
  case tlread | sget =>
    obtain ⟨rfl, hr, rfl, hop⟩ := (encSU_eq_iff (by decide) (by decide)).1 (Option.some.inj h)
    rw [scalarFields, show w / 2 ^ 26 = _ from hop]
    exact if_pos (fld_eq_ofNat_iff.1 hr)
  case jmp | call =>
    obtain ⟨rfl, -, hop⟩ := (encLow_eq_iff (by decide) (by decide)).1 (Option.some.inj h)
    rw [scalarFields, show w / 2 ^ 26 = _ from hop]
    rfl
  case lpad | lwait | freeze | exit | trap | svc =>
    obtain ⟨rfl, hr, hop⟩ := (encLow_eq_iff (by decide) (by decide)).1 (Option.some.inj h)
    rw [scalarFields, show w / 2 ^ 26 = _ from hop]
    exact if_pos (fld_eq_ofNat_iff.1 hr)
  case mxloop =>
    obtain ⟨hr, rfl, rfl, hop⟩ := (put_regs_eq_iff (by decide)).1 (Option.some.inj h)
    rw [scalarFields, show w / 2 ^ 26 = _ from hop]
    exact if_pos (fld_eq_ofNat_iff.1 hr)
  case rel | fence =>
    obtain ⟨rfl, rfl, hr, hop⟩ := (put_mask_eq_iff (by decide)).1 (Option.some.inj h)
    rw [scalarFields, show w / 2 ^ 26 = _ from hop]
    exact if_pos (fld_eq_ofNat_iff.1 hr)
  case rcopy | rfeed | rspill =>
    obtain ⟨rfl, rfl, hr, rfl, rfl, hop⟩ := (put_runnel_eq_iff (by decide)).1 (Option.some.inj h)
    rw [scalarFields, show w / 2 ^ 26 = _ from hop]
    exact if_pos (fld_eq_ofNat_iff.1 hr)
  case amo =>
    obtain ⟨rfl, hr, rfl, rfl, rfl, rfl, rfl, hop⟩ := encodeScalar_amo_iff.1 h
    rw [scalarFields, show w / 2 ^ 26 = _ from hop]
    exact if_pos (fld_eq_ofNat_iff.1 hr)
  case cas =>
    obtain ⟨hr, rfl, rfl, rfl, rfl, rfl, hop⟩ := encodeScalar_cas_iff.1 h
    rw [scalarFields, show w / 2 ^ 26 = _ from hop]
    exact if_pos (fld_eq_ofNat_iff.1 hr)
  case jtab =>
    obtain ⟨hr, rfl, rfl, hs, hop⟩ := encodeScalar_jtab_iff.1 h
    rw [scalarFields, show w / 2 ^ 26 = _ from hop]
    exact if_pos ⟨fld_eq_ofNat_iff.1 hr, fld_eq_ofNat_iff.1 hs⟩
  case acq =>
    obtain ⟨hr, rfl, hs, hop⟩ := encodeScalar_acq_iff.1 h
    rw [scalarFields, show w / 2 ^ 26 = _ from hop]
    exact if_pos ⟨fld_eq_ofNat_iff.1 hr, fld_eq_ofNat_iff.1 hs⟩
  case tlwait =>
    obtain ⟨rfl, hr, rfl, hs, hop⟩ := encodeScalar_tlwait_iff.1 h
    rw [scalarFields, show w / 2 ^ 26 = _ from hop]
    exact if_pos ⟨fld_eq_ofNat_iff.1 hr, fld_eq_ofNat_iff.1 hs⟩
  case evpop =>
    obtain ⟨hr, rfl, hop⟩ := encodeScalar_evpop_iff.1 h
    rw [scalarFields, show w / 2 ^ 26 = _ from hop]
    exact if_pos (fld_eq_ofNat_iff.1 hr)
  case wset =>
    obtain ⟨rfl, hr, rfl, rfl, rfl, hs, hop⟩ := encodeScalar_wset_iff.1 h
    rw [scalarFields, show w / 2 ^ 26 = _ from hop]
    exact if_pos ⟨fld_eq_ofNat_iff.1 hr, fld_eq_ofNat_iff.1 hs⟩
  case wfree =>
    obtain ⟨hr, rfl, hs, hop⟩ := encodeScalar_wfree_iff.1 h
    rw [scalarFields, show w / 2 ^ 26 = _ from hop]
    exact if_pos ⟨fld_eq_ofNat_iff.1 hr, fld_eq_ofNat_iff.1 hs⟩
  case bar =>
    obtain ⟨rfl, hr, rfl, hs, hop⟩ := encodeScalar_bar_iff.1 h
    rw [scalarFields, show w / 2 ^ 26 = _ from hop]
    exact if_pos ⟨fld_eq_ofNat_iff.1 hr, fld_eq_ofNat_iff.1 hs⟩
  case sset =>
    obtain ⟨rfl, hf, rfl, hr, hop⟩ := encodeScalar_sset_iff.1 h
    have hf : w / 2 ^ 11 % 2 ^ 5 = 1 := fld_eq_ofNat_iff.1 hf
    rw [scalarFields, show w / 2 ^ 26 = _ from hop]
    exact (if_neg (by omega)).trans (if_pos ⟨hf, fld_eq_ofNat_iff.1 hr⟩)
  case brk =>
    obtain ⟨rfl, hf, hop⟩ := encodeScalar_brk_iff.1 h
    have hf : w / 2 ^ 16 % 2 ^ 10 = 16 := fld_eq_ofNat_iff.1 hf
    rw [scalarFields, show w / 2 ^ 26 = _ from hop]
    exact (if_neg (by omega)).trans (if_pos hf)
  case snap =>
    obtain ⟨hr, rfl, rfl, hf, hop⟩ := encodeScalar_snap_iff.1 h
    have hf : w / 2 ^ 20 % 2 ^ 6 = 2 := fld_eq_ofNat_iff.1 hf
    rw [scalarFields, show w / 2 ^ 26 = _ from hop, decodeOp3E, if_neg (by omega), if_neg (by omega)]
    exact if_pos ⟨fld_eq_ofNat_iff.1 hr, hf⟩
  case roll =>
    obtain ⟨hr, rfl, rfl, hf, hop⟩ := encodeScalar_roll_iff.1 h
    have hf : w / 2 ^ 15 % 2 ^ 11 = 96 := fld_eq_ofNat_iff.1 hf
    rw [scalarFields, show w / 2 ^ 26 = _ from hop, decodeOp3E, if_neg (by omega), if_neg (by omega), if_neg (by omega)]
    exact if_pos ⟨fld_eq_ofNat_iff.1 hr, hf⟩
  all_goals cases h

theorem encodeScalar_of_decodeOp00 {w : Nat} {i : Instr} (hop : w / 2 ^ 26 = 0) (h : decodeOp00 w = some i) :
    encodeScalar i = some w := by
  unfold decodeOp00 at h
  iterate 24
    rcases ite_eq_iff.1 h with ⟨hf, hi⟩ | ⟨-, h⟩
    · cases hi
      exact congrArg some ((encSR_eq_iff (by decide)).2 ⟨fld_eq_ofNat_iff.2 hf, rfl, rfl, rfl, hop⟩)
  iterate 3
    rcases ite_eq_iff.1 h with ⟨hf, hi⟩ | ⟨-, h⟩
    · cases hi
      exact congrArg some ((put_regs_eq_iff (by decide)).2 ⟨fld_eq_ofNat_iff.2 hf, rfl, rfl, hop⟩)
  cases h

theorem encodeScalar_of_decodeOp3D {w : Nat} {i : Instr} (hop : w / 2 ^ 26 = 0x3D) (h : decodeOp3D w = some i) :
    encodeScalar i = some w := by
  rcases ite_eq_iff.1 h with ⟨hr, hi⟩ | ⟨-, h⟩
  · cases hi
    exact congrArg some ((encSU_eq_iff (by decide) (by decide)).2 ⟨rfl, fld_eq_ofNat_iff.2 hr, rfl, hop⟩)
  · obtain ⟨⟨hf, hr⟩, hi⟩ := Option.ite_none_right_eq_some.1 h
    cases hi
    exact encodeScalar_sset_iff.2 ⟨rfl, fld_eq_ofNat_iff.2 hf, rfl, fld_eq_ofNat_iff.2 hr, hop⟩

theorem encodeScalar_of_decodeOp3E {w : Nat} {i : Instr} (hop : w / 2 ^ 26 = 0x3E) (h : decodeOp3E w = some i) :
    encodeScalar i = some w := by
  rcases ite_eq_iff.1 h with ⟨hr, hi⟩ | ⟨-, h⟩
  · cases hi
    exact congrArg some (by omega)
  rcases ite_eq_iff.1 h with ⟨hf, hi⟩ | ⟨-, h⟩
  · cases hi
    exact encodeScalar_brk_iff.2 ⟨rfl, fld_eq_ofNat_iff.2 hf, hop⟩
  rcases ite_eq_iff.1 h with ⟨⟨hr, hf⟩, hi⟩ | ⟨-, h⟩
  · cases hi
    exact encodeScalar_snap_iff.2 ⟨fld_eq_ofNat_iff.2 hr, rfl, rfl, fld_eq_ofNat_iff.2 hf, hop⟩
  rcases ite_eq_iff.1 h with ⟨⟨hr, hf⟩, hi⟩ | ⟨-, h⟩
  · cases hi
    exact encodeScalar_roll_iff.2 ⟨fld_eq_ofNat_iff.2 hr, rfl, rfl, fld_eq_ofNat_iff.2 hf, hop⟩
  · obtain ⟨hf, hi⟩ := Option.ite_none_right_eq_some.1 h
    cases hi
    exact congrArg some (by omega)

/-- The instruction that the fields of a word make has that word: one case per layout, an opcode `k` under the tag
`h_(k + 1)` that `split` gives it. -/
theorem encodeScalar_of_scalarFields {w : Nat} {i : Instr} (h : scalarFields w = some i) : encodeScalar i = some w := by
  unfold scalarFields at h
  split at h
  case h_1 hop => exact encodeScalar_of_decodeOp00 hop h
  case h_62 hop => exact encodeScalar_of_decodeOp3D hop h
  case h_63 hop => exact encodeScalar_of_decodeOp3E hop h
  case h_64 => cases h
  -- format SI with an immediate of 16 bits
  case h_2 hop | h_3 hop | h_4 hop | h_5 hop | h_9 hop | h_10 hop | h_13 hop | h_14 hop | h_15 hop | h_16 hop | h_17 hop
      | h_18 hop | h_19 hop | h_20 hop | h_21 hop | h_22 hop | h_23 hop | h_26 hop | h_27 hop | h_28 hop | h_29 hop
      | h_30 hop | h_31 hop =>
    cases h
    exact congrArg some ((encSI_eq_iff (by decide) (by decide)).2
      ⟨rfl, fld_eq_ofNat_iff.2 (Nat.mod_one _), rfl, rfl, hop⟩)
  -- format SI with reserved bits
  case h_6 hop | h_7 hop | h_8 hop | h_39 hop | h_40 hop | h_56 hop | h_57 hop =>
    obtain ⟨hr, hi⟩ := Option.ite_none_right_eq_some.1 h
    cases hi
    exact congrArg some ((encSI_eq_iff (by decide) (by decide)).2 ⟨rfl, fld_eq_ofNat_iff.2 hr, rfl, rfl, hop⟩)
  -- format SU: lui, apc, lrun
  case h_11 hop | h_12 hop | h_37 hop =>
    cases h
    exact congrArg some ((encSU_eq_iff (by decide) (by decide)).2 ⟨rfl, fld_eq_ofNat_iff.2 (Nat.mod_one _), rfl, hop⟩)
  -- format SU with reserved bits: tlread
  case h_45 hop =>
    obtain ⟨hr, hi⟩ := Option.ite_none_right_eq_some.1 h
    cases hi
    exact congrArg some ((encSU_eq_iff (by decide) (by decide)).2 ⟨rfl, fld_eq_ofNat_iff.2 hr, rfl, hop⟩)
  -- one low field: jmp, call
  case h_32 hop | h_33 hop =>
    cases h
    exact congrArg some ((encLow_eq_iff (by decide) (by decide)).2 ⟨rfl, fld_eq_ofNat_iff.2 (Nat.mod_one _), hop⟩)
  -- one low field and reserved bits: lpad, lwait, freeze, exit, trap, svc
  case h_36 hop | h_38 hop | h_54 hop | h_59 hop | h_60 hop | h_61 hop =>
    obtain ⟨hr, hi⟩ := Option.ite_none_right_eq_some.1 h
    cases hi
    exact congrArg some ((encLow_eq_iff (by decide) (by decide)).2 ⟨rfl, fld_eq_ofNat_iff.2 hr, hop⟩)
  -- no field: ret, evwait, yield
  case h_34 hop | h_50 hop | h_58 hop =>
    obtain ⟨hr, hi⟩ := Option.ite_none_right_eq_some.1 h
    cases hi
    exact congrArg some (by omega)
  -- mxloop
  case h_51 hop =>
    obtain ⟨hr, hi⟩ := Option.ite_none_right_eq_some.1 h
    cases hi
    exact congrArg some ((put_regs_eq_iff (by decide)).2 ⟨fld_eq_ofNat_iff.2 hr, rfl, rfl, hop⟩)
  -- rel, fence
  case h_41 hop | h_43 hop =>
    obtain ⟨hr, hi⟩ := Option.ite_none_right_eq_some.1 h
    cases hi
    exact congrArg some ((put_mask_eq_iff (by decide)).2 ⟨rfl, rfl, fld_eq_ofNat_iff.2 hr, hop⟩)
  -- rcopy, rfeed, rspill
  case h_46 hop | h_47 hop | h_48 hop =>
    obtain ⟨hr, hi⟩ := Option.ite_none_right_eq_some.1 h
    cases hi
    exact congrArg some ((put_runnel_eq_iff (by decide)).2 ⟨rfl, rfl, fld_eq_ofNat_iff.2 hr, rfl, rfl, hop⟩)
  -- amo
  case h_24 hop =>
    obtain ⟨hr, hi⟩ := Option.ite_none_right_eq_some.1 h
    cases hi
    exact encodeScalar_amo_iff.2 ⟨rfl, fld_eq_ofNat_iff.2 hr, rfl, rfl, rfl, rfl, rfl, hop⟩
  -- cas
  case h_25 hop =>
    obtain ⟨hr, hi⟩ := Option.ite_none_right_eq_some.1 h
    cases hi
    exact encodeScalar_cas_iff.2 ⟨fld_eq_ofNat_iff.2 hr, rfl, rfl, rfl, rfl, rfl, hop⟩
  -- jtab
  case h_35 hop =>
    obtain ⟨⟨hr, hs⟩, hi⟩ := Option.ite_none_right_eq_some.1 h
    cases hi
    exact encodeScalar_jtab_iff.2 ⟨fld_eq_ofNat_iff.2 hr, rfl, rfl, fld_eq_ofNat_iff.2 hs, hop⟩
  -- acq
  case h_42 hop =>
    obtain ⟨⟨hr, hs⟩, hi⟩ := Option.ite_none_right_eq_some.1 h
    cases hi
    exact encodeScalar_acq_iff.2 ⟨fld_eq_ofNat_iff.2 hr, rfl, fld_eq_ofNat_iff.2 hs, hop⟩
  -- tlwait
  case h_44 hop =>
    obtain ⟨⟨hr, hs⟩, hi⟩ := Option.ite_none_right_eq_some.1 h
    cases hi
    exact encodeScalar_tlwait_iff.2 ⟨rfl, fld_eq_ofNat_iff.2 hr, rfl, fld_eq_ofNat_iff.2 hs, hop⟩
  -- evpop
  case h_49 hop =>
    obtain ⟨hr, hi⟩ := Option.ite_none_right_eq_some.1 h
    cases hi
    exact encodeScalar_evpop_iff.2 ⟨fld_eq_ofNat_iff.2 hr, rfl, hop⟩
  -- wset
  case h_52 hop =>
    obtain ⟨⟨hr, hs⟩, hi⟩ := Option.ite_none_right_eq_some.1 h
    cases hi
    exact encodeScalar_wset_iff.2 ⟨rfl, fld_eq_ofNat_iff.2 hr, rfl, rfl, rfl, fld_eq_ofNat_iff.2 hs, hop⟩
  -- wfree
  case h_53 hop =>
    obtain ⟨⟨hr, hs⟩, hi⟩ := Option.ite_none_right_eq_some.1 h
    cases hi
    exact encodeScalar_wfree_iff.2 ⟨fld_eq_ofNat_iff.2 hr, rfl, fld_eq_ofNat_iff.2 hs, hop⟩
  -- bar
  case h_55 hop =>
    obtain ⟨⟨hr, hs⟩, hi⟩ := Option.ite_none_right_eq_some.1 h
    cases hi
    exact encodeScalar_bar_iff.2 ⟨rfl, fld_eq_ofNat_iff.2 hr, rfl, fld_eq_ofNat_iff.2 hs, hop⟩

theorem scalarFields_eq_some_iff {w : Nat} {i : Instr} : scalarFields w = some i ↔ encodeScalar i = some w :=
  ⟨encodeScalar_of_scalarFields, scalarFields_of_encodeScalar⟩

theorem lt_of_scalarFields {w : Nat} {i : Instr} (h : scalarFields w = some i) : w < 2 ^ 32 := by
  unfold scalarFields at h
  split at h
  case h_64 => cases h
  all_goals omega

/-- The check of the values, after the fields have been read, decides between an instruction and ILLOP. -/
theorem checked_eq_ok_iff {i j : Instr} :
    (if wellFormed j then Except.ok j else .error Reject.illop) = .ok i ↔ some j = some i ∧ wellFormed i = true := by
  rw [Option.some_inj]
  by_cases hj : wellFormed j = true
  · rw [if_pos hj, Except.ok.injEq]
    exact ⟨fun h => ⟨h, h ▸ hj⟩, And.left⟩
  · rw [if_neg hj]
    exact ⟨nofun, fun h => absurd (h.1 ▸ h.2) hj⟩

theorem decodeScalar_eq_ok_iff {w : Nat} {i : Instr} :
    decodeScalar w = .ok i ↔ encodeScalar i = some w ∧ wellFormed i = true := by
  rw [← scalarFields_eq_some_iff, decodeScalar]
  cases scalarFields w with
  | none => exact ⟨nofun, nofun⟩
  | some j => exact checked_eq_ok_iff

/-! ## Single lane words (01 R26, R30 to R33) -/

/-- Format, mask and registers of a single lane word. -/
abbrev baseFields (vd va vb vc : BitVec 7) (mask : BitVec 4) (fmt : BitVec 5) : List Field :=
  [⟨5, fmt⟩, ⟨4, mask⟩, ⟨7, vc⟩, ⟨7, vb⟩, ⟨7, va⟩, ⟨7, vd⟩]

theorem encArith_eq_iff {op w : Nat} {f : LArith} : encArith op f = w ↔ Holds w 0
    ([⟨32, f.imm32⟩, ⟨5, 0#5⟩, ⟨1, .ofBool f.spc⟩, ⟨1, .ofBool f.imm⟩, ⟨2, f.bsel⟩, ⟨1, .ofBool f.nc⟩, ⟨1, .ofBool f.nb⟩,
      ⟨1, .ofBool f.na⟩, ⟨1, .ofBool f.sat⟩, ⟨3, f.rnd⟩] ++ baseFields f.vd f.va f.vb f.vc f.mask f.fmt) op := by
  refine eq_iff_holds _ ?_
  simp only [encArith, laneBase, List.cons_append, List.nil_append, pack, BitVec.toNat_ofBool, BitVec.toNat_ofNat]
  omega

theorem encMask_eq_iff {op w : Nat} {f : LMask} : encMask op f = w ↔ Holds w 0
    ([⟨32, f.imm32⟩, ⟨5, 0#5⟩, ⟨1, .ofBool f.spc⟩, ⟨1, .ofBool f.imm⟩, ⟨5, 0#5⟩, ⟨4, f.cnd⟩]
      ++ baseFields f.vd f.va f.vb f.vc f.mask f.fmt) op := by
  refine eq_iff_holds _ ?_
  simp only [encMask, laneBase, List.cons_append, List.nil_append, pack, BitVec.toNat_ofBool, BitVec.toNat_ofNat]
  omega

theorem encCross_eq_iff {op w : Nat} {f : LCross} : encCross op f = w ↔ Holds w 0
    ([⟨32, f.imm32⟩, ⟨5, 0#5⟩, ⟨1, .ofBool f.spc⟩, ⟨1, .ofBool f.imm⟩, ⟨2, f.bsel⟩, ⟨2, f.vk⟩, ⟨1, .ofBool f.exc⟩,
      ⟨4, f.rop⟩] ++ baseFields f.vd f.va f.vb f.vc f.mask f.fmt) op := by
  refine eq_iff_holds _ ?_
  simp only [encCross, laneBase, List.cons_append, List.nil_append, pack, BitVec.toNat_ofBool, BitVec.toNat_ofNat]
  omega

theorem encMem_eq_iff {op w : Nat} {f : LMem} : encMem op f = w ↔ Holds w 0
    ([⟨32, f.imm32⟩, ⟨2, 0#2⟩, ⟨4, f.aop⟩, ⟨1, 0#1⟩, ⟨2, f.hint⟩, ⟨3, f.col⟩, ⟨1, .ofBool f.cov⟩, ⟨3, f.scope⟩]
      ++ baseFields f.vd f.va f.vb f.vc f.mask f.fmt) op := by
  refine eq_iff_holds _ ?_
  simp only [encMem, laneBase, List.cons_append, List.nil_append, pack, BitVec.toNat_ofBool, BitVec.toNat_ofNat]
  omega

theorem encMat_eq_iff {op w : Nat} {f : LMat} : encMat op f = w ↔ Holds w 0
    ([⟨32, f.imm32⟩, ⟨7, 0#7⟩, ⟨2, f.bsel⟩, ⟨1, 0#1⟩, ⟨2, f.cop⟩, ⟨1, .ofBool f.sat⟩, ⟨3, f.rnd⟩]
      ++ baseFields f.vd f.va f.vb f.vc f.mask f.fmt) op := by
  refine eq_iff_holds _ ?_
  simp only [encMat, laneBase, List.cons_append, List.nil_append, pack, BitVec.toNat_ofBool, BitVec.toNat_ofNat]
  omega

theorem encCtl_eq_iff {op w : Nat} {f : LCtl} : encCtl op f = w ↔ Holds w 0 [⟨53, 0#53⟩, ⟨4, f.mask⟩, ⟨28, 0#28⟩] op :=
  eq_iff_holds _ (by simp only [encCtl, pack, BitVec.toNat_ofNat]; omega)

/-! The fields and the opcode that the decoder reads from a word of a class are those it was built from. -/

theorem arithFields_iff {op w : Nat} {f : LArith} : arithFields w = some f ∧ w / 2 ^ 85 = op ↔ encArith op f = w := by
  obtain ⟨⟩ := f
  simp only [encArith_eq_iff, List.cons_append, List.nil_append, Holds, Nat.reduceAdd, fld_eq_ofNat_iff, fld_eq_ofBool_iff]
  unfold arithFields
  simp only [Option.ite_none_right_eq_some, Option.some.injEq, LArith.mk.injEq]
  exact ⟨fun h => by simp only [h, Nat.zero_mod, and_self], fun h => by simp only [h, Nat.zero_mod, and_self]⟩

theorem maskFields_iff {op w : Nat} {f : LMask} : maskFields w = some f ∧ w / 2 ^ 85 = op ↔ encMask op f = w := by
  obtain ⟨⟩ := f
  simp only [encMask_eq_iff, List.cons_append, List.nil_append, Holds, Nat.reduceAdd, fld_eq_ofNat_iff, fld_eq_ofBool_iff]
  unfold maskFields
  simp only [Option.ite_none_right_eq_some, Option.some.injEq, LMask.mk.injEq]
  exact ⟨fun h => by simp only [h, Nat.zero_mod, and_self], fun h => by simp only [h, Nat.zero_mod, and_self]⟩

theorem crossFields_iff {op w : Nat} {f : LCross} : crossFields w = some f ∧ w / 2 ^ 85 = op ↔ encCross op f = w := by
  obtain ⟨⟩ := f
  simp only [encCross_eq_iff, List.cons_append, List.nil_append, Holds, Nat.reduceAdd, fld_eq_ofNat_iff, fld_eq_ofBool_iff]
  unfold crossFields
  simp only [Option.ite_none_right_eq_some, Option.some.injEq, LCross.mk.injEq]
  exact ⟨fun h => by simp only [h, Nat.zero_mod, and_self], fun h => by simp only [h, Nat.zero_mod, and_self]⟩

theorem memFields_iff {op w : Nat} {f : LMem} : memFields w = some f ∧ w / 2 ^ 85 = op ↔ encMem op f = w := by
  obtain ⟨⟩ := f
  simp only [encMem_eq_iff, List.cons_append, List.nil_append, Holds, Nat.reduceAdd, fld_eq_ofNat_iff, fld_eq_ofBool_iff,
    pow_one]
  unfold memFields
  simp only [Option.ite_none_right_eq_some, Option.some.injEq, LMem.mk.injEq]
  exact ⟨fun h => by simp only [h, Nat.zero_mod, and_self], fun h => by simp only [h, Nat.zero_mod, and_self]⟩

theorem matFields_iff {op w : Nat} {f : LMat} : matFields w = some f ∧ w / 2 ^ 85 = op ↔ encMat op f = w := by
  obtain ⟨⟩ := f
  simp only [encMat_eq_iff, List.cons_append, List.nil_append, Holds, Nat.reduceAdd, fld_eq_ofNat_iff, fld_eq_ofBool_iff,
    pow_one]
  unfold matFields
  simp only [Option.ite_none_right_eq_some, Option.some.injEq, LMat.mk.injEq]
  exact ⟨fun h => by simp only [h, Nat.zero_mod, and_self], fun h => by simp only [h, Nat.zero_mod, and_self]⟩

theorem ctlFields_iff {op w : Nat} {f : LCtl} : ctlFields w = some f ∧ w / 2 ^ 85 = op ↔ encCtl op f = w := by
  obtain ⟨⟩ := f
  simp only [encCtl_eq_iff, Holds, Nat.reduceAdd, fld_eq_ofNat_iff, pow_zero, Nat.div_one]
  unfold ctlFields
  simp only [Option.ite_none_right_eq_some, Option.some.injEq, LCtl.mk.injEq]
  exact ⟨fun h => by simp only [h, Nat.zero_mod, and_self], fun h => by simp only [h, Nat.zero_mod, and_self]⟩

/-! A class names its instructions by their opcodes, as the encoder does. -/

theorem encodeLane_of_arithInstr {op : Nat} {f : LArith} {i : Instr} (h : arithInstr op f = some i) :
    encodeLane i = some (encArith op f) := by
  unfold arithInstr at h
  split at h <;> cases h <;> rfl

theorem encodeLane_of_maskInstr {op : Nat} {f : LMask} {i : Instr} (h : maskInstr op f = some i) :
    encodeLane i = some (encMask op f) := by
  unfold maskInstr at h
  split at h <;> cases h <;> rfl

theorem encodeLane_of_crossInstr {op : Nat} {f : LCross} {i : Instr} (h : crossInstr op f = some i) :
    encodeLane i = some (encCross op f) := by
  unfold crossInstr at h
  split at h <;> cases h <;> rfl

theorem encodeLane_of_memInstr {op : Nat} {f : LMem} {i : Instr} (h : memInstr op f = some i) :
    encodeLane i = some (encMem op f) := by
  unfold memInstr at h
  split at h <;> cases h <;> rfl

theorem encodeLane_of_matInstr {op : Nat} {f : LMat} {i : Instr} (h : matInstr op f = some i) :
    encodeLane i = some (encMat op f) := by
  unfold matInstr at h
  split at h <;> cases h <;> rfl

theorem encodeLane_of_ctlInstr {op : Nat} {f : LCtl} {i : Instr} (h : ctlInstr op f = some i) :
    encodeLane i = some (encCtl op f) := by
  unfold ctlInstr at h
  split at h <;> cases h <;> rfl

/-- The word is a single one, and its fields make the instruction. -/
def SingleWord (w : Nat) (i : Instr) : Prop := w < 2 ^ 95 ∧ laneFields w = some i

theorem singleWord_encArith {op : Nat} {f : LArith} {i : Instr} (ho : op < 0xA0) (hi : arithInstr op f = some i) :
    SingleWord (encArith op f) i := by
  obtain ⟨hf, hop⟩ := arithFields_iff.2 (rfl : encArith op f = _)
  refine ⟨by omega, ?_⟩
  rw [laneFields, show encArith op f / 2 ^ 85 % 2 ^ 10 = op by omega]
  rw [if_pos (by omega), hf]
  exact hi

theorem singleWord_encMask {op : Nat} {f : LMask} {i : Instr} (ho : 0xA0 ≤ op ∧ op < 0xC0) (hi : maskInstr op f = some i) :
    SingleWord (encMask op f) i := by
  obtain ⟨hf, hop⟩ := maskFields_iff.2 (rfl : encMask op f = _)
  refine ⟨by omega, ?_⟩
  rw [laneFields, show encMask op f / 2 ^ 85 % 2 ^ 10 = op by omega]
  rw [if_neg (by omega), if_pos (by omega), hf]
  exact hi

theorem singleWord_encCross {op : Nat} {f : LCross} {i : Instr} (ho : 0xC0 ≤ op ∧ op < 0xE0) (hi : crossInstr op f = some i) :
    SingleWord (encCross op f) i := by
  obtain ⟨hf, hop⟩ := crossFields_iff.2 (rfl : encCross op f = _)
  refine ⟨by omega, ?_⟩
  rw [laneFields, show encCross op f / 2 ^ 85 % 2 ^ 10 = op by omega]
  rw [if_neg (by omega), if_neg (by omega), if_pos (by omega), hf]
  exact hi

theorem singleWord_encMem {op : Nat} {f : LMem} {i : Instr} (ho : 0xE0 ≤ op ∧ op < 0x100) (hi : memInstr op f = some i) :
    SingleWord (encMem op f) i := by
  obtain ⟨hf, hop⟩ := memFields_iff.2 (rfl : encMem op f = _)
  refine ⟨by omega, ?_⟩
  rw [laneFields, show encMem op f / 2 ^ 85 % 2 ^ 10 = op by omega]
  rw [if_neg (by omega), if_neg (by omega), if_neg (by omega), if_pos (by omega), hf]
  exact hi

theorem singleWord_encMat {op : Nat} {f : LMat} {i : Instr} (ho : 0x100 ≤ op ∧ op < 0x120) (hi : matInstr op f = some i) :
    SingleWord (encMat op f) i := by
  obtain ⟨hf, hop⟩ := matFields_iff.2 (rfl : encMat op f = _)
  refine ⟨by omega, ?_⟩
  rw [laneFields, show encMat op f / 2 ^ 85 % 2 ^ 10 = op by omega]
  rw [if_neg (by omega), if_neg (by omega), if_neg (by omega), if_neg (by omega), if_pos (by omega), hf]
  exact hi

theorem singleWord_encCtl {op : Nat} {f : LCtl} {i : Instr} (ho : 0x120 ≤ op ∧ op < 0x400) (hi : ctlInstr op f = some i) :
    SingleWord (encCtl op f) i := by
  obtain ⟨hf, hop⟩ := ctlFields_iff.2 (rfl : encCtl op f = _)
  refine ⟨by omega, ?_⟩
  rw [laneFields, show encCtl op f / 2 ^ 85 % 2 ^ 10 = op by omega]
  rw [if_neg (by omega), if_neg (by omega), if_neg (by omega), if_neg (by omega), if_neg (by omega), hf]
  exact hi

theorem encodeLane_of_laneFields {w : Nat} {i : Instr} (hw : w < 2 ^ 95) (h : laneFields w = some i) :
    encodeLane i = some w := by
  rw [laneFields, show w / 2 ^ 85 % 2 ^ 10 = w / 2 ^ 85 by omega] at h
  split_ifs at h
  · obtain ⟨f, hf, hi⟩ := Option.bind_eq_some_iff.1 h
    rw [encodeLane_of_arithInstr hi, arithFields_iff.1 ⟨hf, rfl⟩]
  · obtain ⟨f, hf, hi⟩ := Option.bind_eq_some_iff.1 h
    rw [encodeLane_of_maskInstr hi, maskFields_iff.1 ⟨hf, rfl⟩]
  · obtain ⟨f, hf, hi⟩ := Option.bind_eq_some_iff.1 h
    rw [encodeLane_of_crossInstr hi, crossFields_iff.1 ⟨hf, rfl⟩]
  · obtain ⟨f, hf, hi⟩ := Option.bind_eq_some_iff.1 h
    rw [encodeLane_of_memInstr hi, memFields_iff.1 ⟨hf, rfl⟩]
  · obtain ⟨f, hf, hi⟩ := Option.bind_eq_some_iff.1 h
    rw [encodeLane_of_matInstr hi, matFields_iff.1 ⟨hf, rfl⟩]
  · obtain ⟨f, hf, hi⟩ := Option.bind_eq_some_iff.1 h
    rw [encodeLane_of_ctlInstr hi, ctlFields_iff.1 ⟨hf, rfl⟩]

/-! ## Pairs (01 R27) -/

/-- Fields of a half. -/
abbrev halfLayout (h : Half) : List Field :=
  [⟨3, h.mod3⟩, ⟨5, h.fmt⟩, ⟨4, h.mask⟩, ⟨7, h.vc⟩, ⟨7, h.vb⟩, ⟨7, h.va⟩, ⟨7, h.vd⟩, ⟨7, h.op7⟩]

theorem encodeLane_pair_iff {a b : Half} {w : Nat} :
    encodeLane (.lanePair a b) = some w ↔ w / 2 ^ 95 = 1 ∧ w % 2 = 0 ∧ halfFields w 48 = a ∧ halfFields w 1 = b := by
  have hp : 2 ^ 95 + encHalf a * 2 ^ 48 + encHalf b * 2 = pack (⟨1, 0#1⟩ :: halfLayout b ++ halfLayout a) 1 := by
    simp only [encHalf, List.cons_append, List.nil_append, pack, BitVec.toNat_ofNat]
    omega
  obtain ⟨⟩ := a
  obtain ⟨⟩ := b
  refine Option.some_inj.trans ((eq_iff_holds _ hp).trans ?_)
  simp only [List.cons_append, List.nil_append, Holds, Nat.reduceAdd, fld_eq_ofNat_iff, pow_zero, Nat.div_one, pow_one,
    halfFields, Half.mk.injEq]
  exact ⟨fun h => by simp only [h, Nat.zero_mod, and_self], fun h => by simp only [h, Nat.zero_mod, and_self]⟩

theorem singleWord_or_pair_of_encodeLane {i : Instr} {w : Nat} (h : encodeLane i = some w) :
    SingleWord w i ∨ ∃ a b, i = .lanePair a b := by
  cases i
  case lanePair a b => exact .inr ⟨a, b, rfl⟩
  case vadd | vsub | vmul | vmulh | vmulhu | vmad | vmin | vmax | vminu | vmaxu | vand | vor | vxor | vandn | vshl | vshr
      | vsar | vrotr | vclz | vpopc | vbrev | vabs | vaddsat | vsubsat | vbfx | vbfi | vsel | vmov | vdot4 | vrqz | vfadd
      | vfsub | vfmul | vfma | vfmin | vfmax | vfabs | vfneg | vfrnd | vfclass | vnadd | vnmul | vnfma | vnmax | vnmin
      | vfdiv | vfsqrt | vrcp | vrsq | vexp2 | vlog2 | vsin | vcos | vtanh | vcvt | vcvtd | vcvtnf | vpack | vunpack | vbsc
      | vbq | vbdq =>
    cases h
    exact .inl (singleWord_encArith (by decide) rfl)
  case vcmp | vfcmp | vmlog | vmpop | vmfirst | vif | velse | vendif | vbreak =>
    cases h
    exact .inl (singleWord_encMask (by decide) rfl)
  case vshfl | vbcast | vrot | vvote | vred | vfred | vscan | vfscan | vmatch | vcompact | vexpand =>
    cases h
    exact .inl (singleWord_encCross (by decide) rfl)
  case vld | vst | vldp | vstp | vldb | vstb | vldrow | vtst | vpref | vatom | vcas | vrowatom =>
    cases h
    exact .inl (singleWord_encMem (by decide) rfl)
  case vwst | vqput | vadr | vaclr | vnrred | vnrld | vnrst | vnrclone =>
    cases h
    exact .inl (singleWord_encMat (by decide) rfl)
  case vnop | vend =>
    cases h
    exact .inl (singleWord_encCtl (by decide) rfl)
  all_goals cases h

/-! ## Lane words -/

theorem lt_of_encodeLane {i : Instr} {w : Nat} (h : encodeLane i = some w) : w < 2 ^ 96 := by
  rcases singleWord_or_pair_of_encodeLane h with ⟨hw, -⟩ | ⟨a, b, rfl⟩
  · omega
  · have hp := (encodeLane_pair_iff.1 h).1
    omega

theorem wellFormed_lanePair_iff {a b : Half} :
    wellFormed (.lanePair a b) = true ↔ (halfLegal a = true ∧ halfLegal b = true) ∧ pairLegal a b = true := by
  rw [← Bool.and_eq_true, ← Bool.and_eq_true]
  rfl

theorem decodeLane_eq_ok_iff {w : Nat} {i : Instr} (hw : w < 2 ^ 96) :
    decodeLane w = .ok i ↔ encodeLane i = some w ∧ wellFormed i = true := by
  by_cases hb : w / 2 ^ 95 % 2 = 0
  · have hs : w < 2 ^ 95 := by omega
    have hl : laneFields w = some i ↔ encodeLane i = some w := by
      refine ⟨encodeLane_of_laneFields hs, fun h => ?_⟩
      rcases singleWord_or_pair_of_encodeLane h with ⟨-, hi⟩ | ⟨a, b, rfl⟩
      · exact hi
      · have hp := (encodeLane_pair_iff.1 h).1
        omega
    rw [← hl, decodeLane, if_pos hb]
    cases laneFields w with
    | none => exact ⟨nofun, nofun⟩
    | some j => exact checked_eq_ok_iff
  · have hp : w / 2 ^ 95 = 1 := by omega
    rw [decodeLane, if_neg hb]
    dsimp only
    constructor
    · intro h
      split_ifs at h with hl hpair
      cases h
      obtain ⟨h0, hab⟩ := hl
      exact ⟨encodeLane_pair_iff.2 ⟨hp, h0, rfl, rfl⟩, wellFormed_lanePair_iff.2 ⟨hab, hpair⟩⟩
    · rintro ⟨h, hi⟩
      rcases singleWord_or_pair_of_encodeLane h with ⟨hs, -⟩ | ⟨a, b, rfl⟩
      · omega
      · obtain ⟨-, h0, rfl, rfl⟩ := encodeLane_pair_iff.1 h
        obtain ⟨hab, hpair⟩ := wellFormed_lanePair_iff.1 hi
        rw [if_pos ⟨h0, hab⟩, if_pos hpair]

/-- Settles O58: a word decodes to an instruction exactly when it is the word of that well-formed instruction. -/
theorem encodeDecode : Obligations.EncodeDecode := by
  unfold Obligations.EncodeDecode
  refine ⟨fun i w hi h => ?_, fun i w hi h => ?_, fun w i _ => decodeScalar_eq_ok_iff.1,
    fun w i hw => (decodeLane_eq_ok_iff hw).1⟩
  · exact ⟨lt_of_scalarFields (scalarFields_of_encodeScalar h), decodeScalar_eq_ok_iff.2 ⟨h, hi⟩⟩
  · have hw := lt_of_encodeLane h
    exact ⟨hw, (decodeLane_eq_ok_iff hw).2 ⟨h, hi⟩⟩

end Sys2Proof.InstructionWord

/-! # The steps of a publication and the upkeep of the logs (02 R51, R58, R63, R68 to R73); stopped teams (04 R102)

A step of the device runs to its end where its guard holds. What a Skimmer's move needs is counted: each granule takes at most four
frames of the index pool, and its appends take segments only where a log's current segment is full or is not in the segment table. -/

namespace Sys2Proof.LogSteps
open Sys2Proof Sys2Proof.Machine


/-- The step of a held notice that may go. -/
theorem exec_heldNotice {psn h cl : Nat} {p : Publication} {s : State} (hcl : cl < 48) (hp : s.pub? psn = some p)
    (hm : p.mayHold h cl = true) : ∃ t, exec (.heldNotice psn ⟨h, cl⟩) s = .next t ∧ heldNotice p h cl s = .ok () t := by
  refine ⟨_, runEventOf_ok (s' := _) ?_, rfl⟩
  simp [heldNoticeStep, M.bind_run, hp, hcl, hm, heldNotice]

/-- The step of a commit notice that may go. -/
theorem exec_commitNotice {psn cl : Nat} {p : Publication} {s : State} (hcl : cl < 48) (hp : s.pub? psn = some p)
    (hm : s.mayNotice p cl = true) : ∃ t, exec (.commitNotice psn cl) s = .next t ∧ commitNotice p cl s = .ok () t := by
  refine ⟨_, runEventOf_ok (s' := _) ?_, rfl⟩
  simp [commitNoticeStep, M.bind_run, hp, hcl, hm, commitNotice]

/-- Settles O12: each notice rewrites the index of its own cluster, and beside it only the publication's marks. -/
theorem notices : Obligations.Notices := by
  intro psn h cl p s hcl hp hpsn
  subst hpsn
  constructor
  · intro hm
    obtain ⟨t, ht, hrun⟩ := exec_heldNotice hcl hp hm
    simp only [heldNotice, M.bind_run, M.onCluster_run, M.modify_run] at hrun
    cases hrun
    exact ⟨_, ht, congrArg Cluster.ixb (State.cluster_setCluster_same ..), fun k hk => State.cluster_setCluster_ne _ _ hk, rfl, rfl⟩
  · intro hm
    obtain ⟨t, ht, hrun⟩ := exec_commitNotice hcl hp hm
    simp only [commitNotice, M.bind_run, M.onCluster_run, M.modify_run] at hrun
    cases hrun
    exact ⟨_, ht, congrArg Cluster.ixb (State.cluster_setCluster_same ..), congrArg Cluster.noticed (State.cluster_setCluster_same ..),
      fun k hk => State.cluster_setCluster_ne _ _ hk, rfl, rfl⟩

/-! ## A slice prepares (O11): the table of slices that lists a slice twice -/

/-- A publication of one granule, whose home is slice 0. -/
def onePub : Publication :=
  { psn := 1, who := .task 0, share := [⟨0, 0, []⟩], data := [], prepared := 0, heldSent := 0, committed := false, noticed := 0 }

/-- A line of frame 0 of the index pool. -/
def frameLine : HomeLine := { tag := .node 0 0, valid := 1, bad := 0, dirty := false, own := none, prot := 0 }

/-- A state whose table of slices lists slice 1 twice. The window has been snapshot since its root was made, so slice 0 copies the
root for `onePub`, into frame 0. -/
def sliceTwice : State :=
  { State.reset with
    pubs := [onePub], windows := [(0, setDescWord 0 4 1)]
    slices := [(1, { Slice.init with lines := [frameLine] }), (1, { Slice.init with prepared := 7 })] }

/-- What a slice has prepared after a step. -/
def preparedAfter (k : Nat) : Host.Outcome State Fault Refusal → Option Nat
  | .next t => some (t.slice k).prepared
  | _ => none

/-- Taking frame 0 drops its line from the first entry of slice 1, which then leaves the table as a default; the second, with another
number prepared, stands for the slice from then on. -/
theorem psnShareArrival_sliceTwice : (sliceTwice.slice 1).prepared = 0
    ∧ preparedAfter 1 (exec (.psnShareArrival 1 0) sliceTwice) = some 7 := by decide +kernel

theorem sliceTwice_copiers : ∀ u ∈ onePub.atSlice 0, ∀ o ∈ sliceTwice.copiers u.win u.gran, (sliceTwice.slice o).paused = false := by
  decide +kernel

theorem sliceTwice_nodeRoom : sliceTwice.nodeRoom (onePub.atSlice 0).length := by
  unfold State.nodeRoom
  decide +kernel

/-- Refutes O11: the statement is about every state, and in `sliceTwice` the table of slices is not in canonical form; there a node copy
of slice 0 changes what slice 1 has prepared. -/
theorem not_slicePrepares : ¬ Obligations.SlicePrepares := by
  intro h
  obtain ⟨t, ht, _, _, hothers, _⟩ := h 1 0 onePub sliceTwice (by decide) rfl rfl rfl rfl sliceTwice_copiers sliceTwice_nodeRoom
  obtain ⟨hbefore, hafter⟩ := psnShareArrival_sliceTwice
  have hkept : some (t.slice 1).prepared = some 0 := congrArg some ((hothers 1 (by decide)).trans hbefore)
  rw [ht] at hafter
  exact absurd (hkept.symm.trans hafter) (by decide)

/-! ## What the index and the caches leave of the logs -/

/-- What the free segments and the logs' places are computed from, and the bounds of the index pool. -/
def logPart (s : State) : Table Segment × Table LogState × List Nat × List (Nat × Nat) × Nat × Nat :=
  (s.segs, s.logs, s.dev.retired, s.dev.reserved, s.dev.ixBase, s.dev.ixFrames)

@[simp] theorem logPart_setSlice (s : State) (h : Nat) (c : Slice) : logPart (s.setSlice h c) = logPart s := rfl
@[simp] theorem logPart_touchHbm (s : State) (n : Nat) : logPart (s.touchHbm n) = logPart s := rfl
@[simp] theorem logPart_setWindow (s : State) (w : Nat) (d : BitVec 512) : logPart (s.setWindow w d) = logPart s := rfl
@[simp] theorem logPart_setNodeEntry (s : State) (f i : Nat) (e : BitVec 128) : logPart (s.setNodeEntry f i e) = logPart s := rfl

@[simp] theorem ixUsed_setNodeEntry (s : State) (f i : Nat) (e : BitVec 128) : (s.setNodeEntry f i e).ixUsed = s.ixUsed := rfl

@[simp] theorem logPart_touchAll (s : State) (l : List Nat) : logPart (s.touchAll l) = logPart s := rfl

@[simp] theorem logPart_touchFrame (s : State) (b : Nat) : logPart (s.touchFrame b) = logPart s := by
  rw [State.touchFrame, logPart_touchAll]

@[simp] theorem logPart_dropNodeLines (s : State) (l : List Nat) : logPart (s.dropNodeLines l) = logPart s := rfl

@[simp] theorem logPart_withFrame (s : State) (u : List Nat) (m : Memory) (b : Table Bool) :
    logPart { s with ixUsed := u, hbm := m, bad := b } = logPart s := rfl

@[simp] theorem logPart_writeBack (s : State) (v : Option HomeLine) : logPart (s.writeBack v) = logPart s := by
  unfold State.writeBack
  repeat' split
  all_goals simp

@[simp] theorem logPart_putLine (s : State) (h : Nat) (t : LineTag) (i : Nat) (bad dirty : Bool) (own : Option Nat) (hint : Nat) :
    logPart (s.putLine h t i bad dirty own hint) = logPart s := by
  unfold State.putLine
  split <;> simp

@[simp] theorem logPart_touchStructure (s : State) (b : Nat) (d : Bool) : logPart (s.touchStructure b d) = logPart s := by
  simp only [State.touchStructure, logPart_putLine]
  split <;> simp

@[simp] theorem ixUsed_touchStructure (s : State) (b : Nat) (d : Bool) : (s.touchStructure b d).ixUsed = s.ixUsed := by
  simp only [State.touchStructure, State.putLine_ixUsed]
  split <;> rfl

@[simp] theorem logPart_touchNode (s : State) (d : BitVec 512) (g lvl f i : Nat) (dirty : Bool) :
    logPart (s.touchNode d g lvl f i dirty) = logPart s := by
  simp only [State.touchNode, logPart_putLine]
  split <;> simp

@[simp] theorem ixUsed_touchNode (s : State) (d : BitVec 512) (g lvl f i : Nat) (dirty : Bool) :
    (s.touchNode d g lvl f i dirty).ixUsed = s.ixUsed := by
  simp only [State.touchNode, State.putLine_ixUsed]
  split <;> rfl

@[simp] theorem logPart_setGranEntry (s : State) (w g : Nat) (e : BitVec 128) : logPart (s.setGranEntry w g e) = logPart s := by
  unfold State.setGranEntry
  dsimp only
  split <;> simp

@[simp] theorem ixUsed_setGranEntry (s : State) (w g : Nat) (e : BitVec 128) : (s.setGranEntry w g e).ixUsed = s.ixUsed := by
  unfold State.setGranEntry
  dsimp only
  split
  · rw [ixUsed_touchNode]; rfl
  · rfl

/-! ## The index pool -/

theorem length_insertSorted_le (l : List Nat) (x : Nat) : (insertSorted l x).length ≤ l.length + 1 := by
  induction l with
  | nil => simp [insertSorted]
  | cons y r ih =>
    unfold insertSorted
    repeat' split
    all_goals simp
    exact ih

theorem length_foldl_insertSorted_le (k : List Nat) : ∀ l, (k.foldl insertSorted l).length ≤ l.length + k.length := by
  induction k with
  | nil => simp
  | cons x r ih =>
    intro l
    have := ih (insertSorted l x)
    have := length_insertSorted_le l x
    simp only [List.foldl_cons, List.length_cons]
    omega

theorem foldl_skip_le (l : List Nat) : ∀ f, l.foldl (fun f u => if u = f then f + 1 else f) f ≤ f + l.length := by
  induction l with
  | nil => simp
  | cons x r ih =>
    intro f
    have hnext : (if x = f then f + 1 else f) ≤ f + 1 := by split <;> omega
    have := ih (if x = f then f + 1 else f)
    simp only [List.foldl_cons, List.length_cons]
    omega

/-- Frames of the index pool that are in use or lost. -/
def gone (s : State) : Nat := s.lostNodes.length + s.ixUsed.length

theorem freshFrame_le (s : State) : s.freshFrame ≤ gone s := by
  have := foldl_skip_le (s.lostNodes.foldl insertSorted s.ixUsed) 0
  have := length_foldl_insertSorted_le s.lostNodes s.ixUsed
  unfold State.freshFrame gone
  omega

theorem lostNodes_of_logPart {s t : State} (h : logPart t = logPart s) : t.lostNodes = s.lostNodes := by
  simp only [logPart, Prod.mk.injEq] at h
  obtain ⟨-, -, hr, -, hb, -⟩ := h
  simp only [State.lostNodes, State.poolBase, hr, hb]
  rfl

theorem poolFrames_of_logPart {s t : State} (h : logPart t = logPart s) : t.poolFrames = s.poolFrames := by
  simp only [logPart, Prod.mk.injEq] at h
  exact h.2.2.2.2.2

/-- A computation over the index runs to its end, takes at most `n` frames of the pool, and leaves the logs alone. -/
def Takes {α : Type} (n : Nat) (m : M α) (s : State) : Prop :=
  ∃ a t, m s = .ok a t ∧ logPart t = logPart s ∧ t.ixUsed.length ≤ s.ixUsed.length + n

theorem Takes.bind {α β : Type} {n k : Nat} {m : M α} {f : α → M β} {s : State} (hm : Takes n m s)
    (hf : ∀ a t, m s = .ok a t → logPart t = logPart s → t.ixUsed.length ≤ s.ixUsed.length + n → Takes k (f a) t) :
    Takes (n + k) (m >>= f) s := by
  obtain ⟨a, t, hrun, hpart, hlen⟩ := hm
  obtain ⟨b, u, hrun', hpart', hlen'⟩ := hf a t hrun hpart hlen
  exact ⟨b, u, (M.bind_ok hrun).trans hrun', hpart'.trans hpart, by omega⟩

theorem Takes.mono {α : Type} {n k : Nat} {m : M α} {s : State} (h : Takes n m s) (hk : n ≤ k) : Takes k m s := by
  obtain ⟨a, t, hrun, hpart, hlen⟩ := h
  exact ⟨a, t, hrun, hpart, by omega⟩

theorem takes_pure {α : Type} (a : α) (s : State) : Takes 0 (pure a : M α) s := ⟨a, s, rfl, rfl, by simp⟩

theorem takes_modify {f : State → State} {s : State} (hp : logPart (f s) = logPart s) (hu : (f s).ixUsed = s.ixUsed) :
    Takes 0 (modify f) s := ⟨⟨⟩, f s, rfl, hp, by simp [hu]⟩

theorem takes_set {n : Nat} {s t : State} (hp : logPart t = logPart s) (hu : t.ixUsed.length ≤ s.ixUsed.length + n) :
    Takes n (set t : M PUnit) s := ⟨⟨⟩, t, rfl, hp, hu⟩

theorem takes_get_bind {α : Type} {n : Nat} {f : State → M α} {s : State} (h : Takes n (f s) s) : Takes n (get >>= f) s := h

theorem takes_takeFrame {s : State} (h : gone s < s.poolFrames) (o : Option Nat) : Takes 1 (takeFrame o) s := by
  have hf : ¬ s.poolFrames ≤ s.freshFrame := by have := freshFrame_le s; omega
  have hlen := length_insertSorted_le s.ixUsed s.freshFrame
  unfold takeFrame
  refine takes_get_bind ?_
  simp only [if_neg hf]
  cases o with
  | none => exact (takes_set (n := 1) (by simp) (by simpa using hlen)).bind (k := 0) fun _ t _ _ _ => takes_pure _ t
  | some g => exact (takes_set (n := 1) (by simp) (by simpa using hlen)).bind (k := 0) fun _ t _ _ _ => takes_pure _ t

theorem gone_add_le_of_takes {s t : State} {n k : Nat} (hroom : gone s + (n + k) ≤ s.poolFrames) (hp : logPart t = logPart s)
    (hu : t.ixUsed.length ≤ s.ixUsed.length + n) : gone t + k ≤ t.poolFrames := by
  unfold gone at *
  rw [lostNodes_of_logPart hp, poolFrames_of_logPart hp]
  omega

theorem takes_ensurePath (d : BitVec 512) (g : Nat) : ∀ lvl f s, gone s + lvl ≤ s.poolFrames → Takes lvl (ensurePath d g f lvl) s := by
  intro lvl
  induction lvl with
  | zero => intro f s _; exact takes_pure true s
  | succ lvl ih =>
    intro f s hroom
    have below : ∀ c t, logPart t = logPart s → t.ixUsed.length ≤ s.ixUsed.length + 1 → Takes lvl (ensurePath d g c lvl) t :=
      fun c t hp hu => ih c t (gone_add_le_of_takes (by omega) hp hu)
    have taken : ∀ o (f : Nat → State → State), (∀ c t, logPart (f c t) = logPart t ∧ (f c t).ixUsed = t.ixUsed) →
        Takes 1 (do let c ← takeFrame o; modify (f c); return c) s := fun o f hf =>
      ((takes_takeFrame (by omega) o).bind (k := 0) fun c t _ _ _ =>
        (takes_modify (hf c t).1 (hf c t).2).bind (k := 0) fun _ u _ _ _ => takes_pure c u).mono (by omega)
    have renew : ∀ o, Takes 1 (do
        let c ← takeFrame o
        modify fun s => (s.setNodeEntry f (digit g (lvl + 1)) (mkInterior c (Win.snapGen d))).touchNode d g (lvl + 1) f (digit g (lvl + 1)) true
        return c) s := fun o => taken o _ fun c t =>
        ⟨by rw [logPart_touchNode, logPart_setNodeEntry], by rw [ixUsed_touchNode, ixUsed_setNodeEntry]⟩
    unfold ensurePath
    refine takes_get_bind ?_
    dsimp only
    split
    · exact (takes_pure false s).mono (by omega)
    · refine (Takes.bind (n := 1) (k := lvl) ?_ fun c t _ hp hu => below c t hp hu).mono (by omega)
      split
      · exact renew none
      · split
        · exact renew _
        · exact (takes_pure _ s).mono (by omega)

theorem depth_lt (d : BitVec 512) : Win.depth d < 4 := Nat.mod_lt _ (by decide)

theorem takes_ensureGranule (win gran : Nat) {s : State} (hroom : gone s + 4 ≤ s.poolFrames) : Takes 4 (ensureGranule win gran) s := by
  unfold ensureGranule
  refine takes_get_bind ?_
  dsimp only
  have path : ∀ t, logPart t = logPart s → t.ixUsed.length ≤ s.ixUsed.length + 1 →
      Takes 3 (get >>= fun u => ensurePath (u.window win) (relGran (s.window win) gran) (Win.root (u.window win)) (Win.depth (u.window win))) t :=
    fun t hp hu => takes_get_bind
      ((takes_ensurePath _ _ _ _ _ (gone_add_le_of_takes (n := 1) (by have := depth_lt (t.window win); omega) hp hu)).mono
        (by have := depth_lt (t.window win); omega))
  split
  · exact (takes_pure false s).mono (by omega)
  · split
    · refine ((takes_takeFrame (by omega) _).bind (k := 3) fun c t _ hp hu => ?_).mono (by omega)
      refine ((takes_modify ?_ ?_).bind (k := 3) fun _ u _ hp' hu' => path u (hp'.trans hp) (by omega)).mono (by omega)
      · rw [logPart_touchStructure, logPart_setWindow]
      · rw [ixUsed_touchStructure, State.setWindow_ixUsed]
    · exact (path s rfl (by omega)).mono (by omega)

/-! ## Tables: their keys and their length -/

/-- A table lists a key. -/
def hasKey {β : Type} (t : Table β) (k : Nat) : Bool := t.any fun p => p.1 == k

section
variable {β : Type}

theorem hasKey_erase (t : Table β) (k j : Nat) : hasKey (t.erase k) j = (hasKey t j && j != k) := by
  induction t with
  | nil => rfl
  | cons p r ih =>
    obtain ⟨i, v⟩ := p
    unfold Table.erase
    have hcons : hasKey ((i, v) :: r) j = (i == j || hasKey r j) := rfl
    by_cases hi : i = k
    · rw [if_pos hi, ih, hcons]
      by_cases hj : i = j
      · simp [← hi, ← hj]
      · rw [beq_false_of_ne hj, Bool.false_or]
    · rw [if_neg hi, hcons, show hasKey ((i, v) :: Table.erase r k) j = (i == j || hasKey (Table.erase r k) j) from rfl, ih]
      by_cases hj : i = j
      · simp [← hj, hi]
      · rw [beq_false_of_ne hj, Bool.false_or, Bool.false_or]

theorem hasKey_insert (t : Table β) (k j : Nat) (v : β) : hasKey (t.insert k v) j = (hasKey t j || k == j) := by
  induction t with
  | nil => simp [Table.insert, hasKey]
  | cons p r ih =>
    unfold Table.insert
    split
    · simp [hasKey, Bool.or_comm]
    · simp_all [hasKey, Bool.or_assoc]

theorem length_insert (t : Table β) (k : Nat) (v : β) : (t.insert k v).length = t.length + 1 := by
  induction t with
  | nil => rfl
  | cons p r ih =>
    unfold Table.insert
    split <;> simp [ih]

theorem length_erase_add_le (t : Table β) (k : Nat) : (t.erase k).length + (hasKey t k).toNat ≤ t.length := by
  induction t with
  | nil => simp [hasKey, Table.erase]
  | cons p r ih =>
    obtain ⟨i, v⟩ := p
    unfold Table.erase
    have := Bool.toNat_le (hasKey r k)
    by_cases hi : i = k
    · simp [hi, hasKey] at *
      omega
    · simp only [if_neg hi, List.length_cons, hasKey, List.any_cons, beq_false_of_ne hi, Bool.false_or] at *
      omega

variable [DecidableEq β] {d v : β}

theorem hasKey_set (hv : v ≠ d) (t : Table β) (k j : Nat) : hasKey (Table.set d t k v) j = (hasKey t j || k == j) := by
  rw [Table.set, if_neg hv, hasKey_insert, hasKey_erase]
  by_cases h : k = j
  · simp [h]
  · have hj : (j != k) = true := bne_iff_ne.2 fun e => h e.symm
    rw [hj, Bool.and_true]

theorem length_set_add_le (hv : v ≠ d) (t : Table β) (k : Nat) : (Table.set d t k v).length + (hasKey t k).toNat ≤ t.length + 1 := by
  have := length_erase_add_le t k
  rw [Table.set, if_neg hv, length_insert]
  omega

end

/-! ## Free segments -/

/-- A segment frame is in use. -/
def listed (s : State) (f : Nat) : Bool := hasKey s.segs f

/-- Another state with the same reserved and retired frames. -/
def SameFrames (s t : State) : Prop := t.dev.retired = s.dev.retired ∧ t.dev.reserved = s.dev.reserved

theorem length_lostSegs_le {s t : State} (hd : SameFrames s t) (hl : ∀ f, listed s f = true → listed t f = true) :
    t.lostSegs.length ≤ s.lostSegs.length := by
  obtain ⟨hr, hv⟩ := hd
  unfold State.lostSegs State.reservedFrame
  rw [hr, hv]
  refine (List.monotone_filter_right _ fun f hf => ?_).length_le
  simp only [Bool.and_eq_true, Bool.not_eq_true'] at hf ⊢
  exact ⟨hf.1, Bool.eq_false_iff.2 fun h => Bool.false_ne_true (hf.2.symm.trans (hl f h))⟩

/-- An entry of the segment table takes a free segment at most where its frame was not in use. -/
theorem freeSegs_le_of_set {s t : State} {f : Nat} {g : Segment} (hd : SameFrames s t) (hg : g ≠ Segment.dflt)
    (hs : t.segs = Table.set Segment.dflt s.segs f g) : s.freeSegs + (listed s f).toNat ≤ t.freeSegs + 1 := by
  have hlost := length_lostSegs_le hd fun k hk => by
    rw [listed, hs, hasKey_set hg, ← listed, hk, Bool.true_or]
  have hlen : t.segs.length + (listed s f).toNat ≤ s.segs.length + 1 := hs ▸ length_set_add_le hg s.segs f
  have hres : t.reservedIn 0 numSegments = s.reservedIn 0 numSegments := by unfold State.reservedIn; rw [hd.2]
  have := Bool.toNat_le (listed s f)
  unfold State.freeSegs
  rw [hres]
  generalize numSegments - s.reservedIn 0 numSegments = n
  omega

/-! ## What an append takes -/

/-- The current segment of a log is not in the segment table. -/
def stray (s : State) (l : Nat) : Nat :=
  match (s.log l).seg with
  | some f => (!listed s f).toNat
  | none => 0

/-- Sectors of a log's current segment that are taken: all of them where it has none. -/
def fill (s : State) (l : Nat) : Nat :=
  match (s.log l).seg with
  | some _ => (s.log l).off
  | none => secsPerSeg

/-- What appending to a log does to the others and to the free segments: at most `c` are taken, and one more to enter a segment that the
table does not list. -/
structure Appended (l c : Nat) (s t : State) : Prop where
  frames : SameFrames s t
  pool : t.dev.ixBase = s.dev.ixBase ∧ t.dev.ixFrames = s.dev.ixFrames ∧ t.ixUsed = s.ixUsed
  others : ∀ k, k ≠ l → t.log k = s.log k
  stays : ∀ f, listed s f = true → listed t f = true
  free : s.freeSegs + stray t l ≤ t.freeSegs + stray s l + c

theorem Appended.refl (l : Nat) (s : State) : Appended l 0 s s := ⟨⟨rfl, rfl⟩, ⟨rfl, rfl, rfl⟩, fun _ _ => rfl, fun _ => id, le_rfl⟩

theorem Appended.trans {l c e : Nat} {s t u : State} (h : Appended l c s t) (k : Appended l e t u) : Appended l (c + e) s u :=
  ⟨⟨k.frames.1.trans h.frames.1, k.frames.2.trans h.frames.2⟩,
   ⟨k.pool.1.trans h.pool.1, k.pool.2.1.trans h.pool.2.1, k.pool.2.2.trans h.pool.2.2⟩,
   fun j hj => (k.others j hj).trans (h.others j hj), fun f hf => k.stays f (h.stays f hf), by have := h.free; have := k.free; omega⟩

/-- A log's own segment is written in the table. -/
theorem appended_of_set {l c f : Nat} {g : Segment} {s t : State} (hd : SameFrames s t)
    (hp : t.dev.ixBase = s.dev.ixBase ∧ t.dev.ixFrames = s.dev.ixFrames ∧ t.ixUsed = s.ixUsed) (ho : ∀ k, k ≠ l → t.log k = s.log k)
    (hg : g ≠ Segment.dflt) (hs : t.segs = Table.set Segment.dflt s.segs f g) (ht : stray t l = 0)
    (hc : 1 ≤ c + stray s l + (listed s f).toNat) : Appended l c s t := by
  refine ⟨hd, hp, ho, fun k hk => by rw [listed, hs, hasKey_set hg, ← listed, hk, Bool.true_or], ?_⟩
  have := freeSegs_le_of_set hd hg hs
  omega

theorem listed_of_set {f : Nat} {g : Segment} {s t : State} (hg : g ≠ Segment.dflt) (hs : t.segs = Table.set Segment.dflt s.segs f g) :
    listed t f = true := by rw [listed, hs, hasKey_set hg, beq_self_eq_true, Bool.or_true]

theorem log_of_set {s t : State} {l : Nat} {v : LogState} (h : t.logs = Table.set LogState.init s.logs l v) :
    t.log l = v ∧ ∀ k, k ≠ l → t.log k = s.log k := by
  unfold State.log
  rw [h]
  exact ⟨Table.get_set_same .., fun k hk => Table.get_set_ne _ _ _ hk⟩

theorem sameFrames_touchStructure (s : State) (b : Nat) (d : Bool) : SameFrames s (s.touchStructure b d) := by
  have h := logPart_touchStructure s b d
  simp only [logPart, Prod.mk.injEq] at h
  exact ⟨h.2.2.1, h.2.2.2.1⟩

theorem pool_touchStructure (s : State) (b : Nat) (d : Bool) : (s.touchStructure b d).dev.ixBase = s.dev.ixBase
    ∧ (s.touchStructure b d).dev.ixFrames = s.dev.ixFrames ∧ (s.touchStructure b d).ixUsed = s.ixUsed := by
  have h := logPart_touchStructure s b d
  simp only [logPart, Prod.mk.injEq] at h
  exact ⟨h.2.2.2.2.1, h.2.2.2.2.2, ixUsed_touchStructure ..⟩

theorem stray_of_seg_none {s : State} {l : Nat} (h : (s.log l).seg = none) : stray s l = 0 := by rw [stray, h]

theorem stray_of_seg_some {s : State} {l f : Nat} (h : (s.log l).seg = some f) : stray s l = (!listed s f).toNat := by rw [stray, h]

theorem fill_of_seg_none {s : State} {l : Nat} (h : (s.log l).seg = none) : fill s l = secsPerSeg := by rw [fill, h]

theorem fill_of_seg_some {s : State} {l f : Nat} (h : (s.log l).seg = some f) : fill s l = (s.log l).off := by rw [fill, h]

theorem stray_add_listed {s : State} {l f : Nat} (h : (s.log l).seg = some f) : stray s l + (listed s f).toNat = 1 := by
  rw [stray_of_seg_some h]
  cases listed s f <;> rfl

/-- A sealed segment was the log's own. -/
theorem sealLog_appended (s : State) (l : Nat) : Appended l 0 s (s.sealLog l) ∧ ((s.sealLog l).log l).seg = none := by
  unfold State.sealLog
  split
  · next h => exact ⟨Appended.refl l s, h⟩
  · next f h =>
    obtain ⟨hlog, hothers⟩ := log_of_set (s := s) (l := l) (v := LogState.init)
      (t := { s.touchStructure (segmentTableBase + 16 * f) true with
        segs := Table.set Segment.dflt s.segs f { Table.get Segment.dflt s.segs f with sealed := true }
        logs := Table.set LogState.init s.logs l LogState.init }) rfl
    have hnone : (State.log _ l).seg = none := congrArg LogState.seg hlog
    refine ⟨appended_of_set (f := f) (sameFrames_touchStructure ..) (pool_touchStructure ..) hothers ?_ rfl (stray_of_seg_none hnone) ?_, hnone⟩
    · exact fun e => Bool.noConfusion (congrArg Segment.sealed e)
    · have := stray_add_listed h
      omega

theorem openSeg_appended (s : State) {l : Nat} (hl : l ≠ 0) : Appended l 1 s (s.openSeg l) ∧ fill (s.openSeg l) l = 0
    ∧ stray (s.openSeg l) l = 0 := by
  have hg : ({ Segment.dflt with log := l } : Segment) ≠ Segment.dflt := fun e => hl (congrArg Segment.log e)
  obtain ⟨hlog, hothers⟩ := log_of_set (s := s) (t := s.openSeg l) (l := l)
    (v := { seg := some (s.pickFrame (s.pickStack l)), off := 0 }) rfl
  have hseg : ((s.openSeg l).log l).seg = some (s.pickFrame (s.pickStack l)) := congrArg LogState.seg hlog
  have hstray : stray (s.openSeg l) l = 0 := by rw [stray_of_seg_some hseg, listed_of_set hg (s := s) rfl]; rfl
  refine ⟨appended_of_set (f := s.pickFrame (s.pickStack l)) ?_ ?_ hothers hg rfl hstray (by omega), ?_, hstray⟩
  · obtain ⟨hr, hv⟩ := sameFrames_touchStructure s (segmentTableBase + 16 * s.pickFrame (s.pickStack l)) true
    unfold State.openSeg SameFrames Device.raise
    dsimp only
    repeat' split
    all_goals exact ⟨hr, hv⟩
  · obtain ⟨hb, hf, hu⟩ := pool_touchStructure s (segmentTableBase + 16 * s.pickFrame (s.pickStack l)) true
    unfold State.openSeg Device.raise
    dsimp only
    repeat' split
    all_goals exact ⟨hb, hf, hu⟩
  · rw [fill_of_seg_some hseg, hlog]

/-- A log with room for a run: either it had it, or a new segment is open. -/
theorem roomFor_appended (s : State) {l n : Nat} (hl : l ≠ 0) (hn : n ≠ 0) : s.roomFor l n = s ∧ fill s l + n ≤ secsPerSeg
    ∨ Appended l 1 s (s.roomFor l n) ∧ secsPerSeg < fill s l + n ∧ fill (s.roomFor l n) l = 0 := by
  obtain ⟨hopen, hfill, -⟩ := openSeg_appended s hl
  unfold State.roomFor
  split
  · next h => exact .inr ⟨hopen, by rw [fill_of_seg_none h]; omega, hfill⟩
  · next f h =>
    rw [fill_of_seg_some h]
    split
    · next hfits => exact .inl ⟨rfl, hfits⟩
    · next hfull =>
      obtain ⟨hopen, hfill, -⟩ := openSeg_appended (s.sealLog l) hl
      exact .inr ⟨(sealLog_appended s l).1.trans hopen, Nat.lt_of_not_le hfull, hfill⟩

/-- One sector at the next offset of a log whose current segment is `f`, before a full segment is sealed. -/
def written (s : State) (l f sec : Nat) (d : Delivered) : State :=
  { s.putSector (f * secsPerSeg + (s.log l).off) sec d with
    segs := Table.set Segment.dflt s.segs f { Table.get Segment.dflt s.segs f with used := (s.log l).off + 1 }
    logs := Table.set LogState.init s.logs l { seg := some f, off := (s.log l).off + 1 } }

theorem appendOne_of_seg {s : State} {l f : Nat} (h : (s.log l).seg = some f) (sec : Nat) (d : Delivered) :
    s.appendOne l sec d = if (s.log l).off + 1 = secsPerSeg then (written s l f sec d).sealLog l else written s l f sec d := by
  rw [State.appendOne, h]
  rfl

theorem appendOne_appended (s : State) (l sec : Nat) (d : Delivered) : Appended l 0 s (s.appendOne l sec d)
    ∧ fill (s.appendOne l sec d) l ≤ fill s l + 1 := by
  cases h : (s.log l).seg with
  | none => rw [show s.appendOne l sec d = s by rw [State.appendOne, h]]; exact ⟨Appended.refl l s, Nat.le_succ _⟩
  | some f =>
    have hg : ({ Table.get Segment.dflt s.segs f with used := (s.log l).off + 1 } : Segment) ≠ Segment.dflt :=
      fun e => Nat.succ_ne_zero _ (congrArg Segment.used e)
    obtain ⟨hlog, hothers⟩ := log_of_set (s := s) (t := written s l f sec d) (l := l)
      (v := { seg := some f, off := (s.log l).off + 1 }) rfl
    have hseg : ((written s l f sec d).log l).seg = some f := congrArg LogState.seg hlog
    have hstray : stray (written s l f sec d) l = 0 := by rw [stray_of_seg_some hseg, listed_of_set hg (s := s) rfl]; rfl
    have happ : Appended l 0 s (written s l f sec d) :=
      appended_of_set ⟨rfl, rfl⟩ ⟨rfl, rfl, rfl⟩ hothers hg rfl hstray (by have := stray_add_listed h; omega)
    have hfill : fill (written s l f sec d) l = fill s l + 1 := by rw [fill_of_seg_some hseg, fill_of_seg_some h, hlog]
    rw [appendOne_of_seg h]
    split
    · next hfull =>
      obtain ⟨hseal, hnone⟩ := sealLog_appended (written s l f sec d) l
      exact ⟨happ.trans hseal, by rw [fill_of_seg_none hnone, fill_of_seg_some h, hfull]⟩
    · exact ⟨happ, hfill.le⟩

theorem foldl_appendOne_appended (l : Nat) (secs : List (Nat × Delivered)) : ∀ s : State,
    Appended l 0 s (secs.foldl (fun s p => s.appendOne l p.1 p.2) s)
      ∧ fill (secs.foldl (fun s p => s.appendOne l p.1 p.2) s) l ≤ fill s l + secs.length := by
  induction secs with
  | nil => exact fun s => ⟨Appended.refl l s, le_rfl⟩
  | cons p r ih =>
    intro s
    obtain ⟨hone, hfill⟩ := appendOne_appended s l p.1 p.2
    obtain ⟨hrest, hfill'⟩ := ih (s.appendOne l p.1 p.2)
    simp only [List.foldl_cons, List.length_cons]
    exact ⟨hone.trans hrest, by omega⟩

/-- A run fits the log's segment, or takes a new one. -/
theorem appendRun_appended (s : State) {l : Nat} {secs : List (Nat × Delivered)} (hl : l ≠ 0) (hn : secs ≠ []) :
    ∃ pos t c, appendRun l secs s = .ok pos t ∧ Appended l c s t
      ∧ (c = 0 ∧ fill s l + secs.length ≤ secsPerSeg ∧ fill t l ≤ fill s l + secs.length
        ∨ c = 1 ∧ secsPerSeg < fill s l + secs.length ∧ fill t l ≤ secs.length) := by
  have hlen : secs.length ≠ 0 := fun h => hn (List.length_eq_zero_iff.1 h)
  obtain ⟨happ, hfill⟩ := foldl_appendOne_appended l secs (s.roomFor l secs.length)
  have hrun : ∃ pos, appendRun l secs s = .ok pos (secs.foldl (fun s p => s.appendOne l p.1 p.2) (s.roomFor l secs.length)) := ⟨_, rfl⟩
  obtain ⟨pos, hrun⟩ := hrun
  obtain ⟨hsame, hfits⟩ | ⟨hopen, hfull, hzero⟩ := roomFor_appended s hl hlen
  · rw [hsame] at happ hfill hrun
    exact ⟨pos, _, 0, hrun, happ, .inl ⟨rfl, hfits, hfill⟩⟩
  · rw [hzero, Nat.zero_add] at hfill
    exact ⟨pos, _, 1, hrun, hopen.trans happ, .inr ⟨rfl, hfull, hfill⟩⟩

/-! ## Segments for the granules that a Skimmer moves -/

/-- Places of 32 sectors that are taken in a log's current segment. -/
def slotsUsed (s : State) (l : Nat) : Nat := min ((fill s l + 31) / 32) 2048

/-- Home slices whose logs' current segments are not in the segment table. -/
def strays (s : State) : Nat := ∑ h ∈ Finset.range 48, stray s (48 + h)

/-- Segments for `m` more granules, each with a run for the log `l` and a sector map: the last map may be the one that finds only 3,933
segments free. -/
def SegBudget (l m : Nat) (s : State) : Prop :=
  m ≠ 0 → 3933 + (slotsUsed s l + m) / 2048 + stray s l + (m - 1) + min (strays s) (m - 1) ≤ s.freeSegs

/-- The same with the run of one more granule appended, and its sector map still to come. -/
def MapBudget (l m : Nat) (s : State) : Prop :=
  3933 + (slotsUsed s l + m) / 2048 + stray s l + m + min (strays s) m ≤ s.freeSegs

theorem stray_le_one (s : State) (l : Nat) : stray s l ≤ 1 := by
  unfold stray
  split
  · exact Bool.toNat_le _
  · exact Nat.zero_le 1

theorem strays_le (s : State) : strays s ≤ 48 := by
  calc strays s ≤ ∑ _h ∈ Finset.range 48, 1 := Finset.sum_le_sum fun h _ => stray_le_one s _
    _ = 48 := by simp

theorem segBudget_of_free {l m : Nat} {s : State} (hfree : 3933 + 2 * m ≤ s.freeSegs) : SegBudget l m s := by
  intro hm
  have hslots : slotsUsed s l ≤ 2048 := Nat.min_le_right ..
  have := stray_le_one s l
  have := strays_le s
  omega

/-- Another log's segment is as it was, and can only have come into the table. -/
theorem stray_le_of_appended {l k c : Nat} {s t : State} (h : Appended l c s t) (hk : k ≠ l) : stray t k ≤ stray s k := by
  unfold stray
  rw [h.others k hk]
  split
  · next f _ =>
    have := h.stays f
    revert this
    cases listed s f <;> cases listed t f <;> decide
  · exact le_rfl

theorem slotsUsed_of_appended {l k c : Nat} {s t : State} (h : Appended l c s t) (hk : k ≠ l) : slotsUsed t k = slotsUsed s k := by
  unfold slotsUsed fill
  rw [h.others k hk]

theorem strays_le_of_appended {l c : Nat} {s t : State} (h : Appended l c s t) (hl : 96 ≤ l) : strays t ≤ strays s :=
  Finset.sum_le_sum fun k hk => stray_le_of_appended h (by have := Finset.mem_range.1 hk; omega)

theorem strays_add_le_of_appended {h c : Nat} {s t : State} (ha : Appended (48 + h) c s t) (hh : h < 48) :
    strays t + stray s (48 + h) ≤ strays s + stray t (48 + h) := by
  have hmem := Finset.mem_range.2 hh
  have hrest : ∑ k ∈ (Finset.range 48).erase h, stray t (48 + k) ≤ ∑ k ∈ (Finset.range 48).erase h, stray s (48 + k) :=
    Finset.sum_le_sum fun k hk => stray_le_of_appended ha (by have := Finset.ne_of_mem_erase hk; omega)
  have ht : strays t = _ := (Finset.add_sum_erase _ (fun k => stray t (48 + k)) hmem).symm
  have hs : strays s = _ := (Finset.add_sum_erase _ (fun k => stray s (48 + k)) hmem).symm
  omega

theorem gone_of_appended {l c : Nat} {s t : State} (h : Appended l c s t) : gone t = gone s ∧ t.poolFrames = s.poolFrames := by
  obtain ⟨hb, hf, hu⟩ := h.pool
  refine ⟨?_, hf⟩
  unfold gone State.lostNodes State.poolBase
  rw [h.frames.1, hb, hu]

theorem log_of_logPart {s t : State} (h : logPart t = logPart s) : t.log = s.log := by
  simp only [logPart, Prod.mk.injEq] at h
  funext k
  rw [State.log, h.2.1]
  rfl

theorem listed_of_logPart {s t : State} (h : logPart t = logPart s) : listed t = listed s := by
  simp only [logPart, Prod.mk.injEq] at h
  funext k
  rw [listed, h.1]
  rfl

theorem stray_of_logPart {s t : State} (h : logPart t = logPart s) : stray t = stray s := by
  funext k
  rw [stray, log_of_logPart h, listed_of_logPart h]
  rfl

theorem slotsUsed_of_logPart {s t : State} (h : logPart t = logPart s) : slotsUsed t = slotsUsed s := by
  funext k
  rw [slotsUsed, fill, log_of_logPart h]
  rfl

theorem strays_of_logPart {s t : State} (h : logPart t = logPart s) : strays t = strays s := by
  rw [strays, stray_of_logPart h]
  rfl

theorem freeSegs_of_logPart {s t : State} (h : logPart t = logPart s) : t.freeSegs = s.freeSegs := by
  simp only [logPart, Prod.mk.injEq] at h
  obtain ⟨hsegs, -, hr, hv, -⟩ := h
  unfold State.freeSegs State.lostSegs State.reservedIn State.reservedFrame
  rw [hsegs, hr, hv]

theorem segBudget_of_logPart {s t : State} {l m : Nat} (h : logPart t = logPart s) : SegBudget l m t ↔ SegBudget l m s := by
  unfold SegBudget
  rw [freeSegs_of_logPart h, slotsUsed_of_logPart h, stray_of_logPart h, strays_of_logPart h]

/-! ## The granules a Skimmer moves -/

theorem mapBudget_of_segBudget {l m : Nat} {s : State} (h : SegBudget l (m + 1) s) : MapBudget l m s := by
  have := h (Nat.succ_ne_zero m)
  unfold MapBudget
  omega

theorem segBudget_of_mapBudget {l m : Nat} {s : State} (h : MapBudget l m s) : SegBudget l m s := by
  unfold MapBudget at h
  intro hm
  omega

theorem mayAppend_of_mapBudget {l m h : Nat} {s : State} (hb : MapBudget l m s) (hh : h < 48) : s.mayAppend (48 + h) = true := by
  have hfree : 3933 ≤ s.freeSegs := by unfold MapBudget at hb; omega
  have hlog : 48 ≤ 48 + h ∧ 48 + h < 108 := by omega
  simp [State.mayAppend, hfree, hlog]

/-- The run of a granule. -/
theorem mapBudget_of_run {l m : Nat} {s : State} {secs : List (Nat × Delivered)} (hl : 96 ≤ l) (hn : secs ≠ []) (h32 : secs.length ≤ 32)
    (hb : SegBudget l (m + 1) s) : ∃ pos t, appendRun l secs s = .ok pos t ∧ MapBudget l m t ∧ gone t = gone s ∧ t.poolFrames = s.poolFrames := by
  obtain ⟨pos, t, c, hrun, happ, hcase⟩ := appendRun_appended s (l := l) (by omega) hn
  obtain ⟨hgone, hpool⟩ := gone_of_appended happ
  refine ⟨pos, t, hrun, ?_, hgone, hpool⟩
  have hmaps := strays_le_of_appended happ hl
  have hfree := happ.free
  have := hb (Nat.succ_ne_zero m)
  have hsec : secsPerSeg = 65536 := rfl
  unfold MapBudget slotsUsed at *
  omega

/-- The sector map of a granule. -/
theorem segBudget_of_map {l m c h : Nat} {s t : State} (hl : 96 ≤ l) (hh : h < 48) (hc : c ≤ 1) (happ : Appended (48 + h) c s t)
    (hb : MapBudget l m s) : SegBudget l m t := by
  have hmaps := strays_add_le_of_appended happ hh
  have hfree := happ.free
  have hstray := stray_le_of_appended happ (k := l) (by omega)
  have hone := stray_le_one s (48 + h)
  unfold MapBudget at hb
  unfold SegBudget
  rw [slotsUsed_of_appended happ (k := l) (by omega)]
  omega

theorem sliceOfGran_lt (gran : Nat) : sliceOfGran gran < 48 := by
  have hf : ∀ g, (bits g 0 16 ^^^ bits g 16 16 ^^^ bits g 32 4) < 2 ^ 16 := fun g =>
    Nat.xor_lt_two_pow (Nat.xor_lt_two_pow (Nat.mod_lt _ (by decide)) (Nat.mod_lt _ (by decide)))
      (lt_trans (Nat.mod_lt _ (by decide)) (by decide))
  have := hf (bits (gran * 1024) 10 36)
  unfold sliceOfGran homeSlice
  dsimp only
  omega

theorem logPart_keepLines (s : State) (h win pos n : Nat) : logPart (s.keepLines h win pos n) = logPart s
    ∧ (s.keepLines h win pos n).ixUsed = s.ixUsed := by
  unfold State.keepLines
  induction List.range n generalizing s with
  | nil => exact ⟨rfl, rfl⟩
  | cons i r ih =>
    obtain ⟨hp, hu⟩ := ih (s.putLine h (.log win ((pos + i) / 4)) ((pos + i) % 4) false false (some (Win.owner (s.window win))) 0)
    exact ⟨hp.trans (logPart_putLine ..), hu.trans (State.putLine_ixUsed ..)⟩

/-- A computation runs to its end and leaves the segments for `m` granules, and the frames as they were. -/
def LeavesBudget {α : Type} (l m : Nat) (q : M α) (s : State) : Prop :=
  ∃ a t, q s = .ok a t ∧ SegBudget l m t ∧ gone t = gone s ∧ t.poolFrames = s.poolFrames

theorem leavesBudget_appendMap {l m : Nat} {s : State} (hl : 96 ≤ l) (hb : MapBudget l m s) (win gran : Nat) (ps : List (Option Nat)) :
    LeavesBudget l m (appendMap win gran ps) s := by
  have hh := sliceOfGran_lt gran
  obtain ⟨pos, t, c, hrun, happ, hcase⟩ := appendRun_appended s (l := 48 + sliceOfGran gran)
    (secs := (List.range 5).map fun i => (granSec gran, ({ data := BitVec.ofNat 256 (mapValue ps / 2 ^ (256 * i)), poison := false } : Delivered)))
    (by omega) (by simp)
  obtain ⟨hp, hu⟩ := logPart_keepLines t (sliceOfGran gran) win pos 5
  obtain ⟨hgone, hpool⟩ := gone_of_appended happ
  have hmap := segBudget_of_map hl hh (by omega) happ hb
  refine ⟨pos, t.keepLines (sliceOfGran gran) win pos 5, ?_, (segBudget_of_logPart hp).2 hmap, ?_, ?_⟩
  · exact M.bind_ok hrun
  · rw [← hgone, gone, gone, lostNodes_of_logPart hp, hu]
  · rw [← hpool, poolFrames_of_logPart hp]

/-- The entry of a granule is changed. -/
theorem leavesBudget_setGranEntry {l m : Nat} {s : State} (hb : SegBudget l m s) (win gran : Nat) (e : BitVec 128) :
    LeavesBudget l m (modify fun s => s.setGranEntry win gran e) s := by
  have hp := logPart_setGranEntry s win gran e
  refine ⟨⟨⟩, s.setGranEntry win gran e, rfl, (segBudget_of_logPart hp).2 hb, ?_, poolFrames_of_logPart hp⟩
  rw [gone, gone, lostNodes_of_logPart hp, ixUsed_setGranEntry]

theorem LeavesBudget.bind {α β : Type} {l m : Nat} {s : State} {q : M α} {k : α → M β} (hq : LeavesBudget l m q s)
    (hk : ∀ a t, SegBudget l m t → LeavesBudget l m (k a) t) : LeavesBudget l m (q >>= k) s := by
  obtain ⟨a, t, hrun, hb, hgone, hpool⟩ := hq
  obtain ⟨b, u, hrest, hb', hgone', hpool'⟩ := hk a t hb
  exact ⟨b, u, (M.bind_ok hrun).trans hrest, hb', hgone'.trans hgone, hpool'.trans hpool⟩

theorem length_sectorsIn_le (s : State) (e : BitVec 128) (seg : Nat) : (s.sectorsIn e seg).length ≤ 32 := by
  have := List.length_filter_le (fun i => match s.resolve e i with | .at_ p => segOf p == seg | _ => false) (List.range 32)
  rwa [List.length_range] at this

/-- The run of a granule, if it has sectors to move, and what follows. -/
theorem leavesBudget_run_bind {l m : Nat} {s : State} {secs : List (Nat × Delivered)} {k : Nat → M PUnit} (hl : 96 ≤ l)
    (h32 : secs.length ≤ 32) (hb : SegBudget l (m + 1) s) (hk : ∀ base t, MapBudget l m t → LeavesBudget l m (k base) t) :
    LeavesBudget l m ((if secs.isEmpty then pure 0 else appendRun l secs) >>= k) s := by
  by_cases hn : secs = []
  · subst hn
    exact hk 0 s (mapBudget_of_segBudget hb)
  · obtain ⟨pos, t, hrun, hmap, hgone, hpool⟩ := mapBudget_of_run hl hn h32 hb
    obtain ⟨u, v, hrest, hb', hgone', hpool'⟩ := hk pos t hmap
    have hne : secs.isEmpty = false := by simpa using hn
    rw [hne]
    exact ⟨u, v, (M.bind_ok hrun).trans hrest, hb', hgone'.trans hgone, hpool'.trans hpool⟩

/-- The sector map of a granule and its entry, where the home slice's log may append. -/
theorem leavesBudget_map {l m : Nat} {s : State} (hl : 96 ≤ l) (hb : MapBudget l m s) (win gran : Nat) (ps : List (Option Nat))
    (e : Nat → BitVec 128) : LeavesBudget l m (do
      waitUnless ((← get).mayAppend (48 + sliceOfGran gran)) .space
      let pos ← appendMap win gran ps
      modify fun s => s.setGranEntry win gran (e pos)) s := by
  have hmay := mayAppend_of_mapBudget hb (sliceOfGran_lt gran)
  have hrest := (leavesBudget_appendMap hl hb win gran ps).bind fun pos t hb => leavesBudget_setGranEntry hb win gran (e pos)
  unfold LeavesBudget at *
  rw [M.bind_run, M.get_run]
  dsimp only
  rw [hmay, M.bind_ok (M.waitUnless_true .space s)]
  exact hrest

theorem LeavesBudget.run {l m : Nat} {s : State} {q : M PUnit} (h : LeavesBudget l m q s) (hroom : gone s + 4 * m ≤ s.poolFrames) :
    ∃ t, q s = .ok ⟨⟩ t ∧ SegBudget l m t ∧ gone t + 4 * m ≤ t.poolFrames := by
  obtain ⟨_, t, hrun, hb, hgone, hpool⟩ := h
  exact ⟨t, hrun, hb, by omega⟩

theorem moveGranule_budget {stack m : Nat} {s : State} (seg win gran : Nat) (e : BitVec 128)
    (hgone : gone s + 4 * (m + 1) ≤ s.poolFrames) (hb : SegBudget (96 + stack) (m + 1) s) :
    ∃ t, moveGranule stack seg win gran e s = .ok ⟨⟩ t ∧ SegBudget (96 + stack) m t ∧ gone t + 4 * m ≤ t.poolFrames := by
  obtain ⟨b, s1, hrun, hpart, hlen⟩ := takes_ensureGranule win gran (s := s) (by omega)
  have hgone1 : gone s1 + 4 * m ≤ s1.poolFrames := gone_add_le_of_takes (n := 4) (by omega) hpart hlen
  have hb1 : SegBudget (96 + stack) (m + 1) s1 := (segBudget_of_logPart hpart).2 hb
  unfold moveGranule
  rw [M.bind_ok hrun]
  cases b with
  | false => exact ⟨s1, rfl, segBudget_of_mapBudget (mapBudget_of_segBudget hb1), hgone1⟩
  | true =>
    simp only [Bool.not_true, Bool.false_eq_true, if_false]
    rw [M.bind_run, M.get_run]
    dsimp only
    refine LeavesBudget.run ?_ hgone1
    refine leavesBudget_run_bind (by omega) (by rw [List.length_map]; exact length_sectorsIn_le ..) hb1 fun base t hmap => ?_
    split
    · exact leavesBudget_setGranEntry (segBudget_of_mapBudget hmap) win gran _
    · exact leavesBudget_map (by omega) hmap win gran _ _

theorem forM_moveGranule {stack : Nat} (seg : Nat) (mine : List (Nat × Nat × BitVec 128)) : ∀ s : State,
    gone s + 4 * mine.length ≤ s.poolFrames → SegBudget (96 + stack) mine.length s →
    ∃ t, mine.forM (fun g => moveGranule stack seg g.1 g.2.1 g.2.2) s = .ok ⟨⟩ t := by
  induction mine with
  | nil => exact fun s _ _ => ⟨s, rfl⟩
  | cons g r ih =>
    intro s hgone hb
    obtain ⟨t, hrun, hb', hgone'⟩ := moveGranule_budget seg g.1 g.2.1 g.2.2 hgone hb
    obtain ⟨u, hrest⟩ := ih t hgone' hb'
    exact ⟨u, (M.bind_ok hrun).trans hrest⟩

/-! ## The upkeep of the logs (O36) -/

theorem segmentSealTimeout_next {log f : Nat} {s : State} (hseg : (s.log log).seg = some f) (hoff : 0 < (s.log log).off) :
    exec (.segmentSealTimeout log) s = .next (s.sealLog log) :=
  runEventOf_ok (s' := s.sealLog log) (by simp [segmentSealTimeout, M.bind_run, hseg, hoff])

theorem touchStructure_hbm (s : State) (b : Nat) (d : Bool) : (s.touchStructure b d).hbm = s.hbm := by
  simp only [State.touchStructure, State.putLine_hbm]
  split <;> rfl

theorem touchStructure_cur (s : State) (b : Nat) (d : Bool) : (s.touchStructure b d).cur = s.cur := by
  simp only [State.touchStructure, State.putLine_cur]
  split <;> rfl

theorem touchStructure_segs (s : State) (b : Nat) (d : Bool) : (s.touchStructure b d).segs = s.segs := by
  simp only [State.touchStructure, State.putLine_segs]
  split <;> rfl

theorem touchStructure_clusters (s : State) (b : Nat) (d : Bool) : (s.touchStructure b d).clusters = s.clusters := by
  simp only [State.touchStructure, State.putLine_clusters]
  split <;> rfl

theorem touchStructure_windows (s : State) (b : Nat) (d : Bool) : (s.touchStructure b d).windows = s.windows := by
  simp only [State.touchStructure, State.putLine_windows]
  split <;> rfl

theorem sealLog_of_seg {s : State} {log f : Nat} (hseg : (s.log log).seg = some f) :
    (Table.get Segment.dflt (s.sealLog log).segs f).sealed = true ∧ ((s.sealLog log).log log).seg = none
      ∧ (s.sealLog log).hbm = s.hbm ∧ (s.sealLog log).cur = s.cur := by
  have hnone := (sealLog_appended s log).2
  refine ⟨?_, hnone, ?_⟩
  · rw [State.sealLog, hseg]
    exact congrArg Segment.sealed (Table.get_set_same ..)
  · rw [State.sealLog, hseg]
    exact ⟨touchStructure_hbm .., touchStructure_cur ..⟩

/-- A Skimmer that has moved what it must, with no malformed entry met, retires its segment. -/
theorem skimmerCompact_next {seg : Nat} {s s1 : State} {mine : List (Nat × Nat × BitVec 128)} (hfirst : s.goesFirst seg = true)
    (hmine : mine = s.liveEntries.filter (fun g => s.sectorsIn g.2.2 seg != [] || mapIn g.2.2 seg))
    (hfree : ∀ g ∈ mine, s.locked g.1 g.2.1 = false) (hbad : s.malformedEntries = [])
    (hmoved : mine.forM (fun g => moveGranule (seg / segsPerStack) seg g.1 g.2.1 g.2.2) s = .ok () s1) :
    ∃ t, exec (.skimmerCompact seg) s = .next t ∧ (Table.get Segment.dflt t.segs seg).retiring = some 0 ∧ t.hbm = s1.hbm := by
  have hall : (mine.all fun g => !s.locked g.1 g.2.1) = true := List.all_eq_true.2 fun g hg => by rw [hfree g hg]; rfl
  refine ⟨_, runEventOf_ok (s' := { s1.touchStructure (segmentTableBase + 16 * seg) true with
    segs := Table.set Segment.dflt s1.segs seg { Table.get Segment.dflt s1.segs seg with retiring := some 0 } }) ?_, ?_, ?_⟩
  · subst hmine
    rw [skimmerCompact, M.bind_run, M.get_run]
    dsimp only
    rw [hfirst, M.bind_ok (M.enabled_true s), hall, M.bind_ok (M.enabled_true s), M.bind_ok hmoved, hbad]
    rfl
  · exact congrArg Segment.retiring (Table.get_set_same ..)
  · exact touchStructure_hbm ..

theorem skimmerCompact_moves {seg : Nat} {s : State} (mine : List (Nat × Nat × BitVec 128)) (hroom : s.nodeRoom mine.length)
    (hfree : 3933 + 2 * mine.length ≤ s.freeSegs) :
    ∃ s1, mine.forM (fun g => moveGranule (seg / segsPerStack) seg g.1 g.2.1 g.2.2) s = .ok () s1 :=
  forM_moveGranule seg mine s hroom (segBudget_of_free hfree)

/-! ### Retiring -/

section
variable {β : Type}

theorem get_eq_of_key_ne {d : β} {t : Table β} {k : Nat} (h : ∀ p ∈ t, p.1 ≠ k) : Table.get d t k = d := by
  induction t with
  | nil => rfl
  | cons p r ih =>
    obtain ⟨hp, hr⟩ := List.forall_mem_cons.1 h
    obtain ⟨i, v⟩ := p
    rw [Table.get, if_neg hp, ih hr]

variable [DecidableEq β]

theorem key_ne_mapVals {d : β} {f : β → β} {t : Table β} {k : Nat} (h : ∀ p ∈ t, p.1 ≠ k) : ∀ p ∈ Table.mapVals d f t, p.1 ≠ k := by
  intro p hp
  obtain ⟨q, hq, hqp⟩ := List.mem_filterMap.1 hp
  split at hqp
  · cases hqp
  · cases hqp
    exact h q hq

theorem get_mapVals_insert {d : β} {f : β → β} {t : Table β} {k : Nat} (v : β) (h : ∀ p ∈ t, p.1 ≠ k) :
    Table.get d (Table.mapVals d f (Table.insert t k v)) k = f v := by
  have hsplit : ∀ r : Table β, (∀ p ∈ r, p.1 ≠ k) → Table.get d (Table.mapVals d f ((k, v) :: r)) k = f v := by
    intro r hr
    by_cases hv : f v = d
    · rw [Table.mapVals, List.filterMap_cons, if_pos hv]
      exact (get_eq_of_key_ne (key_ne_mapVals hr)).trans hv.symm
    · rw [Table.mapVals, List.filterMap_cons, if_neg hv]
      exact if_pos rfl
  induction t with
  | nil => exact hsplit [] h
  | cons p r ih =>
    obtain ⟨hp, hr⟩ := List.forall_mem_cons.1 h
    obtain ⟨i, w⟩ := p
    rw [Table.insert]
    split
    · exact hsplit _ h
    · rw [Table.mapVals, List.filterMap_cons]
      split
      · exact ih hr
      · next q hq =>
        split at hq
        · cases hq
        · cases hq
          rw [Table.get, if_neg hp]
          exact ih hr

/-- One key's value after a change of every value, where the table has just been written at that key. -/
theorem get_mapVals_set {d : β} {f : β → β} (t : Table β) (k : Nat) (v : β) (hd : f d = d) :
    Table.get d (Table.mapVals d f (Table.set d t k v)) k = f v := by
  have hne := Table.erase_key_ne t k
  rw [Table.set]
  split
  · next hv => rw [get_eq_of_key_ne (key_ne_mapVals hne), hv, hd]
  · exact get_mapVals_insert v hne

end

theorem ixb_setCluster_dropFrameLines (s : State) (seg cl : Nat) (c : Cluster) :
    (((s.setCluster cl c).dropFrameLines seg).cluster cl).ixb = c.ixb := by
  have h := congrArg Cluster.ixb (get_mapVals_set (d := Cluster.init) (f := fun c : Cluster => { c with lines := c.lines.filter fun l => !(l.line / 16384 == seg) })
    s.clusters cl c rfl)
  exact h

theorem ixb_freeSeg (s : State) (seg cl : Nat) : ((s.freeSeg seg).cluster cl).ixb = ((s.dropFrameLines seg).cluster cl).ixb := by
  rw [State.freeSeg, State.cluster, State.onDev_clusters]
  dsimp only
  rw [touchStructure_clusters]
  rfl

theorem freeSeg_segs (s : State) (seg : Nat) : (s.freeSeg seg).segs = s.segs.erase seg := by
  rw [State.freeSeg, State.onDev_segs]
  dsimp only
  rw [touchStructure_segs]
  rfl

theorem freeSeg_hbm (s : State) (seg : Nat) : (s.freeSeg seg).hbm = s.hbm := by
  rw [State.freeSeg, State.onDev_hbm]
  dsimp only
  rw [touchStructure_hbm]
  rfl

/-- The index entries that an acknowledgement keeps. -/
def keptEntries (s : State) (seg cl : Nat) : Cluster :=
  { s.cluster cl with ixb := (s.cluster cl).ixb.filter fun x => !(s.entrySegs x.entry).contains seg }

theorem retireNotice_next {seg cl m : Nat} {s : State} (hm : (Table.get Segment.dflt s.segs seg).retiring = some m) (hcl : cl < 48)
    (hbit : bitAt m cl = false) : ∃ t, exec (.retireNotice seg cl) s = .next t
      ∧ (t.cluster cl).ixb = (keptEntries s seg cl).ixb
      ∧ (m ||| 2 ^ cl ≠ allSlices → (Table.get Segment.dflt t.segs seg).retiring = some (m ||| 2 ^ cl))
      ∧ (m ||| 2 ^ cl = allSlices → t.segs = s.segs.erase seg) ∧ t.hbm = s.hbm := by
  by_cases hlast : m ||| 2 ^ cl = allSlices
  · refine ⟨_, runEventOf_ok (s' := (s.setCluster cl (keptEntries s seg cl)).freeSeg seg) ?_, ?_, fun h => absurd hlast h, fun _ => freeSeg_segs ..,
      freeSeg_hbm ..⟩
    · simp only [retireNotice, M.bind_run, M.get_run, hm, hcl, hbit, decide_true, Bool.not_false, Bool.and_self, M.enabled_true,
        M.onCluster_run, hlast, if_true, M.modify_run]
      rfl
    · rw [ixb_freeSeg, ixb_setCluster_dropFrameLines]
  · refine ⟨_, runEventOf_ok (s' := { s.setCluster cl (keptEntries s seg cl) with
        segs := Table.set Segment.dflt s.segs seg { Table.get Segment.dflt s.segs seg with retiring := some (m ||| 2 ^ cl) } }) ?_,
      congrArg Cluster.ixb (State.cluster_setCluster_same ..), fun _ => congrArg Segment.retiring (Table.get_set_same ..),
      fun h => absurd h hlast, rfl⟩
    simp only [retireNotice, M.bind_run, M.get_run, hm, hcl, hbit, decide_true, Bool.not_false, Bool.and_self, M.enabled_true,
      M.onCluster_run, hlast, if_false, M.modify_run]
    rfl

/-! ### Stalled appends and stale counts -/

theorem team?_unstall (s : State) (x : Staller) (uid : Nat) : (s.unstall x).team? uid = s.team? uid := by
  unfold State.unstall
  split <;> rfl

theorem onTeamId_hbm (s : State) (uid : Nat) (f : Team → Team) : (s.onTeamId uid f).hbm = s.hbm := by
  unfold State.onTeamId
  split <;> rfl

theorem unstall_hbm (s : State) (x : Staller) : (s.unstall x).hbm = s.hbm := by
  unfold State.unstall
  split <;> rfl

theorem appendResume_next {t : Team} {s : State} (hnext : s.resumeNext = some (.team t.uid)) (ht : s.team? t.uid = some t)
    (hr : t.rfault = none) :
    ∃ s', exec .appendResume s = .next s' ∧ s'.team? t.uid = some { t with status := .ready, waits := none } ∧ s'.hbm = s.hbm := by
  have ht' := (team?_unstall s (.team t.uid) t.uid).trans ht
  refine ⟨_, runEventOf_ok (s' := (s.unstall (.team t.uid)).onTeamId t.uid fun u => { u with status := .ready, waits := none }) ?_,
    State.team?_onTeamId ht' fun _ => rfl, (onTeamId_hbm ..).trans (unstall_hbm ..)⟩
  simp only [appendResume, wake, M.bind_run, M.get_run, hnext, M.modify_run, ht', Option.bind_some, hr, M.onUid_run]

theorem resumeNext_of_stallers {x : Staller} {rest : List Staller} {s : State} (hs : s.stallers = x :: rest)
    (hx : s.mayAppend (s.stallerLog x) = true) : s.resumeNext = some x := by
  rw [State.resumeNext, hs, List.find?_cons_of_pos (p := fun x => s.mayAppend (s.stallerLog x)) hx]

theorem spacealarm_next {s : State} (ha : s.dev.spaceAlarm = false) (hs : s.appendsStall = true) :
    exec .spacealarm s = .next (s.onDev fun d => { d.raise 0 1 with spaceAlarm := true }) := by
  refine runEventOf_ok ?_
  simp only [spaceAlarm, M.bind_run, M.get_run, ha, hs, Bool.not_false, Bool.and_self, M.enabled_true, M.raiseMsix_run, M.onDev_run]
  rfl

/-- A count of stale reads joins its window's STALECNT. -/
def withStale (s : State) (w n : Nat) : State :=
  (s.setWindow w (setDescWord (s.window w) 6 (Win.staleCnt (s.window w) + n))).touchStructure (windowTableBase + 64 * w + 32) true

theorem touchStructure_window (s : State) (b : Nat) (d : Bool) (w : Nat) : (s.touchStructure b d).window w = s.window w := by
  rw [State.window, touchStructure_windows]
  rfl

theorem forM_singleton {α : Type} (a : α) (f : α → M PUnit) : [a].forM f = f a >>= fun _ => pure ⟨⟩ := rfl

theorem setCluster_window (s : State) (k : Nat) (c : Cluster) (w : Nat) : (s.setCluster k c).window w = s.window w := rfl

theorem flushStale_of_singleton {cl w n : Nat} {s : State} (hs : (s.cluster cl).stale = [(w, n)]) :
    flushStale cl s = onCluster cl (fun c => { c with stale := [] }) (withStale s w n) := by
  unfold flushStale
  rw [M.bind_run, M.get_run]
  dsimp only
  rw [hs, forM_singleton, M.bind_ok (s' := withStale s w n)]
  rw [M.bind_ok (M.modify_run ..)]
  exact M.pure_run ..

theorem stalecntFlush_next {cl w n : Nat} {s : State} (hcl : cl < 48) (hs : (s.cluster cl).stale = [(w, n)]) :
    ∃ t, exec (.stalecntFlush cl) s = .next t ∧ (t.cluster cl).stale = []
      ∧ t.window w = setDescWord (s.window w) 6 (Win.staleCnt (s.window w) + n) ∧ t.hbm = s.hbm := by
  refine ⟨_, runEventOf_ok (s' := (withStale s w n).setCluster cl { (withStale s w n).cluster cl with stale := [] }) ?_,
    congrArg Cluster.stale (State.cluster_setCluster_same ..), ?_, ?_⟩
  · rw [decide_eq_true hcl, M.bind_ok (M.enabled_true s), flushStale_of_singleton hs, M.onCluster_run]
  · rw [setCluster_window, withStale, touchStructure_window, State.window_setWindow_same]
  · rw [State.setCluster_hbm, withStale, touchStructure_hbm, State.setWindow_hbm]

/-- Settles O36: the seal, the Skimmer's moves and its segment's retirement, the resumed append, the alarm and the counts. -/
theorem logUpkeep : Obligations.LogUpkeep := by
  refine ⟨fun log f s hseg hoff => ⟨_, segmentSealTimeout_next hseg hoff, sealLog_of_seg hseg⟩, ?_, ?_,
    fun t s hnext ht hr => appendResume_next hnext ht hr, fun x rest s hs hx => resumeNext_of_stallers hs hx, ?_,
    fun cl w n s hcl hs => stalecntFlush_next hcl hs⟩
  · intro seg mine s s1 hfirst hmine hlocked hbad
    refine ⟨skimmerCompact_next hfirst hmine hlocked hbad, fun hroom hfree => ?_⟩
    obtain ⟨s2, hmoved⟩ := skimmerCompact_moves (seg := seg) mine hroom hfree
    obtain ⟨t, ht, hretiring, -⟩ := skimmerCompact_next hfirst hmine hlocked hbad hmoved
    exact ⟨t, ht, hretiring⟩
  · exact fun seg cl m s hm hcl hbit => retireNotice_next hm hcl hbit
  · exact fun s ha hs => ⟨_, spacealarm_next ha hs, rfl, rfl⟩

/-! ## Stopped teams (O34): two teams of one number -/

/-- A team of number 1 that stands in a Basin stall at a PC. -/
def stalledAt (pc : Word64) : Team :=
  { Team.vacant with uid := 1, status := .waiting, waits := some .basin, s := { Scalar.init with pc := pc } }

/-- A state whose list of teams names number 1 twice, at two PCs; no bank of their core is FREE. -/
def teamTwice : State :=
  { State.reset with
    teams := [stalledAt 4, stalledAt 8]
    cores := [(0, { Core.init with banks := (List.range numBanks).map fun b => (b, .reg 99) })] }

/-- The fault that a Basin stall ends with. -/
def stallFault : TrapReq := { noTrap with code := 0x0C, src := 0, recov := true, w2 := 1 }

/-- The state of the statement: each of the teams records the fault as its own. -/
def eachRecorded : State :=
  teamTwice.onTeamId 1 fun u => { u with status := .ready, waits := none, rfault := none, faultrec := recordWords u stallFault }

/-- The fault records of the teams after a step, and after a computation. -/
def recordsAfter : Host.Outcome State Fault Refusal → Option (List (List Word64))
  | .next t => some (t.teams.map Team.faultrec)
  | _ => none
def recordsOf : EStateM.Result Stop State Unit → Option (List (List Word64))
  | .ok _ t => some (t.teams.map Team.faultrec)
  | .error _ _ => none

theorem stalledAt_stands : (teamTwice.team? 1 = some (stalledAt 4) ∧ (stalledAt 4).basinStall = true)
    ∧ (teamTwice.core (stalledAt 4).core).freeBanks = [] := by decide +kernel

theorem stallFault_eq : stallFault =
    { noTrap with code := 0x0C, src := if (stalledAt 4).l.stall = some .basin then 1 else 0, recov := true, w2 := 1 } := by decide

/-- The timeout writes the record of the first team into both. -/
theorem recordsAfter_basinStallTimeout : recordsAfter (exec (.basinStallTimeout 1) teamTwice)
    = some [recordWords (stalledAt 4) stallFault, recordWords (stalledAt 4) stallFault] := by decide +kernel

/-- In the statement's state the second team has a record with its own PC. -/
theorem recordsOf_swapOut : recordsOf (swapOut 1 (.basin 1 none) eachRecorded)
    = some [recordWords (stalledAt 4) stallFault, recordWords (stalledAt 8) stallFault] := by decide +kernel

theorem recordWords_stalledAt_ne : recordWords (stalledAt 4) stallFault ≠ recordWords (stalledAt 8) stallFault := by decide +kernel

theorem eq_ok_of_recordsOf {r : EStateM.Result Stop State Unit} {l : List (List Word64)} (h : recordsOf r = some l) : ∃ t, r = .ok () t := by
  cases r with
  | ok u t => exact ⟨t, rfl⟩
  | error e t => cases h

/-- Refutes O34: the statement is about every state, and `teamTwice` names a team's number twice; a stall's timeout then writes one
record into both, where the statement has a record of each. -/
theorem not_stoppedTeams : ¬ Obligations.StoppedTeams := by
  intro h
  obtain ⟨⟨hteam, hstall⟩, hbanks⟩ := stalledAt_stands
  obtain ⟨t, ht⟩ := eq_ok_of_recordsOf recordsOf_swapOut
  obtain ⟨-, htimeout, -⟩ := h
  have hexec : exec (.basinStallTimeout 1) teamTwice = .next t :=
    (htimeout 1 (stalledAt 4) stallFault teamTwice t hteam hstall hbanks stallFault_eq).1 ht
  have hsame : recordsAfter (.next t) = recordsOf (.ok () t) := rfl
  rw [← hexec, ← ht, recordsAfter_basinStallTimeout, recordsOf_swapOut] at hsame
  simp only [Option.some.injEq, List.cons.injEq, true_and, and_true] at hsame
  exact recordWords_stalledAt_ne hsame

end Sys2Proof.LogSteps

/-! # Every step keeps the memories in canonical form

A computation of the machine keeps the form wherever it ends or stops (`Keeps`); one rule per way of building a computation and one fact
per function of the model show it. What settles a stop keeps the form too, so the outcome of every word, event and turn does (`Stays`). -/

namespace Sys2Proof.MemoryForm
open Std.Do
open Sys2Proof Sys2Proof.Machine
set_option mvcgen.warning false
-- One theorem at a time: a thread for each of the many proofs below would not fit the memory.
set_option Elab.async false

/-! ## Updates of the state -/

section

variable (s : State)

/-- Updates of other parts leave the form as it is. -/
theorem memWf_congr {s t : State} (h : t.hbm = s.hbm ∧ t.crow = s.crow ∧ t.host = s.host) : t.memWf ↔ s.memWf := by
  unfold State.memWf; rw [h.1, h.2.1, h.2.2]

theorem memWf_foldl {α : Type} {f : State → α → State} (l : List α) (s : State) (hf : ∀ s a, (f s a).memWf ↔ s.memWf) :
    (l.foldl f s).memWf ↔ s.memWf := by
  induction l generalizing s with
  | nil => rfl
  | cons a r ih => exact (ih _).trans (hf s a)

theorem memWf_foldl_of {α : Type} {f : State → α → State} {l : List α} {s : State} (h : s.memWf)
    (hf : ∀ s a, s.memWf → (f s a).memWf) :
    (l.foldl f s).memWf := by
  induction l generalizing s with
  | nil => exact h
  | cons a r ih => exact ih (hf s a h)

@[simp] theorem memWf_withS (f) : (s.withS f).memWf ↔ s.memWf := Iff.rfl
@[simp] theorem memWf_setX (r v) : (s.setX r v).memWf ↔ s.memWf := Iff.rfl
@[simp] theorem memWf_advance : s.advance.memWf ↔ s.memWf := Iff.rfl
@[simp] theorem memWf_jumpTo (v) : (s.jumpTo v).memWf ↔ s.memWf := Iff.rfl
@[simp] theorem memWf_result (d v) : (s.result d v).memWf ↔ s.memWf := Iff.rfl
@[simp] theorem memWf_setCore (k c) : (s.setCore k c).memWf ↔ s.memWf := Iff.rfl
@[simp] theorem memWf_setCluster (k c) : (s.setCluster k c).memWf ↔ s.memWf := Iff.rfl
@[simp] theorem memWf_setSlice (k c) : (s.setSlice k c).memWf ↔ s.memWf := Iff.rfl
@[simp] theorem memWf_onTeamId (uid f) : (s.onTeamId uid f).memWf ↔ s.memWf := by unfold State.onTeamId; split <;> rfl
@[simp] theorem memWf_focus (uid) : (s.focus uid).memWf ↔ s.memWf := by unfold State.focus; split <;> [rfl; split <;> rfl]
@[simp] theorem memWf_spaceRows : s.spaceRows.memWf ↔ s.memWf := Iff.rfl
@[simp] theorem memWf_servedRow (c n) : (s.servedRow c n).memWf ↔ s.memWf := by unfold State.servedRow; split <;> rfl
@[simp] theorem memWf_touchRows (rows) : (s.touchRows rows).memWf ↔ s.memWf := Iff.rfl
@[simp] theorem memWf_touchHbm (sec) : (s.touchHbm sec).memWf ↔ s.memWf := Iff.rfl
@[simp] theorem memWf_touchAll (secs) : (s.touchAll secs).memWf ↔ s.memWf := Iff.rfl
@[simp] theorem memWf_putLine (h t i bad dirty own hint) : (s.putLine h t i bad dirty own hint).memWf ↔ s.memWf :=
  memWf_congr (by simp)
@[simp] theorem memWf_touchStructure (b d) : (s.touchStructure b d).memWf ↔ s.memWf := by
  unfold State.touchStructure; dsimp only; split <;> simp
@[simp] theorem memWf_dropFrameLines (seg) : (s.dropFrameLines seg).memWf ↔ s.memWf := Iff.rfl
@[simp] theorem memWf_stall (x) : (s.stall x).memWf ↔ s.memWf := Iff.rfl
@[simp] theorem memWf_unstall (x) : (s.unstall x).memWf ↔ s.memWf := by unfold State.unstall; split <;> rfl
@[simp] theorem memWf_sealLog (l) : (s.sealLog l).memWf ↔ s.memWf := by
  unfold State.sealLog; split
  · rfl
  · exact memWf_touchStructure s _ _
@[simp] theorem memWf_openSeg (l) : (s.openSeg l).memWf ↔ s.memWf := memWf_touchStructure s _ _
@[simp] theorem memWf_roomFor (l n) : (s.roomFor l n).memWf ↔ s.memWf := by
  unfold State.roomFor; split
  · simp
  · split <;> simp
@[simp] theorem memWf_setWindow (k d) : (s.setWindow k d).memWf ↔ s.memWf := Iff.rfl
@[simp] theorem memWf_setContext (k d) : (s.setContext k d).memWf ↔ s.memWf := Iff.rfl
@[simp] theorem memWf_touchFrame (b) : (s.touchFrame b).memWf ↔ s.memWf := memWf_touchAll s _
@[simp] theorem memWf_dropNodeLines (l) : (s.dropNodeLines l).memWf ↔ s.memWf := Iff.rfl
@[simp] theorem memWf_touchNode (d g lvl f i b) : (s.touchNode d g lvl f i b).memWf ↔ s.memWf := by
  unfold State.touchNode; dsimp only; split <;> simp
@[simp] theorem memWf_touchPath (d g) : (s.touchPath d g).memWf ↔ s.memWf := by
  unfold State.touchPath; dsimp only; split
  · rfl
  · exact memWf_foldl _ _ fun s p => memWf_touchNode s _ _ _ _ _ _
@[simp] theorem memWf_keepLines (h w p n) : (s.keepLines h w p n).memWf ↔ s.memWf :=
  memWf_foldl _ _ fun s _ => memWf_putLine s _ _ _ _ _ _ _
@[simp] theorem memWf_touchMap (w g e i) : (s.touchMap w g e i).memWf ↔ s.memWf := by
  unfold State.touchMap; dsimp only; repeat' split
  all_goals simp
@[simp] theorem memWf_dropTranslations (a b c d e) : (s.dropTranslations a b c d e).memWf ↔ s.memWf := Iff.rfl
@[simp] theorem memWf_dropCopies (c) : (s.dropCopies c).memWf ↔ s.memWf := Iff.rfl
@[simp] theorem memWf_onPub (k f) : (s.onPub k f).memWf ↔ s.memWf := Iff.rfl
@[simp] theorem memWf_branch (c o) : (s.branch c o).memWf ↔ s.memWf := by unfold State.branch; split <;> rfl
@[simp] theorem memWf_onLaunch (k f) : (s.onLaunch k f).memWf ↔ s.memWf := Iff.rfl
@[simp] theorem memWf_prunePool : s.prunePool.memWf ↔ s.memWf := Iff.rfl
@[simp] theorem memWf_touchPool (a b) : (s.touchPool a b).memWf ↔ s.memWf := Iff.rfl
@[simp] theorem memWf_freeShared (c) : (s.freeShared c).memWf ↔ s.memWf := by unfold State.freeShared; dsimp only; split <;> rfl
@[simp] theorem memWf_releaseImages : s.releaseImages.memWf ↔ s.memWf := by
  unfold State.releaseImages; dsimp only; split
  · rfl
  · exact (memWf_foldl _ _ fun s c => memWf_freeShared s _).trans (memWf_foldl _ _ fun s c => memWf_freeShared s _)
@[simp] theorem memWf_onDev (f) : (s.onDev f).memWf ↔ s.memWf := Iff.rfl
@[simp] theorem memWf_completing (i c) : (s.completing i c).memWf ↔ s.memWf := Iff.rfl
@[simp] theorem memWf_parkTeam (uid w) : (parkTeam uid s w).memWf ↔ s.memWf := memWf_onTeamId s _ _
@[simp] theorem memWf_holdFault (uid r w) : (s.holdFault uid r w).memWf ↔ s.memWf := memWf_onTeamId s _ _
@[simp] theorem memWf_parkCur (w) : (s.parkCur w).memWf ↔ s.memWf := Iff.rfl
@[simp] theorem memWf_stallLane (w) : (stallLane s w).memWf ↔ s.memWf := by unfold stallLane; cases w <;> rfl
@[simp] theorem memWf_popEvent (d) : (popEvent d s).memWf ↔ s.memWf := by unfold popEvent; split <;> rfl
@[simp] theorem memWf_dropWritten (es) : (s.dropWritten es).memWf ↔ s.memWf := memWf_foldl _ _ fun s _ => memWf_dropCopies s _
@[simp] theorem memWf_activate (e : RowEffect) : (e.activate s).memWf ↔ s.memWf := by cases e <;> rfl
@[simp] theorem memWf_clearWays (i) : (s.clearWays i).memWf ↔ s.memWf := by
  unfold State.clearWays; split
  · rfl
  · split
    · rfl
    · exact memWf_foldl _ _ fun _ _ => Iff.rfl
@[simp] theorem memWf_goOn (i) : (s.goOn i).memWf ↔ s.memWf := Iff.rfl
@[simp] theorem memWf_relocate (l o) : (s.relocate l o).memWf ↔ s.memWf := Iff.rfl
@[simp] theorem memWf_freeSeg (g) : (s.freeSeg g).memWf ↔ s.memWf := memWf_touchStructure _ _ _
@[simp] theorem memWf_resetLogic : s.resetLogic.memWf ↔ s.memWf := Iff.rfl
@[simp] theorem memWf_freeNodes : s.freeNodes.memWf ↔ s.memWf := Iff.rfl
@[simp] theorem memWf_dropSnaps (p) : (s.dropSnaps p).memWf ↔ s.memWf := by unfold State.dropSnaps; split <;> rfl
@[simp] theorem memWf_hostMask (a b) : (hostMask a b s).memWf ↔ s.memWf := Iff.rfl
@[simp] theorem memWf_ageLoop (a b) : (ageLoop a b s).memWf ↔ s.memWf := Iff.rfl
@[simp] theorem memWf_requestHalt (a) : (requestHalt a s).memWf ↔ s.memWf := memWf_onTeamId s _ _

/-! ## Updates that write -/

variable {s : State} (h : s.memWf)
include h

@[simp] theorem memWf_putSector (pos sec d) : (s.putSector pos sec d).memWf := ⟨Memory.wf_writeN _ _ _ _ h.1, h.2⟩
@[simp] theorem memWf_appendOne (l sec d) : (s.appendOne l sec d).memWf := by
  unfold State.appendOne; split
  · exact h
  · dsimp only; split
    · exact (memWf_sealLog _ _).2 (memWf_putSector h _ sec d)
    · exact memWf_putSector h _ sec d
@[simp] theorem memWf_setNodeEntry (f i e) : (s.setNodeEntry f i e).memWf := ⟨Memory.wf_writeN _ _ _ _ h.1, h.2⟩
@[simp] theorem memWf_setGranEntry (w g e) : (s.setGranEntry w g e).memWf := by
  unfold State.setGranEntry; dsimp only; split
  · exact (memWf_touchNode _ _ _ _ _ _ _).2 (memWf_setNodeEntry h _ _ _)
  · exact h
@[simp] theorem memWf_writeHost (a n v b) : (s.writeHost a n v b).memWf := ⟨h.1, h.2.1, Memory.wf_writeN _ _ _ _ h.2.2⟩
@[simp] theorem memWf_rowsWritten (a n v) : (s.rowsWritten a n v).memWf := by
  have hs := (memWf_foldl (f := fun s i => s.dropCopies (a + 32 * i)) (List.range (v / 32)) (s.touchRows [a / 1024])
    fun s _ => memWf_dropCopies s _).2 h
  obtain ⟨h1, h2, h3⟩ := hs
  exact ⟨h1, Memory.wf_writeN _ _ _ _ h2, h3⟩
@[simp] theorem memWf_atBank (p : Posted) : (p.atBank s).memWf := ⟨h.1, Memory.wf_writeN _ _ _ _ h.2.1, h.2.2⟩
@[simp] theorem memWf_apply (e : RowEffect) : (e.apply s).memWf := by
  cases e with
  | bytes a n v => exact ⟨h.1, Memory.wf_writeN _ _ _ _ h.2.1, h.2.2⟩
  | fill a ones =>
    refine ⟨h.1, ?_, h.2.2⟩
    unfold RowEffect.apply; dsimp only; split
    · exact Memory.wf_writeN 1024 s.crow a _ h.2.1
    · exact Memory.wf_clear _ _ _ h.2.1
  | copy src dst => exact ⟨h.1, Memory.wf_copy _ _ _ _ h.2.1, h.2.2⟩
@[simp] theorem memWf_perform (q : CascPass) : (q.perform s).memWf :=
  memWf_foldl_of ((memWf_dropWritten s _).2 h) fun s e hs => memWf_apply ((memWf_activate s e).2 hs) e
@[simp] theorem memWf_coldReset (b) : (coldReset b s).memWf := ⟨rfl, rfl, h.2.2⟩
@[simp] theorem memWf_writeWindow (i d) : (s.writeWindow i d).memWf := by
  unfold State.writeWindow
  extract_lets old same d1 logged fresh rebuilt s0 _ s1 _ s2
  have h1 : s1.memWf := by
    have h0 : s0.memWf := (memWf_touchStructure _ _ _).2 h
    unfold s1; split <;> exact h0
  have h2 : s2.memWf := by
    unfold s2; split
    · exact ⟨Memory.wf_clear _ _ _ h1.1, h1.2⟩
    · exact h1
  split
  · exact h2
  · exact (memWf_freeNodes _).2 ((memWf_dropSnaps _ _).2 h2)
@[simp] theorem memWf_writeView (q b) : (s.writeView q b).memWf :=
  memWf_foldl_of ⟨h.1, h.2.1, Memory.wf_clear _ _ _ h.2.2⟩ fun _ _ hs => memWf_writeHost hs _ _ _ _
@[simp] theorem memWf_hostStore (a b) : (hostStore a b s).memWf := ⟨h.1, h.2.1, Memory.wf_writeBytes _ _ _ h.2.2⟩

end

/-! ## Computations -/

section
variable {α β : Type}

@[simp] theorem memWf_mk (a b c d e f g h i) (hbm : Memory) (j k) (crow : Memory) (l) (host : Memory)
      (m n o p q r t u v w x y z aa ab ac ad ae) :
    (State.mk a b c d e f g h i hbm j k crow l host m n o p q r t u v w x y z aa ab ac ad ae).memWf
      ↔ hbm.wf = true ∧ crow.wf = true ∧ host.wf = true := Iff.rfl

theorem memWf_withDev (s : State) (d : Device) : State.memWf { s with dev := d } ↔ s.memWf := Iff.rfl

@[simp] theorem wf_hbm_of_memWf {s : State} (h : s.memWf) : s.hbm.wf = true := h.1
@[simp] theorem wf_crow_of_memWf {s : State} (h : s.memWf) : s.crow.wf = true := h.2.1
@[simp] theorem wf_host_of_memWf {s : State} (h : s.memWf) : s.host.wf = true := h.2.2

/-- A computation keeps the memories in their canonical form, where it runs to its end and where it stops. -/
abbrev Keeps (m : M α) : Prop :=
  ⦃fun s => ⌜s.memWf⌝⦄ m ⦃post⟨fun _ s => ⌜s.memWf⌝, fun _ s => ⌜s.memWf⌝⟩⦄

/-- The state that a computation reaches, whether or not it stops there. -/
def reached : EStateM.Result Stop State α → State
  | .ok _ t => t
  | .error _ t => t

@[simp] theorem reached_ok (a : α) (t : State) : reached (.ok a t) = t := rfl
@[simp] theorem reached_error (e : Stop) (t : State) : reached (.error e t : EStateM.Result Stop State α) = t := rfl

theorem keeps_iff {m : M α} : Keeps m ↔ ∀ s, s.memWf → (reached (m s)).memWf := by
  refine forall_congr' fun s => imp_congr Iff.rfl ?_
  simp only [wp, PredTrans.apply, EStateM.run]
  cases m s <;> rfl

theorem keeps_modify {f : State → State} (h : ∀ s, s.memWf → (f s).memWf) : Keeps (modify f) := keeps_iff.2 h

theorem keeps_pure (a : α) : Keeps (pure a : M α) := keeps_iff.2 fun _ => id

theorem keeps_set {t : State} (h : t.memWf) : Keeps (set t : M PUnit) := keeps_iff.2 fun _ _ => h

/-- What follows a read of the state may use that its memories are in canonical form. -/
theorem keeps_get_bind {f : State → M α} (h : ∀ s, s.memWf → Keeps (f s)) : Keeps (get >>= f) :=
  keeps_iff.2 fun s hs => keeps_iff.1 (h s hs) s hs

theorem keeps_ite {c : Prop} [Decidable c] {m n : M α} (hm : Keeps m) (hn : Keeps n) : Keeps (if c then m else n) := by
  split
  · exact hm
  · exact hn

theorem keeps_bind {m : M α} {f : α → M β} (hm : Keeps m) (hf : ∀ a, Keeps (f a)) : Keeps (m >>= f) := by
  mvcgen [hm, hf]

/-- A part that is done only where a condition holds, and what follows. -/
theorem keeps_when {c : Prop} [Decidable c] {m : M Unit} {k : Unit → M α} (hm : Keeps m) (hk : ∀ u, Keeps (k u)) :
    Keeps (if c then m >>= k else k ()) := keeps_ite (keeps_bind hm hk) (hk ())

theorem keeps_forM {l : List α} {f : α → M PUnit} (h : ∀ a, Keeps (f a)) : Keeps (l.forM f) := by
  induction l with
  | nil => exact keeps_iff.2 fun _ => id
  | cons a r ih => exact keeps_bind (h a) fun _ => ih

theorem keeps_mapM {l : List α} {f : α → M β} (h : ∀ a, Keeps (f a)) : Keeps (l.mapM f) := by
  induction l with
  | nil => rw [List.mapM_nil]; mvcgen
  | cons a r ih => rw [List.mapM_cons]; mvcgen [h, ih]

theorem keeps_foldlM {l : List α} {f : β → α → M β} (h : ∀ b a, Keeps (f b a)) (b : β) : Keeps (l.foldlM f b) := by
  induction l generalizing b with
  | nil => rw [List.foldlM_nil]; mvcgen
  | cons a r ih => rw [List.foldlM_cons]; exact keeps_bind (h b a) ih

theorem keeps_filterMapM {l : List α} {f : α → M (Option β)} (h : ∀ a, Keeps (f a)) : Keeps (l.filterMapM f) := by
  have loop : ∀ acc, Keeps (List.filterMapM.loop f l acc) := by
    induction l with
    | nil => intro acc; mvcgen [List.filterMapM.loop]
    | cons a r ih => intro acc; mvcgen [List.filterMapM.loop, h, ih]
  exact loop []

theorem keeps_filterM {l : List α} {f : α → M Bool} (h : ∀ a, Keeps (f a)) : Keeps (l.filterM f) := by
  have loop : ∀ acc, Keeps (List.filterAuxM f l acc) := by
    induction l with
    | nil => intro acc; mvcgen [List.filterAuxM]
    | cons a r ih => intro acc; mvcgen [List.filterAuxM, h, ih]
  unfold List.filterM
  mvcgen [loop]

theorem keeps_flatMapM {l : List α} {f : α → M (List β)} (h : ∀ a, Keeps (f a)) : Keeps (l.flatMapM f) := by
  have loop : ∀ acc, Keeps (List.flatMapM.loop f l acc) := by
    induction l with
    | nil => intro acc; mvcgen [List.flatMapM.loop]
    | cons a r ih => intro acc; mvcgen [List.flatMapM.loop, h, ih]
  exact loop []

/-! ### Shared operations -/

theorem keeps_onCore (k f) : Keeps (onCore k f) := by
  mvcgen [onCore]

theorem keeps_onCluster (k f) : Keeps (onCluster k f) := by
  mvcgen [onCluster]

theorem keeps_onSlice (k f) : Keeps (onSlice k f) := by
  mvcgen [onSlice]

theorem keeps_getTeam : Keeps (getTeam) := by
  mvcgen [getTeam]

theorem keeps_onTeam (f) : Keeps (onTeam f) := by
  mvcgen [onTeam]

theorem keeps_onScalar (f) : Keeps (onScalar f) := by
  mvcgen [onScalar]

theorem keeps_onLane (f) : Keeps (onLane f) := by
  mvcgen [onLane, keeps_onTeam]

theorem keeps_onHold (f) : Keeps (onHold f) := by
  mvcgen [onHold, keeps_onTeam]

theorem keeps_nextStamp : Keeps (nextStamp) := by
  mvcgen [nextStamp]

theorem keeps_drawFree : Keeps (drawFree) := by
  mvcgen [drawFree]

theorem keeps_bump (core w n) : Keeps (bump core w n) := by
  mvcgen [bump, keeps_onCore]

theorem keeps_trapWith {α : Type} (code w2) : Keeps (trapWith code w2 : M α) := by
  mvcgen [trapWith]

theorem keeps_laneTrap {α : Type} (code w2 w3) : Keeps (laneTrap code w2 w3 : M α) := by
  mvcgen [laneTrap]

theorem keeps_waitFor {α : Type} (w) : Keeps (waitFor w : M α) := by
  mvcgen [waitFor]

theorem keeps_waitUnless (b w) : Keeps (waitUnless b w) := by
  mvcgen [waitUnless, keeps_waitFor]

/-! ### Reads of rows and lines -/

theorem keeps_rowRead (who chan rows cmd) : Keeps (rowRead who chan rows cmd) := by
  mvcgen [rowRead, keeps_waitFor]
  simp_all +zetaDelta

theorem keeps_homeRead (h t i sec bad own hint) : Keeps (homeRead h t i sec bad own hint) := by
  mvcgen [homeRead] <;> simp_all

/-! ### Appends and the index -/

theorem keeps_appendRun (l secs) : Keeps (appendRun l secs) := by
  mvcgen [appendRun]
  exact memWf_foldl_of ((memWf_roomFor _ _ _).2 ‹_›) fun s p hs => memWf_appendOne hs _ _ _

theorem keeps_takeFrame (copyOf) : Keeps (takeFrame copyOf) := by
  mvcgen [takeFrame] <;> simp_all +zetaDelta [Memory.wf_clear, Memory.wf_copy]

theorem keeps_ensurePath (d g f lvl) : Keeps (ensurePath d g f lvl) := by
  induction lvl generalizing f with
  | zero => mvcgen [ensurePath]
  | succ lvl ih => mvcgen [ensurePath, keeps_takeFrame, ih] <;> simp_all +zetaDelta

theorem keeps_ensureGranule (win gran) : Keeps (ensureGranule win gran) := by
  mvcgen [ensureGranule, keeps_ensurePath, keeps_takeFrame]
  simp_all +zetaDelta

theorem keeps_appendMap (win gran ps) : Keeps (appendMap win gran ps) := by
  unfold appendMap
  exact keeps_bind (keeps_appendRun _ _) fun pos => keeps_bind (keeps_modify fun s => (memWf_keepLines s _ _ _ _).2) fun _ =>
    keeps_iff.2 fun s => id

theorem keeps_applyGranule (u) : Keeps (applyGranule u) := by
  mvcgen [applyGranule, keeps_ensureGranule, keeps_appendMap] <;> simp_all +zetaDelta

/-! ### Translation -/

theorem keeps_xlateFault {α : Type} (a code va lvl wid entry la) : Keeps (xlateFault a code va lvl wid entry la : M α) := by
  mvcgen [xlateFault]

theorem keeps_lookupGranule (win gran task) : Keeps (lookupGranule win gran task) := by
  mvcgen [lookupGranule, keeps_waitFor] <;> simp_all

theorem keeps_findSector (win sec task e) : Keeps (findSector win sec task e) := by
  mvcgen [findSector] <;> simp_all +zetaDelta

theorem keeps_homeSector (win sec pos hint) : Keeps (homeSector win sec pos hint) := by
  mvcgen [homeSector, keeps_homeRead]

theorem keeps_deliverSector (win sec task e) : Keeps (deliverSector win sec task e) := by
  mvcgen [deliverSector, keeps_findSector, keeps_homeSector]

theorem keeps_readPublished (win sec task) : Keeps (readPublished win sec task) := by
  mvcgen [readPublished, keeps_lookupGranule, keeps_deliverSector]

theorem keeps_windowAttr (cl ctx win) : Keeps (windowAttr cl ctx win) := by
  mvcgen [windowAttr, keeps_onCluster]
  simp_all

theorem keeps_readTableEntry (a t va twid la lvl) : Keeps (readTableEntry a t va twid la lvl) := by
  mvcgen [readTableEntry, keeps_windowAttr, keeps_readPublished, keeps_xlateFault]

theorem keeps_walkFrom (a t va twid fuel tab lvl) : Keeps (walkFrom a t va twid fuel tab lvl) := by
  induction fuel generalizing tab lvl with
  | zero => mvcgen [walkFrom, keeps_xlateFault]
  | succ fuel ih => mvcgen [walkFrom, keeps_xlateFault, keeps_readTableEntry, keeps_onCluster, keeps_mapM, ih]

theorem keeps_walkLeaf (a t va) : Keeps (walkLeaf a t va) := by
  mvcgen [walkLeaf, keeps_walkFrom, keeps_windowAttr, keeps_xlateFault]

theorem keeps_clusterLeaf (a t va) : Keeps (clusterLeaf a t va) := by
  mvcgen [clusterLeaf, keeps_walkLeaf, keeps_onCluster]

theorem keeps_findLeaf (a t va) : Keeps (findLeaf a t va) := by
  mvcgen [findLeaf, keeps_clusterLeaf, keeps_bump, keeps_onCore]

theorem keeps_checkVa (a va) : Keeps (checkVa a va) := by
  mvcgen [checkVa, keeps_xlateFault]

theorem keeps_checkAlign (a va n) : Keeps (checkAlign a va n) := by
  mvcgen [checkAlign, keeps_xlateFault]

theorem keeps_checkWindow (a t va l la) : Keeps (checkWindow a t va l la) := by
  have fail (code : Nat) : Keeps (xlateFault a code va 7 (some l.win) 0 la : M Unit) := keeps_xlateFault _ _ _ _ _ _ _
  refine keeps_get_bind fun s _ => ?_
  iterate 8 refine keeps_when (fail _) fun _ => ?_
  exact keeps_ite (fail _) (keeps_pure _)

theorem keeps_placeIn (a t va l) : Keeps (placeIn a t va l) := by
  mvcgen [placeIn, keeps_checkWindow]

theorem keeps_translate (a t va) : Keeps (Machine.translate a t va) := by
  mvcgen [Machine.translate, keeps_findLeaf, keeps_placeIn]

theorem keeps_devLocate (a t va) : Keeps (devLocate a t va) := by
  mvcgen [devLocate, keeps_checkVa, keeps_walkLeaf, keeps_placeIn]

theorem keeps_locate (a t va align) : Keeps (locate a t va align) := by
  mvcgen [locate, keeps_checkVa, keeps_checkAlign, keeps_translate]

/-! ### Views, dirty sectors and stash pages -/

theorem keeps_ixbFill (t win gran) : Keeps (ixbFill t win gran) := by
  mvcgen [ixbFill, keeps_lookupGranule, keeps_nextStamp, keeps_onCluster]

theorem keeps_markFills (t st who) : Keeps (markFills t st who) := by
  mvcgen [markFills, keeps_onCluster]

theorem keeps_ixbLookup (t win gran) : Keeps (ixbLookup t win gran) := by
  mvcgen [ixbLookup, keeps_ixbFill, keeps_nextStamp, keeps_onCluster, keeps_bump, keeps_waitFor]

theorem keeps_writeSpill (cl slot) : Keeps (writeSpill cl slot) := by
  unfold writeSpill
  refine keeps_bind keeps_drawFree fun a => keeps_bind keeps_drawFree fun b => keeps_modify fun s hs => ?_
  exact ⟨Memory.wf_writeN _ _ _ _ (Memory.wf_writeN _ _ _ _ hs.1), hs.2⟩

theorem keeps_stallAppend : Keeps (stallAppend) := by
  mvcgen [stallAppend, keeps_waitFor]

theorem keeps_appendGroup (cl how grp) : Keeps (appendGroup cl how grp) := by
  mvcgen [appendGroup, keeps_appendRun, keeps_onCluster, keeps_writeSpill, keeps_stallAppend]

theorem keeps_appendWhere (cl how p) : Keeps (appendWhere cl how p) := by
  mvcgen [appendWhere, keeps_appendGroup, keeps_forM]

theorem keeps_appendDirty (t mask) : Keeps (appendDirty t mask) := by
  mvcgen [appendDirty, keeps_appendWhere]

theorem keeps_makeWays (cl key must n) : Keeps (makeWays cl key must n) := by
  induction n with
  | zero => mvcgen [makeWays]
  | succ n ih => mvcgen [makeWays, keeps_appendWhere, keeps_onCluster, ih]

theorem keeps_makeWay (cl key must) : Keeps (makeWay cl key must) := by
  mvcgen [makeWay, keeps_makeWays]

theorem keeps_fillSector (t h win pos hint) : Keeps (fillSector t h win pos hint) := by
  mvcgen [fillSector, keeps_homeRead, keeps_onCluster, keeps_makeWay]

theorem keeps_readThrough (t win sec pos hint mates) : Keeps (readThrough t win sec pos hint mates) := by
  mvcgen [readThrough, keeps_onCluster, keeps_fillSector, keeps_forM]

theorem keeps_useDirty (t win sec hint) : Keeps (useDirty t win sec hint) := by
  mvcgen [useDirty, keeps_onCluster]

theorem keeps_viewSector (t win sec hint) : Keeps (viewSector t win sec hint) := by
  mvcgen [viewSector, keeps_useDirty, keeps_readThrough, keeps_ixbLookup, keeps_findSector, keeps_waitFor]

theorem keeps_countStale (t win n) : Keeps (countStale t win n) := by
  mvcgen [countStale, keeps_onCore, keeps_onCluster]

theorem keeps_makeRoom (t win sec) : Keeps (makeRoom t win sec) := by
  mvcgen [makeRoom, keeps_makeWay, keeps_appendWhere]

theorem keeps_putDirty (t win sec colour hint data poison) : Keeps (putDirty t win sec colour hint data poison) := by
  mvcgen [putDirty, keeps_makeRoom, keeps_onCluster, keeps_appendWhere]

theorem keeps_storeSector (t win sec off n v colour hint bad) : Keeps (storeSector t win sec off n v colour hint bad) := by
  mvcgen [storeSector, keeps_waitUnless, keeps_viewSector, keeps_putDirty]

theorem keeps_basinExhausted {α : Type} (n src) : Keeps (basinExhausted n src : M α) := by
  mvcgen [basinExhausted]

theorem keeps_onUid (uid f) : Keeps (onUid uid f) := by
  mvcgen [onUid]
  simp_all +zetaDelta

theorem keeps_stashPage (t page src p) : Keeps (stashPage t page src p) := by
  mvcgen [stashPage, keeps_basinExhausted, keeps_onCore, keeps_onUid]

theorem keeps_onStash (uid bank f) : Keeps (onStash uid bank f) := by
  mvcgen [onStash, keeps_onUid]

theorem keeps_fillRow (t pb row hint) : Keeps (fillRow t pb row hint) := by
  unfold fillRow
  refine keeps_bind (keeps_iff.2 fun _ => id) fun s => ?_
  dsimp only
  split
  · exact keeps_iff.2 fun _ => id
  · refine keeps_bind (keeps_foldlM (fun acc i => ?_) _) fun old => ?_
    · mvcgen [keeps_viewSector, keeps_onCore]
    · mvcgen [keeps_onStash]

theorem keeps_invalidateStash (t win line) : Keeps (invalidateStash t win line) := by
  mvcgen [invalidateStash]

theorem keeps_dropOwnRow (t win la but) : Keeps (dropOwnRow t win la but) := by
  mvcgen [dropOwnRow, keeps_onUid]

theorem keeps_readLogged (t win la n hint) : Keeps (readLogged t win la n hint) := by
  mvcgen [readLogged, keeps_viewSector]

theorem keeps_checkCra (a va cra) : Keeps (checkCra a va cra) := by
  mvcgen [checkCra]

theorem keeps_readCrow (who win la n hint) : Keeps (readCrow who win la n hint) := by
  mvcgen [readCrow, keeps_rowRead] <;> simp_all +zetaDelta

theorem keeps_inStream {α : Type} (a : Access) {m : M α} (hm : Keeps m) : Keeps (inStream a m) := by
  mvcgen [inStream, hm]
  exact id

theorem keeps_readPlace (a t va p n hint sysRead) : Keeps (readPlace a t va p n hint sysRead) := by
  mvcgen [readPlace, keeps_readLogged, keeps_waitFor, keeps_checkCra, keeps_readCrow, keeps_drawFree]

theorem keeps_postStore (t colour via target addr n v bad only) : Keeps (postStore t colour via target addr n v bad only) := by
  mvcgen [postStore, keeps_nextStamp]

theorem keeps_writePlace (a t va p n v colour hint bad only) : Keeps (writePlace a t va p n v colour hint bad only) := by
  mvcgen [writePlace, keeps_inStream, keeps_storeSector, keeps_dropOwnRow, keeps_postStore, keeps_checkCra]

/-! ### Publications and acquires -/

theorem keeps_number (who share data) : Keeps (number who share data) := by
  mvcgen [number]

theorem keeps_appendSectors (log l) : Keeps (appendSectors log l) := by
  mvcgen [appendSectors, keeps_appendRun, keeps_mapM]
  simp_all +zetaDelta

theorem keeps_publishWhere (cl who p) : Keeps (publishWhere cl who p) := by
  mvcgen [publishWhere, keeps_number, keeps_onCluster]

theorem keeps_raiseToCluster (t mask) : Keeps (raiseToCluster t mask) := by
  mvcgen [raiseToCluster, keeps_nextStamp, keeps_onCluster]

theorem keeps_discardVersion (t) : Keeps (discardVersion t) := by
  mvcgen [discardVersion, keeps_onCluster]

theorem keeps_publishClusterLevel (t) : Keeps (publishClusterLevel t) := by
  mvcgen [publishClusterLevel, keeps_publishWhere]

theorem keeps_malformedIn (l : List GranUpdate) {f : GranUpdate → M Bool} (hf : ∀ u, Keeps (f u)) : Keeps (malformedIn l f) :=
  keeps_filterMapM fun u => by mvcgen [hf]

theorem keeps_prepare (psn h) : Keeps (prepare psn h) := by
  mvcgen [prepare, keeps_malformedIn, keeps_ensureGranule, keeps_onSlice]

theorem keeps_setPsnPub (p) : Keeps (setPsnPub p) := by
  mvcgen [setPsnPub, keeps_forM]
  simp_all +zetaDelta

theorem keeps_settleTask (p) : Keeps (settleTask p) := keeps_modify fun s hs => by
  dsimp only
  repeat' split
  all_goals
    repeat rw [memWf_onTeamId]
    exact hs

theorem keeps_commitRoot (p) : Keeps (commitRoot p) := by
  refine keeps_get_bind fun s hs => ?_
  split
  · refine keeps_bind (keeps_set ?_) fun _ => keeps_onUid _ _
    rw [memWf_mk]
    exact (memWf_touchStructure ..).2 ((memWf_touchStructure ..).2 ((memWf_setWindow ..).2 hs))
  · split
    · exact keeps_set ((memWf_touchStructure ..).2 ((memWf_setWindow ..).2 hs))
    · exact keeps_pure _
  · exact keeps_pure _

theorem keeps_commit (p) : Keeps (commit p) := by
  mvcgen [commit, keeps_malformedIn, keeps_applyGranule, keeps_setPsnPub, keeps_commitRoot, keeps_settleTask]

theorem keeps_heldNotice (p h cl) : Keeps (heldNotice p h cl) := by
  mvcgen [heldNotice, keeps_onCluster]

theorem keeps_commitNotice (p cl) : Keeps (commitNotice p cl) := by
  mvcgen [commitNotice, keeps_onCluster]

theorem keeps_flushStale (cl) : Keeps (flushStale cl) := by
  mvcgen [flushStale, keeps_onCluster, keeps_forM]
  simp_all +zetaDelta

theorem keeps_dropCovered (t upTo) : Keeps (dropCovered t upTo) := by
  mvcgen [dropCovered, keeps_onUid]

theorem keeps_acquireDevice (t) : Keeps (acquireDevice t) := by
  mvcgen [acquireDevice, keeps_waitUnless, keeps_nextStamp, keeps_flushStale, keeps_dropCovered, keeps_onCluster, keeps_onUid]

theorem keeps_acquireCluster (t) : Keeps (acquireCluster t) := by
  mvcgen [acquireCluster, keeps_nextStamp, keeps_dropCovered, keeps_onUid]

theorem keeps_atomicView (win sec task) : Keeps (atomicView win sec task) := by
  mvcgen [atomicView, keeps_deliverSector] <;> simp_all

theorem keeps_collect (h d) : Keeps (collect h d) := by
  mvcgen [collect, keeps_waitUnless, keeps_onSlice]

/-! ### Atomics at a home slice -/

theorem keeps_performWord (h r) : Keeps (performWord h r) := by
  mvcgen [performWord, keeps_atomicView, keeps_collect]

theorem keeps_rowSectors (r aop len lanes) : Keeps (rowSectors r aop len lanes) :=
  keeps_foldlM (fun acc i => by mvcgen [keeps_atomicView]) _

theorem keeps_performRow (h r aop len lanes) : Keeps (performRow h r aop len lanes) := by
  mvcgen [performRow, keeps_rowSectors, keeps_collect, keeps_appendSectors, keeps_number, keeps_forM]

theorem keeps_performAtomic (h r) : Keeps (performAtomic h r) := by
  mvcgen [performAtomic, keeps_onSlice, keeps_performRow, keeps_performWord]

theorem keeps_closeCollection (h l) : Keeps (closeCollection h l) := by
  mvcgen [closeCollection, keeps_onSlice, keeps_appendSectors, keeps_number]

theorem keeps_sendAtomic (t p what dest sys va) : Keeps (sendAtomic t p what dest sys va) := by
  mvcgen [sendAtomic, keeps_nextStamp, keeps_onSlice]

/-! ### Lane registers -/

theorem keeps_setForm (r f) : Keeps (setForm r f) := by
  mvcgen [setForm, keeps_onTeam, keeps_onCore]

theorem keeps_reform (r) : Keeps (reform r) := by
  mvcgen [reform, keeps_setForm]

theorem keeps_expandReg (r k) : Keeps (expandReg r k) := by
  mvcgen [expandReg, keeps_setForm, keeps_bump]

theorem keeps_copyFault (r) : Keeps (copyFault r) := by
  mvcgen [copyFault, keeps_waitFor, keeps_onCore, keeps_onTeam, keeps_bump]

theorem keeps_putRow (r w mask row) : Keeps (putRow r w mask row) := by
  mvcgen [putRow, keeps_onCore]

/-! ### Pools, images and the ends of teams -/

theorem keeps_takePool (who n) : Keeps (takePool who n) := by
  mvcgen [takePool, keeps_waitFor]

theorem keeps_savePoolImages : Keeps (savePoolImages) := by
  mvcgen [savePoolImages, keeps_takePool, keeps_forM]

theorem keeps_whole {m : M Unit} (hm : Keeps m) : Keeps (whole m) :=
  keeps_iff.2 fun s hs => by
    have h := keeps_iff.1 hm s hs
    unfold whole
    split <;> simp_all

theorem keeps_copyBank (core b at_) : Keeps (copyBank core b at_) := by
  mvcgen [copyBank, keeps_waitFor, keeps_onCore, keeps_waitUnless]

theorem keeps_spreadTo (i core) : Keeps (spreadTo i core) := by
  mvcgen [spreadTo, keeps_copyBank, keeps_mapM]
  intro s hs
  split
  · exact hs
  · exact keeps_copyBank _ _ _ s hs

theorem keeps_removeEngines (t) : Keeps (removeEngines t) := by
  mvcgen [removeEngines, keeps_onCore, keeps_onCluster]

theorem keeps_cancelEngines (t) : Keeps (cancelEngines t) := by
  mvcgen [cancelEngines, keeps_removeEngines, keeps_onUid]

theorem keeps_freeOwnBanks (t) : Keeps (freeOwnBanks t) := by
  mvcgen [freeOwnBanks, keeps_onCore]

theorem keeps_countEnd (t trapped status) : Keeps (countEnd t trapped status) := by
  mvcgen [countEnd]

theorem keeps_freeImages : Keeps freeImages :=
  keeps_iff.2 fun s hs => by
    have h := keeps_iff.1 keeps_savePoolImages s.releaseImages.prunePool (by simpa)
    unfold freeImages
    split <;> simp_all

theorem keeps_dropTeam (uid) : Keeps (dropTeam uid) := by
  unfold dropTeam
  refine keeps_bind (keeps_modify fun s hs => ?_) fun _ => keeps_freeImages
  split <;> exact hs

theorem keeps_endTeam (t) : Keeps (endTeam t) := by
  mvcgen [endTeam, keeps_cancelEngines, keeps_freeOwnBanks, keeps_dropTeam]

theorem keeps_swapOut (uid why) : Keeps (swapOut uid why) := keeps_whole <| by
  refine keeps_get_bind fun s _ => ?_
  split
  · exact keeps_pure _
  · refine keeps_get_bind fun s _ => keeps_bind (keeps_waitUnless _ _) fun _ => keeps_bind (keeps_appendWhere _ _ _) fun _ =>
      keeps_bind (keeps_publishClusterLevel _) fun _ => keeps_get_bind fun s _ => keeps_bind (keeps_onCluster _ _) fun _ =>
      keeps_bind (keeps_removeEngines _) fun _ => keeps_bind (keeps_freeOwnBanks _) fun _ => keeps_bind (keeps_bump _ _ _) fun _ =>
      keeps_bind (keeps_onUid _ _) fun _ => keeps_bind (keeps_takePool _ _) fun _ =>
      keeps_bind (keeps_modify fun s => (memWf_releaseImages s).2) fun _ => keeps_savePoolImages

theorem keeps_placeBanks (t v core) : Keeps (placeBanks t v core) := by
  refine keeps_bind (keeps_forM fun r => ?_) fun _ => keeps_bind ?_ fun priv => keeps_bind (keeps_foldlM (fun acc q => ?_) _) fun tiles =>
    keeps_foldlM (fun acc b => ?_) _
  · mvcgen [keeps_waitUnless, keeps_onCore]
  · split
    · exact keeps_pure _
    · mvcgen [keeps_waitFor, keeps_onCore]
  · mvcgen [keeps_waitFor, keeps_onCore]
  · mvcgen [keeps_waitFor, keeps_waitUnless, keeps_onCore]

theorem keeps_reloadPending (cl ps) : Keeps (reloadPending cl ps) := by
  mvcgen [reloadPending, keeps_waitUnless, keeps_onCluster, keeps_writeSpill, keeps_forM]

theorem keeps_restoreTeam (uid core) : Keeps (restoreTeam uid core) := by
  mvcgen [restoreTeam, keeps_waitUnless, keeps_placeBanks, keeps_onCore, keeps_reloadPending, keeps_onCluster, keeps_onUid, keeps_reform,
    keeps_freeImages, keeps_getTeam, keeps_acquireDevice, keeps_spreadTo, keeps_forM] <;> simp_all +zetaDelta

/-! ### Device registers -/

theorem keeps_onDev (f) : Keeps (onDev f) := by
  mvcgen [onDev]

theorem keeps_raiseMsix (fn vec) : Keeps (raiseMsix fn vec) := by
  mvcgen [raiseMsix, keeps_onDev]

theorem keeps_logError (kind ctx loc task addr detail) : Keeps (logError kind ctx loc task addr detail) := by
  mvcgen [logError, keeps_onDev, keeps_raiseMsix]
  simp_all +zetaDelta [Memory.wf_writeN]

theorem keeps_submitInvalidation (a b) : Keeps (submitInvalidation a b) := by
  mvcgen [submitInvalidation, keeps_onDev]

theorem keeps_writeComparator (core o v) : Keeps (writeComparator core o v) := by
  mvcgen [writeComparator, keeps_onCore]

theorem keeps_writeMgmt (off v) : Keeps (writeMgmt off v) := by
  mvcgen [writeMgmt, keeps_onDev, keeps_submitInvalidation]

theorem keeps_devicePublish (cl p secs) : Keeps (devicePublish cl p secs) := by
  mvcgen [devicePublish, keeps_appendRun, keeps_number]

theorem keeps_deviceWrite (next ctx cl va secs) : Keeps (deviceWrite next ctx cl va secs) := by
  mvcgen [deviceWrite, keeps_devLocate, keeps_devicePublish, keeps_onDev] <;> simp_all +zetaDelta

theorem keeps_deviceStore (ctx cl va secs) : Keeps (deviceStore ctx cl va secs) := by
  mvcgen [deviceStore, keeps_deviceWrite]

theorem keeps_postFault (ctx cl queue slot hookCode rec0) : Keeps (postFault ctx cl queue slot hookCode rec0) := by
  mvcgen [postFault, keeps_onDev, keeps_deviceStore, keeps_raiseMsix]

theorem keeps_dropFlits (n) : Keeps (dropFlits n) := by
  mvcgen [dropFlits, keeps_onDev]

theorem keeps_sendBurst (rtid ports kind count wid rest data) : Keeps (sendBurst rtid ports kind count wid rest data) := by
  mvcgen [sendBurst, keeps_dropFlits, keeps_onDev]

theorem keeps_sendCut (rtid ports wid cut) : Keeps (sendCut rtid ports wid cut) := by
  mvcgen [sendCut, keeps_sendBurst]

/-! ### Templates, loads and stores -/

theorem keeps_tmplAcc {α : Type} (a va) : Keeps (tmplAcc a va : M α) := by
  mvcgen [tmplAcc]

theorem keeps_current (t) : Keeps (current t) := by
  mvcgen [current]

theorem keeps_ownTemplatePage (t page) : Keeps (ownTemplatePage t page) := by
  mvcgen [ownTemplatePage, keeps_current, keeps_waitFor, keeps_waitUnless, keeps_onCore, keeps_onUid, keeps_bump]

theorem keeps_readBank (t bank off n) : Keeps (readBank t bank off n) := by
  mvcgen [readBank]

theorem keeps_readAt (a t va p n hint) : Keeps (readAt a t va p n hint) := by
  mvcgen [readAt, keeps_current, keeps_readBank, keeps_readPlace, keeps_stashPage, keeps_fillRow, keeps_waitFor]

theorem keeps_writeAt (a t va p n v colour hint bad) : Keeps (writeAt a t va p n v colour hint bad) := by
  mvcgen [writeAt, keeps_ownTemplatePage, keeps_onCore, keeps_writePlace, keeps_stashPage, keeps_fillRow, keeps_inStream,
    keeps_storeSector, keeps_dropOwnRow, keeps_onStash, keeps_invalidateStash]

theorem keeps_storeVa (a t va n v colour hint) : Keeps (storeVa a t va n v colour hint) := by
  mvcgen [storeVa, keeps_locate, keeps_writeAt]

theorem keeps_poisonLoad {α : Type} (a va p) : Keeps (poisonLoad a va p : M α) := by
  mvcgen [poisonLoad, keeps_xlateFault]

theorem keeps_scalarLoad (a t va n) : Keeps (scalarLoad a t va n) := by
  mvcgen [scalarLoad, keeps_locate, keeps_readAt, keeps_countStale, keeps_poisonLoad, keeps_forM]

theorem keeps_deviceRead (ctx cl va n) : Keeps (deviceRead ctx cl va n) := by
  mvcgen [deviceRead, keeps_devLocate, keeps_readPublished, keeps_readPlace, keeps_mapM]

/-! ### Faults and halts -/

theorem keeps_postRecord (t rec0 hookCode) : Keeps (postRecord t rec0 hookCode) := by
  mvcgen [postRecord, keeps_postFault]

theorem keeps_loadPriv64 (t va) : Keeps (loadPriv64 t va) := by
  mvcgen [loadPriv64, keeps_scalarLoad]

theorem keeps_findHook (t) : Keeps (findHook t) := by
  mvcgen [findHook, keeps_loadPriv64]

theorem keeps_killLane (lane addr) : Keeps (killLane lane addr) := by
  mvcgen [killLane, keeps_getTeam, keeps_onLane, keeps_bump, keeps_logError]

theorem keeps_fatalStop (uid rec0) : Keeps (fatalStop uid rec0) := by
  mvcgen [fatalStop, keeps_cancelEngines, keeps_discardVersion, keeps_publishClusterLevel, keeps_onUid]

theorem keeps_fatalEnd (uid rec0 hookCode) : Keeps (fatalEnd uid rec0 hookCode) := by
  mvcgen [fatalEnd, keeps_postRecord, keeps_countEnd, keeps_endTeam]

theorem keeps_fatalPath (uid r) : Keeps (fatalPath uid r) := by
  mvcgen [fatalPath, keeps_fatalStop, keeps_fatalEnd, keeps_current, keeps_findHook, keeps_onUid]

theorem keeps_dropWhole (t) : Keeps (dropWhole t) := by
  unfold dropWhole
  refine keeps_bind (keeps_onCluster _ _) fun _ => keeps_bind (keeps_cancelEngines t) fun _ =>
    keeps_bind (keeps_freeOwnBanks t) fun _ => keeps_modify fun s hs => ?_
  split <;> exact hs

theorem keeps_dropImages (launch) : Keeps (dropImages launch) :=
  keeps_modify fun _ hs => (memWf_foldl _ _ fun s c => memWf_freeShared s c).2 hs

theorem keeps_stopTask (t) : Keeps (stopTask t) := by
  mvcgen [stopTask, keeps_discardVersion, keeps_publishClusterLevel, keeps_dropWhole]

theorem keeps_failLaunch (id code count) : Keeps (failLaunch id code count) := by
  have hdrop : ∀ t, Keeps ((if code = 4 then dropWhole else stopTask) t) := fun t => by
    split <;> [exact keeps_dropWhole t; exact keeps_stopTask t]
  have hall (l : List Team) := keeps_forM (l := l) hdrop
  mvcgen [failLaunch, keeps_dropImages, hall]

theorem keeps_terminateContext (ctx loc task addr) : Keeps (terminateContext ctx loc task addr) := by
  refine keeps_get_bind fun s _ => keeps_bind (keeps_logError _ _ _ _ _ _) fun _ => keeps_ite (keeps_pure _) ?_
  refine keeps_get_bind fun s _ => keeps_bind (keeps_forM fun l => keeps_failLaunch _ _ _) fun _ => keeps_get_bind fun s _ =>
    keeps_bind (keeps_forM keeps_dropWhole) fun _ => keeps_modify fun s hs => ?_
  exact (memWf_withDev _ _).2 ((memWf_setContext ..).2 hs)

theorem keeps_recoverablePath (uid r) : Keeps (recoverablePath uid r) := by
  mvcgen [recoverablePath, keeps_onUid, keeps_swapOut, keeps_postRecord]

theorem keeps_pairMismatch (t u) : Keeps (pairMismatch t u) := by
  mvcgen [pairMismatch, keeps_logError, keeps_stopTask, keeps_onCore, keeps_failLaunch, keeps_forM] <;> simp_all +zetaDelta

theorem keeps_pairReach (t p) : Keeps (pairReach t p) := by
  mvcgen [pairReach, keeps_onUid, keeps_current, keeps_pairMismatch, keeps_forM]

theorem keeps_pairedTrap (t r) : Keeps (pairedTrap t r) := by
  mvcgen [pairedTrap, keeps_pairReach, keeps_dropWhole, keeps_onUid, keeps_fatalPath]

theorem keeps_haltTeam (uid reason pcm dam brk) : Keeps (haltTeam uid reason pcm dam brk) := by
  mvcgen [haltTeam, keeps_onUid, keeps_onCluster]

theorem keeps_haltIfDue (uid) : Keeps (haltIfDue uid) := by
  mvcgen [haltIfDue, keeps_haltTeam]

theorem keeps_takeTrap (uid r) : Keeps (takeTrap uid r) := by
  mvcgen [takeTrap, keeps_onUid, keeps_haltTeam, keeps_recoverablePath, keeps_fatalPath, keeps_pairedTrap]

theorem keeps_serveFault (uid r) : Keeps (serveFault uid r) := keeps_iff.2 fun s hs => by
  have hm : Keeps (do onUid uid fun t => { t with status := .ready, waits := none, rfault := none }; recoverablePath uid r) := by
    mvcgen [keeps_onUid, keeps_recoverablePath]
  have h := keeps_iff.1 hm s hs
  unfold serveFault
  split <;> simp_all

theorem keeps_takeEngineFault (uid) : Keeps (takeEngineFault uid) := keeps_iff.2 fun s hs => by
  unfold takeEngineFault
  split
  · exact hs
  next r _ =>
    have hm : Keeps (do onUid uid fun t => { t with efault := none }; takeTrap uid r) := by mvcgen [keeps_onUid, keeps_takeTrap]
    have h := keeps_iff.1 hm s hs
    split <;> simp_all

theorem keeps_enabled (b) : Keeps (enabled b) := by
  mvcgen [enabled, keeps_waitUnless]

/-! ### Scalar accesses -/

theorem keeps_advance : Keeps (advance) := by
  mvcgen [advance]

theorem keeps_expect (kind d val op) : Keeps (expect kind d val op) := by
  mvcgen [expect, keeps_onScalar]

theorem keeps_issueLoad (d ea n signed) : Keeps (issueLoad d ea n signed) := by
  mvcgen [issueLoad, keeps_getTeam, keeps_scalarLoad, keeps_nextStamp, keeps_markFills, keeps_expect, keeps_advance]

theorem keeps_issueStore (v ea n) : Keeps (issueStore v ea n) := by
  mvcgen [issueStore, keeps_getTeam, keeps_storeVa, keeps_advance]

theorem keeps_hostRmw (addr n f) : Keeps (hostRmw addr n f) := by
  mvcgen [hostRmw]
  simp_all

theorem keeps_issueAtomic (d va n sys what) : Keeps (issueAtomic d va n sys what) := by
  mvcgen [issueAtomic, keeps_getTeam, keeps_locate, keeps_nextStamp, keeps_advance, keeps_sendAtomic, keeps_expect, keeps_hostRmw,
    keeps_poisonLoad, keeps_waitFor, keeps_tmplAcc]

theorem keeps_loadDataReturn (team op) : Keeps (loadDataReturn team op) := by
  mvcgen [loadDataReturn, keeps_enabled, keeps_onUid]

theorem keeps_dropIxb (cl win gran) : Keeps (dropIxb cl win gran) := by
  mvcgen [dropIxb, keeps_onCluster]

theorem keeps_dropStashRow (uid win la) : Keeps (dropStashRow uid win la) := by
  mvcgen [dropStashRow, keeps_onUid]

theorem keeps_deliverLane (d vd lane wide) : Keeps (deliverLane d vd lane wide) := by
  mvcgen [deliverLane, keeps_killLane, keeps_onLane, keeps_putRow, keeps_forM] <;> simp_all +zetaDelta

theorem keeps_atomicReturn (team op) : Keeps (atomicReturn team op) := by
  mvcgen [atomicReturn, keeps_enabled, keeps_dropIxb, keeps_dropStashRow, keeps_onUid, keeps_deliverLane, keeps_forM]

/-! ### Releases, acquires and fences -/

theorem keeps_drain : Keeps (drain) := by
  mvcgen [drain, keeps_getTeam, keeps_waitUnless, keeps_onScalar]

theorem keeps_startRelease (t scope mask) : Keeps (startRelease t scope mask) := by
  mvcgen [startRelease, keeps_appendDirty, keeps_raiseToCluster, keeps_publishWhere]

theorem keeps_dropUpdates (t mask) : Keeps (dropUpdates t mask) := by
  mvcgen [dropUpdates, keeps_onCluster]

theorem keeps_setPhase (uid p) : Keeps (setPhase uid p) := by
  mvcgen [setPhase, keeps_onUid]

theorem keeps_pairedRelease (t scope mask kind status) : Keeps (pairedRelease t scope mask kind status) := by
  mvcgen [pairedRelease, keeps_pairReach, keeps_startRelease, keeps_dropUpdates, keeps_setPhase, keeps_waitFor]

theorem keeps_releaseAll (scope mask kind status) : Keeps (releaseAll scope mask kind status) := by
  mvcgen [releaseAll, keeps_getTeam, keeps_waitUnless, keeps_drain, keeps_pairedRelease, keeps_startRelease, keeps_setPhase]

theorem keeps_acquire (scope) : Keeps (acquire scope) := by
  mvcgen [acquire, keeps_getTeam, keeps_acquireCluster, keeps_acquireDevice]

theorem keeps_fenceAll (kind mask) : Keeps (fenceAll kind mask) := by
  mvcgen [fenceAll, keeps_drain, keeps_getTeam, keeps_appendDirty, keeps_waitUnless]

theorem keeps_timelineNext (n) : Keeps (timelineNext n) := by
  mvcgen [timelineNext, keeps_getTeam, keeps_onHold]

theorem keeps_timelineEnd (uid n k) : Keeps (timelineEnd uid n k) := by
  mvcgen [timelineEnd, keeps_onUid]

theorem keeps_homeSliceAtomic (h) : Keeps (homeSliceAtomic h) := by
  mvcgen [homeSliceAtomic, keeps_enabled, keeps_performAtomic, keeps_onSlice, keeps_pairMismatch] <;> simp_all +zetaDelta

theorem keeps_atomicCollectionClose (h) : Keeps (atomicCollectionClose h) := by
  mvcgen [atomicCollectionClose, keeps_enabled, keeps_closeCollection]
  simp_all +zetaDelta

theorem keeps_endOwners (l) : Keeps (endOwners l) := by
  mvcgen [endOwners, keeps_terminateContext, keeps_forM]

theorem keeps_psnShareArrival (psn h) : Keeps (psnShareArrival psn h) := by
  mvcgen [psnShareArrival, keeps_enabled, keeps_prepare, keeps_endOwners]

theorem keeps_afterCommit (p gone) : Keeps (afterCommit p gone) := by
  mvcgen [afterCommit, keeps_onDev, keeps_sendCut, keeps_forM]

theorem keeps_psnCommit : Keeps (psnCommit) := by
  mvcgen [psnCommit, keeps_enabled, keeps_commit, keeps_afterCommit, keeps_endOwners]

theorem keeps_heldNoticeStep (psn h cl) : Keeps (heldNoticeStep psn h cl) := by
  mvcgen [heldNoticeStep, keeps_enabled, keeps_heldNotice]

theorem keeps_commitNoticeStep (psn cl) : Keeps (commitNoticeStep psn cl) := by
  mvcgen [commitNoticeStep, keeps_enabled, keeps_commitNotice]

theorem keeps_dropPosted (id) : Keeps (dropPosted id) := by
  mvcgen [dropPosted]

theorem keeps_computeRowStore (id) : Keeps (computeRowStore id) := by
  mvcgen [computeRowStore, keeps_enabled, keeps_dropPosted] <;> simp_all +zetaDelta

/-! ### Fetch -/

theorem keeps_fetch4 (a t va) : Keeps (fetch4 a t va) := by
  mvcgen [fetch4, keeps_locate, keeps_readPlace, keeps_onCore, keeps_poisonLoad]

theorem keeps_fetchScalar (t va) : Keeps (fetchScalar t va) := by
  mvcgen [fetchScalar, keeps_fetch4]

theorem keeps_reportAt {α : Type} (va : Word64) {m : M α} (hm : Keeps m) : Keeps (reportAt va m) := by
  mvcgen [reportAt, hm]
  exact id

theorem keeps_fetchLane (t priv n) : Keeps (fetchLane t priv n) := by
  mvcgen [fetchLane, keeps_reportAt, keeps_fetch4]

theorem keeps_trapScalarWord {α : Type} (code w) : Keeps (trapScalarWord code w : M α) := by
  mvcgen [trapScalarWord, keeps_trapWith]

theorem keeps_trapLaneWord {α : Type} (code w) : Keeps (trapLaneWord code w : M α) := by
  mvcgen [trapLaneWord, keeps_laneTrap]

theorem keeps_trapSelf {α : Type} (code i) : Keeps (trapSelf code i : M α) := by
  mvcgen [trapSelf, keeps_trapScalarWord]

/-! ### Passes of a lane word -/

theorem keeps_sampled (r) : Keeps (sampled r) := by
  mvcgen [sampled, keeps_getTeam, keeps_waitFor]

theorem keeps_checkLane (i) : Keeps (checkLane i) := by
  mvcgen [checkLane, keeps_getTeam, keeps_laneTrap, keeps_trapLaneWord]

theorem keeps_retire (tiles ends) : Keeps (retire tiles ends) := by
  mvcgen [retire, keeps_onLane]

theorem keeps_beginPasses (i masks) : Keeps (beginPasses i masks) := by
  mvcgen [beginPasses, keeps_getTeam, keeps_checkLane, keeps_onLane]

theorem keeps_addFlags (o n) : Keeps (addFlags o n) := by
  mvcgen [addFlags, keeps_onLane]

theorem keeps_setE : Keeps (setE) := by
  mvcgen [setE, keeps_onLane]

theorem keeps_openDsts (dsts ps) : Keeps (openDsts dsts ps) := by
  mvcgen [openDsts, keeps_getTeam, keeps_expandReg, keeps_forM]

theorem keeps_takeDsts (dsts ps) : Keeps (takeDsts dsts ps) := by
  mvcgen [takeDsts, keeps_getTeam, keeps_copyFault, keeps_expandReg, keeps_forM]

theorem keeps_ownDsts (dsts writes) : Keeps (ownDsts dsts writes) := by
  mvcgen [ownDsts, keeps_getTeam, keeps_takeDsts]

theorem keeps_reformDsts (dsts) : Keeps (reformDsts dsts) := by
  mvcgen [reformDsts, keeps_getTeam, keeps_reform, keeps_forM]

theorem keeps_countedOnce {m : M Unit} (hm : Keeps m) : Keeps (countedOnce m) := keeps_iff.2 fun s hs => by
  have h := keeps_iff.1 hm s hs
  unfold countedOnce
  split <;> simp_all

theorem keeps_runPasses (i masks dsts tiles) {body : Nat → M Unit} (hb : ∀ w, Keeps (body w)) :
    Keeps (runPasses i masks dsts tiles body) := by
  mvcgen [runPasses, keeps_beginPasses, keeps_getTeam, keeps_retire, keeps_countedOnce, keeps_openDsts, keeps_bump, keeps_reformDsts,
    keeps_onLane, hb]

theorem keeps_runWhole (i masks dsts tiles) {body : List Nat → M Unit} (hb : ∀ ps, Keeps (body ps)) :
    Keeps (runWhole i masks dsts tiles body) := by
  mvcgen [runWhole, keeps_beginPasses, keeps_getTeam, keeps_countedOnce, keeps_openDsts, keeps_bump, keeps_retire, keeps_reformDsts, hb]

theorem keeps_countReads (regs w) : Keeps (countReads regs w) := by
  mvcgen [countReads, keeps_getTeam, keeps_bump]

theorem keeps_readLane (r lane) : Keeps (readLane r lane) := by
  mvcgen [readLane]

theorem keeps_readLane64 (r lane) : Keeps (readLane64 r lane) := by
  mvcgen [readLane64, keeps_readLane]

theorem keeps_writeLanes (r w vals) : Keeps (writeLanes r w vals) := by
  mvcgen [writeLanes, keeps_putRow]

theorem keeps_soundLanes (regs w m) : Keeps (soundLanes regs w m) := by
  mvcgen [soundLanes, keeps_killLane, keeps_forM]

/-! ### Jumps and lane blocks -/

theorem keeps_jumpTable (xi xt) : Keeps (jumpTable xi xt) := by
  mvcgen [jumpTable, keeps_getTeam, keeps_checkAlign, keeps_scalarLoad, keeps_fetchScalar, keeps_trapWith]

theorem keeps_enqueueBlock (cnt start) : Keeps (enqueueBlock cnt start) := by
  mvcgen [enqueueBlock, keeps_getTeam, keeps_waitUnless, keeps_nextStamp, keeps_onLane, keeps_advance]

theorem keeps_blockStart (uid) : Keeps (blockStart uid) := by
  mvcgen [blockStart, keeps_enabled, keeps_onUid]

theorem keeps_waitLanes (p) : Keeps (waitLanes p) := by
  mvcgen [waitLanes, keeps_getTeam, keeps_waitUnless]

theorem keeps_sysReg (n) : Keeps (sysReg n) := by
  mvcgen [sysReg, keeps_drawFree]

theorem keeps_writeSysReg (a n v) : Keeps (writeSysReg a n v) := by
  mvcgen [writeSysReg, keeps_getTeam, keeps_advance, keeps_onTeam, keeps_waitLanes, keeps_onLane, keeps_trapSelf]

/-! ### Lane arithmetic -/

theorem keeps_arithPass (op f w phase m) : Keeps (arithPass op f w phase m) := by
  mvcgen [arithPass]

theorem keeps_arithWord (i op f) : Keeps (arithWord i op f) := by
  mvcgen [arithWord, keeps_runPasses, keeps_getTeam, keeps_countReads, keeps_soundLanes, keeps_arithPass, keeps_ownDsts,
    keeps_writeLanes, keeps_addFlags]

theorem keeps_pairWord (a b) : Keeps (pairWord a b) := by
  mvcgen [pairWord, keeps_runPasses, keeps_countReads, keeps_getTeam, keeps_soundLanes, keeps_arithPass, keeps_ownDsts, keeps_writeLanes,
    keeps_addFlags]

theorem keeps_packWord (i f) : Keeps (packWord i f) := by
  mvcgen [packWord, keeps_getTeam, keeps_runPasses, keeps_countReads, keeps_soundLanes, keeps_ownDsts, keeps_writeLanes]

theorem keeps_unpackWord (i f) : Keeps (unpackWord i f) := by
  mvcgen [unpackWord, keeps_getTeam, keeps_runPasses, keeps_countReads, keeps_soundLanes, keeps_ownDsts, keeps_writeLanes, keeps_forM]

theorem keeps_writeByLane (r vals) : Keeps (writeByLane r vals) := by
  mvcgen [writeByLane, keeps_getTeam, keeps_writeLanes, keeps_forM]

theorem keeps_soundOf (r lanes) : Keeps (soundOf r lanes) := by
  mvcgen [soundOf, keeps_killLane, keeps_forM]

theorem keeps_blockScaleWord (i f) : Keeps (blockScaleWord i f) := by
  mvcgen [blockScaleWord, keeps_runWhole, keeps_countReads, keeps_getTeam, keeps_soundOf, keeps_readLane, keeps_addFlags, keeps_ownDsts,
    keeps_writeByLane, keeps_forM, keeps_mapM]

theorem keeps_quantiseWord (i f) : Keeps (quantiseWord i f) := by
  mvcgen [quantiseWord, keeps_runWhole, keeps_countReads, keeps_getTeam, keeps_soundOf, keeps_readLane, keeps_killLane, keeps_ownDsts,
    keeps_writeByLane, keeps_addFlags, keeps_forM, keeps_mapM, keeps_filterMapM]

theorem keeps_dequantiseWord (i f) : Keeps (dequantiseWord i f) := by
  refine keeps_runWhole _ _ _ _ fun ps => keeps_bind (keeps_forM fun w => keeps_countReads _ _) fun _ => keeps_bind keeps_getTeam fun t =>
    keeps_bind (keeps_filterMapM fun l => ?_) fun outs => keeps_bind (keeps_ownDsts _ _) fun _ =>
      keeps_bind (keeps_writeByLane _ _) fun _ =>
    keeps_addFlags _ _
  split
  · exact keeps_pure _
  refine keeps_get_bind fun s _ => ?_
  dsimp only
  split
  · exact keeps_bind (keeps_killLane _ _) fun _ => keeps_pure _
  · exact keeps_pure _

/-! ### Lane accesses -/

theorem keeps_checkLaneVa (a fmt v imm32) : Keeps (checkLaneVa a fmt v imm32) := by
  mvcgen [checkLaneVa, keeps_reportAt, keeps_checkVa, keeps_checkAlign, keeps_forM]

theorem keeps_caught {α : Type} {m : M α} (hm : Keeps m) : Keeps (caught m) := by
  mvcgen [caught, hm]

theorem keeps_passPages (a t fmt imm32 vs) : Keeps (passPages a t fmt imm32 vs) := by
  refine keeps_bind (keeps_filterM fun q => ?_) fun sound => keeps_foldlM (fun memo q => ?_) _
  · mvcgen [keeps_caught, keeps_checkLaneVa]
  · mvcgen [keeps_caught, keeps_findLeaf, keeps_onCore]

theorem keeps_placePart (a t pages p) : Keeps (placePart a t pages p) := by
  mvcgen [placePart, keeps_placeIn, keeps_translate, keeps_checkCra]

theorem keeps_laneAccess (a t pages fmt v imm32 lane) : Keeps (laneAccess a t pages fmt v imm32 lane) := by
  mvcgen [laneAccess, keeps_checkLaneVa, keeps_reportAt, keeps_placePart, keeps_mapM]

theorem keeps_eachLane {α : Type} (lanes : List Nat) {f : Nat → M α} (hf : ∀ l, Keeps (f l)) : Keeps (eachLane lanes f) := by
  mvcgen [eachLane, keeps_caught, keeps_mapM, hf]

theorem keeps_laneVas (va w m) : Keeps (laneVas va w m) := by
  mvcgen [laneVas, keeps_readLane64, keeps_mapM]

theorem keeps_passAccesses (a fmt va imm32 w m) {check : Team → LaneAcc → M Unit} (hc : ∀ t x, Keeps (check t x)) :
    Keeps (passAccesses a fmt va imm32 w m check) := by
  mvcgen [passAccesses, keeps_getTeam, keeps_laneVas, keeps_passPages, keeps_eachLane, keeps_laneAccess, hc]

theorem keeps_noCheck (x0 x1) : Keeps (noCheck x0 x1) := by
  mvcgen [noCheck]

theorem keeps_readPieces (a t x hint) : Keeps (readPieces a t x hint) :=
  keeps_foldlM (fun acc p => by mvcgen [keeps_readAt]) _

theorem keeps_writeValues (fmt vd mask w vals) : Keeps (writeValues fmt vd mask w vals) := by
  mvcgen [writeValues, keeps_ownDsts, keeps_writeLanes]

theorem keeps_killPoisoned (got) : Keeps (killPoisoned got) := by
  mvcgen [killPoisoned, keeps_killLane, keeps_forM]

theorem keeps_gatherWord (i f) : Keeps (gatherWord i f) := by
  mvcgen [gatherWord, keeps_runPasses, keeps_countReads, keeps_getTeam, keeps_soundLanes, keeps_passAccesses, keeps_noCheck,
    keeps_readPieces, keeps_killPoisoned, keeps_writeValues, keeps_countStale, keeps_markFills, keeps_mapM, keeps_forM]

theorem keeps_storeBits (fmt vb lane) : Keeps (storeBits fmt vb lane) := by
  mvcgen [storeBits, keeps_readLane64, keeps_readLane]

theorem keeps_mergedSector (t sec l hint) : Keeps (mergedSector t sec l hint) := by
  mvcgen [mergedSector, keeps_viewSector]

theorem keeps_stashSector (t pb win sec d bad) : Keeps (stashSector t pb win sec d bad) := by
  mvcgen [stashSector, keeps_onStash, keeps_onCore, keeps_invalidateStash]

theorem keeps_storedBytes (a t before q) : Keeps (storedBytes a t before q) := by
  mvcgen [storedBytes, keeps_readAt]

theorem keeps_openPages (a t l hint) : Keeps (openPages a t l hint) := by
  refine keeps_foldlM (fun acc q => ?_) _
  split
  · mvcgen [keeps_ownTemplatePage]
  · split <;> mvcgen [keeps_stashPage, keeps_fillRow]
  · exact keeps_pure acc

theorem keeps_storeParts (a t l colour hint) : Keeps (storeParts a t l colour hint) := by
  mvcgen [storeParts, keeps_openPages, keeps_mergedSector, keeps_storedBytes, keeps_inStream, keeps_putDirty, keeps_dropOwnRow,
    keeps_stashSector, keeps_writeAt, keeps_mapM, keeps_forM]

theorem keeps_scatterWord (i f) {check : Team → LaneAcc → M Unit} (hc : ∀ t x, Keeps (check t x)) :
    Keeps (scatterWord i f check) := by
  mvcgen [scatterWord, keeps_runPasses, keeps_countReads, keeps_getTeam, keeps_soundLanes, keeps_passAccesses, keeps_storeBits,
    keeps_storeParts, keeps_mapM, hc]

theorem keeps_checkTemplateStore (t x) : Keeps (checkTemplateStore t x) := by
  mvcgen [checkTemplateStore, keeps_xlateFault]

theorem keeps_dropped {α : Type} (trap : Bool) {m : M α} (hm : Keeps m) : Keeps (dropped trap m) := keeps_iff.2 fun s hs => by
  have h := keeps_iff.1 hm s hs
  unfold dropped
  split
  · simp_all
  · split <;> simp_all
  · simp_all
  · simp_all

theorem keeps_prefetchCrow (win la hint) : Keeps (prefetchCrow win la hint) := by
  mvcgen [prefetchCrow, keeps_readCrow]

theorem keeps_prefetchSector (t win sec hint) : Keeps (prefetchSector t win sec hint) := by
  mvcgen [prefetchSector, keeps_viewSector, keeps_ixbFill]

theorem keeps_prefetchPart (t p hint) : Keeps (prefetchPart t p hint) := by
  mvcgen [prefetchPart, keeps_onCore, keeps_prefetchCrow, keeps_stashPage, keeps_fillRow, keeps_prefetchSector]

theorem keeps_prefetchWord (f t w m) : Keeps (prefetchWord f t w m) := by
  mvcgen [prefetchWord, keeps_laneVas, keeps_dropped, keeps_laneAccess, keeps_prefetchPart, keeps_forM]

theorem keeps_basinFault {α : Type} (code addr acc lane) : Keeps (basinFault code addr acc lane : M α) := by
  mvcgen [basinFault, keeps_laneTrap]

theorem keeps_privateOffset (t v imm32 size acc lane) : Keeps (privateOffset t v imm32 size acc lane) := by
  mvcgen [privateOffset, keeps_basinFault]

theorem keeps_basinAddress (t v imm32 size acc lane) : Keeps (basinAddress t v imm32 size acc lane) := by
  mvcgen [basinAddress, keeps_basinFault]

theorem keeps_fillNamed (t b) : Keeps (fillNamed t b) := by
  mvcgen [fillNamed, keeps_current, keeps_fillRow, keeps_waitFor]

theorem keeps_storeBank (t b) : Keeps (storeBank t b) := by
  mvcgen [storeBank, keeps_current, keeps_copyFault, keeps_getTeam, keeps_setForm, keeps_ownTemplatePage]

theorem keeps_basinPass (f t w m acc) : Keeps (basinPass f t w m acc) := by
  mvcgen [basinPass, keeps_eachLane, keeps_readLane, keeps_basinAddress, keeps_bump]

theorem keeps_stashStores (t l) : Keeps (stashStores t l) := by
  mvcgen [stashStores, keeps_mergedSector, keeps_inStream, keeps_putDirty, keeps_dropOwnRow, keeps_stashSector, keeps_mapM, keeps_forM]

theorem keeps_basinStores (t size l) : Keeps (basinStores t size l) := by
  mvcgen [basinStores, keeps_fillNamed, keeps_stashStores, keeps_storeBank, keeps_onCore, keeps_forM]

theorem keeps_checkNoTemplate (t x) : Keeps (checkNoTemplate t x) := by
  mvcgen [checkNoTemplate, keeps_tmplAcc]

theorem keeps_atomicWord (i f) {what : Nat → M AtomOp} (hw : ∀ l, Keeps (what l)) : Keeps (atomicWord i f what) := by
  refine keeps_runPasses _ _ _ _ fun w => keeps_bind keeps_getTeam fun t => keeps_bind (keeps_countReads _ _) fun _ => ?_
  split
  · exact keeps_bind (keeps_waitUnless _ _) fun _ => keeps_onLane _
  refine keeps_bind (keeps_soundLanes _ _ _) fun m =>
    keeps_bind (keeps_passAccesses _ _ _ _ _ _ (fun t x => keeps_checkNoTemplate _ _)) fun xs =>
    keeps_get_bind fun s _ => keeps_when (keeps_waitFor _) fun _ => keeps_bind (keeps_ownDsts _ _) fun _ =>
    keeps_bind (keeps_foldlM (fun n x => ?_) _) fun sent => keeps_bind (keeps_onLane _) fun _ => keeps_bind (keeps_waitUnless _ _) fun _ =>
    keeps_onLane _
  split
  · refine keeps_bind (hw _) fun op => keeps_ite ?_ ?_
    · exact keeps_bind (keeps_sendAtomic _ _ _ _ _ _) fun _ => keeps_pure _
    · refine keeps_get_bind fun s _ => keeps_ite (keeps_bind (keeps_killLane _ _) fun _ => keeps_pure _) ?_
      exact keeps_bind (keeps_hostRmw _ _ _) fun old => keeps_bind (keeps_writeValues _ _ _ _ _) fun _ => keeps_pure _
  · exact keeps_pure _

theorem keeps_atomOperand (f r lane) : Keeps (atomOperand f r lane) := by
  mvcgen [atomOperand, keeps_readLane64, keeps_readLane]

theorem keeps_locateRow (a t va n) : Keeps (locateRow a t va n) := by
  mvcgen [locateRow, keeps_checkVa, keeps_translate, keeps_tmplAcc, keeps_xlateFault]

theorem keeps_rowEntry (t win gran refill) : Keeps (rowEntry t win gran refill) := by
  mvcgen [rowEntry, keeps_ixbFill, keeps_waitFor, keeps_bump]

theorem keeps_rowEntries (t win grans) : Keeps (rowEntries t win grans) := by
  mvcgen [rowEntries, keeps_rowEntry, keeps_mapM]

theorem keeps_rowSector (t es win sec hint) : Keeps (rowSector t es win sec hint) := by
  mvcgen [rowSector, keeps_useDirty, keeps_readThrough, keeps_findSector, keeps_waitFor]

theorem keeps_rowSectorsOf (a t va p n hint) : Keeps (rowSectorsOf a t va p n hint) := by
  mvcgen [rowSectorsOf, keeps_rowEntries, keeps_rowSector, keeps_readPlace, keeps_mapM]

theorem keeps_rowAtomic (f ps) : Keeps (rowAtomic f ps) := by
  mvcgen [rowAtomic, keeps_getTeam, keeps_waitUnless, keeps_countReads, keeps_sampled, keeps_locateRow, keeps_soundLanes, keeps_readLane,
    keeps_sendAtomic, keeps_onLane, keeps_waitFor, keeps_killLane, keeps_hostRmw, keeps_forM, keeps_mapM]

/-! ### Services and system registers -/

theorem keeps_serviceCall (n) : Keeps (serviceCall n) := by
  mvcgen [serviceCall, keeps_getTeam, keeps_waitUnless, keeps_loadPriv64, keeps_onScalar, keeps_trapWith]

theorem keeps_serviceReturn : Keeps (serviceReturn) := by
  mvcgen [serviceReturn, keeps_getTeam, keeps_waitUnless, keeps_onScalar, keeps_releaseAll, keeps_fatalEnd, keeps_trapSelf]

theorem keeps_breakPoint (c) : Keeps (breakPoint c) := by
  mvcgen [breakPoint, keeps_getTeam, keeps_haltTeam, keeps_trapWith]

theorem keeps_comparatorHalt (lane pcm dam) : Keeps (comparatorHalt lane pcm dam) := by
  mvcgen [comparatorHalt, keeps_getTeam, keeps_haltTeam, keeps_onTeam]

theorem keeps_peek {α : Type} {m : M α} (_ : Keeps m) : Keeps (peek m) := keeps_iff.2 fun s hs => by
  unfold peek
  split <;> exact hs

/-! ### What comes before and after a word -/

theorem keeps_settleUses (rs) : Keeps (settleUses rs) := by
  mvcgen [settleUses, keeps_getTeam, keeps_onScalar, keeps_waitFor, keeps_forM]

theorem keeps_fetchWord : Keeps (fetchWord) := by
  mvcgen [fetchWord, keeps_getTeam, keeps_fetchScalar, keeps_trapScalarWord]

theorem keeps_countHeld (lane) : Keeps (countHeld lane) := by
  mvcgen [countHeld]

theorem keeps_fillTemplate : Keeps fillTemplate := by
  refine keeps_bind keeps_getTeam fun t => ?_
  split
  · refine keeps_bind (keeps_forM fun q => keeps_bind (keeps_deviceRead _ _ _ _) fun d => keeps_bind (keeps_foldlM (fun off x => ?_) _)
      fun _ => keeps_pure _) fun _ => keeps_onScalar _
    exact keeps_bind (keeps_onCore _ _) fun _ => keeps_pure _
  · exact keeps_pure _

theorem keeps_readyWord : Keeps (readyWord) := by
  mvcgen [readyWord, keeps_fetchWord, keeps_settleUses]

theorem keeps_wordData (i) : Keeps (wordData i) := by
  mvcgen [wordData]

theorem keeps_scalarPcHalt : Keeps (scalarPcHalt) := by
  mvcgen [scalarPcHalt, keeps_peek, keeps_readyWord, keeps_wordData, keeps_comparatorHalt]

theorem keeps_issueScalar : Keeps (issueScalar) := by
  mvcgen [issueScalar, keeps_fillTemplate, keeps_scalarPcHalt, keeps_readyWord, keeps_wordData, keeps_comparatorHalt, keeps_bump,
    keeps_countHeld, keeps_onTeam]

theorem keeps_engineFaultFirst : Keeps (engineFaultFirst) := by
  mvcgen [engineFaultFirst, keeps_getTeam, keeps_onTeam]

theorem keeps_fetchLaneWord : Keeps (fetchLaneWord) := by
  mvcgen [fetchLaneWord, keeps_getTeam, keeps_waitFor, keeps_fetchLane, keeps_trapLaneWord, keeps_bump, keeps_onLane]

theorem keeps_lanePcHalt : Keeps (lanePcHalt) := by
  mvcgen [lanePcHalt, keeps_peek, keeps_fetchLaneWord, keeps_comparatorHalt]

theorem keeps_issueLane : Keeps (issueLane) := by
  mvcgen [issueLane, keeps_lanePcHalt, keeps_fetchLaneWord, keeps_getTeam, keeps_onLane, keeps_onTeam, keeps_comparatorHalt,
    keeps_countHeld, keeps_waitFor] <;> simp_all +zetaDelta

theorem keeps_afterWord (uid lane) : Keeps (afterWord uid lane) := by
  mvcgen [afterWord, keeps_onUid, keeps_takeEngineFault, keeps_haltIfDue]

/-! ### Runnels -/

theorem keeps_loadRecord (t xa) : Keeps (loadRecord t xa) := by
  mvcgen [loadRecord, keeps_checkAlign, keeps_locate, keeps_readAt, keeps_countStale, keeps_poisonLoad, keeps_forM]

theorem keeps_startRunnel (kind d a post ctx) : Keeps (startRunnel kind d a post ctx) := by
  mvcgen [startRunnel, keeps_getTeam, keeps_loadRecord, keeps_waitUnless, keeps_timelineNext, keeps_nextStamp, keeps_onCore,
    keeps_trapWith]

theorem keeps_usePage (t r va win) : Keeps (usePage t r va win) := by
  mvcgen [usePage, keeps_onCore]

theorem keeps_engineRead (r t va n align moved) : Keeps (engineRead r t va n align moved) := by
  mvcgen [engineRead, keeps_checkVa, keeps_checkAlign, keeps_locate, keeps_usePage, keeps_readPlace, keeps_countStale, keeps_bump,
    keeps_tmplAcc, keeps_mapM, keeps_forM]

theorem keeps_enginePut (r t o stash) : Keeps (enginePut r t o stash) := by
  mvcgen [enginePut, keeps_locate, keeps_usePage, keeps_bump, keeps_readAt, keeps_readPlace, keeps_writeAt, keeps_writePlace]

theorem keeps_engineWrite (r t va data align stash) : Keeps (engineWrite r t va data align stash) := by
  mvcgen [engineWrite, keeps_checkVa, keeps_checkAlign, keeps_locate, keeps_usePage, keeps_enginePut, keeps_onCore, keeps_tmplAcc,
    keeps_xlateFault, keeps_forM]

theorem keeps_engineBasinFault {α : Type} (r code addr) : Keeps (engineBasinFault r code addr : M α) := by
  mvcgen [engineBasinFault]

theorem keeps_checkBasin (r t a n write) : Keeps (checkBasin r t a n write) := by
  unfold checkBasin
  exact keeps_when (keeps_engineBasinFault _ _ _) fun _ => keeps_when (keeps_engineBasinFault _ _ _) fun _ => keeps_get_bind fun s _ =>
    keeps_ite (keeps_engineBasinFault _ _ _) (keeps_pure _)

theorem keeps_fullForm (t a n) : Keeps (fullForm t a n) := by
  mvcgen [fullForm, keeps_setForm, keeps_forM]

theorem keeps_engineBasinWrite (r t a data) : Keeps (engineBasinWrite r t a data) := by
  mvcgen [engineBasinWrite, keeps_checkBasin, keeps_fullForm, keeps_onCore]

theorem keeps_engineBasinRead (r t a n) : Keeps (engineBasinRead r t a n) := by
  mvcgen [engineBasinRead, keeps_checkBasin, keeps_fillNamed, keeps_forM]

theorem keeps_feedFifo (t q data) : Keeps (feedFifo t q data) := by
  mvcgen [feedFifo, keeps_waitUnless, keeps_onCore]

theorem keeps_unitAddr (r t u) : Keeps (unitAddr r t u) := by
  mvcgen [unitAddr, keeps_engineRead]

theorem keeps_readSlot (r t a) : Keeps (readSlot r t a) := by
  mvcgen [readSlot, keeps_engineRead]

theorem keeps_readUnit (r t u a) : Keeps (readUnit r t u a) := by
  mvcgen [readUnit, keeps_engineRead, keeps_readSlot]

theorem keeps_putUnit (r t u data) : Keeps (putUnit r t u data) := by
  mvcgen [putUnit, keeps_engineBasinWrite, keeps_feedFifo, keeps_engineWrite]

theorem keeps_localBytes (r t u) : Keeps (localBytes r t u) := by
  mvcgen [localBytes, keeps_unitAddr, keeps_readUnit]

theorem keeps_moveUnits (r t us) : Keeps (moveUnits r t us) := by
  mvcgen [moveUnits, keeps_unitAddr, keeps_engineBasinRead, keeps_engineWrite, keeps_localBytes, keeps_putUnit, keeps_mapM]

theorem keeps_onRunnel (core id f) : Keeps (onRunnel core id f) := by
  mvcgen [onRunnel, keeps_onCore]

theorem keeps_engineFault (core r q) : Keeps (engineFault core r q) := by
  mvcgen [engineFault, keeps_timelineEnd, keeps_onCore, keeps_getTeam, keeps_onTeam, keeps_dropped, keeps_enginePut, keeps_forM]

theorem keeps_engineWork (r t) : Keeps (engineWork r t) := by
  mvcgen [engineWork, keeps_moveUnits, keeps_waitFor, keeps_enginePut, keeps_onRunnel]

theorem keeps_runnelStep (id) : Keeps (runnelStep id) := by
  mvcgen [runnelStep, keeps_enabled, keeps_getTeam, keeps_onRunnel, keeps_engineWork, keeps_engineFault]
  simp_all +zetaDelta

theorem keeps_runnelEnd (id) : Keeps (runnelEnd id) := by
  mvcgen [runnelEnd, keeps_enabled, keeps_timelineEnd, keeps_onCore]

theorem keeps_completionPost (core) : Keeps (completionPost core) := by
  mvcgen [completionPost, keeps_enabled, keeps_onCore]

/-! ### Matrix loops and tiles -/

theorem keeps_postLoop (d a) : Keeps (postLoop d a) := by
  mvcgen [postLoop, keeps_waitUnless, keeps_timelineNext, keeps_nextStamp, keeps_onCluster, keeps_onHold, keeps_trapWith]

theorem keeps_setRegion (n cls F C) : Keeps (setRegion n cls F C) := by
  mvcgen [setRegion, keeps_onCore, keeps_onHold, keeps_advance, keeps_trapWith]

theorem keeps_freeRegion (n) : Keeps (freeRegion n) := by
  mvcgen [freeRegion, keeps_trapWith, keeps_waitUnless, keeps_onCore, keeps_onHold, keeps_advance]

theorem keeps_checkWeights (t f) : Keeps (checkWeights t f) := by
  mvcgen [checkWeights, keeps_waitUnless, keeps_laneTrap]

theorem keeps_accFmt {α : Type} (n off) : Keeps (accFmt n off : M α) := by
  mvcgen [accFmt, keeps_laneTrap]

theorem keeps_clearTile (n rows cols float) : Keeps (clearTile n rows cols float) := by
  mvcgen [clearTile, keeps_waitUnless, keeps_onCore, keeps_onHold, keeps_accFmt, keeps_basinExhausted]

theorem keeps_checkDrain (t f) : Keeps (checkDrain t f) := by
  mvcgen [checkDrain, keeps_accFmt]

theorem keeps_onLoop (cl id f) : Keeps (onLoop cl id f) := by
  mvcgen [onLoop, keeps_onCluster]

theorem keeps_reenterLoops (cl fuel) : Keeps (reenterLoops cl fuel) := by
  induction fuel with
  | zero => mvcgen [reenterLoops]
  | succ fuel ih => mvcgen [reenterLoops, keeps_onLoop, ih]

theorem keeps_grantLoop (cl) : Keeps (grantLoop cl) := by
  mvcgen [grantLoop, keeps_reenterLoops, keeps_enabled, keeps_onLoop, keeps_onUid]

theorem keeps_removeTo (cl id t idx fuel) : Keeps (removeTo cl id t idx fuel) := by
  induction fuel with
  | zero => mvcgen [removeTo]
  | succ fuel ih => mvcgen [removeTo, keeps_enabled, keeps_onCore, keeps_onLoop, keeps_onUid, ih]

theorem keeps_fragmentOf (cl id t l idx) : Keeps (fragmentOf cl id t l idx) := by
  mvcgen [fragmentOf, keeps_removeTo, keeps_onLoop]

theorem keeps_readScaleByte (t a) : Keeps (readScaleByte t a) := by
  mvcgen [readScaleByte, keeps_fillNamed]

theorem keeps_readPair (t a) : Keeps (readPair t a) := by
  mvcgen [readPair, keeps_readScaleByte]

theorem keeps_stepPairs (t d cls row st) : Keeps (stepPairs t d cls row st) := by
  mvcgen [stepPairs, keeps_readPair, keeps_mapM]

theorem keeps_matrixStep (id row) : Keeps (matrixStep id row) := by
  mvcgen [matrixStep, keeps_enabled, keeps_getTeam, keeps_fragmentOf, keeps_stepPairs, keeps_bump, keeps_onLoop, keeps_forM]
  simp_all
    +zetaDelta

theorem keeps_updateLand (id row) : Keeps (updateLand id row) := by
  refine keeps_get_bind fun s hs => ?_
  split
  · exact keeps_enabled _
  · split
    · split
      · exact keeps_enabled _
      · refine keeps_bind (keeps_modify fun s => (memWf_setCore ..).2) fun _ => keeps_ite ?_ (keeps_onLoop _ _ _)
        exact keeps_bind (keeps_onCluster _ _) fun _ => keeps_bind (keeps_timelineEnd _ _ _) fun _ => keeps_onUid _ _
    · exact keeps_enabled _

/-! ### Images, barriers, queues -/

theorem keeps_imageBank (core bank role shared) : Keeps (imageBank core bank role shared) := by
  mvcgen [imageBank, keeps_nextStamp]

theorem keeps_imageBanks (t) : Keeps (imageBanks t) := by
  mvcgen [imageBanks, keeps_imageBank, keeps_mapM]

theorem keeps_becomeFrozen (t k) : Keeps (becomeFrozen t k) := by
  mvcgen [becomeFrozen, keeps_imageBanks, keeps_nextStamp, keeps_onCore, keeps_endTeam, keeps_mapM]

theorem keeps_freezeTeam (k) : Keeps (freezeTeam k) := by
  mvcgen [freezeTeam, keeps_getTeam, keeps_drain, keeps_waitUnless, keeps_cancelEngines, keeps_onHold, keeps_onCore, keeps_releaseAll,
    keeps_becomeFrozen, keeps_trapWith]

theorem keeps_startChild (l i core task level paired) : Keeps (startChild l i core task level paired) := by
  mvcgen [startChild, keeps_waitUnless, keeps_nextStamp, keeps_onCore, keeps_acquireDevice, keeps_waitFor]

theorem keeps_spreadCopy (image core) : Keeps (spreadCopy image core) := by
  mvcgen [spreadCopy, keeps_enabled, keeps_spreadTo, keeps_startChild]

theorem keeps_stampInstance (l stage core inst) : Keeps (stampInstance l stage core inst) := by
  mvcgen [stampInstance, keeps_enabled, keeps_startChild, keeps_onUid]

theorem keeps_takeInstance (launch stage inst) : Keeps (takeInstance launch stage inst) := by
  mvcgen [takeInstance]

theorem keeps_stampNext (launch stage core) : Keeps (stampNext launch stage core) := by
  mvcgen [stampNext, keeps_enabled, keeps_stampInstance, keeps_takeInstance]

theorem keeps_instanceStamp (launch core) : Keeps (instanceStamp launch core) := by
  mvcgen [instanceStamp, keeps_enabled, keeps_stampNext, keeps_freeImages, keeps_forM]

theorem keeps_barrier (scope id) : Keeps (barrier scope id) := by
  mvcgen [barrier, keeps_getTeam, keeps_drain, keeps_waitUnless, keeps_advance, keeps_releaseAll, keeps_onTeam, keeps_setPhase,
    keeps_acquire, keeps_trapWith]

theorem keeps_wake (uid) : Keeps (wake uid) := by
  mvcgen [wake, keeps_serveFault, keeps_onUid] <;> simp_all +zetaDelta

theorem keeps_barrierComplete (uid) : Keeps (barrierComplete uid) := by
  mvcgen [barrierComplete, keeps_enabled, keeps_wake, keeps_forM]

theorem keeps_waitSatisfied (uid) : Keeps (waitSatisfied uid) := by
  mvcgen [waitSatisfied, keeps_enabled, keeps_wake]

theorem keeps_checkQueue (t va bad) : Keeps (checkQueue t va bad) := by
  mvcgen [checkQueue, keeps_checkAlign, keeps_trapWith]

theorem keeps_onQueue (t k f) : Keeps (onQueue t k f) := by
  mvcgen [onQueue]

theorem keeps_loadEntry (t va) : Keeps (loadEntry t va) := by
  mvcgen [loadEntry, keeps_locate, keeps_readAt, keeps_countStale, keeps_poisonLoad, keeps_forM]

theorem keeps_queuePut (d va nb) : Keeps (queuePut d va nb) := by
  mvcgen [queuePut, keeps_getTeam, keeps_checkQueue, keeps_releaseAll, keeps_setPhase, keeps_loadEntry, keeps_waitFor, keeps_onQueue]

theorem keeps_storeEntry (t va e) : Keeps (storeEntry t va e) := by
  mvcgen [storeEntry, keeps_locate, keeps_writeAt]

theorem keeps_queueGet (d va nb) : Keeps (queueGet d va nb) := by
  mvcgen [queueGet, keeps_getTeam, keeps_checkQueue, keeps_drain, keeps_acquire, keeps_waitFor, keeps_storeEntry, keeps_onQueue,
    keeps_setPhase]

theorem keeps_yieldEnd (uid) : Keeps (yieldEnd uid) := by
  mvcgen [yieldEnd, keeps_enabled, keeps_nextStamp, keeps_onUid]

theorem keeps_promote (uid lane) : Keeps (promote uid lane) := by
  mvcgen [promote, keeps_enabled, keeps_nextStamp, keeps_onUid]

theorem keeps_exitTeam (status) : Keeps (exitTeam status) := by
  mvcgen [exitTeam, keeps_drain, keeps_getTeam, keeps_waitUnless, keeps_releaseAll, keeps_countEnd, keeps_endTeam]

/-! ### Masks -/

theorem keeps_putMask (m v) : Keeps (putMask m v) := by
  mvcgen [putMask, keeps_onTeam]

theorem keeps_compareWord (i f cond) : Keeps (compareWord i f cond) := by
  mvcgen [compareWord, keeps_runWhole, keeps_countReads, keeps_getTeam, keeps_soundLanes, keeps_readLane, keeps_putMask, keeps_flatMapM,
    keeps_filterMapM]

theorem keeps_writeAllActive (r mask v) : Keeps (writeAllActive r mask v) := by
  mvcgen [writeAllActive, keeps_getTeam, keeps_ownDsts, keeps_writeByLane]

theorem keeps_setRdx (v) : Keeps (setRdx v) := by
  mvcgen [setRdx, keeps_onLane]

/-! ### Cross-lane words -/

theorem keeps_readMove (wide r lane) : Keeps (readMove wide r lane) := by
  mvcgen [readMove]

theorem keeps_deliver (wide vd mask moves) : Keeps (deliver wide vd mask moves) := by
  mvcgen [deliver, keeps_readMove, keeps_killLane, keeps_ownDsts, keeps_writeByLane, keeps_mapM, keeps_forM]

theorem keeps_countSources (regs) : Keeps (countSources regs) := by
  mvcgen [countSources, keeps_getTeam, keeps_countReads, keeps_forM]

theorem keeps_shuffleWord (i f index) {source : Team → Nat → M Nat} (member : Team → Nat → Bool)
    (hs : ∀ t l, Keeps (source t l)) :
    Keeps (shuffleWord i f index source member) := by
  unfold shuffleWord
  refine keeps_runWhole _ _ _ _ fun _ => @keeps_bind Team Unit getTeam _ keeps_getTeam fun t => ?_
  split
  · exact keeps_pure _
  refine keeps_bind (keeps_countSources _) fun _ => keeps_bind (keeps_foldlM (fun ls r => keeps_soundOf r ls) _) fun acting => ?_
  refine keeps_bind (m := getTeam) keeps_getTeam fun t => keeps_bind (keeps_mapM fun l => ?_) fun moves => keeps_deliver _ _ _ _
  exact keeps_bind (hs t l) fun s => keeps_pure _

theorem keeps_takers (f) : Keeps (takers f) := by
  unfold takers
  exact keeps_bind keeps_getTeam fun t => keeps_bind (keeps_countSources _) fun _ => keeps_soundOf _ _

theorem keeps_reduceWord (i f float bound) : Keeps (reduceWord i f float bound) := by
  mvcgen [reduceWord, keeps_runWhole, keeps_takers, keeps_getTeam, keeps_setRdx, keeps_setE, keeps_readLane, keeps_ownDsts,
    keeps_writeByLane, keeps_addFlags, keeps_mapM]

/-! ### Cascade commands -/

theorem keeps_cascFault {α : Type} (code va cra) : Keeps (cascFault code va cra : M α) := by
  mvcgen [cascFault, keeps_laneTrap]

theorem keeps_checkCascade (a t va k last) : Keeps (checkCascade a t va k last) := by
  mvcgen [checkCascade, keeps_checkVa, keeps_translate, keeps_cascFault, keeps_tmplAcc]

theorem keeps_emptyCommand : Keeps (emptyCommand) := by
  mvcgen [emptyCommand, keeps_timelineNext, keeps_getTeam, keeps_timelineEnd]

theorem keeps_command (mask) {checks : Team → Nat → M CascPlace} (hc : ∀ t w, Keeps (checks t w)) : Keeps (command mask checks) := by
  mvcgen [command, keeps_getTeam, keeps_timelineNext, hc]

theorem keeps_onCascade (uid num f) : Keeps (onCascade uid num f) := by
  mvcgen [onCascade]

theorem keeps_endCascade (uid num) : Keeps (endCascade uid num) := by
  mvcgen [endCascade, keeps_timelineEnd]

theorem keeps_acceptPass (c chan effects) : Keeps (acceptPass c chan effects) := by
  mvcgen [acceptPass, keeps_nextStamp, keeps_onCascade]
  simp_all +zetaDelta

theorem keeps_readRows (c chan rows) : Keeps (readRows c chan rows) := by
  mvcgen [readRows, keeps_getTeam, keeps_rowRead]

theorem keeps_lastPass (c loads) : Keeps (lastPass c loads) := by
  mvcgen [lastPass, keeps_getTeam, keeps_onCascade, keeps_endCascade]

theorem keeps_cascadeWord (i f dsts loads) {checks : Team → Nat → M CascPlace} {body : Cascade → Nat → Nat → M Unit}
    (hc : ∀ t w, Keeps (checks t w)) (hb : ∀ c w cw, Keeps (body c w cw)) : Keeps (cascadeWord i f dsts loads checks body) := by
  mvcgen [cascadeWord, keeps_beginPasses, keeps_runPasses, keeps_command, keeps_lastPass, keeps_getTeam, keeps_readRows,
    keeps_emptyCommand, hc, hb]

theorem keeps_cascadeAddr (f) : Keeps (cascadeAddr f) := by
  mvcgen [cascadeAddr, keeps_sampled]

theorem keeps_oneAddress (a f k t last) : Keeps (oneAddress a f k t last) := by
  mvcgen [oneAddress, keeps_cascadeAddr, keeps_checkCascade]

theorem keeps_cloneChecks (f t last) : Keeps (cloneChecks f t last) := by
  mvcgen [cloneChecks, keeps_sampled, keeps_checkCascade, keeps_cascFault]

theorem keeps_reducePass (f w cw) : Keeps (reducePass f w cw) := by
  mvcgen [reducePass, keeps_getTeam, keeps_setE, keeps_killLane, keeps_ownDsts, keeps_writeLanes, keeps_addFlags, keeps_forM]

theorem keeps_cascadeComplete (team num) : Keeps (cascadeComplete team num) := by
  mvcgen [cascadeComplete, keeps_enabled, keeps_onCascade, keeps_endCascade] <;> simp_all +zetaDelta

/-! ### Launches -/

theorem keeps_sealObserved (tenant queue) : Keeps (sealObserved tenant queue) := by
  unfold sealObserved
  refine keeps_get_bind fun s _ => keeps_bind (keeps_enabled _) fun _ => keeps_bind keeps_nextStamp fun id => keeps_modify fun s hs => ?_
  rw [memWf_mk]
  exact ⟨hs.1, hs.2.1, Memory.wf_write _ _ _ hs.2.2⟩

theorem keeps_readKernel (l) : Keeps (readKernel l) := by
  mvcgen [readKernel, keeps_deviceRead]

theorem keeps_refuse (id reason) : Keeps (refuse id reason) := by
  mvcgen [refuse]

theorem keeps_launchParse (id) : Keeps (launchParse id) := by
  refine keeps_get_bind fun s _ => ?_
  split
  · exact keeps_enabled _
  refine keeps_get_bind fun s _ => keeps_bind (keeps_enabled _) fun _ => keeps_ite (keeps_refuse _ _) (keeps_ite (keeps_refuse _ _) ?_)
  refine keeps_bind (keeps_readKernel _) fun k => ?_
  split
  · exact keeps_refuse _ _
  refine keeps_ite (keeps_refuse _ _) (keeps_ite (keeps_refuse _ _) ?_)
  exact keeps_bind (keeps_modify fun s => (memWf_onLaunch ..).2) fun _ => keeps_ite (keeps_failLaunch _ _ _) (keeps_pure _)

theorem keeps_dependenceSatisfied (id) : Keeps (dependenceSatisfied id) := by
  mvcgen [dependenceSatisfied, keeps_enabled]

theorem keeps_startTop (l stage cl) : Keeps (startTop l stage cl) := by
  mvcgen [startTop, keeps_waitFor, keeps_nextStamp, keeps_onCore, keeps_acquireDevice]

theorem keeps_placeAt (l origin) : Keeps (placeAt l origin) := by
  mvcgen [placeAt, keeps_startTop, keeps_mapM]
  simp_all +zetaDelta

theorem keeps_postPreempted (l outcome banks) : Keeps (postPreempted l outcome banks) := by
  mvcgen [postPreempted, keeps_postFault]

theorem keeps_preemptNothing (l) : Keeps (preemptNothing l) := by
  mvcgen [preemptNothing, keeps_postPreempted]

theorem keeps_preempt (id) : Keeps (preempt id) := by
  refine keeps_get_bind fun s _ => ?_
  split
  · exact keeps_pure _
  refine keeps_get_bind fun s _ => ?_
  split
  · exact keeps_preemptNothing _
  refine keeps_get_bind fun s _ => keeps_bind (keeps_waitUnless _ _) fun _ => keeps_bind (keeps_forM fun t => keeps_swapOut _ _) fun _ =>
    keeps_get_bind fun s hs => keeps_bind (keeps_set ?_) fun _ => keeps_bind (keeps_modify fun s => ?_) fun _ =>
    keeps_bind keeps_savePoolImages fun _ => keeps_get_bind fun s _ => keeps_postPreempted _ _ _
  · exact (memWf_onLaunch ..).2 hs
  · exact (memWf_foldl _ s fun s c => memWf_freeShared s c).2

theorem keeps_stopLaunch (id held) : Keeps (stopLaunch id held) :=
  keeps_modify fun s hs => (memWf_onLaunch ..).2 ((memWf_foldl _ s fun (s : State) (t : Team) => memWf_setCluster s t.cluster _).2 hs)

theorem keeps_preemptFirst (l) : Keeps (preemptFirst l) := by
  induction l with
  | nil => mvcgen [preemptFirst]
  | cons v r ih =>
    refine keeps_iff.2 fun s hs => ?_
    have h := keeps_iff.1 (keeps_preempt v.id) s hs
    unfold preemptFirst
    split
    · exact hs
    · split
      · exact keeps_iff.1 ih s hs
      · exact keeps_iff.1 (keeps_stopLaunch _ _) s hs
      · exact h

theorem keeps_abortScan (core) : Keeps (abortScan core) := by
  mvcgen [abortScan, keeps_onCore, keeps_onDev, keeps_drawFree, keeps_logError]

theorem keeps_abortFor (l) : Keeps (abortFor l) := by
  mvcgen [abortFor, keeps_abortScan, keeps_forM]

theorem keeps_findPlace (l) : Keeps (findPlace l) := by
  mvcgen [findPlace, keeps_preemptFirst, keeps_abortFor]

theorem keeps_launchPlace (id) : Keeps (launchPlace id) := by
  mvcgen [launchPlace, keeps_enabled, keeps_findPlace, keeps_placeAt]

theorem keeps_moveCore (id src dst) : Keeps (moveCore id src dst) := by
  mvcgen [moveCore]

theorem keeps_stageRebalance (id) : Keeps (stageRebalance id) := by
  mvcgen [stageRebalance, keeps_enabled, keeps_moveCore, keeps_freeImages, keeps_forM]

theorem keeps_sliceExpiry (id) : Keeps (sliceExpiry id) := by
  have hold : Keeps (modify fun s => s.onLaunch id fun l => { l with held := true }) := keeps_modify fun s => (memWf_onLaunch ..).2
  refine keeps_get_bind fun s _ => ?_
  split
  · exact keeps_enabled _
  refine keeps_get_bind fun s _ => keeps_bind (keeps_enabled _) fun _ => keeps_ite hold (keeps_iff.2 fun s hs => ?_)
  have h := keeps_iff.1 (keeps_preempt id) s hs
  split
  · exact keeps_iff.1 hold s hs
  · exact keeps_iff.1 (keeps_stopLaunch _ _) s hs
  · exact h

theorem keeps_respread (image core) : Keeps (respread image core) := keeps_iff.2 fun s hs => by
  unfold respread
  split
  · exact hs
  next i _ =>
    have hm : Keeps (if s.serves core then spreadTo i core else pure ()) := by mvcgen [keeps_spreadTo]
    have h := keeps_iff.1 hm s hs
    split <;> simp_all

theorem keeps_launchRestore (id) : Keeps (launchRestore id) := by
  mvcgen [launchRestore, keeps_enabled, keeps_findPlace, keeps_respread, keeps_forM]
  simp_all +zetaDelta

theorem keeps_advanceCounter (l) : Keeps (advanceCounter l) := by
  mvcgen [advanceCounter, keeps_onDev, keeps_raiseMsix]

theorem keeps_launchComplete (id) : Keeps (launchComplete id) := by
  mvcgen [launchComplete, keeps_enabled, keeps_advanceCounter, keeps_dropImages, keeps_deviceStore]

/-! ### Upkeep of the logs -/

theorem keeps_segmentSealTimeout (log) : Keeps (segmentSealTimeout log) := by
  mvcgen [segmentSealTimeout, keeps_enabled]
  simp_all +zetaDelta

theorem keeps_moveGranule (stack seg win gran e) : Keeps (moveGranule stack seg win gran e) := by
  have entry (e : BitVec 128) : Keeps (modify fun s => s.setGranEntry win gran e) := keeps_modify fun s hs => memWf_setGranEntry hs _ _ _
  refine keeps_bind (keeps_ensureGranule _ _) fun b => ?_
  split
  · exact keeps_pure _
  refine keeps_get_bind fun s _ => keeps_bind ?_ fun base => ?_
  · split
    · exact keeps_pure _
    · exact keeps_appendRun _ _
  · split
    · exact entry _
    · exact keeps_get_bind fun s _ => keeps_bind (keeps_waitUnless _ _) fun _ => keeps_bind (keeps_appendMap _ _ _) fun pos => entry _

theorem keeps_skimmerCompact (seg) : Keeps (skimmerCompact seg) := by
  mvcgen [skimmerCompact, keeps_enabled, keeps_moveGranule, keeps_endOwners, keeps_forM]
  simp_all +zetaDelta

theorem keeps_retireNotice (seg cl) : Keeps (retireNotice seg cl) := by
  mvcgen [retireNotice, keeps_enabled, keeps_onCluster]
  simp_all +zetaDelta

theorem keeps_receiveBurst (b) : Keeps (receiveBurst b) := by
  mvcgen [receiveBurst, keeps_appendRun, keeps_onDev, keeps_forM]

theorem keeps_payOwed : Keeps (payOwed) := by
  mvcgen [payOwed, keeps_enabled, keeps_onDev, keeps_deviceWrite]

theorem keeps_appendResume : Keeps (appendResume) := by
  mvcgen [appendResume, keeps_wake, keeps_payOwed, keeps_onDev, keeps_receiveBurst, keeps_enabled]

theorem keeps_spaceAlarm : Keeps (spaceAlarm) := by
  mvcgen [spaceAlarm, keeps_enabled, keeps_raiseMsix, keeps_onDev]

theorem keeps_spillWaitEnd (uid) : Keeps (spillWaitEnd uid) := by
  mvcgen [spillWaitEnd, keeps_enabled, keeps_onUid]

/-! ### Swapped teams and debug -/

theorem keeps_basinStallTimeout (uid) : Keeps (basinStallTimeout uid) := by
  mvcgen [basinStallTimeout, keeps_enabled, keeps_serveFault]

theorem keeps_teamRedispatch (uid) : Keeps (teamRedispatch uid) := by
  mvcgen [teamRedispatch, keeps_enabled, keeps_onUid]

theorem keeps_firstThat {f : Nat → M Unit} (hf : ∀ c, Keeps (f c)) (l) : Keeps (firstThat f l) := by
  induction l with
  | nil => mvcgen [firstThat, keeps_enabled]
  | cons c r ih =>
    refine keeps_iff.2 fun s hs => ?_
    have h := keeps_iff.1 (hf c) s hs
    have hr := keeps_iff.1 ih s hs
    unfold firstThat
    split <;> simp_all

theorem keeps_restoreSome (uid) : Keeps (restoreSome uid) := by
  mvcgen [restoreSome, keeps_enabled, keeps_firstThat, keeps_restoreTeam]

theorem keeps_killTeam (uid) : Keeps (killTeam uid) := by
  mvcgen [killTeam, keeps_restoreSome, keeps_takeTrap]

theorem keeps_teamRestore (uid) : Keeps (teamRestore uid) := by
  mvcgen [teamRestore, keeps_enabled, keeps_restoreSome, keeps_killTeam]

theorem keeps_resumeWrite (tenant ctx seq kill) : Keeps (resumeWrite tenant ctx seq kill) := by
  refine keeps_get_bind fun s _ => keeps_ite (keeps_pure _) ?_
  split
  · exact keeps_pure _
  next t _ =>
  refine keeps_ite (keeps_onUid _ _) (keeps_bind (keeps_onUid _ _) fun _ => keeps_ite (keeps_iff.2 fun s hs => ?_) (keeps_pure _))
  have h := keeps_iff.1 (keeps_killTeam t.uid) s hs
  split
  · exact hs
  · exact h

theorem keeps_saveFull : Keeps (saveFull) := by
  mvcgen [saveFull, keeps_enabled, keeps_raiseMsix]

theorem keeps_debugHalt (core slot) : Keeps (debugHalt core slot) := by
  mvcgen [debugHalt, keeps_onUid, keeps_haltIfDue]

theorem keeps_debugRun (uid step) : Keeps (debugRun uid step) := by
  mvcgen [debugRun, keeps_onUid, keeps_serveFault, keeps_haltIfDue]

theorem keeps_debugResume (core slot step) : Keeps (debugResume core slot step) := by
  mvcgen [debugResume, keeps_debugRun]

/-! ### The host's side -/

theorem keeps_committedSector (win sec) : Keeps (committedSector win sec) := by
  mvcgen [committedSector, keeps_enabled, keeps_readPublished, keeps_terminateContext]
  simp_all

theorem keeps_refuseHost : Keeps (refuseHost) := by
  mvcgen [refuseHost, keeps_onDev]

theorem keeps_send (m) : Keeps (send m) := by
  mvcgen [send, keeps_onDev]

theorem keeps_cxlRead (hpa) : Keeps (cxlRead hpa) := by
  mvcgen [cxlRead, keeps_refuseHost, keeps_send, keeps_committedSector]

theorem keeps_closeBatch : Keeps (closeBatch) := by
  mvcgen [closeBatch, keeps_enabled, keeps_appendSectors, keeps_number, keeps_onDev]
  simp_all +zetaDelta

theorem keeps_joinBatch (win sec new be poison) : Keeps (joinBatch win sec new be poison) := by
  mvcgen [joinBatch, keeps_committedSector, keeps_onDev]

theorem keeps_cxlWrite (hpa data be poison) : Keeps (cxlWrite hpa data be poison) := by
  mvcgen [cxlWrite, keeps_refuseHost, keeps_enabled, keeps_joinBatch, keeps_onDev, keeps_closeBatch]

theorem keeps_unmask (fn vec) : Keeps (unmask fn vec) := by
  mvcgen [unmask, keeps_onDev]

theorem keeps_debugControl (core v) : Keeps (debugControl core v) := by
  mvcgen [debugControl, keeps_debugHalt, keeps_debugResume]

theorem keeps_registerWrite (off v) : Keeps (registerWrite off v) := by
  unfold registerWrite
  dsimp only
  repeat' split
  · exact keeps_debugControl _ _
  · exact keeps_writeComparator _ _ _
  · exact keeps_writeMgmt _ _

theorem keeps_sysWrite (tenant off v) : Keeps (sysWrite tenant off v) := by
  unfold sysWrite
  dsimp only
  repeat' split
  · exact keeps_writeMgmt _ _
  · exact keeps_resumeWrite _ _ _ _
  · exact keeps_pure _

theorem keeps_storeAck (id) : Keeps (storeAck id) := by
  mvcgen [storeAck, keeps_enabled, keeps_dropPosted, keeps_sysWrite]
  simp_all +zetaDelta

theorem keeps_invalidate (kind) : Keeps (invalidate kind) := by
  mvcgen [invalidate, keeps_enabled, keeps_onDev]

theorem keeps_invalidateDone : Keeps (invalidateDone) := by
  mvcgen [invalidateDone, keeps_enabled, keeps_onDev]

/-! ### Resets, heat, scrubbing, scans -/

theorem keeps_scrambleRow (row) : Keeps (scrambleRow row) := by
  mvcgen [scrambleRow, keeps_drawFree, keeps_forM]
  simp_all +zetaDelta [Memory.wf_writeN]

theorem keeps_arrivePosted (p) : Keeps (arrivePosted p) := by
  mvcgen [arrivePosted, keeps_dropPosted, keeps_storeAck]
  simp_all +zetaDelta

theorem keeps_warmReset (cause) : Keeps (warmReset cause) := by
  mvcgen [warmReset, keeps_arrivePosted, keeps_scrambleRow, keeps_logError, keeps_mapM, keeps_forM]

theorem keeps_failedScans (map) : Keeps (failedScans map) := by
  mvcgen [failedScans, keeps_drawFree, keeps_logError, keeps_forM]

theorem keeps_junction (deg) : Keeps (junction deg) := by
  mvcgen [junction, keeps_onDev, keeps_warmReset]

theorem keeps_powerCap (watts) : Keeps (powerCap watts) := by
  mvcgen [powerCap, keeps_enabled, keeps_onDev]

theorem keeps_ageCapExpiry (channel) : Keeps (ageCapExpiry channel) := by
  mvcgen [ageCapExpiry, keeps_enabled, keeps_onDev]

theorem keeps_repointBelow (f g node lvl) : Keeps (repointBelow f g node lvl) := by
  induction lvl generalizing node with
  | zero => mvcgen [repointBelow]
  | succ lvl ih =>
    exact keeps_forM fun i => by
      mvcgen [ih]
      exact memWf_setNodeEntry ‹_› _ _ _

theorem keeps_relocateNode (f) : Keeps (relocateNode f) := by
  refine keeps_bind (keeps_takeFrame _) fun g => keeps_get_bind fun s _ => keeps_bind (keeps_forM fun w => ?_) fun _ =>
    keeps_get_bind fun s _ => keeps_bind (keeps_forM fun q => ?_) fun _ => keeps_modify fun s hs => hs
  · split
    · exact keeps_modify fun s => (memWf_setWindow ..).2
    · exact keeps_repointBelow _ _ _ _
  · split
    · exact keeps_pure _
    · exact keeps_repointBelow _ _ _ _

theorem keeps_enterRetired (ctx k stack addr) : Keeps (enterRetired ctx k stack addr) := by
  mvcgen [enterRetired, keeps_onDev, keeps_logError]

theorem keeps_retireFrame (ctx k failing) : Keeps (retireFrame ctx k failing) := by
  mvcgen [retireFrame, keeps_enterRetired, keeps_relocateNode, keeps_forM]

theorem keeps_quarantine (ctx unit id set way addr) : Keeps (quarantine ctx unit id set way addr) := by
  mvcgen [quarantine, keeps_logError, keeps_raiseMsix, keeps_onSlice, keeps_onCluster]

theorem keeps_poisonLine (byte) : Keeps (poisonLine byte) := by
  mvcgen [poisonLine]

theorem keeps_ownedLineError (slice way t ctx) : Keeps (ownedLineError slice way t ctx) := by
  mvcgen [ownedLineError, keeps_terminateContext, keeps_onSlice, keeps_quarantine, keeps_poisonLine, keeps_retireFrame]

theorem keeps_homeLineError (slice way n) : Keeps (homeLineError slice way n) := by
  mvcgen [homeLineError, keeps_enabled, keeps_onSlice, keeps_ownedLineError, keeps_warmReset, keeps_poisonLine]

theorem keeps_ownedTaskError (cl win uid addr) : Keeps (ownedTaskError cl win uid addr) := by
  mvcgen [ownedTaskError, keeps_terminateContext]

theorem keeps_dirtyLineError (cl way n) : Keeps (dirtyLineError cl way n) := by
  mvcgen [dirtyLineError, keeps_enabled, keeps_ownedTaskError, keeps_onCluster, keeps_quarantine]

theorem keeps_weirError (cl n) : Keeps (weirError cl n) := by
  mvcgen [weirError, keeps_enabled, keeps_ownedTaskError, keeps_retireFrame]

theorem keeps_scrub (f) : Keeps (scrub f) := by
  mvcgen [scrub, keeps_enabled, keeps_logError, keeps_onCluster, keeps_homeLineError, keeps_dirtyLineError, keeps_weirError,
    keeps_retireFrame, keeps_enterRetired, keeps_onCore, keeps_onUid, keeps_terminateContext, keeps_warmReset]

theorem keeps_resetFinding (cause finds) : Keeps (resetFinding cause finds) := by
  mvcgen [resetFinding, keeps_enabled, keeps_warmReset, keeps_ownedLineError, keeps_forM]

theorem keeps_slicePauseEnd (slice) : Keeps (slicePauseEnd slice) := by
  mvcgen [slicePauseEnd, keeps_enabled, keeps_onSlice]

theorem keeps_twinTimeout (uid) : Keeps (twinTimeout uid) := by
  mvcgen [twinTimeout, keeps_enabled, keeps_pairMismatch]

theorem keeps_atomicTimeout (h) : Keeps (atomicTimeout h) := by
  mvcgen [atomicTimeout, keeps_enabled, keeps_onSlice, keeps_pairMismatch]

theorem keeps_startScan : Keeps (startScan) := by
  mvcgen [startScan, keeps_onCore, keeps_abortFor]

theorem keeps_scanInterval : Keeps (scanInterval) := by
  mvcgen [scanInterval, keeps_onDev, keeps_startScan]

theorem keeps_scanComplete (core pass sig) : Keeps (scanComplete core pass sig) := by
  mvcgen [scanComplete, keeps_enabled, keeps_onCore, keeps_onDev, keeps_startScan, keeps_logError]

/-! ### Snapshots, exports, replicas, takeover -/

theorem keeps_snapWindow (xa xb kindBad) : Keeps (snapWindow xa xb kindBad) := by
  mvcgen [snapWindow]

theorem keeps_needPriv (i) : Keeps (needPriv i) := by
  mvcgen [needPriv, keeps_getTeam, keeps_trapSelf]

theorem keeps_takeSnapshot (d a) : Keeps (takeSnapshot d a) := by
  mvcgen [takeSnapshot, keeps_needPriv, keeps_getTeam, keeps_waitFor, keeps_snapWindow, keeps_drain, keeps_number, keeps_setPhase]

theorem keeps_rollBack (a b) : Keeps (rollBack a b) := by
  mvcgen [rollBack, keeps_needPriv, keeps_getTeam, keeps_waitUnless, keeps_advance, keeps_snapWindow, keeps_drain, keeps_number,
    keeps_setPhase, keeps_waitFor]

theorem keeps_answer (status) : Keeps (answer status) := by
  mvcgen [answer, keeps_send, keeps_raiseMsix]

theorem keeps_measure (bytes) : Keeps (Machine.measure bytes) := keeps_onDev _

theorem keeps_applyChange (c) : Keeps (applyChange c) := by
  mvcgen [applyChange, keeps_onDev, keeps_number] <;> simp_all +zetaDelta

theorem keeps_mailbox (c) : Keeps (mailbox c) := by
  refine keeps_get_bind fun s _ => ?_
  split
  · exact keeps_bind (keeps_applyChange _) fun _ => keeps_bind (keeps_measure _) fun _ => keeps_answer _
  · exact keeps_answer _

theorem keeps_snapFree (win handle session) : Keeps (snapFree win handle session) := by
  mvcgen [snapFree, keeps_answer, keeps_enabled, keeps_measure]
  simp_all +zetaDelta

theorem keeps_readLogRows (poss) : Keeps (readLogRows poss) := by
  mvcgen [readLogRows]

theorem keeps_exportView (a) : Keeps (exportView a) := by
  refine keeps_get_bind fun s _ => ?_
  dsimp only
  split
  · exact keeps_answer _
  · exact keeps_ite (keeps_bind (keeps_modify fun s hs => memWf_writeView hs _ _) fun _ => keeps_bind (keeps_readLogRows _) fun _ =>
      keeps_bind (keeps_measure _) fun _ => keeps_answer _) (keeps_answer _)

theorem keeps_spillwayShip (w) : Keeps (spillwayShip w) := by
  mvcgen [spillwayShip, keeps_enabled, keeps_sendBurst, keeps_readLogRows, keeps_onDev]

theorem keeps_spillwayCut (w) : Keeps (spillwayCut w) := by
  mvcgen [spillwayCut, keeps_enabled, keeps_sendCut, keeps_onDev]

theorem keeps_refuseFabric (n) : Keeps (refuseFabric n) := by
  mvcgen [refuseFabric, keeps_onDev]

theorem keeps_replicaData (b) : Keeps (replicaData b) := by
  mvcgen [replicaData, keeps_dropFlits, keeps_refuseFabric, keeps_receiveBurst, keeps_onDev]

theorem keeps_replicaCut (port ends win psn) : Keeps (replicaCut port ends win psn) := by
  mvcgen [replicaCut, keeps_dropFlits, keeps_refuseFabric, keeps_enabled, keeps_onDev, keeps_sendCut, keeps_number]

theorem keeps_cutEcho (port ends win psn) : Keeps (cutEcho port ends win psn) := by
  mvcgen [cutEcho, keeps_dropFlits, keeps_onDev, keeps_refuseFabric]

theorem keeps_takeover (a) : Keeps (takeover a) := by
  refine keeps_get_bind fun s _ => ?_
  dsimp only
  split
  · exact keeps_answer _
  exact keeps_bind (keeps_forM fun w => keeps_modify fun s hs => hs) fun _ => keeps_bind (keeps_onDev _) fun _ => keeps_get_bind fun s _ =>
    keeps_bind (keeps_forM fun r => keeps_sendBurst _ _ _ _ _ _ _) fun _ => keeps_bind (keeps_measure _) fun _ => keeps_answer _

theorem keeps_takeoverFlit (port ends) : Keeps (takeoverFlit port ends) := by
  mvcgen [takeoverFlit, keeps_dropFlits, keeps_onDev, keeps_refuseFabric]

end

/-! ## Outcomes -/

section
variable {s : State} {m : M Unit}

/-- The state that follows, where one does, has its memories in canonical form. -/
def Stays (o : Host.Outcome State Fault Refusal) : Prop := ∀ t, o = .next t → t.memWf

theorem stays_next (h : s.memWf) : Stays (.next s) := fun _ e => Host.Outcome.next.inj e ▸ h

theorem stays_fault (f : Fault) : Stays (.fault f) := by
  intro t e
  cases e

theorem memWf_runM {α : Type} {m : M α} (hm : Keeps m) (h : s.memWf) : (runM m s).memWf := by
  have hr := keeps_iff.1 hm s h
  unfold runM
  cases hs : m s <;> rw [hs] at hr <;> exact hr

/-! ## What settles a stop -/

/-- A way to park that writes no memory. -/
def Parks (park : State → WaitFor → State) : Prop := ∀ s w, s.memWf → (park s w).memWf

theorem parks_parkTeam (uid : Nat) : Parks (parkTeam uid) := fun s w => (memWf_parkTeam s uid w).2
theorem parks_stallLane : Parks stallLane := fun s w => (memWf_stallLane s w).2

theorem stays_settleWith {park : State → WaitFor → State} (hp : Parks park) (uid : Nat) (e : Stop) {s0 : State}
    (h0 : s0.memWf) (h : s.memWf) : Stays (settleWith park uid e s0 s) := by
  have ended (ctx task la : Nat) {t : State} (ht : t.memWf) : Stays (.next (runM (terminateContext ctx 0xFF task la) t)) :=
    stays_next (memWf_runM (keeps_terminateContext _ _ _ _) ht)
  cases e with
  | wait w => exact stays_next (hp s w h)
  | halt f => exact stays_fault f
  | terminate ctx code la task => exact ended ctx task la h
  | trap r =>
    have hr := keeps_iff.1 (keeps_takeTrap uid r) s h
    unfold settleWith
    dsimp only
    cases hs : takeTrap uid r s with
    | ok _ t => exact stays_next (by rwa [hs] at hr)
    | error e t =>
      rw [hs] at hr
      cases e with
      | wait w =>
        refine stays_next ?_
        split
        · exact (memWf_holdFault ..).2 h0
        · exact hp s0 w h0
      | halt f => exact stays_fault f
      | terminate ctx code la task => exact ended ctx task la hr
      | trap r => exact stays_next hr

theorem stays_settle (uid : Nat) (e : Stop) {s0 : State} (h0 : s0.memWf) (h : s.memWf) : Stays (settle uid e s0 s) :=
  stays_settleWith (parks_parkTeam uid) uid e h0 h

/-! ## The outcome of a computation -/

theorem stays_runTeam (hm : Keeps m) (h : s.memWf) : Stays (runTeam m s) := by
  have hr := keeps_iff.1 hm s h
  unfold runTeam
  cases hs : m s <;> rw [hs] at hr
  · exact stays_next hr
  · exact stays_settle _ _ h hr

theorem stays_runLane (hm : Keeps m) (h : s.memWf) : Stays (runLane m s) := by
  have hr := keeps_iff.1 hm s h
  unfold runLane
  cases hs : m s <;> rw [hs] at hr
  · exact stays_next hr
  · exact stays_settleWith parks_stallLane _ _ h hr

theorem stays_runEventOf (uid : Nat) (hm : Keeps m) (h : s.memWf) : Stays (runEventOf uid m s) := by
  have hr := keeps_iff.1 hm s h
  unfold runEventOf
  cases hs : m s with
  | ok _ t => exact stays_next (by rwa [hs] at hr)
  | error e t =>
    rw [hs] at hr
    cases e with
    | wait w => exact stays_next h
    | halt f => exact stays_settle _ _ h hr
    | terminate ctx code la task => exact stays_settle _ _ h hr
    | trap r => exact stays_settle _ _ h hr

theorem runEvent_eq_runEventOf (m : M Unit) (s : State) : runEvent m s = runEventOf s.cur.uid m s := by
  unfold runEvent runEventOf
  rfl

theorem stays_runEvent (hm : Keeps m) (h : s.memWf) : Stays (runEvent m s) :=
  runEvent_eq_runEventOf m s ▸ stays_runEventOf s.cur.uid hm h

theorem stays_runEngine (id : Nat) (hm : Keeps m) (h : s.memWf) : Stays (runEngine id m s) := by
  have hr := keeps_iff.1 hm s h
  unfold runEngine
  cases hs : m s with
  | ok _ t => exact stays_next ((memWf_unstall ..).2 (by rwa [hs] at hr))
  | error e t =>
    rw [hs] at hr
    cases e with
    | wait w =>
      cases w with
      | space =>
        refine stays_next ?_
        split
        · exact h
        · exact (memWf_stall ..).2 h
      | _ =>
        refine stays_next ?_
        split
        · exact h
        · exact h
    | halt f => exact stays_settle _ _ h hr
    | terminate ctx code la task => exact stays_settle _ _ h hr
    | trap r => exact stays_settle _ _ h hr

/-! ## The words -/

theorem stays_execRet (h : s.memWf) : Stays (execRet s) := by
  unfold execRet
  split
  · exact stays_next h
  · exact stays_runTeam (keeps_trapWith _ _) h

theorem stays_execLwait {n} (h : s.memWf) : Stays (execLwait n s) := by
  refine stays_runTeam ?_ h
  mvcgen [keeps_waitUnless, keeps_advance]

theorem stays_execMrd {d n k} (h : s.memWf) : Stays (execMrd d n k s) := by
  refine stays_runTeam ?_ h
  mvcgen [keeps_waitLanes]

theorem stays_execMwr {n a k} (h : s.memWf) : Stays (execMwr n a k s) := by
  refine stays_runTeam ?_ h
  mvcgen [keeps_waitLanes, keeps_onTeam, keeps_advance]

theorem stays_execRel {a} {m} (h : s.memWf) : Stays (execRel a m s) := by
  refine stays_runTeam ?_ h
  mvcgen [keeps_releaseAll, keeps_advance]

theorem stays_execAcq {a} (h : s.memWf) : Stays (execAcq a s) := by
  refine stays_runTeam ?_ h
  mvcgen [keeps_drain, keeps_acquire, keeps_advance]

theorem stays_execFence {k} {m} (h : s.memWf) : Stays (execFence k m s) := by
  refine stays_runTeam ?_ h
  mvcgen [keeps_fenceAll, keeps_advance]

theorem stays_execTlwait {a} {n} (h : s.memWf) : Stays (execTlwait a n s) := by
  refine stays_runTeam ?_ h
  mvcgen [keeps_getTeam, keeps_trapWith, keeps_waitUnless, keeps_advance]

theorem stays_execEvwait (h : s.memWf) : Stays (execEvwait  s) := by
  refine stays_runTeam ?_ h
  mvcgen [keeps_waitUnless, keeps_advance]

theorem stays_execSget {d} {n} (h : s.memWf) : Stays (execSget d n s) := by
  refine stays_runTeam ?_ h
  mvcgen [keeps_waitLanes, keeps_sysReg, keeps_trapSelf]

theorem stays_execVmlog {f} (h : s.memWf) : Stays (execVmlog f s) := by
  refine stays_runLane (keeps_runWhole _ _ _ _ fun _ => ?_) h
  mvcgen [keeps_getTeam, keeps_putMask]

theorem stays_execVmpop {f} (h : s.memWf) : Stays (execVmpop f s) := by
  refine stays_runLane (keeps_runWhole _ _ _ _ fun _ => @keeps_bind Team Unit getTeam _ keeps_getTeam fun t => ?_) h
  exact keeps_ite (keeps_bind (keeps_setRdx _) fun _ => keeps_setE)
    (keeps_bind (keeps_writeAllActive _ _ _) fun _ => keeps_setRdx _)

theorem stays_execVmfirst {f} (h : s.memWf) : Stays (execVmfirst f s) := by
  refine stays_runLane (keeps_runWhole _ _ _ _ fun _ => @keeps_bind Team Unit getTeam _ keeps_getTeam fun t => ?_) h
  split
  · exact keeps_bind (keeps_setRdx _) fun _ => keeps_setE
  · exact keeps_bind (keeps_openDsts _ _) fun _ => keeps_bind (keeps_writeAllActive _ _ _) fun _ =>
      keeps_bind (keeps_reformDsts _) fun _ => keeps_setRdx _

theorem stays_execVif {f} (h : s.memWf) : Stays (execVif f s) := by
  refine stays_runLane (keeps_runWhole _ _ _ _ fun _ => ?_) h
  mvcgen [keeps_getTeam, keeps_putMask]

theorem stays_execVelse {f} (h : s.memWf) : Stays (execVelse f s) := by
  refine stays_runLane (keeps_runWhole _ _ _ _ fun _ => ?_) h
  mvcgen [keeps_getTeam, keeps_putMask]

theorem stays_execVendif {f} (h : s.memWf) : Stays (execVendif f s) := by
  refine stays_runLane (keeps_runWhole _ _ _ _ fun _ => ?_) h
  mvcgen [keeps_getTeam, keeps_putMask]

theorem stays_execVbreak {f} (h : s.memWf) : Stays (execVbreak f s) := by
  refine stays_runLane (keeps_runWhole _ _ _ _ fun _ => ?_) h
  mvcgen [keeps_getTeam, keeps_putMask, keeps_forM]

theorem stays_execVshfl {f} (h : s.memWf) : Stays (execVshfl f s) := by
  refine stays_runLane (keeps_shuffleWord _ _ _ _ fun t l => ?_) h
  mvcgen [keeps_readLane]

theorem stays_execVbcast {f} (h : s.memWf) : Stays (execVbcast f s) :=
  stays_runLane (keeps_shuffleWord _ _ _ _ fun _ _ => keeps_pure _) h

theorem stays_execVrot {f} (h : s.memWf) : Stays (execVrot f s) :=
  stays_runLane (keeps_shuffleWord _ _ _ _ fun _ _ => keeps_pure _) h

theorem stays_execVvote {f} (h : s.memWf) : Stays (execVvote f s) := by
  refine stays_runLane (keeps_runWhole _ _ _ _ fun _ => ?_) h
  mvcgen [keeps_takers, keeps_setRdx, keeps_setE, keeps_mapM, keeps_readLane, keeps_ownDsts, keeps_writeByLane]

theorem stays_execVmatch {f} (h : s.memWf) : Stays (execVmatch f s) := by
  refine stays_runLane (keeps_runWhole _ _ _ _ fun _ => ?_) h
  mvcgen [keeps_takers, keeps_mapM, keeps_readLane, keeps_ownDsts, keeps_writeByLane]

theorem stays_execVcompact {f} (h : s.memWf) : Stays (execVcompact f s) := by
  refine stays_runLane (keeps_runWhole _ _ _ _ fun _ => @keeps_bind Team Unit getTeam _ keeps_getTeam fun t => ?_) h
  dsimp only
  split
  · exact keeps_bind (keeps_setRdx _) fun _ => keeps_setE
  · refine keeps_bind (keeps_countSources _) fun _ => ?_
    exact @keeps_bind Unit Unit (deliver _ _ _ _) _ (keeps_deliver _ _ _ _) fun _ => keeps_setRdx _

theorem stays_execVexpand {f} (h : s.memWf) : Stays (execVexpand f s) := by
  refine stays_runLane (keeps_runWhole _ _ _ _ fun _ => @keeps_bind Team Unit getTeam _ keeps_getTeam fun t => ?_) h
  dsimp only
  split
  · exact keeps_bind (keeps_setRdx _) fun _ => keeps_setE
  · refine keeps_bind (keeps_countSources _) fun _ => ?_
    exact @keeps_bind Unit Unit (deliver _ _ _ _) _ (keeps_deliver _ _ _ _) fun _ => keeps_setRdx _

theorem stays_execVst {f} (h : s.memWf) : Stays (execVst f s) :=
  stays_runLane (keeps_scatterWord _ _ keeps_noCheck) h

theorem stays_execVldp {f} (h : s.memWf) : Stays (execVldp f s) := by
  refine stays_runLane (keeps_runPasses _ _ _ _ fun w => ?_) h
  mvcgen [keeps_countReads, keeps_getTeam, keeps_soundLanes, keeps_eachLane, keeps_privateOffset, keeps_readLane, keeps_killPoisoned,
    keeps_writeValues]

theorem stays_execVstp {f} (h : s.memWf) : Stays (execVstp f s) := by
  refine stays_runLane (keeps_runPasses _ _ _ _ fun w => ?_) h
  mvcgen [keeps_countReads, keeps_getTeam, keeps_soundLanes, keeps_eachLane, keeps_privateOffset, keeps_readLane, keeps_mapM,
    keeps_storeBits, keeps_forM, keeps_onCore]

theorem stays_execVldb {f} (h : s.memWf) : Stays (execVldb f s) := by
  refine stays_runLane (keeps_runPasses _ _ _ _ fun w => ?_) h
  mvcgen [keeps_countReads, keeps_getTeam, keeps_soundLanes, keeps_basinPass, keeps_forM, keeps_fillNamed, keeps_killPoisoned,
    keeps_writeValues, keeps_countStale]

theorem stays_execVstb {f} (h : s.memWf) : Stays (execVstb f s) := by
  refine stays_runLane (keeps_runPasses _ _ _ _ fun w => ?_) h
  mvcgen [keeps_countReads, keeps_getTeam, keeps_soundLanes, keeps_basinPass, keeps_mapM, keeps_storeBits, keeps_basinStores]

theorem stays_execVldrow {f} (h : s.memWf) : Stays (execVldrow f s) := by
  refine stays_runLane (keeps_runWhole _ _ _ _ fun _ => ?_) h
  mvcgen [keeps_getTeam, keeps_sampled, keeps_locateRow, keeps_rowSectorsOf, keeps_killPoisoned, keeps_takeDsts, keeps_openDsts,
    keeps_forM, keeps_writeValues, keeps_reformDsts]

theorem stays_execVtst {f} (h : s.memWf) : Stays (execVtst f s) :=
  stays_runLane (keeps_scatterWord _ _ keeps_checkTemplateStore) h

theorem stays_execVpref {f} (h : s.memWf) : Stays (execVpref f s) := by
  refine stays_runLane (keeps_runPasses _ _ _ _ fun w => ?_) h
  mvcgen [keeps_countReads, keeps_getTeam, keeps_soundLanes, keeps_prefetchWord]

theorem stays_execVatom {f} (h : s.memWf) : Stays (execVatom f s) := by
  refine stays_runLane (keeps_atomicWord _ _ fun l => ?_) h
  mvcgen [keeps_atomOperand]

theorem stays_execVcas {f} (h : s.memWf) : Stays (execVcas f s) := by
  refine stays_runLane (keeps_atomicWord _ _ fun l => ?_) h
  mvcgen [keeps_atomOperand]

theorem stays_execVrowatom {f} (h : s.memWf) : Stays (execVrowatom f s) :=
  stays_runLane (keeps_runWhole _ _ _ _ (keeps_rowAtomic f)) h

theorem stays_execVwst {f} (h : s.memWf) : Stays (execVwst f s) := by
  refine stays_runLane (keeps_runPasses _ _ _ _ fun w => ?_) h
  mvcgen [keeps_getTeam, keeps_checkWeights, keeps_laneTrap, keeps_countReads, keeps_soundLanes, keeps_onCore]

theorem stays_execVqput {f} (h : s.memWf) : Stays (execVqput f s) := by
  refine stays_runLane (keeps_runPasses _ _ _ _ fun w => ?_) h
  mvcgen [keeps_getTeam, keeps_waitUnless, keeps_countReads, keeps_soundLanes, keeps_onCore]

theorem stays_execVadr {f} (h : s.memWf) : Stays (execVadr f s) := by
  refine stays_runLane (keeps_runPasses _ _ _ _ fun w => ?_) h
  mvcgen [keeps_getTeam, keeps_checkDrain, keeps_accFmt, keeps_killPoisoned, keeps_ownDsts, keeps_writeLanes, keeps_addFlags]

theorem stays_execVaclr {f} (h : s.memWf) : Stays (execVaclr f s) := by
  refine stays_runLane ?_ h
  mvcgen [keeps_clearTile, keeps_retire]

theorem stays_execVnrred {f} (h : s.memWf) : Stays (execVnrred f s) :=
  stays_runLane (keeps_cascadeWord _ _ _ _ (keeps_oneAddress _ _ _) fun _ => keeps_reducePass f) h

theorem stays_execVnrld {f} (h : s.memWf) : Stays (execVnrld f s) := by
  refine stays_runLane (keeps_cascadeWord _ _ _ _ (keeps_oneAddress _ _ _) fun _ w cw => ?_) h
  mvcgen [keeps_getTeam, keeps_killPoisoned, keeps_writeValues]

theorem stays_execVnrst {f} (h : s.memWf) : Stays (execVnrst f s) := by
  refine stays_runLane (keeps_cascadeWord _ _ _ _ (keeps_oneAddress _ _ _) fun c w cw => ?_) h
  mvcgen [keeps_getTeam, keeps_countReads, keeps_soundLanes, keeps_mapM, keeps_readLane, keeps_acceptPass]

theorem stays_execVnrclone {f} (h : s.memWf) : Stays (execVnrclone f s) := by
  refine stays_runLane (keeps_cascadeWord _ _ _ _ (keeps_cloneChecks f) fun c w cw => ?_) h
  mvcgen [keeps_getTeam, keeps_acceptPass]

theorem stays_execStalecntFlush {cluster} (h : s.memWf) : Stays (execStalecntFlush cluster s) := by
  refine stays_runEventOf 0 ?_ h
  mvcgen [keeps_enabled, keeps_flushStale]

theorem stays_execSpdmMeasurement {nonce} (h : s.memWf) : Stays (execSpdmMeasurement nonce s) := by
  refine stays_runEventOf 0 ?_ h
  mvcgen [keeps_send]

theorem stays_execSpdmChallenge {nonce} (h : s.memWf) : Stays (execSpdmChallenge nonce s) := by
  refine stays_runEventOf 0 ?_ h
  mvcgen [keeps_send]

/-- Every word of the opcode table, and every step of another agent. -/
theorem stays_exec (i : Instr) (h : s.memWf) : Stays (exec i s) := by
  cases i with
  | add | sub | mul | mulh | mulhu | div | divu | rem | remu | and | or | xor | andn | shl | shr | sar | rotr | min | max | minu | maxu |
    slt | sltu | seq | clz | ctz | popc | addi | andi | ori | xori | shli | shri | sari | slti | sltui | lui | apc | jmp | call | lpad |
    tlread | yield | nop =>
    exact stays_next h
  | ldB | ldH | ldW | ldD | lduB | lduH | lduW => exact stays_runTeam (keeps_issueLoad _ _ _ _) h
  | stB | stH | stW | stD => exact stays_runTeam (keeps_issueStore _ _ _) h
  | amo | cas => exact stays_runTeam (keeps_issueAtomic _ _ _ _ _) h
  | beq | bne | blt | bge | bltu | bgeu => exact stays_next ((memWf_branch ..).2 h)
  | ret => exact stays_execRet h
  | jtab => exact stays_runTeam (keeps_jumpTable _ _) h
  | lrun => exact stays_runTeam (keeps_enqueueBlock _ _) h
  | lwait => exact stays_execLwait h
  | mrd => exact stays_execMrd h
  | mwr => exact stays_execMwr h
  | rel => exact stays_execRel h
  | acq => exact stays_execAcq h
  | fence => exact stays_execFence h
  | tlwait => exact stays_execTlwait h
  | rcopy | rfeed | rspill => exact stays_runTeam (keeps_startRunnel _ _ _ _ _) h
  | evpop => exact stays_next ((memWf_popEvent ..).2 h)
  | evwait => exact stays_execEvwait h
  | mxloop => exact stays_runTeam (keeps_postLoop _ _) h
  | wset => exact stays_runTeam (keeps_setRegion _ _ _ _) h
  | wfree => exact stays_runTeam (keeps_freeRegion _) h
  | freeze => exact stays_runTeam (keeps_freezeTeam _) h
  | bar => exact stays_runTeam (keeps_barrier _ _) h
  | qput => exact stays_runTeam (keeps_queuePut _ _ _) h
  | qget => exact stays_runTeam (keeps_queueGet _ _ _) h
  | exit => exact stays_runTeam (keeps_exitTeam _) h
  | trap => exact stays_runTeam (keeps_trapWith _ _) h
  | svc => exact stays_runTeam (keeps_serviceCall _) h
  | sget => exact stays_execSget h
  | sset => exact stays_runTeam (keeps_writeSysReg _ _ _) h
  | eret => exact stays_runTeam keeps_serviceReturn h
  | brk => exact stays_runTeam (keeps_breakPoint _) h
  | snap => exact stays_runTeam (keeps_takeSnapshot _ _) h
  | roll => exact stays_runTeam (keeps_rollBack _ _) h
  | lanePair => exact stays_runLane (keeps_pairWord _ _) h
  | vadd | vsub | vmul | vmulh | vmulhu | vmad | vmin | vmax | vminu | vmaxu | vand | vor | vxor | vandn | vshl | vshr | vsar | vrotr |
    vclz | vpopc | vbrev | vabs | vaddsat | vsubsat | vbfx | vbfi | vsel | vmov | vdot4 | vrqz | vfadd | vfsub | vfmul | vfma | vfmin |
    vfmax | vfabs | vfneg | vfrnd | vfclass | vnadd | vnmul | vnfma | vnmax | vnmin | vfdiv | vfsqrt | vrcp | vrsq | vexp2 | vlog2 | vsin |
    vcos | vtanh | vcvt | vcvtd | vcvtnf =>
    exact stays_runLane (keeps_arithWord _ _ _) h
  | vpack => exact stays_runLane (keeps_packWord _ _) h
  | vunpack => exact stays_runLane (keeps_unpackWord _ _) h
  | vbsc => exact stays_runLane (keeps_blockScaleWord _ _) h
  | vbq => exact stays_runLane (keeps_quantiseWord _ _) h
  | vbdq => exact stays_runLane (keeps_dequantiseWord _ _) h
  | vcmp | vfcmp => exact stays_runLane (keeps_compareWord _ _ _) h
  | vmlog => exact stays_execVmlog h
  | vmpop => exact stays_execVmpop h
  | vmfirst => exact stays_execVmfirst h
  | vif => exact stays_execVif h
  | velse => exact stays_execVelse h
  | vendif => exact stays_execVendif h
  | vbreak => exact stays_execVbreak h
  | vshfl => exact stays_execVshfl h
  | vbcast => exact stays_execVbcast h
  | vrot => exact stays_execVrot h
  | vvote => exact stays_execVvote h
  | vred | vfred | vscan | vfscan => exact stays_runLane (keeps_reduceWord _ _ _ _) h
  | vmatch => exact stays_execVmatch h
  | vcompact => exact stays_execVcompact h
  | vexpand => exact stays_execVexpand h
  | vld => exact stays_runLane (keeps_gatherWord _ _) h
  | vst => exact stays_execVst h
  | vldp => exact stays_execVldp h
  | vstp => exact stays_execVstp h
  | vldb => exact stays_execVldb h
  | vstb => exact stays_execVstb h
  | vldrow => exact stays_execVldrow h
  | vtst => exact stays_execVtst h
  | vpref => exact stays_execVpref h
  | vatom => exact stays_execVatom h
  | vcas => exact stays_execVcas h
  | vrowatom => exact stays_execVrowatom h
  | vwst => exact stays_execVwst h
  | vqput => exact stays_execVqput h
  | vadr => exact stays_execVadr h
  | vaclr => exact stays_execVaclr h
  | vnrred => exact stays_execVnrred h
  | vnrld => exact stays_execVnrld h
  | vnrst => exact stays_execVnrst h
  | vnrclone => exact stays_execVnrclone h
  | vnop | vend => exact stays_runLane (keeps_retire _ _) h
  | laneBlockStart => exact stays_runEventOf _ (keeps_blockStart _) h
  | loadDataReturn => exact stays_runEvent (keeps_loadDataReturn _ _) h
  | homeSliceAtomic => exact stays_runEventOf 0 (keeps_homeSliceAtomic _) h
  | atomicOldValueReturn => exact stays_runEventOf _ (keeps_atomicReturn _ _) h
  | atomicCollectionClose => exact stays_runEventOf 0 (keeps_atomicCollectionClose _) h
  | psnShareArrival => exact stays_runEventOf 0 (keeps_psnShareArrival _ _) h
  | psnCommit => exact stays_runEventOf 0 keeps_psnCommit h
  | heldNotice => exact stays_runEventOf 0 (keeps_heldNoticeStep _ _ _) h
  | commitNotice => exact stays_runEventOf 0 (keeps_commitNoticeStep _ _) h
  | segmentSealTimeout => exact stays_runEventOf 0 (keeps_segmentSealTimeout _) h
  | skimmerCompact => exact stays_runEventOf 0 (keeps_skimmerCompact _) h
  | retireNotice => exact stays_runEventOf 0 (keeps_retireNotice _ _) h
  | appendResume => exact stays_runEventOf 0 keeps_appendResume h
  | spacealarm => exact stays_runEventOf 0 keeps_spaceAlarm h
  | spillWaitEnd => exact stays_runEventOf _ (keeps_spillWaitEnd _) h
  | stalecntFlush => exact stays_execStalecntFlush h
  | basinStallTimeout => exact stays_runEventOf _ (keeps_basinStallTimeout _) h
  | teamRedispatch => exact stays_runEventOf _ (keeps_teamRedispatch _) h
  | teamRestore => exact stays_runEventOf _ (keeps_teamRestore _) h
  | waitSatisfied => exact stays_runEventOf 0 (keeps_waitSatisfied _) h
  | barrierGenerationComplete => exact stays_runEventOf 0 (keeps_barrierComplete _) h
  | yieldEnd => exact stays_runEventOf 0 (keeps_yieldEnd _) h
  | teamPromotion => exact stays_runEventOf 0 (keeps_promote _ _) h
  | runnelStart => exact stays_runEngine _ (keeps_runnelStep _) h
  | runnelEnd => exact stays_runEventOf 0 (keeps_runnelEnd _) h
  | completionRecordPost => exact stays_runEventOf 0 (keeps_completionPost _) h
  | mxloopGrant => exact stays_runEventOf 0 (keeps_grantLoop _) h
  | matrixStep => exact stays_runEventOf 0 (keeps_matrixStep _ _) h
  | matrixUpdateLand => exact stays_runEventOf 0 (keeps_updateLand _ _) h
  | cascadeComplete => exact stays_runEventOf _ (keeps_cascadeComplete _ _) h
  | sealObserved => exact stays_runEventOf 0 (keeps_sealObserved _ _) h
  | launchParse => exact stays_runEventOf 0 (keeps_launchParse _) h
  | dependenceSatisfied => exact stays_runEventOf 0 (keeps_dependenceSatisfied _) h
  | launchPlace => exact stays_runEventOf 0 (keeps_launchPlace _) h
  | instanceStamp => exact stays_runEventOf 0 (keeps_instanceStamp _ _) h
  | templateSpreadCopy => exact stays_runEventOf 0 (keeps_spreadCopy _ _) h
  | stageRebalance => exact stays_runEventOf 0 (keeps_stageRebalance _) h
  | sliceExpiry => exact stays_runEventOf 0 (keeps_sliceExpiry _) h
  | launchRestore => exact stays_runEventOf 0 (keeps_launchRestore _) h
  | launchComplete => exact stays_runEventOf 0 (keeps_launchComplete _) h
  | patrolScrub => exact stays_runEventOf 0 (keeps_scrub _) h
  | slicePauseEnd => exact stays_runEventOf 0 (keeps_slicePauseEnd _) h
  | dieLinkLoss | tcfWatchdog | devctlWarmreq => exact stays_runEventOf 0 (keeps_warmReset _) h
  | coldReset => exact stays_next (memWf_runM (keeps_failedScans _) (memWf_coldReset h _))
  | junctionTemperature => exact stays_runEventOf 0 (keeps_junction _) h
  | powerCapExceeded => exact stays_runEventOf 0 (keeps_powerCap _) h
  | coolantFlowLow | refreshWindow | devctlEnable => exact stays_runEventOf 0 (keeps_onDev _) h
  | ageCapExpiry => exact stays_runEventOf 0 (keeps_ageCapExpiry _) h
  | scanInterval => exact stays_runEventOf 0 keeps_scanInterval h
  | scanComplete => exact stays_runEventOf 0 (keeps_scanComplete _ _ _) h
  | pairedTwinTimeout => exact stays_runEventOf 0 (keeps_twinTimeout _) h
  | pairedAtomicTimeout => exact stays_runEventOf 0 (keeps_atomicTimeout _) h
  | cxlMemRead => exact stays_runEventOf 0 (keeps_cxlRead _) h
  | cxlMemWrite => exact stays_runEventOf 0 (keeps_cxlWrite _ _ _ _) h
  | hostBatchClose => exact stays_runEventOf 0 keeps_closeBatch h
  | msixUnmask => exact stays_runEventOf 0 (keeps_unmask _ _) h
  | xlinvVaRange | xlinvContext | xlinvWindow | xlinvAll => exact stays_runEventOf 0 (keeps_invalidate _) h
  | xlinvComplete => exact stays_runEventOf 0 keeps_invalidateDone h
  | resumeContinue | resumeKill => exact stays_runEventOf 0 (keeps_resumeWrite _ _ _ _) h
  | dbgHalt => exact stays_runEventOf 0 (keeps_debugHalt _ _) h
  | dbgResume | dbgStep => exact stays_runEventOf 0 (keeps_debugResume _ _ _) h
  | registerWrite => exact stays_runEventOf 0 (keeps_registerWrite _ _) h
  | snapfree => exact stays_runEventOf 0 (keeps_snapFree _ _ _) h
  | exportWindow => exact stays_runEventOf 0 (keeps_exportView _) h
  | takeover => exact stays_runEventOf 0 (keeps_takeover _) h
  | mailboxCommand => exact stays_runEventOf 0 (keeps_mailbox _) h
  | spdmMeasurement => exact stays_execSpdmMeasurement h
  | spdmChallenge => exact stays_execSpdmChallenge h
  | spdmCertificate => exact stays_runEventOf 0 (keeps_send _) h
  | spillwayShip => exact stays_runEventOf 0 (keeps_spillwayShip _) h
  | spillwayCut => exact stays_runEventOf 0 (keeps_spillwayCut _) h
  | replicaSegmentData => exact stays_runEventOf 0 (keeps_replicaData _) h
  | replicaCut => exact stays_runEventOf 0 (keeps_replicaCut _ _ _ _) h
  | cutEcho => exact stays_runEventOf 0 (keeps_cutEcho _ _ _ _) h
  | takeoverFlit => exact stays_runEventOf 0 (keeps_takeoverFlit _ _) h
  | hostWindowStoreAck => exact stays_runEventOf 0 (keeps_storeAck _) h
  | computeRowStoreAtBank => exact stays_runEventOf 0 (keeps_computeRowStore _) h
  | savefull => exact stays_runEventOf 0 keeps_saveFull h

end

section
variable {s : State}

/-! ## The turn of a team -/

/-- What a turn comes to before its word executes has its memories in canonical form. -/
def Issued.Stays : Issued → Prop
  | .word _ s => s.memWf
  | .done o => MemoryForm.Stays o

theorem stays_issueOf {m : M (Option Instr)} {park : State → WaitFor → State} (hm : Keeps m) (hp : Parks park) (h : s.memWf) :
    Issued.Stays (issueOf m park s) := by
  have hr := keeps_iff.1 hm s h
  unfold issueOf
  cases hs : m s with
  | ok a t =>
    rw [hs] at hr
    cases a with
    | none => exact stays_next hr
    | some i => exact hr
  | error e t => exact stays_settleWith hp _ e h (by rwa [hs] at hr)

theorem stays_scalarTurn (uid : Nat) (h : s.memWf) : Issued.Stays (scalarTurn uid s) := by
  unfold scalarTurn
  dsimp only
  split
  · exact stays_issueOf (keeps_bind keeps_engineFaultFirst fun _ => keeps_issueScalar) (parks_parkTeam uid) ((memWf_focus ..).2 h)
  · exact stays_next h

theorem stays_laneTurn (uid : Nat) (h : s.memWf) : Issued.Stays (laneTurn uid s) := by
  unfold laneTurn
  dsimp only
  split
  · exact stays_issueOf keeps_issueLane parks_stallLane ((memWf_focus ..).2 h)
  · exact stays_next h

theorem stays_finishTurn (uid : Nat) (lane : Bool) {o : Host.Outcome State Fault Refusal} (ho : Stays o) :
    Stays (finishTurn uid lane o) := by
  cases o with
  | next s => exact stays_next (memWf_runM (keeps_afterWord uid lane) (ho s rfl))
  | _ => exact ho

theorem stays_runIssued (uid : Nat) (lane : Bool) {w : Issued} (hw : Issued.Stays w) : Stays (runIssued uid lane w) := by
  cases w with
  | word i s => exact stays_finishTurn uid lane (stays_exec i hw)
  | done o => exact stays_finishTurn uid lane hw

/-! ## The moves of the agents -/

/-- A move that keeps the memories in canonical form. -/
def KeepsForm (m : Move) : Prop := ∀ s, s.memWf → Stays (m s)

theorem keepsForm_exec (i : Instr) : KeepsForm (exec i) := fun _ => stays_exec i
theorem keepsForm_scalarMove (uid : Nat) : KeepsForm (scalarMove uid) := fun _ h => stays_runIssued uid false (stays_scalarTurn uid h)
theorem keepsForm_laneMove (uid : Nat) : KeepsForm (laneMove uid) := fun _ h => stays_runIssued uid true (stays_laneTurn uid h)
theorem keepsForm_sendMove (fn vec : Nat) : KeepsForm (sendMove fn vec) := fun _ h => stays_next h
theorem keepsForm_resumeMove (cl : Nat) : KeepsForm (resumeMove cl) := fun _ h => stays_next h
theorem keepsForm_spaceRows : KeepsForm fun s => .next s.spaceRows := fun s h => stays_next ((memWf_spaceRows s).2 h)

/-- Every move of a list keeps the form. -/
def AllKeep (l : List Move) : Prop := ∀ m ∈ l, KeepsForm m

theorem allKeep_nil : AllKeep [] := nofun
theorem allKeep_cons {m : Move} {l : List Move} (hm : KeepsForm m) (hl : AllKeep l) : AllKeep (m :: l) :=
  List.forall_mem_cons.2 ⟨hm, hl⟩
theorem allKeep_append {k l : List Move} (hk : AllKeep k) (hl : AllKeep l) : AllKeep (k ++ l) :=
  List.forall_mem_append.2 ⟨hk, hl⟩
theorem allKeep_map {α : Type} {l : List α} {f : α → Move} (hf : ∀ a, KeepsForm (f a)) : AllKeep (l.map f) :=
  List.forall_mem_map.2 fun a _ => hf a
theorem allKeep_flatMap {α : Type} {l : List α} {f : α → List Move} (hf : ∀ a, AllKeep (f a)) : AllKeep (l.flatMap f) := by
  intro m hm
  obtain ⟨a, -, ha⟩ := List.mem_flatMap.1 hm
  exact hf a m ha
theorem allKeep_ite {c : Prop} [Decidable c] {k l : List Move} (hk : AllKeep k) (hl : AllKeep l) : AllKeep (if c then k else l) := by
  split
  · exact hk
  · exact hl
theorem allKeep_filterMap_ite {α : Type} {l : List α} {c : α → Prop} [DecidablePred c] {f : α → Move}
    (hf : ∀ a, KeepsForm (f a)) : AllKeep (l.filterMap fun a => if c a then some (f a) else none) := by
  intro m hm
  obtain ⟨a, -, ha⟩ := List.mem_filterMap.1 hm
  obtain ⟨-, e⟩ := Option.ite_none_right_eq_some.1 ha
  exact Option.some.inj e ▸ hf a

theorem allKeep_unitSteps (s : State) : AllKeep s.unitSteps :=
  allKeep_flatMap fun t => allKeep_append
    (allKeep_append
      (allKeep_append (allKeep_map fun o => keepsForm_exec (.loadDataReturn t.uid o.op))
        (allKeep_map fun o => keepsForm_exec (.atomicOldValueReturn t.uid o.op)))
      (allKeep_ite (allKeep_map fun d => keepsForm_exec (.atomicOldValueReturn t.uid d.req.id)) allKeep_nil))
    (allKeep_ite (allKeep_cons (keepsForm_exec (.laneBlockStart t.uid)) allKeep_nil) allKeep_nil)

theorem allKeep_one {i : Instr} : AllKeep [exec i] := allKeep_cons (keepsForm_exec i) allKeep_nil

/-- The steps of the slices and clusters for one publication. -/
theorem allKeep_pubSteps (s : State) (p : Publication) : AllKeep ((List.range 48).flatMap fun k =>
      (if s.mayPrepare p.psn k then [execPsnShareArrival p.psn k] else [])
        ++ ((List.range 48).filterMap fun c => if p.mayHold k c then some (execHeldNotice p.psn (NoticeRoute.mk k c)) else none)
        ++ (if s.mayNotice p k then [execCommitNotice p.psn k] else [])) :=
  allKeep_flatMap fun k => allKeep_append
    (allKeep_append (allKeep_ite (allKeep_one (i := .psnShareArrival p.psn k)) allKeep_nil)
      (allKeep_filterMap_ite fun c => keepsForm_exec (.heldNotice p.psn (NoticeRoute.mk k c))))
    (allKeep_ite (allKeep_one (i := .commitNotice p.psn k)) allKeep_nil)

theorem allKeep_memorySteps (s : State) : AllKeep s.memorySteps := by
  unfold State.memorySteps
  refine allKeep_append (allKeep_append (allKeep_append (allKeep_append (allKeep_append (allKeep_append ?_ ?_) ?_) ?_) ?_) ?_) ?_
  case refine_1 =>
    exact allKeep_flatMap fun p => allKeep_cons (keepsForm_exec (.hostWindowStoreAck p.id)) (allKeep_one (i := .computeRowStoreAtBank p.id))
  case refine_2 => exact allKeep_map fun v => keepsForm_sendMove v.1 v.2
  case refine_3 => exact allKeep_flatMap fun c => allKeep_ite (allKeep_cons (keepsForm_resumeMove c.1) allKeep_nil) allKeep_nil
  case refine_4 =>
    exact allKeep_flatMap fun h => allKeep_append (allKeep_ite (allKeep_one (i := .slicePauseEnd h.1)) allKeep_nil)
      (allKeep_cons (keepsForm_exec (.homeSliceAtomic h.1)) (allKeep_one (i := .atomicCollectionClose h.1)))
  case refine_5 => exact allKeep_flatMap (allKeep_pubSteps s)
  case refine_6 =>
    exact allKeep_map
      (l := [.psnCommit, .appendResume, .hostBatchClose, .xlinvVaRange, .xlinvContext, .xlinvWindow, .xlinvAll, .xlinvComplete])
      keepsForm_exec
  case refine_7 =>
    exact allKeep_flatMap fun g => allKeep_ite (allKeep_map fun k => keepsForm_exec (.retireNotice g.1 k)) allKeep_nil

theorem allKeep_engineSteps (s : State) : AllKeep s.engineSteps := by
  unfold State.engineSteps
  refine allKeep_append (allKeep_append (allKeep_flatMap fun c => allKeep_append ?_ ?_) (allKeep_flatMap fun k => ?_)) ?_
  · exact allKeep_flatMap fun r => allKeep_cons (keepsForm_exec (.runnelStart r.id)) (allKeep_one (i := .runnelEnd r.id))
  · exact allKeep_ite (allKeep_one (i := .completionRecordPost c.1)) allKeep_nil
  · refine allKeep_cons (keepsForm_exec (.mxloopGrant k.1)) (allKeep_flatMap fun l => allKeep_flatMap fun m => ?_)
    exact allKeep_ite (allKeep_cons (keepsForm_exec (.matrixUpdateLand l.id m)) (allKeep_one (i := .matrixStep l.id m))) allKeep_nil
  · exact allKeep_map fun c => keepsForm_exec (.cascadeComplete c.uid c.num)

theorem allKeep_dispatchSteps (s : State) : AllKeep s.dispatchSteps := by
  unfold State.dispatchSteps
  refine allKeep_append (allKeep_append (allKeep_append (allKeep_append ?_ ?_) ?_) ?_) ?_
  case refine_1 =>
    exact allKeep_flatMap fun t => allKeep_append (allKeep_ite (allKeep_one (i := .teamPromotion t.uid false)) allKeep_nil)
      (allKeep_ite (allKeep_one (i := .teamPromotion t.uid true)) allKeep_nil)
  case refine_2 =>
    refine allKeep_flatMap fun t => allKeep_ite (allKeep_one (i := .waitSatisfied t.uid)) (allKeep_ite ?_ (allKeep_ite ?_ allKeep_nil))
    · exact allKeep_map (l := [.spillWaitEnd t.uid, .teamRedispatch t.uid, .teamRestore t.uid]) keepsForm_exec
    · exact allKeep_one (i := .barrierGenerationComplete t.uid)
  case refine_3 => exact allKeep_flatMap fun i => allKeep_map fun c => keepsForm_exec (.templateSpreadCopy i.id c)
  case refine_4 =>
    refine allKeep_flatMap fun l => allKeep_append ?_ (allKeep_flatMap fun g => allKeep_map fun c => keepsForm_exec (.instanceStamp l.id c))
    exact allKeep_map (l := [.launchParse l.id, .dependenceSatisfied l.id, .launchPlace l.id, .launchRestore l.id, .launchComplete l.id])
      keepsForm_exec
  case refine_5 => exact allKeep_map fun r => keepsForm_exec (.sealObserved (r.1 / 8) (r.1 % 8))

/-! ## The default order and the oracle's turns -/

variable {m : Move}

theorem keepsForm_agentStep (hm : s.agentStep = some m) : KeepsForm m :=
  allKeep_append (allKeep_append (allKeep_append (allKeep_unitSteps s) (allKeep_memorySteps s)) (allKeep_engineSteps s))
    (allKeep_dispatchSteps s) m (List.mem_of_find?_eq_some hm)

theorem keepsForm_retry (hm : s.retry = some m) : KeepsForm m := by
  obtain ⟨t, -, rfl⟩ := Option.map_eq_some_iff.1 hm
  split
  · exact keepsForm_laneMove t.uid
  · split
    · exact keepsForm_exec (.yieldEnd t.uid)
    · exact keepsForm_exec (.waitSatisfied t.uid)

theorem keepsForm_defaultMove (hm : s.defaultMove = some m) : KeepsForm m := by
  unfold State.defaultMove at hm
  split at hm
  · next a ha => exact Option.some.inj hm ▸ keepsForm_agentStep ha
  · split at hm
    · next t _ => exact Option.some.inj hm ▸ keepsForm_laneMove t.uid
    · split at hm
      · next t _ => exact Option.some.inj hm ▸ keepsForm_scalarMove t.uid
      · split at hm
        · exact Option.some.inj hm ▸ keepsForm_spaceRows
        · exact keepsForm_retry hm

theorem stays_runTurn (t : Turn) (h : s.memWf) : Stays (runTurn t s) := by
  cases t with
  | scalar uid => exact keepsForm_scalarMove uid s h
  | lane uid => exact keepsForm_laneMove uid s h
  | cycle words => exact stays_next h
  | halting uid lane =>
    have hr : (requestHalt uid s).memWf := (memWf_requestHalt ..).2 h
    cases lane with
    | false => exact keepsForm_scalarMove uid _ hr
    | true => exact keepsForm_laneMove uid _ hr
  | event i =>
    unfold runTurn
    dsimp only
    split
    · exact stays_exec i h
    · exact stays_next h
  | hostStore addr bytes => exact stays_next (memWf_hostStore h addr bytes)
  | hostMask fn vec => exact stays_next ((memWf_hostMask ..).2 h)
  | loopAged cluster loop => exact stays_next ((memWf_ageLoop ..).2 h)
  | rowsSpaced => exact keepsForm_spaceRows s h
  | clusterResumed cluster => exact keepsForm_resumeMove cluster s h
  | msixSent fn vec => exact keepsForm_sendMove fn vec s h
  | powerRead watts => exact stays_next ((memWf_onDev ..).2 h)
  | resetFinding cause finds => exact stays_runEventOf 0 (keeps_resetFinding cause finds) h

/-! ## Pre-emptions that wait -/

theorem stays_takeOne {l : Launch} {o : Host.Outcome State Fault Refusal} (ho : s.takeOne l = some o) (h : s.memWf) : Stays o := by
  have hp := keeps_iff.1 (keeps_preempt l.id) s h
  have on : (if l.stopping then some (Host.Outcome.next (s.goOn l.id)) else none) = some o → Stays o := by
    intro hg
    obtain ⟨-, e⟩ := Option.ite_none_right_eq_some.1 hg
    exact Option.some.inj e ▸ stays_next ((memWf_goOn ..).2 h)
  have stop : (if l.stopping then none else some (Host.Outcome.next (runM (stopLaunch l.id l.held) s))) = some o → Stays o := by
    intro hg
    obtain ⟨-, e⟩ := Option.ite_none_left_eq_some.1 hg
    exact Option.some.inj e ▸ stays_next (memWf_runM (keeps_stopLaunch l.id l.held) h)
  unfold State.takeOne at ho
  dsimp only at ho
  split at ho
  · exact on ho
  · cases hs : preempt l.id s with
    | ok _ t =>
      rw [hs] at ho hp
      exact Option.some.inj ho ▸ stays_next hp
    | error e t =>
      rw [hs] at ho hp
      cases e with
      | wait w =>
        cases w with
        | save => exact on ho
        | _ => exact stop ho
      | halt f => exact Option.some.inj ho ▸ stays_settle _ _ h hp
      | terminate ctx code la task => exact Option.some.inj ho ▸ stays_settle _ _ h hp
      | trap r => exact Option.some.inj ho ▸ stays_settle _ _ h hp

theorem stays_takeHeld {o : Host.Outcome State Fault Refusal} (ho : s.takeHeld = some o) (h : s.memWf) : Stays o := by
  obtain ⟨l, -, hl⟩ := List.exists_of_findSome?_eq_some ho
  exact stays_takeOne hl h

/-! ## A step -/

theorem stays_step (h : s.memWf) : Stays (step s) := by
  unfold step
  split
  · next o ho => exact stays_takeHeld ho h
  · split
    · next t rest _ => exact stays_runTurn t (s := { s with turns := rest }) h
    · split
      · next m hm => exact keepsForm_defaultMove hm s h
      · exact stays_next h

/-- Settles O59: every word and every event is a computation that keeps the memories in canonical form wherever it ends or stops
(`Keeps`), and what settles its stop keeps it too; a step is one such outcome. -/
theorem memoryInvariant : Obligations.MemoryInvariant := fun _ t h => stays_step h t

end

end Sys2Proof.MemoryForm

/-! # A translation leaves the issuing team alone (05 R115 to R118)

What a Cascade command checks, the issuing team stands afterwards as it stood: the walk moves caches and counts on, and nothing else. -/

namespace Sys2Proof.TeamKept
open Std.Do
open Sys2Proof Sys2Proof.Machine
set_option mvcgen.warning false
set_option Elab.async false

section
variable {α β : Type} {T : Team}

/-- A computation leaves the issuing team alone, where it runs to its end and where it stops. -/
abbrev KeepsTeam (T : Team) (m : M α) : Prop :=
  ⦃fun s => ⌜s.cur = T⌝⦄ m ⦃post⟨fun _ s => ⌜s.cur = T⌝, fun _ s => ⌜s.cur = T⌝⟩⦄

theorem keepsTeam_iff {m : M α} : KeepsTeam T m ↔ ∀ s, s.cur = T → (MemoryForm.reached (m s)).cur = T := by
  refine forall_congr' fun s => imp_congr Iff.rfl ?_
  simp only [wp, PredTrans.apply, EStateM.run]
  cases m s <;> rfl

/-- The team after a computation that has run to its end. -/
theorem cur_of_keepsTeam {m : M α} {s t : State} {a : α} (h : KeepsTeam s.cur m) (hrun : m s = .ok a t) : t.cur = s.cur := by
  have hreach := keepsTeam_iff.1 h s rfl
  rwa [hrun] at hreach

/-! ## Updates of caches and rows -/

@[simp] theorem touchStructure_cur (s : State) (b d) : (s.touchStructure b d).cur = s.cur := by
  unfold State.touchStructure; dsimp only; split <;> simp

@[simp] theorem touchNode_cur (s : State) (d g lvl f i b) : (s.touchNode d g lvl f i b).cur = s.cur := by
  unfold State.touchNode; dsimp only; split <;> simp

@[simp] theorem touchPath_cur (s : State) (d g) : (s.touchPath d g).cur = s.cur := by
  unfold State.touchPath
  dsimp only
  split
  · rfl
  · exact List.foldlRecOn (motive := fun t => t.cur = s.cur) _ _ rfl fun t ht p _ => (touchNode_cur t ..).trans ht

@[simp] theorem touchMap_cur (s : State) (w g e i) : (s.touchMap w g e i).cur = s.cur := by
  unfold State.touchMap; dsimp only; repeat' split
  all_goals simp

/-! ## Ways to build a computation -/

theorem keepsTeam_pure (a : α) : KeepsTeam T (pure a : M α) := keepsTeam_iff.2 fun _ => id

theorem keepsTeam_bind {m : M α} {f : α → M β} (hm : KeepsTeam T m) (hf : ∀ a, KeepsTeam T (f a)) : KeepsTeam T (m >>= f) := by
  mvcgen [hm, hf]

/-- A check that is made only where a condition holds, and what follows. -/
theorem keepsTeam_when {c : Prop} [Decidable c] {m : M Unit} {k : Unit → M α} (hm : KeepsTeam T m) (hk : ∀ u, KeepsTeam T (k u)) :
    KeepsTeam T (if c then m >>= k else k ()) := by
  split
  · exact keepsTeam_bind hm hk
  · exact hk ()

theorem keepsTeam_mapM {l : List α} {f : α → M β} (h : ∀ a, KeepsTeam T (f a)) : KeepsTeam T (l.mapM f) := by
  induction l with
  | nil => rw [List.mapM_nil]; mvcgen
  | cons a r ih => rw [List.mapM_cons]; mvcgen [h, ih]

theorem keepsTeam_modify {f : State → State} (h : ∀ s, (f s).cur = s.cur) : KeepsTeam T (modify f) :=
  keepsTeam_iff.2 fun s hs => (h s).trans hs

/-! ## Caches, published data, the walk -/

theorem keepsTeam_onCore (k f) : KeepsTeam T (onCore k f) := keepsTeam_modify fun _ => rfl

theorem keepsTeam_onCluster (k f) : KeepsTeam T (onCluster k f) := keepsTeam_modify fun _ => rfl

theorem keepsTeam_bump (core w n) : KeepsTeam T (bump core w n) := by
  mvcgen [bump, keepsTeam_onCore]

theorem keepsTeam_waitFor (w) : KeepsTeam T (waitFor w : M α) := by
  mvcgen [waitFor]

theorem keepsTeam_xlateFault (a code va lvl wid entry la) : KeepsTeam T (xlateFault a code va lvl wid entry la : M α) := by
  mvcgen [xlateFault]

theorem keepsTeam_homeRead (h t i sec bad own hint) : KeepsTeam T (homeRead h t i sec bad own hint) := by
  mvcgen [homeRead] <;> simp_all

theorem keepsTeam_lookupGranule (win gran task) : KeepsTeam T (lookupGranule win gran task) := by
  mvcgen [lookupGranule, keepsTeam_waitFor] <;> simp_all

theorem keepsTeam_findSector (win sec task e) : KeepsTeam T (findSector win sec task e) := by
  mvcgen [findSector] <;> simp_all +zetaDelta

theorem keepsTeam_homeSector (win sec pos hint) : KeepsTeam T (homeSector win sec pos hint) := by
  mvcgen [homeSector, keepsTeam_homeRead] <;> simp_all

theorem keepsTeam_deliverSector (win sec task e) : KeepsTeam T (deliverSector win sec task e) := by
  mvcgen [deliverSector, keepsTeam_findSector, keepsTeam_homeSector] <;> simp_all

theorem keepsTeam_readPublished (win sec task) : KeepsTeam T (readPublished win sec task) := by
  mvcgen [readPublished, keepsTeam_lookupGranule, keepsTeam_deliverSector] <;> simp_all

theorem keepsTeam_windowAttr (cl ctx win) : KeepsTeam T (windowAttr cl ctx win) := by
  mvcgen [windowAttr, keepsTeam_onCluster] <;> simp_all

theorem keepsTeam_readTableEntry (a t va twid la lvl) : KeepsTeam T (readTableEntry a t va twid la lvl) := by
  mvcgen [readTableEntry, keepsTeam_windowAttr, keepsTeam_readPublished, keepsTeam_xlateFault] <;> simp_all

theorem keepsTeam_walkFrom (a t va twid fuel tab lvl) : KeepsTeam T (walkFrom a t va twid fuel tab lvl) := by
  induction fuel generalizing tab lvl with
  | zero => mvcgen [walkFrom, keepsTeam_xlateFault]
  | succ fuel ih =>
    mvcgen [walkFrom, keepsTeam_xlateFault, keepsTeam_readTableEntry, keepsTeam_onCluster, keepsTeam_mapM, ih] <;> simp_all

theorem keepsTeam_walkLeaf (a t va) : KeepsTeam T (walkLeaf a t va) := by
  mvcgen [walkLeaf, keepsTeam_walkFrom, keepsTeam_windowAttr, keepsTeam_xlateFault] <;> simp_all

theorem keepsTeam_clusterLeaf (a t va) : KeepsTeam T (clusterLeaf a t va) := by
  mvcgen [clusterLeaf, keepsTeam_walkLeaf, keepsTeam_onCluster] <;> simp_all

/-- A stop that is caught leaves the state that it was raised in. -/
theorem restore_eq (s t : State) : EStateM.Backtrackable.restore s (EStateM.Backtrackable.save t) = s := rfl

theorem keepsTeam_findLeaf (a t va) : KeepsTeam T (findLeaf a t va) := by
  mvcgen [findLeaf, keepsTeam_clusterLeaf, keepsTeam_bump, keepsTeam_onCore] <;> simp_all [restore_eq]

/-! ## Checks -/

theorem keepsTeam_checkVa (a va) : KeepsTeam T (checkVa a va) := by
  mvcgen [checkVa, keepsTeam_xlateFault]

theorem keepsTeam_checkWindow (a t va l la) : KeepsTeam T (checkWindow a t va l la) := by
  have fail (code : Nat) : KeepsTeam T (xlateFault a code va 7 (some l.win) 0 la : M Unit) := keepsTeam_xlateFault _ _ _ _ _ _ _
  refine keepsTeam_bind (by mvcgen) fun s => ?_
  iterate 8 refine keepsTeam_when (fail _) fun _ => ?_
  split
  · exact fail _
  · exact keepsTeam_pure _

theorem keepsTeam_translate (a t va) : KeepsTeam T (Machine.translate a t va) := by
  mvcgen [Machine.translate, placeIn, keepsTeam_findLeaf, keepsTeam_checkWindow] <;> simp_all

theorem keepsTeam_laneTrap (code w2 w3) : KeepsTeam T (laneTrap code w2 w3 : M α) := by
  mvcgen [laneTrap]

theorem keepsTeam_cascFault (code va cra) : KeepsTeam T (cascFault code va cra : M α) := keepsTeam_laneTrap _ _ _

theorem keepsTeam_tmplAcc (a va) : KeepsTeam T (tmplAcc a va : M α) := by
  mvcgen [tmplAcc]

theorem keepsTeam_checkCascade (a t va k last) : KeepsTeam T (checkCascade a t va k last) := by
  mvcgen [checkCascade, keepsTeam_checkVa, keepsTeam_translate, keepsTeam_cascFault, keepsTeam_tmplAcc] <;> simp_all

theorem keepsTeam_sampled (r) : KeepsTeam T (sampled r) := by
  mvcgen [sampled, getTeam, keepsTeam_waitFor] <;> simp_all

theorem keepsTeam_oneAddress (a f k t last) : KeepsTeam T (oneAddress a f k t last) := by
  mvcgen [oneAddress, cascadeAddr, keepsTeam_sampled, keepsTeam_checkCascade] <;> simp_all

end

end Sys2Proof.TeamKept

/-! # A pass of a lane word (09 R195 to R199, 11 R227)

What comes before the body of a pass and after it: the checks, the pass set, the forms of the destinations, the read cycles, the step of
the PIX and the retirement. Beside the body's own effect they change register forms, poison and counts, and no row of the Basin. -/

namespace Sys2Proof.LanePass
open Sys2Proof Sys2Proof.Machine

/-! ## Bits of a row -/

theorem bitAt_eq_testBit (v i : Nat) : bitAt v i = v.testBit i := by
  rw [bitAt, Nat.testBit_eq_decide_div_mod_eq]
  exact beq_eq_decide ..

/-- A mask made of the positions of a list has the bits of these positions. -/
theorem testBit_foldl_or {α : Type} (l : List (Nat × α)) (acc k : Nat) :
    (l.foldl (fun acc v => acc ||| 2 ^ v.1) acc).testBit k = (acc.testBit k || l.any fun v => v.1 == k) := by
  induction l generalizing acc with
  | nil => simp
  | cons p r ih =>
    rw [List.foldl_cons, ih, Nat.testBit_or, Nat.testBit_two_pow, List.any_cons, Bool.or_assoc, beq_eq_decide]

/-- Word `k` of the number whose words of 32 bits are listed. -/
theorem bits_foldr_words (ws : List Word32) (k : Nat) :
    bits (ws.foldr (fun w acc => w.toNat + 2 ^ 32 * acc) 0) (32 * k) 32 = (ws.getD k 0).toNat := by
  induction ws generalizing k with
  | nil => simp [bits]
  | cons w r ih =>
    have hw := w.isLt
    cases k with
    | zero => simp only [bits, List.foldr_cons, List.getD_cons_zero]; omega
    | succ k =>
      have hdiv : (w.toNat + 2 ^ 32 * r.foldr (fun w acc => w.toNat + 2 ^ 32 * acc) 0) / 2 ^ 32
          = r.foldr (fun w acc => w.toNat + 2 ^ 32 * acc) 0 := by omega
      rw [List.foldr_cons, List.getD_cons_succ, ← ih, bits, bits, Nat.mul_succ, Nat.add_comm (32 * k), pow_add, ← Nat.div_div_eq_div_mul, hdiv]

/-- A word of a row made of 32 words. -/
theorem rowWord_rowOf (ws : List Word32) {k : Nat} (hk : k < 32) : rowWord (rowOf ws) k = ws.getD k 0 := by
  refine BitVec.eq_of_toNat_eq ?_
  have hbits : bits ((rowOf ws).toNat) (32 * k) 32 = bits (ws.foldr (fun w acc => w.toNat + 2 ^ 32 * acc) 0) (32 * k) 32 := by
    refine Nat.eq_of_testBit_eq fun i => ?_
    simp only [rowOf, bits, BitVec.toNat_ofNat, Nat.testBit_mod_two_pow, Nat.testBit_div_two_pow]
    by_cases hi : i < 32
    · rw [decide_eq_true (show i + 32 * k < 1024 by omega), Bool.true_and]
    · rw [decide_eq_false hi, Bool.false_and, Bool.false_and]
  rw [rowWord, hbits, bits_foldr_words, BitVec.ofNat_toNat, BitVec.setWidth_eq]

theorem rowWord_rowWith (vals : List (Nat × Word32)) {k : Nat} (hk : k < 32) :
    rowWord (rowWith vals) k = ((vals.find? fun v => v.1 == k).map (·.2)).getD 0 := by
  rw [rowWith, rowWord_rowOf _ hk, List.getD_eq_getElem _ _ (by simpa using hk)]
  simp

/-! ## Writes of lanes -/

/-- What a write of the lanes of `mask` leaves in a row. -/
def mixRow (mask : BitVec 32) (row old : BitVec 1024) : BitVec 1024 :=
  if mask == BitVec.allOnes 32 then row
  else rowOf ((List.range 32).map fun i => if bitAt mask.toNat i then rowWord row i else rowWord old i)

theorem rowWord_mixRow (mask : BitVec 32) (row old : BitVec 1024) {k : Nat} (hk : k < 32) :
    rowWord (mixRow mask row old) k = if bitAt mask.toNat k then rowWord row k else rowWord old k := by
  unfold mixRow
  split
  case isTrue h =>
    have hbit : bitAt mask.toNat k = true := by
      rw [eq_of_beq h, bitAt_eq_testBit, BitVec.testBit_toNat, BitVec.getLsbD_allOnes, decide_eq_true hk]
    rw [if_pos hbit]
  case isFalse =>
    rw [rowWord_rowOf _ hk, List.getD_eq_getElem _ _ (by simpa using hk)]
    simp

/-- A write of lanes of one lane word changes its row alone. -/
theorem putRow_ok (r w : Nat) (mask : BitVec 32) (row : BitVec 1024) (s : State) : ∃ cores,
    putRow r w mask row s = .ok ⟨⟩ { s with cores := cores }
      ∧ ∀ k, Table.get 0 ({ s with cores := cores }.core s.cur.core).basin k
          = if k = s.cur.rowAt r w then mixRow mask row (s.basinRow k) else s.basinRow k := by
  refine ⟨_, rfl, fun k => ?_⟩
  have hcore (c : Core) : State.core { s with cores := Table.set Core.init s.cores s.cur.core c } s.cur.core = c :=
    Table.get_set_same ..
  refine (congrArg (fun c => Table.get 0 (Core.basin c) k) (hcore _)).trans ((Table.get_set ..).trans ?_)
  by_cases hk : k = s.cur.rowAt r w
  · subst hk
    exact (if_pos rfl).trans (if_pos rfl).symm
  · exact (if_neg hk).trans (if_neg hk).symm

/-- The positions of a list of values, as the mask under which they are written. -/
theorem bitAt_ofNat_positions (vals : List (Nat × Word32)) {k : Nat} (hk : k < 32) :
    bitAt (BitVec.ofNat 32 (vals.foldl (fun acc v => acc ||| 2 ^ v.1) 0)).toNat k = (vals.find? fun v => v.1 == k).isSome := by
  rw [bitAt_eq_testBit, BitVec.toNat_ofNat, Nat.testBit_mod_two_pow, decide_eq_true hk, Bool.true_and, testBit_foldl_or,
    Nat.zero_testBit, Bool.false_or, Bool.eq_iff_iff, List.find?_isSome, List.any_eq_true]

/-- Lanes of one lane word are written: the row takes the values at their positions, and no other row of the Basin changes. -/
theorem writeLanes_ok (r w : Nat) (vals : List (Nat × Word32)) (s : State) : ∃ cores,
    writeLanes r w vals s = .ok ⟨⟩ { s with cores := cores } ∧ s.putAt { s with cores := cores } r w vals
      ∧ s.basinBut { s with cores := cores } [s.cur.rowAt r w] := by
  unfold writeLanes
  split
  case isTrue h => exact ⟨s.cores, rfl, fun k _ => by subst h; rfl, fun k _ => rfl⟩
  case isFalse =>
    obtain ⟨cores, hrun, hbasin⟩ := putRow_ok r w _ (rowWith vals) s
    refine ⟨cores, hrun, fun k hk => ?_, fun k hk => (hbasin k).trans (if_neg fun e => hk (List.mem_singleton.2 e))⟩
    rw [hbasin, if_pos rfl, rowWord_mixRow _ _ _ hk, bitAt_ofNat_positions _ hk, rowWord_rowWith _ hk]
    cases vals.find? fun v => v.1 == k <;> rfl

/-- A write of one row after that of another. -/
theorem writeLanes_pair {r q w : Nat} {s : State} (hne : s.cur.rowAt r w ≠ s.cur.rowAt q w) (xs ys : List (Nat × Word32)) :
    ∃ cores1 cores, writeLanes r w xs s = .ok ⟨⟩ { s with cores := cores1 }
      ∧ writeLanes q w ys { s with cores := cores1 } = .ok ⟨⟩ { s with cores := cores }
      ∧ s.putAt { s with cores := cores } r w xs ∧ s.putAt { s with cores := cores } q w ys
      ∧ s.basinBut { s with cores := cores } [s.cur.rowAt r w, s.cur.rowAt q w] := by
  obtain ⟨cores1, hrun1, hput1, hbut1⟩ := writeLanes_ok r w xs s
  obtain ⟨cores2, hrun2, hput2, hbut2⟩ := writeLanes_ok q w ys { s with cores := cores1 }
  refine ⟨cores1, cores2, hrun1, hrun2, fun k hk => ?_, fun k hk => ?_, fun k hk => ?_⟩
  · exact (congrArg (rowWord · k) (hbut2 _ fun h => hne (List.mem_singleton.1 h))).trans (hput1 k hk)
  · refine (hput2 k hk).trans (congrArg (fun row => Option.getD _ (rowWord row k)) ?_)
    exact hbut1 _ fun h => hne (List.mem_singleton.1 h).symm
  · obtain ⟨hr, hq⟩ := not_or.1 fun h => hk (List.mem_pair.2 h)
    exact (hbut2 k fun h => hq (List.mem_singleton.1 h)).trans (hbut1 k fun h => hr (List.mem_singleton.1 h))

theorem lt_of_mem_lanesOf {m : BitVec 32} {k : Nat} (h : k ∈ lanesOf m) : k < 32 := List.mem_range.1 (List.mem_filter.1 h).1

theorem putAt_of_basin {u v t : State} {q w : Nat} {vals : List (Nat × Word32)} (h : u.putAt v q w vals)
    (hbasin : ∀ k, (t.core k).basin = (v.core k).basin) : u.putAt t q w vals := fun k hk => by rw [hbasin]; exact h k hk

theorem basinBut_of_basin {u v t : State} {rows : List Nat} (h : u.basinBut v rows)
    (hbasin : ∀ k, (t.core k).basin = (v.core k).basin) : u.basinBut t rows := fun k hk => by rw [hbasin]; exact h k hk

/-! ## Register forms -/

theorem shr_mkPte {form bank rowBase base : Nat} (shr : Bool) (hbank : bank < 2 ^ 9) (hrow : rowBase < 2 ^ 5) (hbase : base < 2 ^ 47) :
    Pte.shr (mkPte form shr bank rowBase base) = shr := by
  cases shr <;> simp only [Pte.shr, bitAt, mkPte, BitVec.toNat_ofNat, beq_eq_false_iff_ne, beq_iff_eq, if_true, if_false,
    Bool.false_eq_true] <;> omega

theorem chooseForm_base_lt (vals : List Nat) (h : ∀ v ∈ vals, v < 2 ^ 32) : (chooseForm vals).2 < 2 ^ 32 := by
  have hhead : vals.headD 0 < 2 ^ 32 := by
    cases vals with
    | nil => decide
    | cons v r => exact h v (List.mem_cons_self ..)
  unfold chooseForm
  dsimp only
  split
  · exact hhead
  split
  · exact hhead
  split
  · exact hhead
  · decide

theorem formOf_base_lt (lanes : List (Word32 × Bool)) : (formOf lanes).2 < 2 ^ 32 := by
  unfold formOf
  split
  · decide
  · refine chooseForm_base_lt _ fun v hv => ?_
    obtain ⟨p, -, rfl⟩ := List.mem_map.1 hv
    exact p.1.isLt

@[simp] theorem setSlotPoison_basin (c : Core) (e : Word64) (n : Nat) (bad : Nat → BitVec 32) :
    (c.setSlotPoison e n bad).basin = c.basin :=
  List.foldlRecOn (motive := fun d => Core.basin d = c.basin) _ _ rfl fun _ h _ _ => h

/-- `t` is `s` but for the forms of registers, the poison of words and the counts of cores: the rows of every Basin hold what they held,
and a shared page is shared still. -/
def SameRows (s t : State) : Prop :=
  (∃ pt cores, t = { s with cur := { s.cur with l := { s.cur.l with pt := pt } }, cores := cores })
    ∧ (∀ k, (t.core k).basin = (s.core k).basin) ∧ ∀ r, Pte.shr (t.cur.pte r) = Pte.shr (s.cur.pte r)

theorem SameRows.refl (s : State) : SameRows s s := ⟨⟨s.cur.l.pt, s.cores, rfl⟩, fun _ => rfl, fun _ => rfl⟩

theorem SameRows.trans {s t u : State} (h : SameRows s t) (h' : SameRows t u) : SameRows s u := by
  obtain ⟨⟨pt, cores, rfl⟩, hbasin, hshr⟩ := h
  obtain ⟨⟨pt', cores', rfl⟩, hbasin', hshr'⟩ := h'
  exact ⟨⟨pt', cores', rfl⟩, fun k => (hbasin' k).trans (hbasin k), fun r => (hshr' r).trans (hshr r)⟩

/-- A change of a core that leaves its Basin. -/
theorem sameRows_setCore {s : State} {k : Nat} {c : Core} (h : c.basin = (s.core k).basin) : SameRows s (s.setCore k c) := by
  refine ⟨⟨s.cur.l.pt, _, rfl⟩, fun j => ?_, fun _ => rfl⟩
  by_cases hj : j = k
  · subst hj; rw [State.core_setCore_same, h]
  · rw [State.core_setCore_ne _ _ hj]

/-- A computation that always runs to its end and changes forms, poison and counts alone. -/
def KeepsRows (m : M Unit) : Prop := ∀ s, ∃ t, m s = .ok ⟨⟩ t ∧ SameRows s t

theorem keepsRows_pure : KeepsRows (pure ⟨⟩) := fun s => ⟨s, rfl, .refl s⟩

theorem keepsRows_bind {m : M Unit} {f : Unit → M Unit} (hm : KeepsRows m) (hf : KeepsRows (f ⟨⟩)) : KeepsRows (m >>= f) := fun s => by
  obtain ⟨t, hrun, ht⟩ := hm s
  obtain ⟨u, hrun', hu⟩ := hf t
  exact ⟨u, (M.bind_ok hrun).trans hrun', ht.trans hu⟩

theorem keepsRows_get {f : State → M Unit} (h : ∀ s, KeepsRows (f s)) : KeepsRows (get >>= f) := fun s => h s s

theorem keepsRows_getTeam {f : Team → M Unit} (h : ∀ t, KeepsRows (f t)) : KeepsRows (getTeam >>= f) := fun s => h s.cur s

theorem keepsRows_ite {c : Prop} [Decidable c] {m n : M Unit} (hm : KeepsRows m) (hn : KeepsRows n) :
    KeepsRows (if c then m else n) := by
  split
  · exact hm
  · exact hn

theorem keepsRows_forM {α : Type} {l : List α} {f : α → M PUnit} (h : ∀ a, KeepsRows (f a)) : KeepsRows (l.forM f) := by
  induction l with
  | nil => exact keepsRows_pure
  | cons a r ih => exact keepsRows_bind (h a) ih

theorem keepsRows_bump (core w n : Nat) : KeepsRows (bump core w n) :=
  keepsRows_ite keepsRows_pure fun _ => ⟨_, rfl, sameRows_setCore rfl⟩

theorem bank_lt (e : Word64) : Pte.bank e < 2 ^ 9 := Nat.mod_lt _ (by decide)
theorem rowBase_lt (e : Word64) : Pte.rowBase e < 2 ^ 5 := Nat.mod_lt _ (by decide)

theorem pte_setPte (t : Team) (r q : Nat) (e : Word64) : (t.setPte r e).pte q = if q = r then e else t.pte q := Table.get_set ..

/-- An entry of the page table that names a page shared as before. -/
theorem sameRows_setPte {s : State} {r : Nat} {e : Word64} (h : Pte.shr e = Pte.shr (s.cur.pte r)) :
    SameRows s { s with cur := s.cur.setPte r e } := by
  refine ⟨⟨_, s.cores, rfl⟩, fun _ => rfl, fun q => ?_⟩
  rw [pte_setPte]
  split
  case isTrue hq => rw [h, hq]
  case isFalse => rfl

theorem keepsRows_setForm (r : Nat) {f : Nat × Nat} (hf : f.2 < 2 ^ 32) : KeepsRows (setForm r f) := by
  intro s
  have hteam := sameRows_setPte (s := s) (r := r)
    (shr_mkPte (form := f.1) (base := f.2) _ (bank_lt (s.cur.pte r)) (rowBase_lt (s.cur.pte r)) (by omega))
  have hrest : KeepsRows (if Pte.form (s.cur.pte r) ≠ Form.full then
      onCore s.cur.core fun c' => c'.setSlotPoison (s.cur.pte r) s.cur.n fun w => formPoison (Pte.form (s.cur.pte r)) w fun k =>
        (s.core s.cur.core).rowPoison (Pte.bank (s.cur.pte r)) (Pte.rowBase (s.cur.pte r) + k)
      else pure ⟨⟩) :=
    keepsRows_ite (fun _ => ⟨_, rfl, sameRows_setCore (setSlotPoison_basin ..)⟩) keepsRows_pure
  obtain ⟨t, hrun, ht⟩ := hrest _
  refine ⟨t, ?_, hteam.trans ht⟩
  rw [setForm, M.bind_ok (M.get_run s), M.bind_ok (M.onTeam_run _ s)]
  exact hrun

theorem keepsRows_reform (r : Nat) : KeepsRows (reform r) := keepsRows_get fun _ => keepsRows_setForm r (formOf_base_lt _)

theorem keepsRows_expandReg (r k : Nat) : KeepsRows (expandReg r k) :=
  keepsRows_get fun _ => keepsRows_ite (keepsRows_bind (keepsRows_setForm r (by decide)) (keepsRows_bump _ _ _)) keepsRows_pure

theorem keepsRows_openDsts (dsts : List (Nat × Nat)) (ps : List Nat) : KeepsRows (openDsts dsts ps) :=
  keepsRows_getTeam fun _ => keepsRows_forM fun _ => keepsRows_ite keepsRows_pure (keepsRows_expandReg _ _)

theorem keepsRows_reformDsts (dsts : List (Nat × Nat)) : KeepsRows (reformDsts dsts) :=
  keepsRows_getTeam fun _ => keepsRows_forM fun _ => keepsRows_ite keepsRows_pure (keepsRows_reform _)

theorem keepsRows_countReads (regs : List Nat) (w : Nat) : KeepsRows (countReads regs w) :=
  keepsRows_getTeam fun _ => keepsRows_bump _ _ _

/-- Destinations on pages of the team's own are written at once. -/
theorem ownDsts_own {dsts : List (Nat × Nat)} {s : State} (h : ∀ d ∈ dsts, Pte.shr (s.cur.pte d.1) = false) (writes : Bool) :
    ownDsts dsts writes s = .ok ⟨⟩ s := by
  have hshared : dsts.filter (fun d => Pte.shr (s.cur.pte d.1)) = [] :=
    List.filter_eq_nil_iff.2 fun d hd => by rw [h d hd]; decide
  have htake (ps : List Nat) : takeDsts dsts ps s = .ok ⟨⟩ s := by
    rw [takeDsts, M.bind_run, M.getTeam_run]
    simp only [hshared]
    rfl
  rw [ownDsts]
  split
  · rw [M.bind_run, M.getTeam_run]
    exact htake _
  · rfl

/-! ## The first part of a word, a pass, the retirement -/

/-- The pass set that a lane word fixes at its first pass. -/
abbrev passSetOf (s : State) (i : Instr) : BitVec 32 := s.cur.passesOf i (touch s.cur.blk.nf i).masks

section
variable {s : State} {i : Instr} {r : LaneRun} {w : Nat}

theorem checkLane_ok (h : s.laneFit i) : checkLane i s = .ok ⟨⟩ s := by
  obtain ⟨hregs, hforms⟩ := h
  have hwide : (touch s.cur.blk.nf i).named.any (fun r => decide (128 ≤ r)) = false :=
    List.any_eq_false.2 fun r hr => by simpa using (hregs r hr).1
  have hrange : (touch s.cur.blk.nf i).named.find? (fun r => decide (s.cur.nregs ≤ r)) = none :=
    List.find?_eq_none.2 fun r hr => by simpa using (hregs r hr).2
  have hnf : (nfNamed i).find? (fun k => nfMalformed (s.cur.blk.nf.getD k 0)) = none :=
    List.find?_eq_none.2 fun k hk => by rw [hforms k hk]; decide
  simp only [checkLane, M.bind_run, M.getTeam_run, hwide, hrange, hnf, Bool.false_eq_true, if_false, M.pure_run]

theorem begun_passes (h : s.laneAt i r) : (s.begun i).cur.l.passes = some (passSetOf s i) := by
  unfold State.begun
  split
  · rfl
  · exact h.2.resolve_left ‹_›

theorem begun_pix (h : s.cur.l.passes = none → s.cur.l.pix = 0) : (s.begun i).cur.l.pix = s.cur.l.pix := by
  unfold State.begun
  split
  · exact (h ‹_›).symm
  · rfl

theorem begun_pte (q : Nat) : (s.begun i).cur.pte q = s.cur.pte q := by
  unfold State.begun
  split <;> rfl

/-- The checks pass and the pass set stands. -/
theorem beginPasses_ok (hat : s.laneAt i r) (hfit : s.laneFit i) :
    beginPasses i (touch s.cur.blk.nf i).masks s = .ok (passList (passSetOf s i)) (s.begun i) := by
  rw [beginPasses, M.bind_ok (M.getTeam_run s), State.begun]
  rcases hat.2 with hp | hp
  · rw [if_pos hp, hp]
    simp only [M.bind_run, checkLane_ok hfit, M.onLane_run, M.pure_run]
  · rw [if_neg (by rw [hp]; nofun), hp]
    rfl

/-- A word whose pass set stands goes on with it. -/
theorem beginPasses_fixed {p : BitVec 32} (hp : s.cur.l.passes = some p) (masks : List Nat) :
    beginPasses i masks s = .ok (passList p) s := by
  rw [beginPasses, M.bind_ok (M.getTeam_run s), hp]
  rfl

theorem countedOnce_ok {m : M Unit} {t : State} (h : m s = .ok ⟨⟩ t) : countedOnce m s = .ok ⟨⟩ t := by
  rw [countedOnce, h]

/-- The lane word of the next pass, with the pass set fixed. -/
theorem passList_begun_get (h : s.atPass i r w) : (passList (passSetOf s i))[s.cur.l.pix]? = some w := by
  obtain ⟨⟨-, hp⟩, -, -, -, hw⟩ := h
  rw [← hw, Team.passOfWord]
  rcases hp with hp | hp <;> rw [hp] <;> rfl

/-- What ends a pass of a word with its pass set fixed changes the state `v` that the pass has left: the PIX moves on, or the
destinations take their forms and the word retires. -/
theorem passEnd_ok {dsts : List (Nat × Nat)} {p : BitVec 32} (hp : s.cur.l.passes = some p) (core tiles : Nat) (v : State) :
    ∃ t, (do
        bump core 3 1
        if s.cur.l.pix + 1 = (passList p).length then
          reformDsts dsts
          retire tiles false
        else onLane fun l => { l with pix := s.cur.l.pix + 1, stall := Option.none, watched := false } : M Unit) v = .ok ⟨⟩ t
      ∧ s.passEnded i v t ∧ t.cascades = v.cascades ∧ ∀ k, (t.core k).basin = (v.core k).basin := by
  obtain ⟨v1, hbump, hv1⟩ := keepsRows_bump core 3 1 v
  by_cases hlast : s.cur.l.pix + 1 = (passList p).length
  · obtain ⟨v2, hreform, hv2⟩ := keepsRows_reformDsts dsts v1
    obtain ⟨⟨pt, cores, rfl⟩, hbasin, -⟩ := hv1.trans hv2
    refine ⟨_, (M.bind_ok hbump).trans ((congrFun (if_pos hlast) _).trans (M.bind_ok hreform)), ?_⟩
    refine ⟨⟨⟨rfl, rfl, rfl, rfl, rfl, rfl, rfl, rfl, fun hlt => ?_, fun _ => ⟨rfl, rfl, rfl⟩⟩, rfl, rfl, rfl⟩, rfl, hbasin⟩
    rw [hp] at hlt
    exact absurd hlast (Nat.ne_of_lt hlt)
  · obtain ⟨⟨pt, cores, rfl⟩, hbasin, -⟩ := hv1
    refine ⟨_, (M.bind_ok hbump).trans (congrFun (if_neg hlast) _), ?_⟩
    refine ⟨⟨⟨rfl, rfl, rfl, rfl, rfl, rfl, rfl, rfl, fun _ => ⟨rfl, rfl⟩, fun heq => ?_⟩, rfl, rfl, rfl⟩, rfl, hbasin⟩
    rw [hp] at heq
    exact absurd heq hlast

/-- One turn of a word that commits pass by pass: its body has gone from the opened state `o` to `v`. -/
theorem runPasses_ok {p : BitVec 32} {masks : List Nat} {dsts : List (Nat × Nat)} {body : Nat → M Unit} {o v : State}
    (hp : s.cur.l.passes = some p) (hw : (passList p)[s.cur.l.pix]? = some w) (tiles : Nat)
    (hopen : openDsts dsts ((passList p).drop s.cur.l.pix) s = .ok ⟨⟩ o) (hbody : body w o = .ok ⟨⟩ v) :
    ∃ t, runPasses i masks dsts tiles body s = .ok ⟨⟩ t
      ∧ s.passEnded i v t ∧ t.cascades = v.cascades ∧ ∀ k, (t.core k).basin = (v.core k).basin := by
  obtain ⟨t, hrun, ht⟩ := passEnd_ok (i := i) (dsts := dsts) hp s.cur.core tiles v
  refine ⟨t, ?_, ht⟩
  rw [runPasses, M.bind_ok (beginPasses_fixed hp masks), M.bind_ok (M.getTeam_run s)]
  simp only [hw]
  rw [M.bind_ok (countedOnce_ok ((M.bind_ok hopen).trans hbody))]
  exact hrun

/-- A pass that ends the word begun at `s` ends it for `s`. -/
theorem passEnded_of_begun {v t : State} (hat : s.laneAt i r) (hpix : s.cur.l.passes = none → s.cur.l.pix = 0)
    (h : (s.begun i).passEnded i v t) : s.passEnded i v t := by
  unfold State.passEnded State.passOver at h ⊢
  have hset : s.cur.l.passes.getD (passSetOf s i) = passSetOf s i := by
    rcases hat.2 with hp | hp <;> rw [hp] <;> rfl
  rw [begun_passes hat, begun_pix hpix, Option.getD_some] at h
  rw [hset]
  exact h

/-- The destinations of a pass open, each on its page as it stood, and its reads are counted. -/
theorem opened_ok (s : State) (i : Instr) (regs : List Nat) (w : Nat) : ∃ o,
    openDsts (under ((touch s.cur.blk.nf i).masks.headD 0) (touch s.cur.blk.nf i).dsts)
        ((passList ((s.begun i).cur.l.passes.getD 0)).drop (s.begun i).cur.l.pix) (s.begun i) = .ok ⟨⟩ o
      ∧ SameRows (s.begun i) o ∧ countReads regs w o = .ok ⟨⟩ (s.opened i regs w) ∧ SameRows o (s.opened i regs w) := by
  obtain ⟨o, hopen, ho⟩ := keepsRows_openDsts (under ((touch s.cur.blk.nf i).masks.headD 0) (touch s.cur.blk.nf i).dsts)
    ((passList ((s.begun i).cur.l.passes.getD 0)).drop (s.begun i).cur.l.pix) (s.begun i)
  obtain ⟨t, hcount, ht⟩ := keepsRows_countReads regs w o
  have heq : s.opened i regs w = t := by
    simp only [State.opened, runM, M.bind_ok hopen, hcount]
  exact ⟨o, hopen, ho, heq ▸ hcount, heq ▸ ht⟩

end

/-! ## Opened without reads, words without a pass -/

/-- No register is read: the pass opens its destinations alone. -/
theorem opened_nil (s : State) (i : Instr) (w : Nat) :
    openDsts (under ((touch s.cur.blk.nf i).masks.headD 0) (touch s.cur.blk.nf i).dsts)
        ((passList ((s.begun i).cur.l.passes.getD 0)).drop (s.begun i).cur.l.pix) (s.begun i) = .ok ⟨⟩ (s.opened i [] w)
      ∧ SameRows (s.begun i) (s.opened i [] w) := by
  obtain ⟨o, hopen, hsame, hcount, -⟩ := opened_ok s i [] w
  have heq : o = s.opened i [] w := by
    have hnil : countReads [] w o = .ok ⟨⟩ o := by
      simp [countReads, M.bind_run, Team.readConflicts, ceilDiv, bump]
    rw [hnil] at hcount
    exact (EStateM.Result.ok.inj hcount).2
  exact heq ▸ ⟨hopen, hsame⟩

/-- The first part of a word fixes its pass set, its PIX and its dither phase, and nothing else. -/
theorem begun_eq (s : State) (i : Instr) : ∃ p x d, s.begun i
    = { s with cur := { s.cur with l := { s.cur.l with passes := p, pix := x, dphAt := d } } } := by
  unfold State.begun
  split
  · exact ⟨_, _, _, rfl⟩
  · exact ⟨_, _, _, rfl⟩

/-- A word without a pass retires. -/
theorem runPasses_none {s : State} {i : Instr} {masks : List Nat} {dsts : List (Nat × Nat)} {tiles : Nat} {body : Nat → M Unit}
    {p : BitVec 32} (hp : s.cur.l.passes = some p) (hnone : passList p = []) :
    runPasses i masks dsts tiles body s = retire 0 false s := by
  rw [runPasses, M.bind_ok (beginPasses_fixed hp _), M.bind_ok (M.getTeam_run _), hnone]
  rfl

/-! ## Values and sources -/

theorem forM_ok {α : Type} {l : List α} {f : α → M PUnit} {s : State} (h : ∀ a ∈ l, f a s = .ok ⟨⟩ s) : l.forM f s = .ok ⟨⟩ s := by
  induction l with
  | nil => rfl
  | cons a r ih =>
    exact (M.bind_ok (h a (List.mem_cons_self ..))).trans (ih fun b hb => h b (List.mem_cons_of_mem _ hb))

theorem mapM_ok {α β : Type} {l : List α} {f : α → M β} {g : α → β} {s : State} (h : ∀ a, f a s = .ok (g a) s) :
    l.mapM f s = .ok (l.map g) s := by
  induction l with
  | nil => rw [List.mapM_nil]; rfl
  | cons a r ih => rw [List.mapM_cons, M.bind_ok (h a), M.bind_ok ih]; rfl

theorem ite_ends {c : Prop} [Decidable c] {m n : M Unit} {s : State} {P : State → Prop} (hm : ∃ t, m s = .ok ⟨⟩ t ∧ P t)
    (hn : ∃ t, n s = .ok ⟨⟩ t ∧ P t) : ∃ t, (if c then m else n) s = .ok ⟨⟩ t ∧ P t := by
  split
  · exact hm
  · exact hn

/-- Values none of which is poisoned kill no lane. -/
theorem killPoisoned_sound {got : List (Nat × Nat × Bool × Nat)} (h : ∀ g ∈ got, g.2.2.1 = false) (s : State) :
    killPoisoned got s = .ok (got.map fun g => (g.1, g.2.1)) s := by
  have hkill : got.forM (fun g => if g.2.2.1 then killLane g.1 g.2.2.2 else pure ()) s = .ok ⟨⟩ s :=
    forM_ok fun g hg => by rw [h g hg]; rfl
  have hvals : (got.filterMap fun g => if g.2.2.1 then none else some (g.1, g.2.1)) = got.map fun g => (g.1, g.2.1) := by
    rw [← List.filterMap_eq_map]
    exact List.filterMap_congr fun g hg => by rw [h g hg]; rfl
  rw [killPoisoned, M.bind_ok hkill, hvals]
  rfl

/-- One register of 32-bit values on a page of the team's own. -/
theorem writeValues_word {vd mask w : Nat} {s : State} (hown : Pte.shr (s.cur.pte vd) = false) (vals : List (Nat × Nat)) :
    writeValues 0 vd mask w vals s = writeLanes vd w (vals.map fun v => (v.1 % 32, BitVec.ofNat 32 v.2)) s := by
  have howns := ownDsts_own (dsts := under mask [vd]) (s := s) (fun d hd => by rw [List.mem_singleton.1 hd]; exact hown) (vals != [])
  rw [writeValues]
  refine (M.bind_ok howns).trans ?_
  rw [M.bind_run]
  cases writeLanes vd w (vals.map fun v => (v.1 % 32, BitVec.ofNat 32 v.2)) s <;> rfl

/-- `t` is `s` but for the counts of its cores: their rows and their poison are as they were. -/
def OnlyCounts (s t : State) : Prop :=
  (∃ cores, t = { s with cores := cores }) ∧ ∀ k, (t.core k).basin = (s.core k).basin ∧ (t.core k).poison = (s.core k).poison

theorem bump_counts (core w n : Nat) (s : State) : ∃ t, bump core w n s = .ok ⟨⟩ t ∧ OnlyCounts s t := by
  refine ite_ends ⟨s, rfl, ⟨s.cores, rfl⟩, fun k => ⟨rfl, rfl⟩⟩ ⟨_, rfl, ⟨_, rfl⟩, fun k => ?_⟩
  by_cases hk : k = core
  · subst hk
    rw [State.core_setCore_same]
    exact ⟨rfl, rfl⟩
  · rw [State.core_setCore_ne _ _ hk]
    exact ⟨rfl, rfl⟩

theorem countReads_counts (regs : List Nat) (w : Nat) (s : State) : ∃ t, countReads regs w s = .ok ⟨⟩ t ∧ OnlyCounts s t :=
  bump_counts ..

/-- A register reads from the rows and the poison of its core. -/
theorem regRow_congr {c d : Core} (hbasin : c.basin = d.basin) (hpoison : c.poison = d.poison) (t : Team) (q w : Nat) :
    t.regRow c q w = t.regRow d q w := by
  simp only [Team.regRow, Core.row, Core.rowPoison, hbasin, hpoison]

theorem OnlyCounts.regRow {s t : State} (h : OnlyCounts s t) (q w : Nat) :
    t.cur.regRow (t.core t.cur.core) q w = s.cur.regRow (s.core s.cur.core) q w := by
  obtain ⟨⟨cores, rfl⟩, hcore⟩ := h
  obtain ⟨hbasin, hpoison⟩ := hcore s.cur.core
  exact regRow_congr hbasin hpoison ..

/-- Lanes whose source is sound act. -/
theorem soundLanes_one {q w : Nat} {s : State} (h : (s.cur.regRow (s.core s.cur.core) q w).2 = 0) (m : BitVec 32) :
    soundLanes [q] w m s = .ok m s := by
  have hbad : [q].foldl (fun acc r => acc ||| (s.cur.regRow (s.core s.cur.core) r w).2) (0 : BitVec 32) &&& m = 0 := by
    simp [h]
  rw [soundLanes, M.bind_ok (M.get_run s)]
  simp only [hbad, if_true]
  rfl

end Sys2Proof.LanePass

/-! # Compute rows: posted stores and Cascade commands (03 R76 to R91) -/

namespace Sys2Proof.ComputeRows
open Sys2Proof Sys2Proof.Machine Sys2Proof.LanePass

/-- A served request changes the device's queues alone. -/
theorem servedRow_eq (s : State) (chan stamp : Nat) :
    s.servedRow chan stamp = { s with dev := (s.servedRow chan stamp).dev } := by
  unfold State.servedRow
  split <;> rfl

/-! ## Posted stores -/

theorem computeRowStore_ok {id : Nat} {p : Posted} {s : State}
    (hp : s.posted.find? (fun p => decide (p.id = id ∧ p.target = .computeRow)) = some p)
    (hserve : s.mayServe (chanOf p.addr) { stamp := p.id, rows := [p.addr / 1024], cmd := none } = true) :
    computeRowStore id s
      = .ok ⟨⟩ (p.atBank { s.servedRow (chanOf p.addr) p.id with
          posted := (s.servedRow (chanOf p.addr) p.id).posted.filter fun q => q.id != id }) := by
  simp only [computeRowStore, dropPosted, M.bind_run, M.get_run, hp, hserve, M.enabled_true, M.modify_run]

/-- A store to host memory whose turn has come is one write. -/
theorem storeAck_host_ok {id : Nat} {p : Posted} {s : State} (hp : s.posted.find? (fun p => p.id == id) = some p)
    (htarget : p.target = .host) (hold : s.oldestOfWord p = true) :
    ∃ bad, storeAck id s = .ok ⟨⟩ (State.writeHost { s with posted := s.posted.filter fun q => q.id != id } p.addr p.size
      (p.over (s.host.readN p.addr p.size)) bad) := by
  have hmay : (s.oldestOfWord p && PostedTo.host != .computeRow) = true := by rw [hold]; rfl
  refine ⟨p.poison || (p.only.isSome && Table.get false s.hostBad (p.addr / 32)), ?_⟩
  simp only [storeAck, dropPosted, M.bind_run, M.get_run, hp, hmay, M.enabled_true, M.modify_run, htarget]

/-- Settles O17: either store is one write of its own bytes. -/
theorem postedStoresArrive : Obligations.PostedStoresArrive := by
  refine fun id p s => ⟨fun hp hserve => ?_, fun hp htarget hold => ?_⟩
  · refine ⟨_, runEventOf_ok (computeRowStore_ok hp hserve), ?_⟩
    rw [servedRow_eq]
    exact ⟨Memory.readN_writeN_same .., fun a ha => Memory.read_writeN_outside _ _ _ _ _ ha, rfl, rfl, rfl, rfl⟩
  · obtain ⟨bad, hrun⟩ := storeAck_host_ok hp htarget hold
    exact ⟨_, runEventOf_ok hrun, Memory.readN_writeN_same .., fun a ha => Memory.read_writeN_outside _ _ _ _ _ ha,
      rfl, rfl, rfl, rfl⟩

/-! ## Served reads -/

/-- A read of compute rows whose turn it is changes the device's queues and rows alone. -/
theorem rowRead_served {who : Option RowAsker} {chan : Nat} {rows : List Nat} {cmd : Option (Nat × Nat)} {s : State}
    (h : s.mayServe chan (s.readReq who chan rows cmd) = true) :
    ∃ dev, rowRead who chan rows cmd s = .ok ⟨⟩ { s with dev := dev } := by
  simp only [rowRead, M.bind_run, M.get_run, h, if_true, M.set_run]
  rw [servedRow_eq]
  exact ⟨_, rfl⟩

/-! ## Commands in flight -/

theorem growingCascade_uid {s : State} {uid : Nat} {c : Cascade} (h : s.growingCascade uid = some c) : c.uid = uid := by
  have hc := List.find?_some h
  simp only [Bool.and_eq_true, beq_iff_eq] at hc
  exact hc.1

theorem timelineNext_run (n : Nat) (s : State) : timelineNext n s = .ok (s.cur.h.tlIssued.getD n 0 + 1) { s with
    cur := { s.cur with h := { s.cur.h with tlIssued := s.cur.h.tlIssued.set n (s.cur.h.tlIssued.getD n 0 + 1) } } } := rfl

/-- A command that stands is the issuing team's own, and its checks have left the team's lane stream alone. -/
theorem command_team {mask : Nat} {checks : Team → Nat → M CascPlace} {o u : State} {c : Cascade}
    (hkeep : ∀ t last, TeamKept.KeepsTeam o.cur (checks t last)) (h : command mask checks o = .ok c u) :
    c.uid = u.cur.uid ∧ u.cur.l = o.cur.l := by
  simp only [command, M.bind_run, M.getTeam_run, M.get_run] at h
  cases hd : o.growingCascade o.cur.uid with
  | some d =>
    simp only [hd, M.pure_run] at h
    cases h
    exact ⟨growingCascade_uid hd, rfl⟩
  | none =>
    simp only [hd] at h
    obtain ⟨place, o', hcheck, h⟩ := M.bind_inv h
    have hcur : o'.cur = o.cur := TeamKept.cur_of_keepsTeam (hkeep _ _) hcheck
    simp only [M.bind_run, timelineNext_run, M.modify_run, M.pure_run] at h
    cases h
    rw [← hcur]
    exact ⟨rfl, rfl⟩

/-- What the statements say of a command: its team, its number and the passes that its pseudo-channels have accepted. -/
abbrev passesOf (l : List Cascade) : List (Nat × Nat × List CascPass) := l.map fun d => (d.uid, d.num, d.queue)

/-- The last pass of a load or a reduction ends its command. -/
theorem lastPass_load {c : Cascade} {s : State} (hc : c.uid = s.cur.uid) : ∃ t, lastPass c true s = .ok ⟨⟩ t
    ∧ ∃ h cs, t = { s with cur := { s.cur with h := h }, cascades := cs } := by
  rw [lastPass, M.bind_ok (M.getTeam_run s)]
  refine ite_ends ⟨_, rfl, ?_⟩ ⟨s, rfl, s.cur.h, s.cascades, rfl⟩
  rw [hc]
  exact ⟨_, _, onTeamId_cur ..⟩

/-- A change of a command that keeps its team, its number and its queue. -/
theorem passesOf_map {f : Cascade → Cascade} (hf : ∀ d, (f d).uid = d.uid ∧ (f d).num = d.num ∧ (f d).queue = d.queue)
    (l : List Cascade) : passesOf (l.map f) = passesOf l := by
  refine List.map_map.trans (List.map_congr_left fun d _ => ?_)
  obtain ⟨huid, hnum, hqueue⟩ := hf d
  simp only [Function.comp, huid, hnum, hqueue]

/-- A command that takes no more passes, where it is the one given. -/
def closed (c d : Cascade) : Cascade := if d.is c.uid c.num then { d with growing := false } else d

theorem closed_keeps (c d : Cascade) : (closed c d).uid = d.uid ∧ (closed c d).num = d.num ∧ (closed c d).queue = d.queue := by
  unfold closed
  split <;> exact ⟨rfl, rfl, rfl⟩

/-- The last pass of a store or a clone leaves a command whose pass still stands in a queue. -/
theorem lastPass_store {c : Cascade} {s : State} (hq : ∀ d ∈ s.cascades, d.is c.uid c.num = true → d.queue ≠ []) :
    ∃ t, lastPass c false s = .ok ⟨⟩ t ∧ ∃ cs, t = { s with cascades := cs } ∧ passesOf cs = passesOf s.cascades := by
  rw [lastPass, M.bind_ok (M.getTeam_run s)]
  refine ite_ends ?_ ⟨s, rfl, s.cascades, rfl, rfl⟩
  have hdone : ∃ t, (pure ⟨⟩ : M Unit) { s with cascades := s.cascades.map (closed c) } = .ok ⟨⟩ t
      ∧ ∃ cs, t = { s with cascades := cs } ∧ passesOf cs = passesOf s.cascades :=
    ⟨_, rfl, _, rfl, passesOf_map (closed_keeps c) _⟩
  rw [M.bind_ok (show onCascade c.uid c.num _ s = .ok ⟨⟩ { s with cascades := s.cascades.map (closed c) } from rfl), M.bind_ok (M.get_run _)]
  cases hfind : (s.cascades.map (closed c)).find? fun d => d.is c.uid c.num with
  | none =>
    simp only [Bool.or_self, Bool.false_eq_true, if_false]
    exact hdone
  | some d =>
    obtain ⟨e, he, rfl⟩ := List.mem_map.1 (List.mem_of_find?_eq_some hfind)
    have hqueue : ((closed c e).queue == []) = false := by
      refine beq_false_of_ne ?_
      obtain ⟨huid, hnum, hsame⟩ := closed_keeps c e
      have his := List.find?_some hfind
      rw [hsame]
      simp only [Cascade.is, huid, hnum] at his
      exact hq e he his
    simp only [hqueue, Bool.or_self, Bool.false_eq_true, if_false]
    exact hdone

/-! ## Copies at the home slices -/

/-- Only the home slices change. -/
theorem dropWritten_eq (s : State) (es : List RowEffect) : s.dropWritten es = { s with slices := (s.dropWritten es).slices } := by
  unfold State.dropWritten
  generalize es.flatMap RowEffect.writes = l
  induction l generalizing s with
  | nil => rfl
  | cons a r ih => exact ih _

/-- What the home slices drop depends on them alone. -/
theorem dropWritten_slices_congr {s t : State} (h : s.slices = t.slices) (es : List RowEffect) :
    (s.dropWritten es).slices = (t.dropWritten es).slices := by
  unfold State.dropWritten
  generalize es.flatMap RowEffect.writes = l
  induction l generalizing s t with
  | nil => exact h
  | cons a r ih => exact ih (congrArg (Table.mapVals Slice.init fun c => c.dropSector (.crow (a / 128)) (a / 32 % 4)) h)

/-- A pass joins the queue of its command, in the order of the stamps. -/
def queued (c : Cascade) (q : CascPass) (d : Cascade) : Cascade :=
  if d.is c.uid c.num then { d with queue := d.queue ++ [q] } else d

theorem acceptPass_run (c : Cascade) (chan : Nat) (es : List RowEffect) (s : State) :
    acceptPass c chan es s = .ok ⟨⟩ { s with
      stamp := s.stamp + 1, slices := (s.dropWritten es).slices
      cascades := s.cascades.map (queued c { chan := chan, stamp := s.stamp, effects := es }) } := by
  simp only [acceptPass, onCascade, M.bind_run, M.nextStamp_run, M.modify_run]
  rw [dropWritten_eq, dropWritten_slices_congr (s := { s with stamp := s.stamp + 1 }) (t := s) rfl]
  rfl

theorem passesOf_queued (c : Cascade) (q : CascPass) (l : List Cascade) : passesOf (l.map (queued c q))
    = l.map fun d => (d.uid, d.num, if d.is c.uid c.num then d.queue ++ [q] else d.queue) := by
  refine List.map_map.trans (List.map_congr_left fun d _ => ?_)
  simp only [Function.comp, queued]
  split <;> rfl

theorem queue_ne_nil_of_queued {c : Cascade} {q : CascPass} {l : List Cascade} :
    ∀ d ∈ l.map (queued c q), d.is c.uid c.num = true → d.queue ≠ [] := by
  intro d hd his
  obtain ⟨e, -, rfl⟩ := List.mem_map.1 hd
  unfold queued at his ⊢
  split at his
  case isTrue h => rw [if_pos h]; exact List.append_ne_nil_of_right_ne_nil _ (List.cons_ne_nil _ _)
  case isFalse h => exact absurd his h

/-! ## A pass of a Cascade word (03 R87) -/

/-- What a Cascade word does for lane word `w`: its command stands, the rows it reads are served, `body`, the end of its last pass. -/
def wordPass (f : LMat) (loads : Bool) (checks : Team → Nat → M CascPlace) (body : Cascade → Nat → Nat → M Unit) (w : Nat) : M Unit := do
  let c ← command f.mask.toNat checks
  let cw := c.base + w * chanBytes
  if loads then readRows c (chanOf cw) ((lanesOf ((← getTeam).active f.mask.toNat w)).map fun k => cw / 1024 + k)
  body c w cw
  lastPass c loads

theorem cascadeWord_eq (i : Instr) (f : LMat) (dsts : List Nat) (loads : Bool) (checks : Team → Nat → M CascPlace)
    (body : Cascade → Nat → Nat → M Unit) : cascadeWord i f dsts loads checks body = (do
      let ps ← beginPasses i [f.mask.toNat]
      if ps = [] then emptyCommand
      runPasses i [f.mask.toNat] (under f.mask.toNat dsts) 0 (wordPass f loads checks body)) := rfl

section
variable {f : LMat} {checks : Team → Nat → M CascPlace} {body : Cascade → Nat → Nat → M Unit} {c : Cascade} {w : Nat}
  {i : Instr} {r : LaneRun} {dsts : List Nat} {loads : Bool} {s o u v : State}

/-- A pass of a Cascade word whose masks are the governing one: its body has gone from the opened state `o` to `v`. -/
theorem cascadeWord_ok (hat : s.atPass i r w) (hmasks : (touch s.cur.blk.nf i).masks = [f.mask.toNat])
    (hopen : openDsts (under f.mask.toNat dsts) ((passList (passSetOf s i)).drop s.cur.l.pix) (s.begun i) = .ok ⟨⟩ o)
    (hbody : wordPass f loads checks body w o = .ok ⟨⟩ v) :
    ∃ t, cascadeWord i f dsts loads checks body s = .ok ⟨⟩ t
      ∧ s.passEnded i v t ∧ t.cascades = v.cascades ∧ ∀ k, (t.core k).basin = (v.core k).basin := by
  have hw := passList_begun_get hat
  obtain ⟨hlane, hfit, -, hpix, -⟩ := hat
  have hset := begun_passes hlane
  have hbegin := beginPasses_ok hlane hfit
  rw [hmasks] at hbegin
  have hne : passList (passSetOf s i) ≠ [] := by rintro h; rw [h] at hw; cases hw
  rw [← begun_pix (i := i) hpix] at hw hopen
  obtain ⟨t, hrun, hend, hrest⟩ := runPasses_ok (i := i) (masks := [f.mask.toNat]) hset hw 0 hopen hbody
  refine ⟨t, ?_, passEnded_of_begun hlane hpix hend, hrest⟩
  rw [cascadeWord_eq, M.bind_ok hbegin, if_neg hne]
  exact hrun

/-- The pages that a Cascade word writes are the team's own still when its command stands. -/
theorem shr_of_command (hat : s.atPass i r w) (hkeep : ∀ T t last, TeamKept.KeepsTeam T (checks t last))
    (hcmd : command f.mask.toNat checks (s.opened i [] w) = .ok c u) :
    ∀ q ∈ (touch s.cur.blk.nf i).dsts, Pte.shr (u.cur.pte q) = false := by
  intro q hq
  obtain ⟨-, -, ⟨-, hown⟩, -, -⟩ := hat
  obtain ⟨-, -, hshr⟩ := (opened_nil s i w).2
  have hlane := (command_team (hkeep _) hcmd).2
  have hpte : u.cur.pte q = (s.opened i [] w).cur.pte q := congrArg (fun l => Table.get 0 (Lane.pt l) q) hlane
  rw [hpte, hshr, begun_pte]
  exact (hown q hq).1

/-- `t` is `s` but for the rows of the cores and the flags of the issuing team. -/
def WritesLanes (s t : State) : Prop :=
  ∃ o n cores, t = { s with cur := { s.cur with l := { s.cur.l with flagO := o, flagN := n } }, cores := cores }

/-- The rows that lane word `w` of a command reads are served in this turn. -/
def Served (u : State) (c : Cascade) (mask w : Nat) : Prop :=
  u.mayServe (chanOf (c.base + w * chanBytes)) (u.readReq (laneLoad.asker u.cur) (chanOf (c.base + w * chanBytes))
    ((lanesOf (u.cur.active mask w)).map fun k => (c.base + w * chanBytes) / 1024 + k) (some (c.uid, c.num))) = true

/-- A pass of a word that loads, its rows served: it ends where its body `body` has written the Basin. -/
theorem cascadeLoad_ok {Q : State → Prop} (hat : s.atPass i r w) (hmasks : (touch s.cur.blk.nf i).masks = [f.mask.toNat])
    (hkeep : ∀ T t last, TeamKept.KeepsTeam T (checks t last))
    (hcmd : command f.mask.toNat checks (s.opened i [] w) = .ok c u) (hserve : Served u c f.mask.toNat w)
    (hbody : ∀ dev, ∃ v, body c w (c.base + w * chanBytes) { u with dev := dev } = .ok ⟨⟩ v
      ∧ WritesLanes { u with dev := dev } v ∧ Q v) :
    ∃ t, cascadeWord i f (touch s.cur.blk.nf i).dsts true checks body s = .ok ⟨⟩ t ∧ s.passEnded i u t
      ∧ ∃ v, Q v ∧ ∀ k, (t.core k).basin = (v.core k).basin := by
  obtain ⟨dev, hread⟩ := rowRead_served hserve
  obtain ⟨_, hrun, ⟨o, n, cores, rfl⟩, hQ⟩ := hbody dev
  obtain ⟨_, hlast, h, cs, rfl⟩ := lastPass_load (c := c)
    (s := { u with cur := { u.cur with l := { u.cur.l with flagO := o, flagN := n } }, cores := cores, dev := dev })
    (command_team (hkeep _) hcmd).1
  have hopen := (opened_nil s i w).1
  rw [hmasks, begun_passes hat.1, begun_pix hat.2.2.2.1] at hopen
  obtain ⟨t, ht, hend, -, hbasin⟩ := cascadeWord_ok (loads := true) (checks := checks) (body := body) hat hmasks hopen
    ((M.bind_ok hcmd).trans ((M.bind_ok hread).trans ((M.bind_ok hrun).trans hlast)))
  exact ⟨t, ht, hend, _, hQ, hbasin⟩

end

/-! ## What the words do in a pass (03 R87) -/

/-- The body of `vnrld`. -/
def loadPass (f : LMat) (w cw : Nat) : M Unit := do
  let t ← getTeam
  let s ← get
  let got := (lanesOf (t.active f.mask.toNat w)).map fun p =>
    let a := cw + p * 1024
    (32 * w + p, s.crow.readN a 4, s.rowBad a, a)
  let vals ← killPoisoned got
  writeValues 0 f.vd.toNat f.mask.toNat w vals

theorem exec_vnrld (f : LMat) (s : State) : exec (.vnrld f) s =
    runLane (cascadeWord (.vnrld f) f [f.vd.toNat] true (oneAddress laneLoad f .word) fun _ => loadPass f) s := rfl

/-- Each lane takes the word of its bank. -/
theorem loadPass_ok {f : LMat} {w cw : Nat} {s : State} (hown : Pte.shr (s.cur.pte f.vd.toNat) = false)
    (hsound : ∀ k < 32, s.rowBad (cw + k * 1024) = false) : ∃ v, loadPass f w cw s = .ok ⟨⟩ v ∧ WritesLanes s v
      ∧ s.putAt v f.vd.toNat w ((lanesOf (s.cur.active f.mask.toNat w)).map fun k => (k, BitVec.ofNat 32 (s.crow.readN (cw + k * 1024) 4)))
      ∧ s.basinBut v [s.cur.rowAt f.vd.toNat w] := by
  have hvals : ((((lanesOf (s.cur.active f.mask.toNat w)).map fun p => (32 * w + p, s.crow.readN (cw + p * 1024) 4,
      s.rowBad (cw + p * 1024), cw + p * 1024)).map fun g => (g.1, g.2.1)).map fun v => (v.1 % 32, BitVec.ofNat 32 v.2))
      = (lanesOf (s.cur.active f.mask.toNat w)).map fun k => (k, BitVec.ofNat 32 (s.crow.readN (cw + k * 1024) 4)) := by
    rw [List.map_map, List.map_map]
    refine List.map_congr_left fun k hk => ?_
    have hk := lt_of_mem_lanesOf hk
    simp only [Function.comp, Prod.mk.injEq, and_true]
    omega
  obtain ⟨cores, hrun, hput, hbut⟩ := writeLanes_ok f.vd.toNat w
    ((lanesOf (s.cur.active f.mask.toNat w)).map fun k => (k, BitVec.ofNat 32 (s.crow.readN (cw + k * 1024) 4))) s
  refine ⟨_, ?_, ⟨s.cur.l.flagO, s.cur.l.flagN, cores, rfl⟩, hput, hbut⟩
  rw [loadPass, M.bind_ok (M.getTeam_run s), M.bind_ok (M.get_run s), M.bind_ok (killPoisoned_sound (fun g hg => ?_) s), writeValues_word hown,
    hvals, hrun]
  obtain ⟨k, hk, rfl⟩ := List.mem_map.1 hg
  exact hsound k (lt_of_mem_lanesOf hk)

/-- The registers that a reduction writes. -/
abbrev reducedRegs (f : LMat) : List Nat := if f.cop = 2 then pairOf f.vd else [f.vd.toNat]

theorem exec_vnrred (f : LMat) (s : State) : exec (.vnrred f) s = runLane (cascadeWord (.vnrred f) f (reducedRegs f) true
    (oneAddress laneLoad f (if f.cop = 2 then .pairs else .reduce)) fun _ => reducePass f) s := rfl

/-- The lanes that take part in a reduction, with the element each receives. -/
def reduced (f : LMat) (s : State) (w cw : Nat) : List (Nat × CascVal) :=
  ((List.range 32).filter fun j => !bitAt s.cur.l.dead.toNat (32 * w + j)).filterMap fun j =>
    (tree32 (cascCombine f.cop.toNat (f.fmt == 0x02) f.sat) (cascadeInputs s f.cop.toNat (s.cur.active f.mask.toNat w) cw j)).map
      fun v => (j, v)

theorem filterMap_map_pair {α β γ : Type} (l : List α) (g : α → Option β) (h : β → γ) :
    (l.filterMap fun j => (g j).map fun v => (j, v)).map (fun p => (p.1, h p.2)) = l.filterMap fun j => (g j).map fun v => (j, h v) := by
  rw [List.map_filterMap]
  refine List.filterMap_congr fun j _ => ?_
  cases g j <;> rfl

/-- The elements that a reduction writes, where none takes poison. -/
theorem reduced_marked {f : LMat} {s : State} {w cw : Nat}
    (hsound : ∀ j < 32, cascadePoison s f.cop.toNat (s.cur.active f.mask.toNat w) cw j = none) :
    (((List.range 32).filter fun j => !bitAt s.cur.l.dead.toNat (32 * w + j)).filterMap fun j =>
      (tree32 (cascCombine f.cop.toNat (f.fmt == 0x02) f.sat) (cascadeInputs s f.cop.toNat (s.cur.active f.mask.toNat w) cw j)).map
        fun v => (j, v, cascadePoison s f.cop.toNat (s.cur.active f.mask.toNat w) cw j))
      = (reduced f s w cw).map fun g => (g.1, g.2, none) := by
  rw [reduced, filterMap_map_pair _ _ fun v => (v, none)]
  refine List.filterMap_congr fun j hj => ?_
  rw [hsound j (List.mem_range.1 (List.mem_filter.1 hj).1)]

/-- The part `part` of the element that each lane receives. -/
def reducedPart (f : LMat) (s : State) (w cw : Nat) (part : CascVal → Nat) : List (Nat × Word32) :=
  ((List.range 32).filter fun j => !bitAt s.cur.l.dead.toNat (32 * w + j)).filterMap fun j =>
    (tree32 (cascCombine f.cop.toNat (f.fmt == 0x02) f.sat) (cascadeInputs s f.cop.toNat (s.cur.active f.mask.toNat w) cw j)).map
      fun v => (j, BitVec.ofNat 32 (part v))

theorem map_reduced (f : LMat) (s : State) (w cw : Nat) (part : CascVal → Nat) :
    ((reduced f s w cw).map fun g => (g.1, BitVec.ofNat 32 (part g.2))) = reducedPart f s w cw part :=
  filterMap_map_pair _ _ fun v => BitVec.ofNat 32 (part v)

/-- `t` is `s` with the elements of a reduction in its registers, the sums of its pairs in the second. -/
def Reduces (f : LMat) (w cw : Nat) (s t : State) : Prop :=
  s.putAt t f.vd.toNat w (reducedPart f s w cw CascVal.m)
    ∧ (f.cop = 2 → s.putAt t (f.vd.toNat + 1) w (reducedPart f s w cw CascVal.s))
    ∧ s.basinBut t ((reducedRegs f).map fun q => s.cur.rowAt q w)

/-- Every lane that is not dead receives its element. -/
theorem reducePass_ok {f : LMat} {w cw : Nat} {s : State} (hactive : s.cur.active f.mask.toNat w ≠ 0)
    (hown : ∀ q ∈ reducedRegs f, Pte.shr (s.cur.pte q) = false)
    (hsound : ∀ j < 32, cascadePoison s f.cop.toNat (s.cur.active f.mask.toNat w) cw j = none)
    (hapart : s.cur.apart (reducedRegs f) w) : ∃ v, reducePass f w cw s = .ok ⟨⟩ v ∧ WritesLanes s v ∧ Reduces f w cw s v := by
  have hcop : f.cop.toNat = 2 ↔ f.cop = 2 := BitVec.toNat_inj (y := 2#2)
  have hok : ((reduced f s w cw).map fun g => (g.1, g.2, (none : Option Nat))).filter (fun g => g.2.2.isNone)
      = (reduced f s w cw).map fun g => (g.1, g.2, none) :=
    List.filter_eq_self.2 fun g hg => by
      obtain ⟨_, _, rfl⟩ := List.mem_map.1 hg
      rfl
  have howns (writes : Bool) : ownDsts (under f.mask.toNat (reducedRegs f)) writes s = .ok ⟨⟩ s :=
    ownDsts_own (fun d hd => by obtain ⟨q, hq, rfl⟩ := List.mem_map.1 hd; exact hown q hq) writes
  rw [reducePass, M.bind_ok (M.getTeam_run s), M.bind_ok (M.get_run s)]
  simp only [if_neg hactive, reduced_marked hsound, hok, hcop]
  rw [M.bind_ok (forM_ok fun g hg => by obtain ⟨_, _, rfl⟩ := List.mem_map.1 hg; rfl), M.bind_ok (howns _)]
  simp only [List.map_map, Function.comp_def, map_reduced f s w cw CascVal.m, map_reduced f s w cw CascVal.s]
  unfold Reduces
  by_cases h2 : f.cop = 2
  · have hregs : reducedRegs f = [f.vd.toNat, f.vd.toNat + 1] := if_pos h2
    rw [hregs] at hapart ⊢
    have hne : s.cur.rowAt f.vd.toNat w ≠ s.cur.rowAt (f.vd.toNat + 1) w := List.pairwise_pair.1 hapart
    obtain ⟨cores1, cores, hrun1, hrun, hput, hput', hbut⟩ :=
      writeLanes_pair hne (reducedPart f s w cw CascVal.m) (reducedPart f s w cw CascVal.s)
    refine ⟨_, (M.bind_ok hrun1).trans ((congrFun (if_pos h2) _).trans (M.bind_ok hrun)), ⟨_, _, cores, rfl⟩, hput, fun _ => hput', hbut⟩
  · have hregs : reducedRegs f = [f.vd.toNat] := if_neg h2
    rw [hregs]
    obtain ⟨cores, hrun, hput, hbut⟩ := writeLanes_ok f.vd.toNat w (reducedPart f s w cw CascVal.m) s
    exact ⟨_, (M.bind_ok hrun).trans (congrFun (if_neg h2) _), ⟨_, _, cores, rfl⟩, hput, fun h => absurd h h2, hbut⟩

/-- The body of `vnrst`. -/
def storePass (f : LMat) (c : Cascade) (w cw : Nat) : M Unit := do
  countReads [f.vb.toNat] w
  let t ← getTeam
  let m ← soundLanes [f.vb.toNat] w (t.active f.mask.toNat w)
  let es ← (lanesOf m).mapM fun p => do
    return RowEffect.bytes (cw + p * 1024) 4 (← readLane f.vb.toNat (32 * w + p)).toNat
  acceptPass c (chanOf cw) es

theorem exec_vnrst (f : LMat) (s : State) : exec (.vnrst f) s =
    runLane (cascadeWord (.vnrst f) f [] false (oneAddress laneStore f .word) (storePass f)) s := rfl

/-- The effects of a pass of `vnrst`: each lane's word at its bank. -/
theorem storePass_ok {f : LMat} {c : Cascade} {w cw : Nat} {s : State} (h : (s.cur.regRow (s.core s.cur.core) f.vb.toNat w).2 = 0) :
    ∃ t, OnlyCounts s t ∧ storePass f c w cw s = acceptPass c (chanOf cw) ((lanesOf (s.cur.active f.mask.toNat w)).map fun k =>
      RowEffect.bytes (cw + k * 1024) 4 (s.cur.regLane (s.core s.cur.core) f.vb.toNat (32 * w + k)).1.toNat) t := by
  obtain ⟨t, hcount, ht⟩ := countReads_counts [f.vb.toNat] w s
  have hsound := soundLanes_one ((congrArg Prod.snd (ht.regRow f.vb.toNat w)).trans h) (s.cur.active f.mask.toNat w)
  have hlane (l : Nat) : t.cur.regLane (t.core t.cur.core) f.vb.toNat l = s.cur.regLane (s.core s.cur.core) f.vb.toNat l := by
    rw [Team.regLane, ht.regRow]
    rfl
  have heffects := mapM_ok (l := lanesOf (s.cur.active f.mask.toNat w)) (s := t)
    (f := fun p => do return RowEffect.bytes (cw + p * 1024) 4 (← readLane f.vb.toNat (32 * w + p)).toNat)
    (g := fun k => RowEffect.bytes (cw + k * 1024) 4 (s.cur.regLane (s.core s.cur.core) f.vb.toNat (32 * w + k)).1.toNat)
    fun k => by
      rw [← hlane]
      rfl
  have hcur : t.cur = s.cur := by
    obtain ⟨⟨cores, rfl⟩, -⟩ := ht
    rfl
  refine ⟨t, ht, ?_⟩
  rw [storePass, M.bind_ok hcount, M.bind_ok (M.getTeam_run t), hcur, M.bind_ok hsound, M.bind_ok heffects]

/-- The body of `vnrclone`. -/
def clonePass (f : LMat) (c : Cascade) (w cw : Nat) : M Unit := do
  let t ← getTeam
  let es := (lanesOf (t.active f.mask.toNat w)).map fun k =>
    if f.cop = 0 then RowEffect.copy (c.src + w * chanBytes + k * 1024) (cw + k * 1024)
    else RowEffect.fill (cw + k * 1024) (f.cop == 2)
  acceptPass c (chanOf cw) es

theorem exec_vnrclone (f : LMat) (s : State) : exec (.vnrclone f) s =
    runLane (cascadeWord (.vnrclone f) f [] false (cloneChecks f) (clonePass f)) s := rfl

section
variable {f : LMat} {checks : Team → Nat → M CascPlace} {body : Cascade → Nat → Nat → M Unit} {c : Cascade} {w : Nat}
  {i : Instr} {r : LaneRun} {s u u' : State} {es : List RowEffect}

/-- A pass of a word that stores: its effects stand in the queue of its command, behind those that stood there. -/
theorem cascadeStore_ok (hat : s.atPass i r w) (hmasks : (touch s.cur.blk.nf i).masks = [f.mask.toNat])
    (hcmd : command f.mask.toNat checks (s.begun i) = .ok c u) (hcounts : OnlyCounts u u')
    (hbody : body c w (c.base + w * chanBytes) u = acceptPass c (chanOf (c.base + w * chanBytes)) es u') :
    ∃ t, cascadeWord i f [] false checks body s = .ok ⟨⟩ t ∧ s.passOver i u t ∧ u.basinBut t [] ∧ t.clusters = u.clusters
      ∧ t.posted = u.posted ∧ t.slices = (u.dropWritten es).slices
      ∧ passesOf t.cascades = u.cascades.map fun d => (d.uid, d.num, if d.is c.uid c.num then
          d.queue ++ [{ chan := chanOf (c.base + w * chanBytes), stamp := u.stamp, effects := es }] else d.queue) := by
  obtain ⟨⟨cores, rfl⟩, hcore⟩ := hcounts
  have haccept := hbody.trans (acceptPass_run ..)
  obtain ⟨_, hlast, cs, rfl, hcs⟩ := lastPass_store (c := c) (s := { u with
    cores := cores, stamp := u.stamp + 1, slices := (State.dropWritten { u with cores := cores } es).slices
    cascades := u.cascades.map (queued c { chan := chanOf (c.base + w * chanBytes), stamp := u.stamp, effects := es }) })
    queue_ne_nil_of_queued
  obtain ⟨t, hrun, ⟨hover, hclusters, hslices, hposted⟩, hcascades, hbasin⟩ := cascadeWord_ok (dsts := []) (loads := false)
    (checks := checks) (body := body) hat hmasks rfl ((M.bind_ok hcmd).trans ((M.bind_ok haccept).trans hlast))
  refine ⟨t, hrun, hover, fun k _ => ?_, hclusters, hposted, hslices.trans ?_, ?_⟩
  · rw [hbasin]
    exact congrArg (fun b => Table.get 0 b k) (hcore u.cur.core).1
  · exact dropWritten_slices_congr (s := { u with cores := cores }) (t := u) rfl es
  · rw [hcascades]
    exact hcs.trans (passesOf_queued ..)

end

/-! ## A word without a pass (03 R89) -/

/-- A team's holdings once a number on tl7 has been taken and has ended at once. -/
def numbered (h : Holdings) : Holdings :=
  Holdings.ended { h with tlIssued := h.tlIssued.set 7 (h.tlIssued.getD 7 0 + 1) } 7 (h.tlIssued.getD 7 0 + 1)

theorem emptyCommand_run (s : State) : emptyCommand s = .ok ⟨⟩ { s with cur := { s.cur with h := numbered s.cur.h } } := by
  rw [emptyCommand, M.bind_ok (timelineNext_run 7 s), M.bind_ok (M.getTeam_run _), timelineEnd, M.onUid_run]
  exact congrArg _ (onTeamId_cur ..)

theorem cascadeWord_empty {i : Instr} {f : LMat} {dsts : List Nat} {loads : Bool} {checks : Team → Nat → M CascPlace}
    {body : Cascade → Nat → Nat → M Unit} {r : LaneRun} {s : State} (hat : s.laneAt i r) (hfit : s.laneFit i)
    (hmasks : (touch s.cur.blk.nf i).masks = [f.mask.toNat]) (hnone : passList (passSetOf s i) = []) :
    ∃ t, cascadeWord i f dsts loads checks body s = .ok ⟨⟩ t ∧ t.cur.l.run = r.next false
      ∧ t.cur.h.tlIssued = s.cur.h.tlIssued.set 7 (s.cur.h.tlIssued.getD 7 0 + 1)
      ∧ t.cascades = s.cascades ∧ t.crow = s.crow ∧ t.hbm = s.hbm ∧ t.cores = s.cores := by
  have hbegin := beginPasses_ok hat hfit
  have hset := begun_passes hat
  rw [hmasks, hnone] at hbegin
  obtain ⟨p, x, d, hbegun⟩ := begun_eq s i
  rw [hbegun] at hbegin hset
  have hrun : cascadeWord i f dsts loads checks body s = retire 0 false { s with
      cur := { s.cur with l := { s.cur.l with passes := p, pix := x, dphAt := d }, h := numbered s.cur.h } } := by
    rw [cascadeWord_eq, M.bind_ok hbegin, if_pos rfl, M.bind_ok (emptyCommand_run _)]
    exact runPasses_none hset hnone
  refine ⟨_, hrun, ?_⟩
  exact ⟨congrArg (fun o => Option.bind o fun q => q.next false) hat.1, rfl, rfl, rfl, rfl, rfl⟩

/-! ## Completion (03 R83, R89) -/

theorem dropWritten_crow (s : State) (es : List RowEffect) : (s.dropWritten es).crow = s.crow := by rw [dropWritten_eq]

/-- An effect changes the compute rows by their own bytes. -/
theorem apply_crow_congr {s t : State} (h : s.crow = t.crow) (e : RowEffect) : (e.apply s).crow = (e.apply t).crow := by
  cases e <;> simp only [RowEffect.apply, h]

/-- Effects that open their rows leave the bytes that they would leave without. -/
theorem foldl_apply_crow (es : List RowEffect) {s t : State} (h : s.crow = t.crow) :
    (es.foldl (fun s e => e.apply (e.activate s)) s).crow = (es.foldl (fun s e => e.apply s) t).crow := by
  induction es generalizing s t with
  | nil => exact h
  | cons e r ih =>
    have hopen : (e.activate s).crow = s.crow := by cases e <;> rfl
    exact ih (apply_crow_congr (hopen.trans h) e)

/-- Effects change the compute rows, their poison and the open rows alone. -/
theorem foldl_apply_eq (es : List RowEffect) (s : State) : ∃ crow bad dev,
    es.foldl (fun s e => e.apply (e.activate s)) s = { s with crow := crow, crowBad := bad, dev := dev } := by
  induction es generalizing s with
  | nil => exact ⟨_, _, _, rfl⟩
  | cons e r ih =>
    have hone : ∃ crow bad dev, e.apply (e.activate s) = { s with crow := crow, crowBad := bad, dev := dev } := by
      cases e <;> exact ⟨_, _, _, rfl⟩
    obtain ⟨crow, bad, dev, hone⟩ := hone
    obtain ⟨crow', bad', dev', hrest⟩ := ih (e.apply (e.activate s))
    exact ⟨crow', bad', dev', hrest.trans (by rw [hone])⟩

/-- A pass executes at its banks: what it leaves there depends on the rows, and what the home slices drop on these alone. -/
theorem perform_eq (q : CascPass) {s t : State} (hcrow : t.crow = s.crow) (hslices : t.slices = s.slices) :
    ∃ bad dev, q.perform t = { t with
      crow := (q.effects.foldl (fun s e => e.apply s) s).crow, crowBad := bad, dev := dev, slices := (s.dropWritten q.effects).slices } := by
  obtain ⟨crow, bad, dev, hfold⟩ := foldl_apply_eq q.effects (t.dropWritten q.effects)
  have hcrows : crow = (q.effects.foldl (fun s e => e.apply s) s).crow := by
    rw [← foldl_apply_crow q.effects ((dropWritten_crow t q.effects).trans hcrow), hfold]
  refine ⟨bad, dev, hfold.trans ?_⟩
  rw [hcrows, dropWritten_eq, dropWritten_slices_congr hslices]

/-! ## A copy of memory -/

section
variable {β : Type}

theorem get_filter_keys (d : β) (f : Nat → Bool) (t : Table β) (k : Nat) :
    Table.get d (t.filter fun p => f p.1) k = if f k then t.get d k else d := by
  induction t with
  | nil => simp [Table.get]
  | cons p r ih =>
    obtain ⟨j, v⟩ := p
    by_cases hj : f j = true
    · rw [List.filter_cons_of_pos (p := fun p : Nat × β => f p.1) hj, Table.get, Table.get, ih]
      split
      case isTrue h => rw [← h, if_pos hj]
      case isFalse => rfl
    · rw [List.filter_cons_of_neg (p := fun p : Nat × β => f p.1) hj, ih, Table.get]
      split
      case isTrue h => rw [if_neg (show j ≠ k by rintro rfl; exact hj h)]
      case isFalse => rfl

theorem get_of_allAbove (d : β) {t : Table β} {k : Nat} (h : Table.allAbove k t = true) : t.get d k = d := by
  induction t with
  | nil => rfl
  | cons p r ih =>
    obtain ⟨j, v⟩ := p
    simp only [Table.allAbove, Bool.and_eq_true, decide_eq_true_eq] at h
    rw [Table.get, if_neg (by omega), ih h.2]

end

/-- Entries of a table from `a` on, written each at its place from `b` on. -/
theorem read_foldl_write {a b : Nat} {l : Table Byte} (hwf : Table.wf Memory.dflt l = true) (hfrom : ∀ p ∈ l, a ≤ p.1) (m : Memory) (x : Nat) :
    Memory.read (l.foldl (fun (h : Memory) p => h.write (p.1 - a + b) p.2) m) x
      = if b ≤ x ∧ l.get Memory.dflt (a + (x - b)) ≠ Memory.dflt then l.get Memory.dflt (a + (x - b)) else m.read x := by
  induction l generalizing m with
  | nil => exact (if_neg fun h => h.2 rfl).symm
  | cons p r ih =>
    obtain ⟨k, v⟩ := p
    simp only [Table.wf, Bool.and_eq_true, decide_eq_true_eq] at hwf
    obtain ⟨⟨hv, habove⟩, hr⟩ := hwf
    have hk : a ≤ k := hfrom _ (List.mem_cons_self ..)
    rw [List.foldl_cons, ih hr fun p hp => hfrom p (List.mem_cons_of_mem _ hp), Memory.read_write, Table.get]
    by_cases hkey : b ≤ x ∧ k = a + (x - b)
    · obtain ⟨hx, rfl⟩ := hkey
      rw [get_of_allAbove _ habove, if_neg fun h => h.2 rfl, if_pos (by omega), if_pos rfl, if_pos ⟨hx, hv⟩]
    · rw [if_neg (show x ≠ k - a + b by omega)]
      by_cases hx : b ≤ x
      · rw [if_neg fun h => hkey ⟨hx, h⟩]
      · rw [if_neg fun h => hx h.1, if_neg fun h => hx h.1]

/-- A copy gives the bytes of its source at its destination, and leaves the others. -/
theorem read_copy {m : Memory} (hwf : m.wf = true) (a b n x : Nat) :
    (Memory.copy m a b n).read x = if b ≤ x ∧ x < b + n then m.read (a + (x - b)) else m.read x := by
  have hclear : (Memory.clear m b n).read x = if b ≤ x ∧ x < b + n then Memory.dflt else m.read x := by
    refine (get_filter_keys Memory.dflt (fun k => !decide (b ≤ k ∧ k < b + n)) m x).trans ?_
    by_cases hx : b ≤ x ∧ x < b + n <;> simp [hx, Memory.read]
  have hsource (k : Nat) : Table.get Memory.dflt (m.filter fun p => decide (a ≤ p.1 ∧ p.1 < a + n)) k
      = if a ≤ k ∧ k < a + n then m.read k else Memory.dflt := by
    refine (get_filter_keys Memory.dflt (fun k => decide (a ≤ k ∧ k < a + n)) m k).trans ?_
    by_cases hk : a ≤ k ∧ k < a + n <;> simp [hk, Memory.read]
  have hfrom : ∀ p ∈ m.filter fun p => decide (a ≤ p.1 ∧ p.1 < a + n), a ≤ p.1 := fun p hp =>
    (of_decide_eq_true (List.mem_filter.1 hp).2).1
  refine (read_foldl_write (Table.wf_filter _ _ _ hwf) hfrom _ x).trans ?_
  rw [hclear, hsource]
  by_cases hx : b ≤ x ∧ x < b + n
  · rw [if_pos hx, if_pos hx, if_pos (show a ≤ a + (x - b) ∧ a + (x - b) < a + n by omega)]
    by_cases hd : m.read (a + (x - b)) = Memory.dflt
    · rw [if_neg fun h => h.2 hd, hd]
    · rw [if_pos ⟨hx.1, hd⟩]
  · rw [if_neg hx, if_neg hx]
    refine if_neg fun h => h.2 (if_neg ?_)
    omega

/-- The command's queue without the passes of a stamp. -/
def unqueued (uid num stamp : Nat) (d : Cascade) : Cascade :=
  if d.is uid num then { d with queue := d.queue.filter fun o => o.stamp != stamp } else d

theorem filter_map_unqueued (uid num stamp : Nat) (l : List Cascade) :
    (l.map (unqueued uid num stamp)).filter (fun d => !d.is uid num) = l.filter fun d => !d.is uid num := by
  induction l with
  | nil => rfl
  | cons d r ih =>
    have his : (unqueued uid num stamp d).is uid num = d.is uid num := by
      unfold unqueued
      split <;> rfl
    rw [List.map_cons, List.filter_cons, List.filter_cons, his, ih]
    by_cases hd : d.is uid num = true
    · simp [hd]
    · rw [unqueued, if_neg hd]

/-- The pass that is served leaves its queue and executes; after the command's last one the command ends. -/
theorem cascadeComplete_run {uid num : Nat} {c : Cascade} {q : CascPass} {s : State}
    (hc : (s.cascades.find? fun c => c.is uid num) = some c)
    (hq : (c.queue.find? fun q => s.mayServe q.chan (q.request uid num)) = some q) :
    ∃ bad dev, cascadeComplete uid num s = (if !c.growing && c.queue.length == 1 then endCascade uid num else pure ⟨⟩)
      { s with
        cascades := s.cascades.map (unqueued uid num q.stamp)
        crow := (q.effects.foldl (fun s e => e.apply s) s).crow, crowBad := bad, dev := dev
        slices := (s.dropWritten q.effects).slices } := by
  obtain ⟨bad, dev, hperform⟩ := perform_eq q (s := s) (t := { s with
    dev := (s.servedRow q.chan q.stamp).dev, cascades := s.cascades.map (unqueued uid num q.stamp) }) rfl rfl
  refine ⟨bad, dev, ?_⟩
  have hrun (k : M Unit) : (do
      modify fun s => s.servedRow q.chan q.stamp
      onCascade uid num fun d => { d with queue := d.queue.filter fun o => o.stamp != q.stamp }
      modify q.perform
      k : M Unit) s = k { s with
        cascades := s.cascades.map (unqueued uid num q.stamp)
        crow := (q.effects.foldl (fun s e => e.apply s) s).crow, crowBad := bad, dev := dev
        slices := (s.dropWritten q.effects).slices } := by
    rw [M.bind_ok (M.modify_run _ s), servedRow_eq]
    exact (M.bind_ok rfl).trans ((M.bind_ok (M.modify_run _ _)).trans (congrArg k hperform))
  rw [cascadeComplete, M.bind_ok (M.get_run s)]
  simp only [hc, hq]
  exact hrun _

/-- A team changed wherever it stands: nothing else is. -/
theorem onTeamId_eq (s : State) (uid : Nat) (f : Team → Team) : ∃ cur teams, s.onTeamId uid f = { s with cur := cur, teams := teams } := by
  unfold State.onTeamId
  split
  · exact ⟨_, s.teams, rfl⟩
  · exact ⟨s.cur, _, rfl⟩

theorem endCascade_run (uid num : Nat) (s : State) : endCascade uid num s = .ok ⟨⟩ (State.onTeamId { s with
    cascades := s.cascades.filter fun d => !d.is uid num } uid fun t => { t with h := t.h.ended 7 num }) := rfl

/-- CASCADE_COMPLETE of a pass that is served. -/
theorem cascadeComplete_ok {uid num : Nat} {c : Cascade} {q : CascPass} {u : Team} {s : State}
    (hc : (s.cascades.find? fun c => c.is uid num) = some c)
    (hq : (c.queue.find? fun q => s.mayServe q.chan (q.request uid num)) = some q) (hu : s.team? uid = some u) :
    ∃ t, cascadeComplete uid num s = .ok ⟨⟩ t
      ∧ (c.growing = false ∧ c.queue.length = 1 →
        t.team? uid = some { u with h := u.h.ended 7 num } ∧ t.cascades = s.cascades.filter fun d => !d.is uid num)
      ∧ (¬(c.growing = false ∧ c.queue.length = 1) → t.team? uid = some u ∧ t.cascades = s.cascades.map (unqueued uid num q.stamp))
      ∧ t.hbm = s.hbm ∧ t.crow = (q.effects.foldl (fun s e => e.apply s) s).crow ∧ t.slices = (s.dropWritten q.effects).slices := by
  obtain ⟨bad, dev, hrun⟩ := cascadeComplete_run hc hq
  by_cases hends : c.growing = false ∧ c.queue.length = 1
  · rw [if_pos (by rw [hends.1, hends.2]; rfl), endCascade_run] at hrun
    refine ⟨_, hrun, fun _ => ⟨State.team?_onTeamId (by exact hu) fun _ => rfl, ?_⟩, fun h => absurd hends h, ?_⟩
    · obtain ⟨cur, teams, heq⟩ := onTeamId_eq _ uid _
      rw [heq]
      exact filter_map_unqueued ..
    · obtain ⟨cur, teams, heq⟩ := onTeamId_eq _ uid _
      rw [heq]
      exact ⟨rfl, rfl, rfl⟩
  · rw [if_neg (by simpa using hends)] at hrun
    exact ⟨_, hrun, fun h => absurd h hends, fun _ => ⟨hu, rfl⟩, rfl, rfl, rfl⟩

theorem touch_vnrred_dsts (nf : List Word64) (f : LMat) : (touch nf (.vnrred f)).dsts = reducedRegs f := by
  simp [touch, laneView, touchMat, reducedRegs]

section
variable {f : LMat} {r : LaneRun} {w : Nat} {c : Cascade} {s u : State}

theorem vnrld_pass (hat : s.atPass (.vnrld f) r w)
    (hcmd : command f.mask.toNat (oneAddress laneLoad f .word) (s.opened (.vnrld f) [] w) = .ok c u) (hserve : Served u c f.mask.toNat w)
    (hsound : ∀ k < 32, u.rowBad (c.base + w * chanBytes + k * 1024) = false) :
    ∃ t, exec (.vnrld f) s = .next t ∧ s.passEnded (.vnrld f) u t
      ∧ u.putAt t f.vd.toNat w ((lanesOf (u.cur.active f.mask.toNat w)).map fun k =>
          (k, BitVec.ofNat 32 (u.crow.readN (c.base + w * chanBytes + k * 1024) 4)))
      ∧ u.basinBut t [u.cur.rowAt f.vd.toNat w] := by
  have hkeep (T t last) : TeamKept.KeepsTeam T (oneAddress laneLoad f .word t last) := TeamKept.keepsTeam_oneAddress _ _ _ _ _
  have hown := shr_of_command hat hkeep hcmd _ (List.mem_singleton_self _)
  obtain ⟨t, hrun, hend, v, ⟨hput, hbut⟩, hbasin⟩ := cascadeLoad_ok (body := fun _ => loadPass f)
    (Q := fun v => u.putAt v f.vd.toNat w ((lanesOf (u.cur.active f.mask.toNat w)).map fun k =>
      (k, BitVec.ofNat 32 (u.crow.readN (c.base + w * chanBytes + k * 1024) 4))) ∧ u.basinBut v [u.cur.rowAt f.vd.toNat w])
    hat rfl hkeep hcmd hserve fun dev => loadPass_ok (s := { u with dev := dev }) hown hsound
  exact ⟨t, (exec_vnrld f s).trans (runLane_ok hrun), hend, putAt_of_basin hput hbasin, basinBut_of_basin hbut hbasin⟩

theorem vnrred_pass (hat : s.atPass (.vnrred f) r w)
    (hcmd : command f.mask.toNat (oneAddress laneLoad f (if f.cop = 2 then .pairs else .reduce)) (s.opened (.vnrred f) [] w) = .ok c u)
    (hserve : Served u c f.mask.toNat w) (hactive : u.cur.active f.mask.toNat w ≠ 0)
    (hsound : ∀ j < 32, cascadePoison u f.cop.toNat (u.cur.active f.mask.toNat w) (c.base + w * chanBytes) j = none)
    (hapart : u.cur.apart (reducedRegs f) w) :
    ∃ t, exec (.vnrred f) s = .next t ∧ s.passEnded (.vnrred f) u t
      ∧ Reduces f w (c.base + w * chanBytes) u t := by
  have hkeep (T t last) : TeamKept.KeepsTeam T (oneAddress laneLoad f (if f.cop = 2 then .pairs else .reduce) t last) :=
    TeamKept.keepsTeam_oneAddress _ _ _ _ _
  have hown := shr_of_command hat hkeep hcmd
  rw [touch_vnrred_dsts] at hown
  obtain ⟨t, hrun, hend, v, ⟨hput, hputs, hbut⟩, hbasin⟩ := cascadeLoad_ok (body := fun _ => reducePass f)
    (Q := Reduces f w (c.base + w * chanBytes) u)
    hat rfl hkeep hcmd hserve fun dev => reducePass_ok (s := { u with dev := dev }) hactive hown hsound hapart
  rw [touch_vnrred_dsts] at hrun
  exact ⟨t, (exec_vnrred f s).trans (runLane_ok hrun), hend, putAt_of_basin hput hbasin, fun h => putAt_of_basin (hputs h) hbasin,
    basinBut_of_basin hbut hbasin⟩

end

/-- A word without a pass takes an operation number and retires. -/
theorem empty_word {i : Instr} {f : LMat} (hi : i = .vnrld f ∨ i = .vnrst f ∨ i = .vnrred f ∨ i = .vnrclone f) {r : LaneRun} {s : State}
    (hat : s.laneAt i r) (hfit : s.laneFit i) (hnone : passList (s.cur.passSet [f.mask.toNat]) = []) :
    ∃ t, exec i s = .next t ∧ t.cur.l.run = r.next false
      ∧ t.cur.h.tlIssued = s.cur.h.tlIssued.set 7 (s.cur.h.tlIssued.getD 7 0 + 1)
      ∧ t.cascades = s.cascades ∧ t.crow = s.crow ∧ t.hbm = s.hbm ∧ t.cores = s.cores := by
  rcases hi with rfl | rfl | rfl | rfl <;>
  · obtain ⟨t, hrun, ht⟩ := cascadeWord_empty hat hfit rfl hnone
    exact ⟨t, runLane_ok hrun, ht⟩

/-- Settles O50. A word's pass is its command's checks, which leave the team alone, its body, and the end of the pass; a completion is
one execution of a queued pass. -/
theorem cascadeWords : Obligations.CascadeWords := by
  refine ⟨fun f r w cw c s u => ⟨?_, ?_, ?_⟩, fun i f hi r s hat hfit _ hnone => empty_word hi hat hfit hnone, ?_⟩
  · rintro hat hcmd rfl hserve hsound
    exact vnrld_pass hat hcmd hserve hsound
  · rintro hat hcmd rfl hserve hactive hsound hapart
    exact vnrred_pass hat hcmd hserve hactive hsound hapart
  · rintro i es hi hat rfl
    rcases hi with ⟨rfl, hcmd, hsound, rfl⟩ | ⟨rfl, hcmd, rfl⟩
    · obtain ⟨u', hcounts, hbody⟩ := storePass_ok (c := c) (cw := c.base + w * chanBytes) hsound
      obtain ⟨t, hrun, ht⟩ := cascadeStore_ok hat rfl hcmd hcounts hbody
      exact ⟨t, (exec_vnrst f s).trans (runLane_ok hrun), ht⟩
    · obtain ⟨t, hrun, ht⟩ := cascadeStore_ok (body := clonePass f) hat rfl hcmd ⟨⟨u.cores, rfl⟩, fun k => ⟨rfl, rfl⟩⟩ rfl
      exact ⟨t, (exec_vnrclone f s).trans (runLane_ok hrun), ht⟩
  · intro uid num c q u s hc hq hu
    obtain ⟨t, hrun, hlast, hmore, hhbm, hcrow, hslices⟩ := cascadeComplete_ok hc hq hu
    refine ⟨t, runEventOf_ok hrun, hlast, hmore, hhbm, hcrow, hslices, fun a n v he => ?_, fun src dst he hwf _ x => ?_⟩
    · rw [hcrow, he]
      exact ⟨Memory.readN_writeN_same .., fun x hx => Memory.read_writeN_outside _ _ _ _ _ hx⟩
    · rw [hcrow, he]
      exact read_copy hwf ..

end Sys2Proof.ComputeRows

/-! # Registers opened for a pass (09 R195, R196)

A pass opens its destinations and counts its read cycles before its body runs. The values of the lanes, what each bank is, and where
each register stands are then as they were; sources that were sound are sound still. -/

namespace Sys2Proof.OpenedPass
open Sys2Proof Sys2Proof.Machine Sys2Proof.LanePass

/-! ## Entries of the page table -/

section
variable {form bank rowBase base : Nat} {shr : Bool}

theorem bank_mkPte (hbank : bank < 2 ^ 9) (hrow : rowBase < 2 ^ 5) (hbase : base < 2 ^ 47) :
    Pte.bank (mkPte form shr bank rowBase base) = bank := by
  cases shr <;> simp only [Pte.bank, bits, mkPte, BitVec.toNat_ofNat, if_true, if_false, Bool.false_eq_true] <;> omega

theorem rowBase_mkPte (hrow : rowBase < 2 ^ 5) (hbase : base < 2 ^ 47) : Pte.rowBase (mkPte form shr bank rowBase base) = rowBase := by
  cases shr <;> simp only [Pte.rowBase, bits, mkPte, BitVec.toNat_ofNat, if_true, if_false, Bool.false_eq_true] <;> omega

theorem form_mkPte (hform : form < 4) (hbank : bank < 2 ^ 9) (hrow : rowBase < 2 ^ 5) (hbase : base < 2 ^ 47) :
    Pte.form (mkPte form shr bank rowBase base) = form := by
  cases shr <;> simp only [Pte.form, bits, mkPte, BitVec.toNat_ofNat, if_true, if_false, Bool.false_eq_true] <;> omega

end

/-! ## Poison of rows -/

/-- Poison that stays or is cleared row by row leaves a sound lane word sound. -/
theorem formPoison_cleared {form w : Nat} {held held' : Nat → BitVec 32} (h : ∀ k, held' k = held k ∨ held' k = 0)
    (hsound : formPoison form w held = 0) : formPoison form w held' = 0 := by
  have hspread (per : Nat) (hs : (if held (w / per) = 0 then 0 else BitVec.ofNat 32 ((List.range 32).foldl (fun acc p =>
      if bitAt (held (w / per)).toNat (32 / per * (w % per) + p / per) then acc + 2 ^ p else acc) 0)) = (0 : BitVec 32)) :
      (if held' (w / per) = 0 then 0 else BitVec.ofNat 32 ((List.range 32).foldl (fun acc p =>
        if bitAt (held' (w / per)).toNat (32 / per * (w % per) + p / per) then acc + 2 ^ p else acc) 0)) = (0 : BitVec 32) := by
    rcases h (w / per) with he | he
    · rw [he]; exact hs
    · exact if_pos he
  match form with
  | 0 => exact (h w).elim (fun he => he.trans hsound) id
  | 1 => rfl
  | 2 => exact hspread 4 hsound
  | _ + 3 => exact hspread 2 hsound

/-- Rows of a slot that take no poison are cleared, and the others stay. -/
theorem setSlotPoison_sound {c : Core} {e : Word64} {n : Nat} {bad : Nat → BitVec 32} (h : ∀ w < n, bad w = 0) (k : Nat) :
    Table.get 0 (c.setSlotPoison e n bad).poison k
      = if ∃ w < n, k = Pte.bank e * 32 + (Pte.rowBase e + w) then 0 else Table.get 0 c.poison k := by
  unfold Core.setSlotPoison
  induction n with
  | zero => simp
  | succ n ih =>
    have hlast (d : Core) : Table.get 0 (d.setRowPoison (Pte.bank e) (Pte.rowBase e + n) (bad n)).poison k
        = if k = Pte.bank e * 32 + (Pte.rowBase e + n) then 0 else Table.get 0 d.poison k := by
      rw [h n (Nat.lt_succ_self n)]
      exact Table.get_set (0 : BitVec 32) d.poison k (Pte.bank e * 32 + (Pte.rowBase e + n)) 0
    rw [List.range_succ, List.foldl_append, List.foldl_cons, List.foldl_nil, hlast, ih fun w hw => h w (Nat.lt_succ_of_lt hw)]
    by_cases hk : k = Pte.bank e * 32 + (Pte.rowBase e + n)
    · rw [if_pos hk, if_pos ⟨n, Nat.lt_succ_self n, hk⟩]
    · rw [if_neg hk]
      refine if_congr ⟨fun ⟨w, hw, he⟩ => ⟨w, Nat.lt_succ_of_lt hw, he⟩, fun ⟨w, hw, he⟩ => ⟨w, ?_, he⟩⟩ rfl rfl
      exact Nat.lt_of_le_of_ne (Nat.le_of_lt_succ hw) fun hn => hk (hn ▸ he)

@[simp] theorem setSlotPoison_banks (c : Core) (e : Word64) (n : Nat) (bad : Nat → BitVec 32) :
    (c.setSlotPoison e n bad).banks = c.banks :=
  List.foldlRecOn (motive := fun d => Core.banks d = c.banks) _ _ rfl fun _ h _ _ => h

/-! ## What opening leaves -/

/-- The rows and the banks of a core are those of another, and no row has more poison. -/
structure CoreOpens (c d : Core) : Prop where
  basin : d.basin = c.basin
  banks : d.banks = c.banks
  poison : ∀ k, Table.get 0 d.poison k = Table.get 0 c.poison k ∨ Table.get 0 d.poison k = 0

theorem CoreOpens.refl (c : Core) : CoreOpens c c := ⟨rfl, rfl, fun _ => .inl rfl⟩

theorem CoreOpens.trans {c d e : Core} (h : CoreOpens c d) (h' : CoreOpens d e) : CoreOpens c e :=
  ⟨h'.basin.trans h.basin, h'.banks.trans h.banks, fun k => by
    rcases h'.poison k with he | he
    · rw [he]; exact h.poison k
    · exact .inr he⟩

/-- `t` is `s` with the pass set of its word fixed, registers of its issuing team expanded to full form and counts moved on: registers
stand where they stood, and those that were sound are sound. -/
structure Opens (s t : State) : Prop where
  eq : ∃ pt p x d cores, t = { s with
    cur := { s.cur with l := { s.cur.l with pt := pt, passes := p, pix := x, dphAt := d } }, cores := cores }
  core : ∀ k, CoreOpens (s.core k) (t.core k)
  bank : ∀ q, Pte.bank (t.cur.pte q) = Pte.bank (s.cur.pte q)
  rowBase : ∀ q, Pte.rowBase (t.cur.pte q) = Pte.rowBase (s.cur.pte q)
  shr : ∀ q, Pte.shr (t.cur.pte q) = Pte.shr (s.cur.pte q)
  form : ∀ q, Pte.form (t.cur.pte q) = Pte.form (s.cur.pte q) ∨ Pte.form (t.cur.pte q) = Form.full
  sound : ∀ q, s.soundReg q → t.soundReg q

theorem Opens.refl (s : State) : Opens s s :=
  ⟨⟨s.cur.l.pt, s.cur.l.passes, s.cur.l.pix, s.cur.l.dphAt, s.cores, rfl⟩, fun _ => .refl _, fun _ => rfl, fun _ => rfl, fun _ => rfl,
    fun _ => .inl rfl, fun _ => id⟩

theorem Opens.trans {s t u : State} (h : Opens s t) (h' : Opens t u) : Opens s u where
  eq := by
    obtain ⟨pt, p, x, d, cores, rfl⟩ := h.eq
    obtain ⟨pt', p', x', d', cores', rfl⟩ := h'.eq
    exact ⟨pt', p', x', d', cores', rfl⟩
  core k := (h.core k).trans (h'.core k)
  bank q := (h'.bank q).trans (h.bank q)
  rowBase q := (h'.rowBase q).trans (h.rowBase q)
  shr q := (h'.shr q).trans (h.shr q)
  form q := by
    rcases h'.form q with he | he
    · rw [he]; exact h.form q
    · exact .inr he
  sound q hq := h'.sound q (h.sound q hq)

theorem opens_begun (s : State) (i : Instr) : Opens s (s.begun i) := by
  obtain ⟨p, x, d, heq⟩ := begun_eq s i
  rw [heq]
  exact ⟨⟨s.cur.l.pt, p, x, d, s.cores, rfl⟩, fun _ => .refl _, fun _ => rfl, fun _ => rfl, fun _ => rfl, fun _ => .inl rfl, fun _ => id⟩

/-- `t` is `s` but for the counts of its cores. -/
structure Counted (s t : State) : Prop where
  eq : ∃ cores, t = { s with cores := cores }
  core : ∀ k, ∃ cnt, t.core k = { s.core k with cnt := cnt }

theorem Counted.refl (s : State) : Counted s s := ⟨⟨s.cores, rfl⟩, fun k => ⟨(s.core k).cnt, rfl⟩⟩

theorem bump_counted (core w n : Nat) (s : State) : ∃ t, bump core w n s = .ok ⟨⟩ t ∧ Counted s t := by
  refine ite_ends ⟨s, rfl, ⟨s.cores, rfl⟩, fun k => ⟨(s.core k).cnt, rfl⟩⟩ ⟨_, rfl, ⟨_, rfl⟩, fun k => ?_⟩
  by_cases hk : k = core
  · subst hk
    rw [State.core_setCore_same]
    exact ⟨_, rfl⟩
  · rw [State.core_setCore_ne _ _ hk]
    exact ⟨_, rfl⟩

section
variable {s t : State}

theorem Counted.cur (h : Counted s t) : t.cur = s.cur := by
  obtain ⟨cores, rfl⟩ := h.eq
  rfl

theorem Counted.regRow (h : Counted s t) (q w : Nat) : t.cur.regRow (t.core t.cur.core) q w = s.cur.regRow (s.core s.cur.core) q w := by
  obtain ⟨⟨cores, rfl⟩, hcore⟩ := h
  obtain ⟨cnt, hcnt⟩ := hcore s.cur.core
  exact regRow_congr (congrArg Core.basin hcnt) (congrArg Core.poison hcnt) ..

theorem Counted.opens (h : Counted s t) : Opens s t := by
  have hrow := h.regRow
  obtain ⟨⟨cores, rfl⟩, hcore⟩ := h
  refine ⟨⟨s.cur.l.pt, s.cur.l.passes, s.cur.l.pix, s.cur.l.dphAt, cores, rfl⟩, fun k => ?_, fun _ => rfl, fun _ => rfl, fun _ => rfl,
    fun _ => .inl rfl, fun q hq w hw => by rw [hrow]; exact hq w hw⟩
  obtain ⟨cnt, hcnt⟩ := hcore k
  rw [hcnt]
  exact ⟨rfl, rfl, fun _ => .inl rfl⟩

/-- A register is in full form or holds no poison: to open it makes no lane of any register poisoned. -/
def Openable (s : State) (q : Nat) : Prop := Pte.form (s.cur.pte q) = Form.full ∨ s.soundReg q

theorem Opens.openable (h : Opens s t) {q : Nat} (hq : Openable s q) : Openable t q := by
  refine hq.imp (fun hf => ?_) (h.sound q)
  rcases h.form q with he | he
  · rw [he, hf]
  · exact he

/-! ## Full form -/

/-- The entry of a register that has been given its full form. -/
def fullPte (e : Word64) : Word64 := mkPte Form.full (Pte.shr e) (Pte.bank e) (Pte.rowBase e) 0

@[simp] theorem bank_fullPte (e : Word64) : Pte.bank (fullPte e) = Pte.bank e := bank_mkPte (bank_lt e) (rowBase_lt e) (by decide)
@[simp] theorem rowBase_fullPte (e : Word64) : Pte.rowBase (fullPte e) = Pte.rowBase e := rowBase_mkPte (rowBase_lt e) (by decide)
@[simp] theorem shr_fullPte (e : Word64) : Pte.shr (fullPte e) = Pte.shr e := shr_mkPte _ (bank_lt e) (rowBase_lt e) (by decide)
@[simp] theorem form_fullPte (e : Word64) : Pte.form (fullPte e) = Form.full :=
  form_mkPte (by decide) (bank_lt e) (rowBase_lt e) (by decide)

/-- The poison of the lanes of a register, as the form of its entry `e` spreads that of the rows. -/
abbrev lanePoison (c : Core) (e : Word64) (w : Nat) : BitVec 32 :=
  formPoison (Pte.form e) w fun k => c.rowPoison (Pte.bank e) (Pte.rowBase e + k)

/-- A lane word of a register is sound where the register is not written off and its rows hold no poison for it. -/
theorem regRow_sound {T : Team} {c : Core} {q w : Nat} :
    (T.regRow c q w).2 = 0 ↔ T.l.badRegs.contains q = false ∧ lanePoison c (T.pte q) w = 0 := by
  unfold Team.regRow
  cases T.l.badRegs.contains q <;> simp

/-- `s` with another entry for a register of the issuing team, and another state of its core. -/
def reentered (s : State) (r : Nat) (e : Word64) (c : Core) : State :=
  { s with cur := s.cur.setPte r e, cores := Table.set Core.init s.cores s.cur.core c }

section
variable {r : Nat} {e : Word64} {c : Core}

theorem core_reentered (k : Nat) : (reentered s r e c).core k = if k = s.cur.core then c else s.core k := Table.get_set ..

theorem pte_reentered (q : Nat) : (reentered s r e c).cur.pte q = if q = r then e else s.cur.pte q := pte_setPte ..

/-- A field of an entry that the new one keeps. -/
theorem field_reentered {α : Type} {g : Word64 → α} (hg : g e = g (s.cur.pte r)) (q : Nat) :
    g ((reentered s r e c).cur.pte q) = g (s.cur.pte q) := by
  rw [pte_reentered]
  split
  case isTrue h => rw [hg, h]
  case isFalse => rfl

/-- The lanes of a register in the core of the issuing team. -/
theorem soundReg_reentered {q : Nat} : (reentered s r e c).soundReg q ↔ ∀ w < s.cur.n,
    s.cur.l.badRegs.contains q = false ∧ lanePoison c (if q = r then e else s.cur.pte q) w = 0 := by
  refine forall₂_congr fun w _ => regRow_sound.trans ?_
  rw [pte_reentered, core_reentered]
  exact Iff.of_eq (congrArg (fun d => _ ∧ lanePoison d _ w = 0) (if_pos rfl))

/-- A register whose entry takes the full form over rows without poison is sound, and any other has no more poison than it had. -/
theorem opens_reentered (hbank : Pte.bank e = Pte.bank (s.cur.pte r)) (hrow : Pte.rowBase e = Pte.rowBase (s.cur.pte r))
    (hshr : Pte.shr e = Pte.shr (s.cur.pte r)) (hform : Pte.form e = Form.full) (hc : CoreOpens (s.core s.cur.core) c)
    (hslot : ∀ w < s.cur.n, c.rowPoison (Pte.bank e) (Pte.rowBase e + w) = 0) : Opens s (reentered s r e c) where
  eq := ⟨_, s.cur.l.passes, s.cur.l.pix, s.cur.l.dphAt, _, rfl⟩
  core k := by
    rw [core_reentered]
    split
    case isTrue hk => exact hk ▸ hc
    case isFalse => exact .refl _
  bank := field_reentered hbank
  rowBase := field_reentered hrow
  shr := field_reentered hshr
  form q := by
    rw [pte_reentered]
    split
    · exact .inr hform
    · exact .inl rfl
  sound q hq := soundReg_reentered.2 fun w hw => by
    obtain ⟨hbad, hlanes⟩ := regRow_sound.1 (hq w hw)
    refine ⟨hbad, ?_⟩
    split
    · rw [lanePoison, hform]
      exact hslot w hw
    · exact formPoison_cleared (fun k => hc.poison (_ + (_ + k))) hlanes

end

/-- The core of the issuing team with the poison of a register's lanes written to their full rows. -/
def expandedCore (s : State) (r : Nat) : Core :=
  (s.core s.cur.core).setSlotPoison (s.cur.pte r) s.cur.n (lanePoison (s.core s.cur.core) (s.cur.pte r))

theorem core_withCur (T : Team) (k : Nat) : State.core { s with cur := T } k = s.core k := rfl

theorem setCore_withCur (T : Team) (k : Nat) (c : Core) :
    State.setCore { s with cur := T } k c = { s with cur := T, cores := Table.set Core.init s.cores k c } := rfl

theorem setForm_full_run {r : Nat} (hform : Pte.form (s.cur.pte r) ≠ Form.full) :
    setForm r (Form.full, 0) s = .ok ⟨⟩ (reentered s r (fullPte (s.cur.pte r)) (expandedCore s r)) := by
  rw [setForm, M.bind_ok (M.get_run s), M.bind_ok (M.onTeam_run _ s), if_pos hform, M.onCore_run, core_withCur, setCore_withCur, reentered,
    expandedCore, fullPte]

/-- The poison of a sound register's slot is cleared, and that of the other rows stays. -/
theorem expandedCore_poison {r : Nat} (hr : s.soundReg r) (k : Nat) : Table.get 0 (expandedCore s r).poison k
    = if ∃ w < s.cur.n, k = Pte.bank (s.cur.pte r) * 32 + (Pte.rowBase (s.cur.pte r) + w) then 0
      else Table.get 0 (s.core s.cur.core).poison k :=
  setSlotPoison_sound (fun w hw => (regRow_sound.1 (hr w hw)).2) k

theorem opens_full {r : Nat} (hr : s.soundReg r) : Opens s (reentered s r (fullPte (s.cur.pte r)) (expandedCore s r)) := by
  have hcore : CoreOpens (s.core s.cur.core) (expandedCore s r) := ⟨setSlotPoison_basin .., setSlotPoison_banks .., fun k => by
    rw [expandedCore_poison hr]
    split
    · exact .inr rfl
    · exact .inl rfl⟩
  refine opens_reentered (bank_fullPte _) (rowBase_fullPte _) (shr_fullPte _) (form_fullPte _) hcore fun w hw => ?_
  rw [bank_fullPte, rowBase_fullPte]
  exact (expandedCore_poison hr _).trans (if_pos ⟨w, hw, rfl⟩)

/-! ## Opening -/

theorem expandReg_opens {r : Nat} (hr : Openable s r) (k : Nat) : ∃ t, expandReg r k s = .ok ⟨⟩ t ∧ Opens s t := by
  rw [expandReg, M.bind_ok (M.get_run s)]
  by_cases hform : Pte.form (s.cur.pte r) = Form.full
  · exact ⟨s, congrFun (if_neg (not_not.2 hform)) s, .refl s⟩
  · have hsound := hr.resolve_left hform
    obtain ⟨t, hrun, ht⟩ := bump_counted s.cur.core 8 k (reentered s r (fullPte (s.cur.pte r)) (expandedCore s r))
    exact ⟨t, (congrFun (if_pos hform) s).trans ((M.bind_ok (setForm_full_run hform)).trans hrun), (opens_full hsound).trans ht.opens⟩

theorem openDsts_opens {dsts : List (Nat × Nat)} (h : ∀ d ∈ dsts, Openable s d.1) (ps : List Nat) :
    ∃ t, openDsts dsts ps s = .ok ⟨⟩ t ∧ Opens s t := by
  rw [openDsts, M.bind_ok (M.getTeam_run s)]
  generalize s.cur = T
  induction dsts generalizing s with
  | nil => exact ⟨s, rfl, .refl s⟩
  | cons d r ih =>
    have hone : ∃ t, (if Pte.shr (T.pte d.1) then pure ⟨⟩ else expandReg d.1 (T.expanded d.2 ps) : M Unit) s = .ok ⟨⟩ t ∧ Opens s t :=
      ite_ends ⟨s, rfl, .refl s⟩ (expandReg_opens (h d (List.mem_cons_self ..)) _)
    obtain ⟨t, hrun, ht⟩ := hone
    obtain ⟨u, hrest, hu⟩ := ih (s := t) fun e he => ht.openable (h e (List.mem_cons_of_mem _ he))
    exact ⟨u, (M.bind_ok hrun).trans hrest, ht.trans hu⟩

/-- Where a pass of a word begins, its destinations open and its reads are counted. -/
theorem opened_opens {i : Instr} (h : s.laneSound i) (regs : List Nat) (w : Nat) : Opens s (s.opened i regs w) := by
  obtain ⟨-, hdsts⟩ := h
  obtain ⟨o, hopen, -, hcount, -⟩ := opened_ok s i regs w
  have hbegun := opens_begun s i
  obtain ⟨o', hopen', ho'⟩ := openDsts_opens (s := s.begun i) (dsts := under ((touch s.cur.blk.nf i).masks.headD 0) (touch s.cur.blk.nf i).dsts)
    (fun d hd => by
      obtain ⟨q, hq, rfl⟩ := List.mem_map.1 hd
      exact hbegun.openable (hdsts q hq).2) ((passList ((s.begun i).cur.l.passes.getD 0)).drop (s.begun i).cur.l.pix)
  obtain rfl := (EStateM.Result.ok.inj (hopen.symm.trans hopen')).2
  obtain ⟨t, hcount', ht⟩ := bump_counted o.cur.core 7 (o.cur.readConflicts regs w) o
  rw [(EStateM.Result.ok.inj (hcount.symm.trans hcount')).2]
  exact hbegun.trans (ho'.trans ht.opens)

end

end Sys2Proof.OpenedPass

/-! # The body of a pass over an opened state (09 R195 to R199)

What the parts that the bodies of lane passes share do where nothing is poisoned: the sources, the checks of the lanes, the values read
and written. -/

namespace Sys2Proof.OpenedPass
open Sys2Proof Sys2Proof.Machine Sys2Proof.LanePass

/-! ## What an opened state shows -/

section
variable {s t v : State}

theorem Opens.cur_core (h : Opens s t) : t.cur.core = s.cur.core := by
  obtain ⟨pt, p, x, d, cores, rfl⟩ := h.eq
  rfl

theorem Opens.regLane (h : Opens s t) (q l : Nat) :
    (t.cur.regLane (t.core t.cur.core) q l).1 = (s.cur.regLane (s.core s.cur.core) q l).1 := by
  simp only [Team.regLane, Team.regRow, Core.row, h.cur_core, h.bank, h.rowBase, (h.core s.cur.core).basin]

theorem Opens.active (h : Opens s t) (m w : Nat) : t.cur.active m w = s.cur.active m w := by
  obtain ⟨pt, p, x, d, cores, rfl⟩ := h.eq
  rfl

theorem Opens.rowAt (h : Opens s t) (q w : Nat) : t.cur.rowAt q w = s.cur.rowAt q w := by
  rw [Team.rowAt, Team.rowAt, h.bank, h.rowBase]

theorem Opens.basinRow (h : Opens s t) (k : Nat) : t.basinRow k = s.basinRow k := by
  rw [State.basinRow, State.basinRow, h.cur_core, (h.core _).basin]

theorem Opens.apart (h : Opens s t) {regs : List Nat} {w : Nat} : t.cur.apart regs w ↔ s.cur.apart regs w := by
  simp only [Team.apart, h.rowAt]

theorem Opens.putAt (h : Opens s t) {q w : Nat} {vals : List (Nat × Word32)} (hput : t.putAt v q w vals) : s.putAt v q w vals := by
  simpa only [State.putAt, h.cur_core, h.rowAt, h.basinRow] using hput

theorem Opens.basinBut (h : Opens s t) {rows : List Nat} (hbut : t.basinBut v rows) : s.basinBut v rows := by
  simpa only [State.basinBut, h.cur_core, h.basinRow] using hbut

theorem bankUse_congr {T T' : Team} {b : Nat} (hpage : T'.pageOfBank b = T.pageOfBank b) (hhold : T'.h = T.h) (huid : T'.uid = T.uid)
    (hrole : t.sharedRole T' b = s.sharedRole T b) (hbank : (t.core T'.core).bank b = (s.core T.core).bank b) :
    t.bankUse T' b = s.bankUse T b := by
  simp only [State.bankUse, hpage, hhold, huid, hrole, hbank]

theorem Opens.pageOfBank (h : Opens s t) (b : Nat) : t.cur.pageOfBank b = s.cur.pageOfBank b := by
  have hbank := h.bank
  obtain ⟨pt, p, x, d, cores, rfl⟩ := h.eq
  simp only [Team.pageOfBank, hbank]
  rfl

/-- What each bank is to a team does not depend on the forms of its registers. -/
theorem Opens.bankUse (h : Opens s t) (b : Nat) : t.bankUse t.cur b = s.bankUse s.cur b := by
  have hpage := h.pageOfBank b
  have hbanks := (h.core s.cur.core).banks
  obtain ⟨pt, p, x, d, cores, rfl⟩ := h.eq
  exact bankUse_congr hpage rfl rfl rfl (congrArg (Table.get BankState.free · b) hbanks)

theorem Opens.rowStale (h : Opens s t) (q : PageBank) (row i : Nat) : t.rowStale t.cur q row i = s.rowStale s.cur q row i := by
  obtain ⟨pt, p, x, d, cores, rfl⟩ := h.eq
  rfl

theorem Opens.privatePlaces (h : Opens s t) (lane o size : Nat) : privatePlaces t.cur lane o size = privatePlaces s.cur lane o size := by
  obtain ⟨pt, p, x, d, cores, rfl⟩ := h.eq
  rfl

/-- A pass that ends where its body has left an opened state, or one with other rows, ends for the state it began in. -/
theorem Opens.passEnded (h : Opens s t) {i : Instr} {cores : Table Core} (hend : s.passEnded i { t with cores := cores } v) :
    s.passEnded i (s.begun i) v := by
  obtain ⟨p, x, d, hbegun⟩ := begun_eq s i
  obtain ⟨pt, p', x', d', cores', rfl⟩ := h.eq
  rw [hbegun]
  exact hend

end

/-! ## A pass -/

section
variable {s : State} {i : Instr} {r : LaneRun} {w : Nat}

theorem bitAt_and_left {a b : BitVec 32} {k : Nat} (h : bitAt (a &&& b).toNat k = true) : bitAt b.toNat k = true := by
  rw [bitAt_eq_testBit, BitVec.toNat_and, Nat.testBit_and, Bool.and_eq_true] at h
  rw [bitAt_eq_testBit]
  exact h.2

/-- A pass set holds lane words of the team. -/
theorem passesOf_lt {T : Team} {masks : List Nat} (h : w ∈ passList (T.passesOf i masks)) : w < T.n := by
  obtain ⟨hw, hbit⟩ := List.mem_filter.1 h
  have hw := List.mem_range.1 hw
  have hsummary : w ∈ passList (T.summarySet masks) := by
    have hpass : bitAt (T.passSet masks).toNat w = true → bitAt (T.summarySet masks).toNat w = true := by
      unfold Team.passSet
      split
      · rw [bitAt_eq_testBit]
        simp
      · exact id
    refine List.mem_filter.2 ⟨List.mem_range.2 hw, ?_⟩
    unfold Team.passesOf at hbit
    split at hbit
    · exact hbit
    · exact hbit
    · exact hbit
    · exact hpass hbit
  have hn := bitAt_and_left (List.mem_filter.1 hsummary).2
  rw [bitAt_eq_testBit, BitVec.toNat_ofNat, Nat.testBit_mod_two_pow, Nat.testBit_two_pow_sub_one] at hn
  simpa [hw] using hn

theorem laneSound_of_atPass (h : s.atPass i r w) : s.laneSound i := by
  obtain ⟨-, -, hsound, -, -⟩ := h
  exact hsound

theorem lt_n_of_atPass (h : s.atPass i r w) : w < s.cur.n :=
  passesOf_lt (List.mem_of_getElem? (passList_begun_get h))

/-- A turn of a word is that of the word with its pass set fixed. -/
theorem runPasses_begun (hat : s.laneAt i r) (hfit : s.laneFit i) (dsts : List (Nat × Nat)) (tiles : Nat) (body : Nat → M Unit) :
    runPasses i (touch s.cur.blk.nf i).masks dsts tiles body s = runPasses i (touch s.cur.blk.nf i).masks dsts tiles body (s.begun i) := by
  rw [runPasses, M.bind_ok (beginPasses_ok hat hfit), M.bind_ok (beginPasses_fixed (begun_passes hat) _)]

/-- A pass that counts its reads and whose body goes from the opened state to `v`. -/
theorem runPasses_opened (hat : s.atPass i r w) {regs : List Nat} {body : Nat → M Unit} {v : State}
    (hbody : body w (s.opened i regs w) = .ok ⟨⟩ v) :
    ∃ t, runPasses i (touch s.cur.blk.nf i).masks (under ((touch s.cur.blk.nf i).masks.headD 0) (touch s.cur.blk.nf i).dsts) 0
        (fun w => do countReads regs w; body w) s = .ok ⟨⟩ t
      ∧ s.passEnded i v t ∧ ∀ k, (t.core k).basin = (v.core k).basin := by
  have hw := passList_begun_get hat
  obtain ⟨hlane, hfit, -, hpix, -⟩ := hat
  have hset := begun_passes hlane
  obtain ⟨o, hopen, -, hcount, -⟩ := opened_ok s i regs w
  rw [hset, Option.getD_some] at hopen
  rw [← begun_pix (i := i) hpix] at hw
  obtain ⟨t, hrun, hend, -, hbasin⟩ := runPasses_ok (i := i) (masks := (touch s.cur.blk.nf i).masks)
    (body := fun w => do countReads regs w; body w) hset hw 0 hopen ((M.bind_ok hcount).trans hbody)
  exact ⟨t, (runPasses_begun hlane hfit ..).trans hrun, passEnded_of_begun hlane hpix hend, hbasin⟩

end

/-! ## Sources and lanes -/

section
variable {s : State}

/-- Lanes whose sources are sound act. -/
theorem soundLanes_ok {regs : List Nat} {w : Nat} (h : ∀ q ∈ regs, (s.cur.regRow (s.core s.cur.core) q w).2 = 0) (m : BitVec 32) :
    soundLanes regs w m s = .ok m s := by
  have hsound : regs.foldl (fun acc q => acc ||| (s.cur.regRow (s.core s.cur.core) q w).2) (0 : BitVec 32) = 0 :=
    List.foldlRecOn (motive := fun acc => acc = 0) _ _ rfl fun acc hacc q hq => by rw [hacc, h q hq]; rfl
  have hbad : regs.foldl (fun acc q => acc ||| (s.cur.regRow (s.core s.cur.core) q w).2) (0 : BitVec 32) &&& m = 0 := by
    rw [hsound]
    exact BitVec.zero_and
  rw [soundLanes, M.bind_ok (M.get_run s)]
  simp only [hbad, if_true]
  rfl

theorem mapM_ok_of_mem {α β : Type} {l : List α} {f : α → M β} {g : α → β} (h : ∀ a ∈ l, f a s = .ok (g a) s) :
    l.mapM f s = .ok (l.map g) s := by
  induction l with
  | nil => rw [List.mapM_nil]; rfl
  | cons a r ih =>
    rw [List.mapM_cons, M.bind_ok (h a (List.mem_cons_self ..)), M.bind_ok (ih fun b hb => h b (List.mem_cons_of_mem _ hb))]
    rfl

theorem forM_map_run {α β : Type} (l : List α) (g : α → β) (f : β → M PUnit) (s : State) : (l.map g).forM f s = l.forM (fun a => f (g a)) s :=
  congrFun (List.forM_map (m := M)) s

/-- Lanes that all pass their check give their answers. -/
theorem eachLane_ok {α : Type} {lanes : List Nat} {f : Nat → M α} {g : Nat → α} (h : ∀ l ∈ lanes, f l s = .ok (g l) s) :
    eachLane lanes f s = .ok (lanes.map g) s := by
  have hcaught : lanes.mapM (fun l => caught (f l)) s = .ok (lanes.map fun l => Except.ok (g l)) s :=
    mapM_ok_of_mem fun l hl => by
      show EStateM.tryCatch _ _ s = _
      rw [EStateM.tryCatch, M.bind_ok (h l hl)]
      rfl
  rw [eachLane, M.bind_ok hcaught]
  simp [List.filterMap_map]

/-- The bits that a lane stores. -/
def storedBits (s : State) (fmt : BitVec 5) (vb l : Nat) : Nat :=
  if fmt = 0x1C then
    (s.cur.regLane (s.core s.cur.core) vb l).1.toNat + (s.cur.regLane (s.core s.cur.core) (vb + 1) l).1.toNat * 2 ^ 32
  else (s.cur.regLane (s.core s.cur.core) vb l).1.toNat % 2 ^ memBits fmt

theorem storedBits_lt (fmt : BitVec 5) (vb l : Nat) : storedBits s fmt vb l < 2 ^ memBits fmt := by
  unfold storedBits
  split
  case isTrue h =>
    subst h
    have hlo := (s.cur.regLane (s.core s.cur.core) vb l).1.isLt
    have hhi := (s.cur.regLane (s.core s.cur.core) (vb + 1) l).1.isLt
    have hbits : memBits 0x1C = 64 := rfl
    rw [hbits]
    omega
  case isFalse => exact Nat.mod_lt _ (Nat.two_pow_pos _)

theorem storeBits_ok (fmt : BitVec 5) (vb l : Nat) : storeBits fmt vb l s = .ok (storedBits s fmt vb l) s := by
  unfold storeBits storedBits
  split
  case isTrue h =>
    have hlo := (s.cur.regLane (s.core s.cur.core) vb l).1.isLt
    have hhi := (s.cur.regLane (s.core s.cur.core) (vb + 1) l).1.isLt
    refine congrArg (EStateM.Result.ok · s) ((BitVec.toNat_ofNat ..).trans (Nat.mod_eq_of_lt ?_))
    omega
  case isFalse => rfl

theorem Opens.storedBits {t : State} (h : Opens s t) (fmt : BitVec 5) (vb l : Nat) :
    OpenedPass.storedBits t fmt vb l = OpenedPass.storedBits s fmt vb l := by
  simp only [OpenedPass.storedBits, h.regLane]

/-- Every lane of a list gives the bits it stores, each with what is made of them. -/
theorem mapM_storeBits {t : State} (h : Opens s t) {β : Type} (g : Nat × Nat → Nat → β) (fmt : BitVec 5) (vb : Nat) (l : List (Nat × Nat)) :
    (l.mapM (fun q => do return g q (← storeBits fmt vb q.1)) : M (List β)) t
      = .ok (l.map fun q => g q (OpenedPass.storedBits s fmt vb q.1)) t :=
  mapM_ok fun q => by
    rw [M.bind_ok (storeBits_ok ..), h.storedBits]
    rfl

/-- Values go to a register, or to the two registers of a pair, on pages of the team's own. -/
theorem writeValues_ok {fmt : BitVec 5} {vd : BitVec 7} {w : Nat} (mask : Nat) (hown : ∀ q ∈ regsOf fmt vd, Pte.shr (s.cur.pte q) = false)
    (hapart : s.cur.apart (regsOf fmt vd) w) (vals : List (Nat × Nat)) : ∃ cores,
    writeValues fmt vd.toNat mask w vals s = .ok ⟨⟩ { s with cores := cores }
      ∧ (∀ j < (regsOf fmt vd).length, s.putAt { s with cores := cores } (vd.toNat + j) w
          (vals.map fun v => (v.1 % 32, BitVec.ofNat 32 (v.2 / 2 ^ (32 * j)))))
      ∧ s.basinBut { s with cores := cores } ((regsOf fmt vd).map fun q => s.cur.rowAt q w) := by
  have howns := ownDsts_own (dsts := under mask (regsOf fmt vd)) (s := s)
    (fun d hd => by obtain ⟨q, hq, rfl⟩ := List.mem_map.1 hd; exact hown q hq) (vals != [])
  have hfirst : (vals.map fun v => (v.1 % 32, BitVec.ofNat 32 (v.2 / 2 ^ (32 * 0)))) = vals.map fun v => (v.1 % 32, BitVec.ofNat 32 v.2) := by
    simp
  have hrest : writeValues fmt vd.toNat mask w vals s = (do
      writeLanes vd.toNat w (vals.map fun v => (v.1 % 32, BitVec.ofNat 32 v.2))
      if fmt = 0x1C then writeLanes (vd.toNat + 1) w (vals.map fun v => (v.1 % 32, BitVec.ofNat 32 (v.2 / 2 ^ 32))) : M Unit) s :=
    M.bind_ok howns
  by_cases hwide : fmt = 0x1C
  · have hregs : regsOf fmt vd = [vd.toNat, vd.toNat + 1] := if_pos hwide
    rw [hregs] at hapart ⊢
    obtain ⟨cores1, cores, hrun1, hrun, hput, hput', hbut⟩ := writeLanes_pair (List.pairwise_pair.1 hapart)
      (vals.map fun v => (v.1 % 32, BitVec.ofNat 32 v.2)) (vals.map fun v => (v.1 % 32, BitVec.ofNat 32 (v.2 / 2 ^ 32)))
    refine ⟨cores, hrest.trans <| (M.bind_ok hrun1).trans ((congrFun (if_pos hwide) _).trans hrun), fun j hj => ?_, hbut⟩
    match j, hj with
    | 0, _ => rw [hfirst]; exact hput
    | 1, _ => exact hput'
  · have hregs : regsOf fmt vd = [vd.toNat] := if_neg hwide
    rw [hregs]
    obtain ⟨cores, hrun, hput, hbut⟩ := writeLanes_ok vd.toNat w (vals.map fun v => (v.1 % 32, BitVec.ofNat 32 v.2)) s
    refine ⟨cores, hrest.trans <| (M.bind_ok hrun).trans (congrFun (if_neg hwide) _), fun j hj => ?_, hbut⟩
    obtain rfl : j = 0 := Nat.lt_one_iff.1 hj
    rw [hfirst]
    exact hput

end

end Sys2Proof.OpenedPass

/-! # Words of the Basin (04 R100, R105, R106)

An access of a lane names places: bytes of one word of one row, low bytes first. Bytes are read back as they were written as long as no
later write touches them, and rows in which no place lies stay as they are. -/

namespace Sys2Proof.BasinPlaces
open Sys2Proof Sys2Proof.Machine Sys2Proof.LanePass

/-! ## Bits of a number -/

theorem bits_eq_of_testBit {v v' lo n : Nat} (h : ∀ i < n, v'.testBit (lo + i) = v.testBit (lo + i)) : bits v' lo n = bits v lo n := by
  refine Nat.eq_of_testBit_eq fun i => ?_
  simp only [bits, Nat.testBit_mod_two_pow, Nat.testBit_div_two_pow, Nat.add_comm i lo]
  by_cases hi : i < n
  · rw [h i hi]
  · simp [hi]

/-- A number is its bits below `lo`, `n` bits from there and those above. -/
theorem setBits_eq (v lo n x : Nat) : setBits v lo n x = v % 2 ^ lo + 2 ^ lo * (x % 2 ^ n + 2 ^ n * (v / 2 ^ lo / 2 ^ n)) := by
  have hlo := Nat.div_add_mod v (2 ^ lo)
  have hmid := Nat.div_add_mod (v / 2 ^ lo) (2 ^ n)
  have hv : v = v % 2 ^ lo + 2 ^ lo * (v / 2 ^ lo % 2 ^ n + 2 ^ n * (v / 2 ^ lo / 2 ^ n)) := by
    rw [Nat.add_comm (v / 2 ^ lo % 2 ^ n), hmid, Nat.add_comm, hlo]
  rw [setBits, bits]
  generalize v / 2 ^ lo % 2 ^ n = b at hv ⊢
  generalize v / 2 ^ lo / 2 ^ n = c at hv ⊢
  generalize v % 2 ^ lo = a at hv ⊢
  generalize x % 2 ^ n = y
  subst hv
  rw [Nat.mul_comm b, Nat.mul_comm y, Nat.mul_add, Nat.mul_add]
  omega

theorem testBit_setBits (v lo n x i : Nat) :
    (setBits v lo n x).testBit i = if lo ≤ i ∧ i < lo + n then x.testBit (i - lo) else v.testBit i := by
  rw [setBits_eq, Nat.add_comm, Nat.testBit_two_pow_mul_add _ (Nat.mod_lt _ (Nat.two_pow_pos lo)), Nat.add_comm (x % 2 ^ n),
    Nat.testBit_two_pow_mul_add _ (Nat.mod_lt _ (Nat.two_pow_pos n))]
  by_cases hlo : i < lo
  · rw [if_pos hlo, if_neg (by omega), Nat.testBit_mod_two_pow, decide_eq_true hlo, Bool.true_and]
  · rw [if_neg hlo]
    by_cases hn : i - lo < n
    · rw [if_pos hn, if_pos (by omega), Nat.testBit_mod_two_pow, decide_eq_true hn, Bool.true_and]
    · rw [if_neg hn, if_neg (by omega), Nat.testBit_div_two_pow, Nat.testBit_div_two_pow]
      congr 1
      omega

/-! ## Bytes of a row -/

/-- Bytes of one word: bank, row, word, first byte and number of bytes. -/
abbrev WordBytes := Nat × Nat × Nat × Nat × Nat

/-- The Basin row of a place. -/
def rowOfPlace (x : WordBytes) : Nat := x.1 * 32 + x.2.1
/-- The first byte of a place in its row. -/
def byteOfPlace (x : WordBytes) : Nat := 4 * x.2.2.1 + x.2.2.2.1
/-- The bytes of a place. -/
def sizeOfPlace (x : WordBytes) : Nat := x.2.2.2.2

/-- Two places share no byte. -/
def BytesApart (x y : WordBytes) : Prop := rowOfPlace x = rowOfPlace y →
  byteOfPlace x + sizeOfPlace x ≤ byteOfPlace y ∨ byteOfPlace y + sizeOfPlace y ≤ byteOfPlace x

theorem BytesApart.symm {x y : WordBytes} (h : BytesApart x y) : BytesApart y x := fun he => (h he.symm).symm

/-- A row of the Basin belongs to one bank. -/
theorem bank_row_of_rowOfPlace {x y : WordBytes} (hx : x.2.1 < 32) (hy : y.2.1 < 32) (h : rowOfPlace x = rowOfPlace y) :
    x.1 = y.1 ∧ x.2.1 = y.2.1 := by
  unfold rowOfPlace at h
  omega

/-- The value of a place. -/
def valueAt (c : Core) (x : WordBytes) : Nat := c.rowBytes x.1 x.2.1 (4 * x.2.2.1 + x.2.2.2.1) x.2.2.2.2

/-- A core with a value at a place. -/
def putAtPlace (c : Core) (x : WordBytes) (v : Nat) : Core := c.putBytes x.1 x.2.1 (4 * x.2.2.1 + x.2.2.2.1) x.2.2.2.2 v

theorem valueAt_eq (c : Core) (x : WordBytes) :
    valueAt c x = bits (Table.get 0 c.basin (rowOfPlace x)).toNat (8 * byteOfPlace x) (8 * sizeOfPlace x) := rfl

theorem basin_putBytes (c : Core) (b r o n v : Nat) : (c.putBytes b r o n v).basin
    = Table.set 0 c.basin (b * 32 + r) (BitVec.ofNat 1024 (setBits (c.row b r).toNat (8 * o) (8 * n) v)) := by
  unfold Core.putBytes
  split <;> rfl

section
variable {c : Core} {x y : WordBytes}

theorem row_putAtPlace (v k : Nat) : Table.get 0 (putAtPlace c x v).basin k = if k = rowOfPlace x then
    BitVec.ofNat 1024 (setBits (Table.get 0 c.basin (rowOfPlace x)).toNat (8 * byteOfPlace x) (8 * sizeOfPlace x) v)
      else Table.get 0 c.basin k := by
  rw [putAtPlace, basin_putBytes]
  exact Table.get_set ..

theorem banks_putAtPlace (v : Nat) : (putAtPlace c x v).banks = c.banks := by
  unfold putAtPlace Core.putBytes
  split <;> rfl

/-- A place within its row holds what was put there. -/
theorem valueAt_putAtPlace_same (h : byteOfPlace x + sizeOfPlace x ≤ 128) (v : Nat) :
    valueAt (putAtPlace c x v) x = v % 2 ^ (8 * sizeOfPlace x) := by
  rw [valueAt_eq, row_putAtPlace, if_pos rfl]
  refine Nat.eq_of_testBit_eq fun i => ?_
  rw [bits, Nat.testBit_mod_two_pow, Nat.testBit_mod_two_pow, Nat.testBit_div_two_pow]
  by_cases hi : i < 8 * sizeOfPlace x
  · rw [BitVec.testBit_toNat, BitVec.getLsbD_ofNat, testBit_setBits, if_pos (by omega), Nat.add_sub_cancel,
      decide_eq_true (show i + 8 * byteOfPlace x < 1024 by omega), decide_eq_true hi, Bool.true_and]
  · rw [decide_eq_false hi, Bool.false_and, Bool.false_and]

/-- A place keeps its value where another is written. -/
theorem valueAt_putAtPlace_ne (h : BytesApart x y) (v : Nat) : valueAt (putAtPlace c y v) x = valueAt c x := by
  rw [valueAt_eq, valueAt_eq, row_putAtPlace]
  split
  case isFalse => rfl
  case isTrue hrow =>
    rw [hrow]
    have hbytes := h hrow
    refine bits_eq_of_testBit fun i hi => ?_
    rw [BitVec.testBit_toNat, BitVec.getLsbD_ofNat, testBit_setBits, if_neg (by omega), BitVec.testBit_toNat]
    by_cases hw : 8 * byteOfPlace x + i < 1024
    · rw [decide_eq_true hw, Bool.true_and]
    · rw [decide_eq_false hw, Bool.false_and, BitVec.getLsbD_of_ge _ _ (Nat.le_of_not_lt hw)]

end

/-! ## Values over several places -/

theorem readWords_cons (c : Core) (x : WordBytes) (l : List WordBytes) :
    (readWords c (x :: l)).1 = valueAt c x + (readWords c l).1 * 2 ^ (8 * sizeOfPlace x) := rfl

/-- The values of places, one after the other, are those of another core where these agree. -/
theorem readWords_congr {c d : Core} {l : List WordBytes} (h : ∀ x ∈ l, valueAt d x = valueAt c x) : (readWords d l).1 = (readWords c l).1 := by
  induction l with
  | nil => rfl
  | cons x r ih => rw [readWords_cons, readWords_cons, h x (List.mem_cons_self ..), ih fun y hy => h y (List.mem_cons_of_mem _ hy)]

/-- What is read depends on the rows alone. -/
theorem readWords_basin {c d : Core} (h : d.basin = c.basin) (l : List WordBytes) : (readWords d l).1 = (readWords c l).1 :=
  readWords_congr fun x _ => by rw [valueAt_eq, valueAt_eq, h]

/-- Words whose rows have no more poison than they had. -/
theorem readWords_poison {c d : Core} (h : ∀ k, Table.get 0 d.poison k = Table.get 0 c.poison k ∨ Table.get 0 d.poison k = 0)
    {l : List WordBytes} (hsound : (readWords c l).2 = false) : (readWords d l).2 = false := by
  induction l with
  | nil => rfl
  | cons x r ih =>
    have hcons (e : Core) : (readWords e (x :: r)).2 = ((readWords e r).2 || bitAt (Table.get 0 e.poison (x.1 * 32 + x.2.1)).toNat x.2.2.1) := rfl
    rw [hcons, Bool.or_eq_false_iff] at hsound
    obtain ⟨hrest, hword⟩ := hsound
    rw [hcons, ih hrest, Bool.false_or]
    rcases h (x.1 * 32 + x.2.1) with he | he
    · rw [he, hword]
    · rw [he, bitAt_eq_testBit]
      exact Nat.zero_testBit _

/-- A value put at places, low bytes first. -/
def putPlaces (c : Core) (l : List WordBytes) (v : Nat) : Core := (l.foldl (fun (acc : Core × Nat) x =>
  (putAtPlace acc.1 x (acc.2 % 2 ^ (8 * sizeOfPlace x)), acc.2 / 2 ^ (8 * sizeOfPlace x))) (c, v)).1

theorem putPlaces_cons (c : Core) (x : WordBytes) (l : List WordBytes) (v : Nat) : putPlaces c (x :: l) v
    = putPlaces (putAtPlace c x (v % 2 ^ (8 * sizeOfPlace x))) l (v / 2 ^ (8 * sizeOfPlace x)) := rfl

theorem banks_putPlaces (c : Core) (l : List WordBytes) (v : Nat) : (putPlaces c l v).banks = c.banks := by
  induction l generalizing c v with
  | nil => rfl
  | cons x r ih => rw [putPlaces_cons, ih, banks_putAtPlace]

theorem valueAt_putPlaces {c : Core} {x : WordBytes} {l : List WordBytes} (h : ∀ y ∈ l, BytesApart x y) (v : Nat) :
    valueAt (putPlaces c l v) x = valueAt c x := by
  induction l generalizing c v with
  | nil => rfl
  | cons y r ih =>
    rw [putPlaces_cons, ih fun z hz => h z (List.mem_cons_of_mem _ hz), valueAt_putAtPlace_ne (h y (List.mem_cons_self ..))]

theorem row_putPlaces {c : Core} {l : List WordBytes} {k : Nat} (h : k ∉ l.map rowOfPlace) (v : Nat) :
    Table.get 0 (putPlaces c l v).basin k = Table.get 0 c.basin k := by
  induction l generalizing c v with
  | nil => rfl
  | cons y r ih =>
    obtain ⟨hy, hr⟩ := not_or.1 fun he => h (List.mem_cons.2 he)
    rw [putPlaces_cons, ih hr, row_putAtPlace, if_neg hy]

/-- Places apart from each other, each within its row, give back the value that was put there. -/
theorem readWords_putPlaces {c : Core} {l : List WordBytes} (hrow : ∀ x ∈ l, byteOfPlace x + sizeOfPlace x ≤ 128) (hapart : l.Pairwise BytesApart)
    (v : Nat) : (readWords (putPlaces c l v) l).1 = v % 2 ^ (8 * (l.map sizeOfPlace).sum) := by
  induction l generalizing c v with
  | nil => exact (Nat.mod_one v).symm
  | cons x r ih =>
    obtain ⟨hx, hr⟩ := List.pairwise_cons.1 hapart
    rw [readWords_cons, putPlaces_cons, valueAt_putPlaces hx, valueAt_putAtPlace_same (hrow x (List.mem_cons_self ..)),
      ih (fun y hy => hrow y (List.mem_cons_of_mem _ hy)) hr, Nat.mod_mod, List.map_cons, List.sum_cons, Nat.mul_add, Nat.pow_add, Nat.mod_mul,
      Nat.mul_comm (2 ^ (8 * sizeOfPlace x))]

/-! ## Stores of the lanes of a pass -/

/-- The core that lanes, one after the other, have stored their values to. -/
def putLanes (place : Nat → List WordBytes) (value : Nat → Nat) (c : Core) (lanes : List Nat) : Core :=
  lanes.foldl (fun c l => putPlaces c (place l) (value l)) c

section
variable {place : Nat → List WordBytes} {value : Nat → Nat} {c : Core}

theorem putLanes_cons (l : Nat) (lanes : List Nat) :
    putLanes place value c (l :: lanes) = putLanes place value (putPlaces c (place l) (value l)) lanes := rfl

theorem valueAt_putLanes {x : WordBytes} {lanes : List Nat} (h : ∀ k ∈ lanes, ∀ y ∈ place k, BytesApart x y) :
    valueAt (putLanes place value c lanes) x = valueAt c x := by
  induction lanes generalizing c with
  | nil => rfl
  | cons k r ih =>
    rw [putLanes_cons, ih fun j hj => h j (List.mem_cons_of_mem _ hj), valueAt_putPlaces (h k (List.mem_cons_self ..))]

theorem row_putLanes {lanes : List Nat} {k : Nat} (h : k ∉ lanes.flatMap fun l => (place l).map rowOfPlace) :
    Table.get 0 (putLanes place value c lanes).basin k = Table.get 0 c.basin k := by
  induction lanes generalizing c with
  | nil => rfl
  | cons l r ih =>
    rw [List.flatMap_cons, List.mem_append, not_or] at h
    rw [putLanes_cons, ih h.2, row_putPlaces h.1]

/-- A lane finds its value where no higher lane has stored over it. -/
theorem readWords_putLanes {lanes : List Nat} (hsorted : lanes.Pairwise (· < ·)) {l : Nat} (hl : l ∈ lanes)
    (hrow : ∀ x ∈ place l, byteOfPlace x + sizeOfPlace x ≤ 128) (hapart : (place l).Pairwise BytesApart)
    (hhigher : ∀ k ∈ lanes, l < k → ∀ x ∈ place l, ∀ y ∈ place k, BytesApart x y) :
    (readWords (putLanes place value c lanes) (place l)).1 = value l % 2 ^ (8 * ((place l).map sizeOfPlace).sum) := by
  induction lanes generalizing c with
  | nil => cases hl
  | cons k r ih =>
    obtain ⟨hk, hr⟩ := List.pairwise_cons.1 hsorted
    rw [putLanes_cons]
    rcases List.mem_cons.1 hl with rfl | hmem
    · rw [readWords_congr fun x hx => valueAt_putLanes fun j hj => hhigher j (List.mem_cons_of_mem _ hj) (hk j hj) x hx]
      exact readWords_putPlaces hrow hapart _
    · exact ih hr hmem fun j hj => hhigher j (List.mem_cons_of_mem _ hj)

end

/-! ## Computations that store -/

/-- `t` is `s` but for the words of its cores: each bank is what it was. -/
def KeepsBanks (s t : State) : Prop := (∃ cores, t = { s with cores := cores }) ∧ ∀ k, (t.core k).banks = (s.core k).banks

theorem KeepsBanks.refl (s : State) : KeepsBanks s s := ⟨⟨s.cores, rfl⟩, fun _ => rfl⟩

theorem KeepsBanks.setCore {s t : State} (h : KeepsBanks s t) {k : Nat} {c : Core} (hc : c.banks = (t.core k).banks) :
    KeepsBanks s (t.setCore k c) := by
  obtain ⟨⟨cores, rfl⟩, hbanks⟩ := h
  refine ⟨⟨_, rfl⟩, fun j => ?_⟩
  by_cases hj : j = k
  · subst hj
    rw [State.core_setCore_same, hc, hbanks]
  · rw [State.core_setCore_ne _ _ hj, hbanks]

theorem KeepsBanks.bankUse {s t : State} (h : KeepsBanks s t) (b : Nat) : t.bankUse t.cur b = s.bankUse s.cur b := by
  obtain ⟨⟨cores, rfl⟩, hbanks⟩ := h
  exact OpenedPass.bankUse_congr rfl rfl rfl rfl (congrArg (Table.get BankState.free · b) (hbanks s.cur.core))

/-- Stores of lanes, each one change of the words of a core. -/
theorem forM_putLanes {place : Nat → List WordBytes} {value : Nat → Nat} {s t : State} {k : Nat} {f : Nat → M PUnit} {lanes : List Nat}
    (hf : ∀ l ∈ lanes, ∀ u, KeepsBanks s u → f l u = .ok ⟨⟩ (u.setCore k (putPlaces (u.core k) (place l) (value l)))) (h : KeepsBanks s t) :
    ∃ u, lanes.forM f t = .ok ⟨⟩ u ∧ KeepsBanks s u ∧ u.core k = putLanes place value (t.core k) lanes := by
  induction lanes generalizing t with
  | nil => exact ⟨t, rfl, h, rfl⟩
  | cons l r ih =>
    obtain ⟨u, hrun, hu, hcore⟩ := ih (fun j hj => hf j (List.mem_cons_of_mem _ hj)) (h.setCore (k := k) (banks_putPlaces _ (place l) (value l)))
    refine ⟨u, (M.bind_ok (hf l (List.mem_cons_self ..) t h)).trans hrun, hu, ?_⟩
    rw [hcore, State.core_setCore_same, putLanes_cons]

/-! ## The words of an access -/

/-- The bytes of an access, aligned to its size of 1, 2, 4 or 8. -/
structure Aligned (o size : Nat) : Prop where
  width : size ∈ [1, 2, 4, 8]
  offset : o % size = 0

section
variable {o size : Nat}

/-- A part of an access lies within the access and within one word. -/
theorem mem_accessWords (h : Aligned o size) {x : Nat × Nat × Nat} (hx : x ∈ accessWords o size) :
    o ≤ 4 * x.1 + x.2.1 ∧ 4 * x.1 + x.2.1 + x.2.2 ≤ o + size ∧ 0 < x.2.2 ∧ x.2.1 + x.2.2 ≤ 4 := by
  obtain ⟨hsize, haligned⟩ := h
  simp only [List.mem_cons, List.not_mem_nil, or_false] at hsize
  rcases hsize with rfl | rfl | rfl | rfl <;> simp only [accessWords, Nat.reduceEqDiff, if_true, if_false, List.mem_cons,
    List.not_mem_nil, or_false] at hx
  · subst hx; simp only; omega
  · subst hx; simp only; omega
  · subst hx; simp only; omega
  · rcases hx with rfl | rfl <;> simp only <;> omega

theorem accessWords_pairwise (o size : Nat) : (accessWords o size).Pairwise fun x y => x.1 ≠ y.1 := by
  unfold accessWords
  split <;> simp

theorem sum_accessWords (o size : Nat) : ((accessWords o size).map fun x => x.2.2).sum = size := by
  unfold accessWords
  split
  case isTrue h8 => rw [h8]; rfl
  case isFalse => exact Nat.add_zero _

end

end Sys2Proof.BasinPlaces

/-! # Private slices and the Basin by address (04 R105, R106, 06 R140, R141) -/

namespace Sys2Proof.BasinPasses
open Sys2Proof Sys2Proof.Machine Sys2Proof.LanePass Sys2Proof.OpenedPass Sys2Proof.BasinPlaces

/-! ## Lanes and formats -/

section
variable {T : Team} {mask w l : Nat}

theorem lanesAt_sorted : (T.lanesAt mask w).Pairwise (· < ·) := by
  refine List.pairwise_map.2 (List.Pairwise.imp (fun h => Nat.add_lt_add_left h _) ?_)
  exact List.pairwise_lt_range.filter _

theorem div_of_mem_lanesAt (h : l ∈ T.lanesAt mask w) : l / 32 = w := by
  obtain ⟨p, hp, rfl⟩ := List.mem_map.1 h
  have hp := lt_of_mem_lanesOf hp
  omega

end

/-- The formats of whole bytes move 1, 2, 4 or 8 of them. -/
theorem memSize {fmt : BitVec 5} (h : memBits fmt ∈ [8, 16, 32, 64]) : memBits fmt / 8 ∈ [1, 2, 4, 8] ∧ 8 * (memBits fmt / 8) = memBits fmt := by
  simp only [List.mem_cons, List.not_mem_nil, or_false] at h
  rcases h with h | h | h | h <;> simp [h]

/-! ## Passes that load and passes that store -/

section
variable {f : LMem} {r : LaneRun} {w : Nat} {i : Instr} {s o : State}

/-- The sources of a pass are sound where it is opened. -/
theorem sources_sound (hat : s.atPass i r w) (h : Opens s o) : ∀ q ∈ (touch s.cur.blk.nf i).srcs, (o.cur.regRow (o.core o.cur.core) q w).2 = 0 := by
  intro q hq
  have hw : w < o.cur.n := by
    have hlt := lt_n_of_atPass hat
    obtain ⟨pt, p, x, d, cores, rfl⟩ := h.eq
    exact hlt
  obtain ⟨hsrcs, -⟩ := laneSound_of_atPass hat
  exact h.sound q (hsrcs q hq) w hw

/-- The lanes of a pass that act in an opened state. -/
theorem soundLanes_opened {regs : List Nat} (hat : s.atPass i r w) (h : Opens s o) (hregs : regs ⊆ (touch s.cur.blk.nf i).srcs) (m : Nat) :
    soundLanes regs w (o.cur.active m w) o = .ok (s.cur.active m w) o := by
  rw [soundLanes_ok fun q hq => sources_sound hat h q (hregs hq), h.active]

/-- Lane word `w` of the destination of `f` holds in `t` these values at their lanes, and no other row has changed. -/
def Loads (f : LMem) (w : Nat) (vals : List (Nat × Nat)) (s t : State) : Prop :=
  (∀ j < (regsOf f.fmt f.vd).length, s.putAt t (f.vd.toNat + j) w (vals.map fun v => (v.1 % 32, BitVec.ofNat 32 (v.2 / 2 ^ (32 * j)))))
    ∧ s.basinBut t ((regsOf f.fmt f.vd).map fun q => s.cur.rowAt q w)

/-- A pass of a word that loads: after its reads, which count alone, its body writes the values. -/
theorem loadPass_ends {body : Nat → M Unit} {regs : List Nat} {vals : List (Nat × Nat)} (hat : s.atPass i r w)
    (hmasks : (touch s.cur.blk.nf i).masks = [f.mask.toNat]) (hdsts : (touch s.cur.blk.nf i).dsts = regsOf f.fmt f.vd)
    (hapart : s.cur.apart (regsOf f.fmt f.vd) w) (hcounts : Counted (s.opened i regs w) o)
    (hbody : ∀ t, writeValues f.fmt f.vd.toNat f.mask.toNat w vals o = .ok ⟨⟩ t → body w (s.opened i regs w) = .ok ⟨⟩ t) :
    ∃ t, runPasses i [f.mask.toNat] (under f.mask.toNat (regsOf f.fmt f.vd)) 0 (fun w => do countReads regs w; body w) s = .ok ⟨⟩ t
      ∧ s.passEnded i (s.begun i) t ∧ Loads f w vals s t := by
  have hopens := (opened_opens (laneSound_of_atPass hat) regs w).trans hcounts.opens
  obtain ⟨-, hpages⟩ := laneSound_of_atPass hat
  have hown : ∀ q ∈ regsOf f.fmt f.vd, Pte.shr (o.cur.pte q) = false := fun q hq => by
    rw [hopens.shr]
    exact (hpages q (hdsts ▸ hq)).1
  obtain ⟨cores, hwrite, hput, hbut⟩ := writeValues_ok f.mask.toNat hown (hopens.apart.2 hapart) vals
  obtain ⟨t, hrun, hend, hbasin⟩ := runPasses_opened hat (hbody _ hwrite)
  rw [hmasks, hdsts] at hrun
  refine ⟨t, hrun, hopens.passEnded hend, fun j hj => hopens.putAt (putAt_of_basin (hput j hj) hbasin), hopens.basinBut ?_⟩
  simpa only [hopens.rowAt] using basinBut_of_basin hbut hbasin

/-- A pass of a word that stores to the words of the issuing team's core. -/
theorem storePass_ends {body : Nat → M Unit} {regs : List Nat} {place : Nat → List WordBytes} {value : Nat → Nat} {lanes : List Nat} {v : State}
    (hat : s.atPass i r w) (hmasks : (touch s.cur.blk.nf i).masks = [f.mask.toNat]) (hdsts : (touch s.cur.blk.nf i).dsts = [])
    (hcounts : Counted (s.opened i regs w) o) (hbody : body w (s.opened i regs w) = .ok ⟨⟩ v) (hkeeps : KeepsBanks o v)
    (hcore : v.core s.cur.core = putLanes place value (o.core s.cur.core) lanes) :
    ∃ t, runPasses i [f.mask.toNat] [] 0 (fun w => do countReads regs w; body w) s = .ok ⟨⟩ t
      ∧ s.passEnded i (s.begun i) t ∧ s.basinBut t (lanes.flatMap fun l => (place l).map rowOfPlace)
      ∧ ∃ c, ∀ l, (readWords (t.core s.cur.core) l).1 = (readWords (putLanes place value c lanes) l).1 := by
  have hopens := (opened_opens (laneSound_of_atPass hat) regs w).trans hcounts.opens
  obtain ⟨t, hrun, hend, hbasin⟩ := runPasses_opened hat hbody
  rw [hmasks, hdsts] at hrun
  obtain ⟨⟨cores, rfl⟩, -⟩ := hkeeps
  refine ⟨t, hrun, hopens.passEnded hend, fun k hk => ?_, o.core s.cur.core, fun l => ?_⟩
  · rw [hbasin, hcore, row_putLanes hk, (hopens.core _).basin]
    rfl
  · rw [readWords_basin (hbasin _), hcore]

end

/-! ## Places of a slice (04 R105) -/

/-- The place of one part of an access to a lane's slice. -/
def privatePlace (T : Team) (l : Nat) (x : Nat × Nat × Nat) : WordBytes :=
  ((privateWord (T.h.privBase.getD 0) T.kern.g T.n l x.1).1, (privateWord (T.h.privBase.getD 0) T.kern.g T.n l x.1).2.1,
    (privateWord (T.h.privBase.getD 0) T.kern.g T.n l x.1).2.2, x.2.1, x.2.2)

theorem privatePlaces_eq (T : Team) (l o size : Nat) : privatePlaces T l o size = (accessWords o size).map (privatePlace T l) := rfl

section
variable {T : Team} {l k o size : Nat} {x y : Nat × Nat × Nat}

/-- The bank of a part within the slices, its row in units of 32 words and its word. -/
theorem privatePlace_row (hl : l / 32 < T.n) (hx : x.1 < T.kern.g * (1024 / T.n)) : (privatePlace T l x).2.1 < 32 := by
  have hdiv : x.1 / T.kern.g < 1024 / T.n := Nat.div_lt_of_lt_mul hx
  have hmul : (l / 32 + 1) * (1024 / T.n) ≤ 1024 := (Nat.mul_le_mul_right _ hl).trans (Nat.mul_div_le ..)
  rw [Nat.add_mul, Nat.one_mul] at hmul
  exact Nat.div_lt_of_lt_mul (by omega)

theorem byte_privatePlace (hx : x.2.1 + x.2.2 ≤ 4) : byteOfPlace (privatePlace T l x) + sizeOfPlace (privatePlace T l x) ≤ 128 := by
  simp only [byteOfPlace, sizeOfPlace, privatePlace, privateWord]
  omega

/-- Lanes at different positions of a lane word have different banks. -/
theorem bytesApart_lanes (hx : (privatePlace T l x).2.1 < 32) (hy : (privatePlace T k y).2.1 < 32) (hne : l % 32 ≠ k % 32) :
    BytesApart (privatePlace T l x) (privatePlace T k y) := by
  intro hrow
  have hbank : T.h.privBase.getD 0 + 32 * (x.1 % T.kern.g) + l % 32 = T.h.privBase.getD 0 + 32 * (y.1 % T.kern.g) + k % 32 :=
    (bank_row_of_rowOfPlace hx hy hrow).1
  omega

/-- The words of one lane lie apart. -/
theorem bytesApart_words (hx : (privatePlace T l x).2.1 < 32) (hy : (privatePlace T l y).2.1 < 32) (hne : x.1 ≠ y.1)
    (hbx : x.2.1 + x.2.2 ≤ 4) (hby : y.2.1 + y.2.2 ≤ 4) : BytesApart (privatePlace T l x) (privatePlace T l y) := by
  intro hrow
  obtain ⟨hbank, hrow⟩ := bank_row_of_rowOfPlace hx hy hrow
  simp only [byteOfPlace, sizeOfPlace, privatePlace, privateWord] at hbank hrow ⊢
  have hmod : x.1 % T.kern.g = y.1 % T.kern.g := by omega
  have hdiv : x.1 / T.kern.g ≠ y.1 / T.kern.g := fun hd =>
    hne (by rw [← Nat.div_add_mod x.1 T.kern.g, ← Nat.div_add_mod y.1 T.kern.g, hd, hmod])
  generalize x.1 / T.kern.g = a at *
  generalize y.1 / T.kern.g = b at *
  omega

end

/-! ## Accesses to a slice -/

/-- An access of a lane of lane word `w` that is aligned and lies within the lane's slice. -/
structure InSlice (T : Team) (w l o size : Nat) : Prop where
  word : l / 32 = w
  lane : w < T.n
  aligned : Aligned o size
  within : o + size ≤ 4 * (T.kern.g * (1024 / T.n))

section
variable {T : Team} {w l k o o' size : Nat}

/-- A part of an access within the slice lies in a row of its bank and in one word. -/
theorem InSlice.part (h : InSlice T w l o size) {x : Nat × Nat × Nat} (hx : x ∈ accessWords o size) :
    (privatePlace T l x).2.1 < 32 ∧ x.2.1 + x.2.2 ≤ 4 := by
  obtain ⟨hword, hlane, haligned, hwithin⟩ := h
  obtain ⟨-, hend, hpos, hbytes⟩ := mem_accessWords haligned hx
  exact ⟨privatePlace_row (hword ▸ hlane) (by omega), hbytes⟩

theorem InSlice.byte (h : InSlice T w l o size) : ∀ x ∈ privatePlaces T l o size, byteOfPlace x + sizeOfPlace x ≤ 128 := by
  intro p hp
  obtain ⟨x, hx, rfl⟩ := List.mem_map.1 hp
  exact byte_privatePlace (h.part hx).2

theorem InSlice.apart (h : InSlice T w l o size) : (privatePlaces T l o size).Pairwise BytesApart :=
  List.pairwise_map.2 <| (accessWords_pairwise o size).imp_of_mem fun hx hy hne =>
    bytesApart_words (h.part hx).1 (h.part hy).1 hne (h.part hx).2 (h.part hy).2

/-- The slices of two lanes of one lane word lie apart. -/
theorem InSlice.apart_lane (h : InSlice T w l o size) (h' : InSlice T w k o' size) (hne : l ≠ k) :
    ∀ x ∈ privatePlaces T l o size, ∀ y ∈ privatePlaces T k o' size, BytesApart x y := by
  intro p hp q hq
  obtain ⟨x, hx, rfl⟩ := List.mem_map.1 hp
  obtain ⟨y, hy, rfl⟩ := List.mem_map.1 hq
  have hword := h.word.trans h'.word.symm
  exact bytesApart_lanes (h.part hx).1 (h'.part hy).1 (by omega)

theorem sizes_privatePlaces (T : Team) (l o size : Nat) : ((privatePlaces T l o size).map sizeOfPlace).sum = size := by
  rw [privatePlaces_eq, List.map_map]
  exact sum_accessWords o size

/-- An offset that is aligned and within the slice passes its check. -/
theorem privateOffset_ok {v imm : Word32} {acc : Nat} (s : State) (hbase : T.h.privBase.isSome = true)
    (h : InSlice T w l (v + imm).toNat size) : privateOffset T v imm size acc l s = .ok (v + imm).toNat s := by
  have hnone : ¬(T.h.privBase.isNone = true ∨ 4 * (T.kern.g * (1024 / T.n)) < (v + imm).toNat + size) := by
    rw [not_or, Nat.not_lt]
    refine ⟨fun hn => ?_, h.within⟩
    rw [Option.isNone_iff_eq_none.1 hn] at hbase
    exact absurd hbase (by decide)
  rw [privateOffset]
  simp only [h.aligned.offset, ne_eq, not_true_eq_false, if_false, hnone]
  rfl

end

/-! ## `vldp` (06 R140) -/

/-- What a pass of `vldp` does once its reads are counted. -/
def loadPrivate (f : LMem) (w : Nat) : M Unit := do
  let t ← getTeam
  let m ← soundLanes [f.va.toNat] w (t.active f.mask.toNat w)
  let size := memBits f.fmt / 8
  let offs ← eachLane ((lanesOf m).map fun p => 32 * w + p) fun l => do
    return (l, ← privateOffset t (← readLane f.va.toNat l) f.imm32 size 0 l)
  let c := (← get).core t.core
  let vals ← killPoisoned (offs.map fun q =>
    let pl := privatePlaces t q.1 q.2 size
    let r := readWords c pl
    (q.1, memExtend f.fmt r.1, r.2, placeAddr pl))
  writeValues f.fmt f.vd.toNat f.mask.toNat w vals

theorem exec_vldp (f : LMem) (s : State) : exec (.vldp f) s = runLane (runPasses (.vldp f) [f.mask.toNat]
    (under f.mask.toNat (regsOf f.fmt f.vd)) 0 fun w => do countReads [f.va.toNat] w; loadPrivate f w) s := rfl

/-- What a pass of `vstp` does once its reads are counted. -/
def storePrivate (f : LMem) (w : Nat) : M Unit := do
  let t ← getTeam
  let m ← soundLanes (f.va.toNat :: regsOf f.fmt f.vb) w (t.active f.mask.toNat w)
  let size := memBits f.fmt / 8
  let offs ← eachLane ((lanesOf m).map fun p => 32 * w + p) fun l => do
    return (l, ← privateOffset t (← readLane f.va.toNat l) f.imm32 size 1 l)
  let vals ← offs.mapM fun q => do return (privatePlaces t q.1 q.2 size, ← storeBits f.fmt f.vb.toNat q.1)
  vals.forM fun q => onCore t.core fun c => putPlaces c q.1 q.2

theorem exec_vstp (f : LMem) (s : State) : exec (.vstp f) s = runLane (runPasses (.vstp f) [f.mask.toNat] [] 0 fun w => do
    countReads (f.va.toNat :: regsOf f.fmt f.vb) w; storePrivate f w) s := rfl

section
variable {f : LMem} {r : LaneRun} {w : Nat} {s o : State} {off : Nat → Nat}

/-- The offset of a lane. -/
def laneOffset (s : State) (f : LMem) (l : Nat) : Nat := ((s.cur.regLane (s.core s.cur.core) f.va.toNat l).1 + f.imm32).toNat

theorem touch_vldp (nf : List Word64) : (touch nf (.vldp f)).masks = [f.mask.toNat] ∧ (touch nf (.vldp f)).srcs = [f.va.toNat]
    ∧ (touch nf (.vldp f)).dsts = regsOf f.fmt f.vd := ⟨rfl, rfl, rfl⟩

theorem touch_vstp (nf : List Word64) : (touch nf (.vstp f)).masks = [f.mask.toNat]
    ∧ (touch nf (.vstp f)).srcs = f.va.toNat :: regsOf f.fmt f.vb ∧ (touch nf (.vstp f)).dsts = [] := ⟨rfl, rfl, rfl⟩

/-- The lanes of a pass pass the check of their offsets. -/
theorem eachLane_privateOffset (h : Opens s o) {lanes : List Nat} (acc : Nat) (hbase : s.cur.h.privBase.isSome = true)
    (hslice : ∀ l ∈ lanes, InSlice s.cur w l (laneOffset s f l) (memBits f.fmt / 8)) :
    eachLane lanes (fun l => do return (l, ← privateOffset o.cur (← readLane f.va.toNat l) f.imm32 (memBits f.fmt / 8) acc l)) o
      = .ok (lanes.map fun l => (l, laneOffset s f l)) o := by
  refine eachLane_ok fun l hl => ?_
  have hread : readLane f.va.toNat l o = .ok (s.cur.regLane (s.core s.cur.core) f.va.toNat l).1 o := congrArg (EStateM.Result.ok · o) (h.regLane _ l)
  have hcheck : privateOffset o.cur (s.cur.regLane (s.core s.cur.core) f.va.toNat l).1 f.imm32 (memBits f.fmt / 8) acc l o
      = .ok (laneOffset s f l) o := by
    obtain ⟨pt, p, x, d, cores, rfl⟩ := h.eq
    obtain ⟨hword, hlane, haligned, hwithin⟩ := hslice l hl
    exact privateOffset_ok _ hbase ⟨hword, hlane, haligned, hwithin⟩
  rw [M.bind_ok hread, M.bind_ok hcheck]
  rfl

/-- The value that a lane loads from its slice. -/
def privateValue (s : State) (f : LMem) (l : Nat) : Nat :=
  memExtend f.fmt (readWords (s.core s.cur.core) (privatePlaces s.cur l (laneOffset s f l) (memBits f.fmt / 8))).1

theorem loadPrivate_run (hat : s.atPass (.vldp f) r w) (h : Opens s o) (hbase : s.cur.h.privBase.isSome = true)
    (hslice : ∀ l ∈ s.cur.lanesAt f.mask.toNat w, InSlice s.cur w l (laneOffset s f l) (memBits f.fmt / 8))
    (hsound : ∀ l ∈ s.cur.lanesAt f.mask.toNat w,
      (readWords (s.core s.cur.core) (privatePlaces s.cur l (laneOffset s f l) (memBits f.fmt / 8))).2 = false) :
    loadPrivate f w o = writeValues f.fmt f.vd.toNat f.mask.toNat w
      ((s.cur.lanesAt f.mask.toNat w).map fun l => (l, privateValue s f l)) o := by
  have hlanes := soundLanes_opened hat h (List.Subset.refl [f.va.toNat]) f.mask.toNat
  have hread (l : Nat) : (readWords (o.core o.cur.core) (privatePlaces o.cur l (laneOffset s f l) (memBits f.fmt / 8))).1
      = (readWords (s.core s.cur.core) (privatePlaces s.cur l (laneOffset s f l) (memBits f.fmt / 8))).1 := by
    rw [h.cur_core, h.privatePlaces, readWords_basin (h.core _).basin]
  rw [loadPrivate, M.bind_ok (M.getTeam_run o), M.bind_ok hlanes]
  refine (M.bind_ok (eachLane_privateOffset h 0 hbase hslice)).trans ?_
  rw [M.bind_ok (M.get_run o), List.map_map]
  refine (M.bind_ok (killPoisoned_sound (fun g hg => ?_) o)).trans ?_
  · obtain ⟨l, hl, rfl⟩ := List.mem_map.1 hg
    refine Eq.trans ?_ (readWords_poison (h.core s.cur.core).poison (hsound l hl))
    rw [← h.cur_core, ← h.privatePlaces]
    rfl
  · rw [List.map_map]
    refine congrArg (fun vals => writeValues f.fmt f.vd.toNat f.mask.toNat w vals o) (List.map_congr_left fun l _ => ?_)
    exact Prod.ext rfl (congrArg (memExtend f.fmt) (hread l))

theorem vldp_pass (hat : s.atPass (.vldp f) r w) (hbase : s.cur.h.privBase.isSome = true)
    (hslice : ∀ l ∈ s.cur.lanesAt f.mask.toNat w, InSlice s.cur w l (laneOffset s f l) (memBits f.fmt / 8))
    (hsound : ∀ l ∈ s.cur.lanesAt f.mask.toNat w,
      (readWords (s.core s.cur.core) (privatePlaces s.cur l (laneOffset s f l) (memBits f.fmt / 8))).2 = false)
    (hapart : s.cur.apart (regsOf f.fmt f.vd) w) :
    ∃ t, exec (.vldp f) s = .next t ∧ s.passEnded (.vldp f) (s.begun (.vldp f)) t
      ∧ Loads f w ((s.cur.lanesAt f.mask.toNat w).map fun l => (l, privateValue s f l)) s t := by
  have hopens := opened_opens (laneSound_of_atPass hat) [f.va.toNat] w
  obtain ⟨hmasks, -, hdsts⟩ := touch_vldp (f := f) s.cur.blk.nf
  have hbody (t : State) (hwrite : writeValues f.fmt f.vd.toNat f.mask.toNat w ((s.cur.lanesAt f.mask.toNat w).map fun l => (l, privateValue s f l))
      (s.opened (.vldp f) [f.va.toNat] w) = .ok ⟨⟩ t) : loadPrivate f w (s.opened (.vldp f) [f.va.toNat] w) = .ok ⟨⟩ t :=
    (loadPrivate_run hat hopens hbase hslice hsound).trans hwrite
  obtain ⟨t, hrun, ht⟩ := loadPass_ends (body := loadPrivate f) hat hmasks hdsts hapart (Counted.refl _) hbody
  exact ⟨t, (exec_vldp f s).trans (runLane_ok hrun), ht⟩

/-- Each lane's value goes to the places of its offset. -/
theorem storePrivate_run (hat : s.atPass (.vstp f) r w) (h : Opens s o) (hbase : s.cur.h.privBase.isSome = true)
    (hslice : ∀ l ∈ s.cur.lanesAt f.mask.toNat w, InSlice s.cur w l (laneOffset s f l) (memBits f.fmt / 8)) :
    ∃ v, storePrivate f w o = .ok ⟨⟩ v ∧ KeepsBanks o v ∧ v.core s.cur.core = putLanes
      (fun l => privatePlaces s.cur l (laneOffset s f l) (memBits f.fmt / 8)) (storedBits s f.fmt f.vb.toNat)
      (o.core s.cur.core) (s.cur.lanesAt f.mask.toNat w) := by
  have hlanes := soundLanes_opened hat h (List.Subset.refl (f.va.toNat :: regsOf f.fmt f.vb)) f.mask.toNat
  obtain ⟨v, hrun, hkeeps, hcore⟩ := forM_putLanes (k := o.cur.core) (lanes := s.cur.lanesAt f.mask.toNat w)
    (place := fun l => privatePlaces s.cur l (laneOffset s f l) (memBits f.fmt / 8)) (value := storedBits s f.fmt f.vb.toNat)
    (f := fun l => onCore o.cur.core fun c => putPlaces c (privatePlaces s.cur l (laneOffset s f l) (memBits f.fmt / 8))
      (storedBits s f.fmt f.vb.toNat l)) (fun l _ u _ => M.onCore_run ..) (KeepsBanks.refl o)
  rw [h.cur_core] at hcore
  refine ⟨v, ?_, hkeeps, hcore⟩
  have hplace : privatePlaces o.cur = privatePlaces s.cur := by
    funext l b n
    exact h.privatePlaces l b n
  rw [storePrivate, M.bind_ok (M.getTeam_run o), M.bind_ok hlanes]
  refine (M.bind_ok (eachLane_privateOffset h 1 hbase hslice)).trans ?_
  refine (M.bind_ok (mapM_storeBits h (fun q v => (privatePlaces o.cur q.1 q.2 (memBits f.fmt / 8), v)) f.fmt f.vb.toNat _)).trans ?_
  rw [hplace, List.map_map]
  exact (forM_map_run ..).trans hrun

/-- Every lane finds its value in its slice, where no other lane of the pass stores. -/
theorem vstp_pass (hat : s.atPass (.vstp f) r w) (hbase : s.cur.h.privBase.isSome = true) (hbits : memBits f.fmt ∈ [8, 16, 32, 64])
    (hslice : ∀ l ∈ s.cur.lanesAt f.mask.toNat w, InSlice s.cur w l (laneOffset s f l) (memBits f.fmt / 8)) :
    ∃ t, exec (.vstp f) s = .next t ∧ s.passEnded (.vstp f) (s.begun (.vstp f)) t
      ∧ (∀ l ∈ s.cur.lanesAt f.mask.toNat w, (readWords (t.core s.cur.core) (privatePlaces s.cur l (laneOffset s f l) (memBits f.fmt / 8))).1
          = storedBits s f.fmt f.vb.toNat l)
      ∧ s.basinBut t ((s.cur.lanesAt f.mask.toNat w).flatMap fun l =>
          (privatePlaces s.cur l (laneOffset s f l) (memBits f.fmt / 8)).map rowOfPlace) := by
  have hopens := opened_opens (laneSound_of_atPass hat) (f.va.toNat :: regsOf f.fmt f.vb) w
  obtain ⟨hmasks, -, hdsts⟩ := touch_vstp (f := f) s.cur.blk.nf
  obtain ⟨v, hbody, hkeeps, hcore⟩ := storePrivate_run hat hopens hbase hslice
  obtain ⟨t, hrun, hend, hbut, c, hread⟩ := storePass_ends (body := storePrivate f) hat hmasks hdsts (Counted.refl _) hbody hkeeps hcore
  refine ⟨t, (exec_vstp f s).trans (runLane_ok hrun), hend, fun l hl => ?_, hbut⟩
  have hl' := hslice l hl
  rw [hread, readWords_putLanes lanesAt_sorted hl hl'.byte hl'.apart fun k hk hlt => hl'.apart_lane (hslice k hk) (Nat.ne_of_lt hlt),
    sizes_privatePlaces, (memSize hbits).2]
  exact Nat.mod_eq_of_lt (storedBits_lt ..)

end

/-- Settles O47. A pass of either word is its checked offsets and then one read, or one write, of each lane's places; the slices of the
lanes of one lane word lie in different banks. -/
theorem privateSlices : Obligations.PrivateSlices := by
  rintro f r w s lanes off c size rfl hoff hbits hbase hlanes
  obtain rfl : off = laneOffset s f := funext hoff
  have hslice (hlt : w < s.cur.n) : ∀ l ∈ s.cur.lanesAt f.mask.toNat w, InSlice s.cur w l (laneOffset s f l) (memBits f.fmt / 8) := fun l hl =>
    ⟨div_of_mem_lanesAt hl, hlt, ⟨(memSize hbits).1, (hlanes l hl).1⟩, (hlanes l hl).2⟩
  refine ⟨fun hat hsound hapart => ?_, fun hat => ?_⟩
  · obtain ⟨t, hrun, hend, hput, hbut⟩ := vldp_pass hat hbase (hslice (lt_n_of_atPass hat)) hsound hapart
    refine ⟨t, hrun, hend, fun j hj => ?_, hbut⟩
    have hvals := hput j hj
    rw [List.map_map] at hvals
    exact hvals
  · exact vstp_pass hat hbase hbits (hslice (lt_n_of_atPass hat))

end Sys2Proof.BasinPasses

/-! # The Basin by address (04 R106, 06 R141) -/

namespace Sys2Proof.BasinPasses
open Sys2Proof Sys2Proof.Machine Sys2Proof.LanePass Sys2Proof.OpenedPass Sys2Proof.BasinPlaces

/-! ## Places of a Basin address -/

section
variable {a b size : Nat}

theorem aligned_inBank (h : Aligned a size) : Aligned (a % 4096) size ∧ a % 4096 + size ≤ 4096 ∧ a % 128 + size ≤ 128 := by
  obtain ⟨hsize, haligned⟩ := h
  refine ⟨⟨hsize, ?_⟩, ?_⟩ <;>
  · simp only [List.mem_cons, List.not_mem_nil, or_false] at hsize
    rcases hsize with rfl | rfl | rfl | rfl <;> omega

/-- A place of an access lies in the bank and the row of its address, and in its bytes. -/
theorem mem_basinPlaces (h : Aligned a size) {x : WordBytes} (hx : x ∈ basinPlaces (a / 4096) a size) :
    rowOfPlace x = a / 4096 * 32 + a % 4096 / 128 ∧ a % 128 ≤ byteOfPlace x ∧ byteOfPlace x + sizeOfPlace x ≤ a % 128 + size := by
  obtain ⟨y, hy, rfl⟩ := List.mem_map.1 hx
  obtain ⟨hbank, -, hrow⟩ := aligned_inBank h
  obtain ⟨hfrom, hto, hpos, hword⟩ := mem_accessWords hbank hy
  simp only [rowOfPlace, byteOfPlace, sizeOfPlace]
  omega

theorem byte_basinPlaces (h : Aligned a size) : ∀ x ∈ basinPlaces (a / 4096) a size, byteOfPlace x + sizeOfPlace x ≤ 128 := fun x hx => by
  have hbytes := (mem_basinPlaces h hx).2.2
  have hrow := (aligned_inBank h).2.2
  omega

/-- The words of one access lie apart. -/
theorem basinPlaces_apart (h : Aligned a size) : (basinPlaces (a / 4096) a size).Pairwise BytesApart := by
  refine List.pairwise_map.2 ((accessWords_pairwise (a % 4096) size).imp_of_mem fun {x y} hx hy hne hrow => ?_)
  obtain ⟨-, -, -, hbx⟩ := mem_accessWords (aligned_inBank h).1 hx
  obtain ⟨-, -, -, hby⟩ := mem_accessWords (aligned_inBank h).1 hy
  simp only [rowOfPlace, byteOfPlace, sizeOfPlace] at hrow ⊢
  omega

/-- Aligned accesses of one size at different addresses lie apart. -/
theorem basinPlaces_apart_ne (h : Aligned a size) (h' : Aligned b size) (hne : b ≠ a) :
    ∀ x ∈ basinPlaces (a / 4096) a size, ∀ y ∈ basinPlaces (b / 4096) b size, BytesApart x y := by
  intro x hx y hy hrow
  obtain ⟨hrx, hfx, htx⟩ := mem_basinPlaces h hx
  obtain ⟨hry, hfy, hty⟩ := mem_basinPlaces h' hy
  have hsame : a / 128 = b / 128 := by omega
  have hapart : a % 128 + size ≤ b % 128 ∨ b % 128 + size ≤ a % 128 := by
    obtain ⟨hsize, ha⟩ := h
    have hb := h'.offset
    simp only [List.mem_cons, List.not_mem_nil, or_false] at hsize
    rcases hsize with rfl | rfl | rfl | rfl <;> omega
  omega

theorem sizes_basinPlaces (bank a size : Nat) : ((basinPlaces bank a size).map sizeOfPlace).sum = size := by
  rw [basinPlaces, List.map_map]
  exact sum_accessWords (a % 4096) size

end

/-! ## The checks of a Basin address -/

section
variable {s o u : State} {b size : Nat}

theorem basinAddress_ok {T : Team} {v imm : Word32} {acc lane : Nat} (hb : (v + imm).toNat < 4096 * numBanks) (ha : (v + imm).toNat % size = 0)
    (hno : s.bankUse T ((v + imm).toNat / 4096) ≠ .no) (hfixed : acc = 1 → s.bankUse T ((v + imm).toNat / 4096) ≠ .fixed) :
    basinAddress T v imm size acc lane s = .ok (v + imm).toNat s := by
  have hrange : ¬(2 ^ 21 ≤ (v + imm).toNat ∨ numBanks ≤ (v + imm).toNat / 4096) := by
    unfold numBanks at *
    omega
  rw [basinAddress]
  simp only [if_neg hrange, ha, ne_eq, not_true_eq_false, if_false]
  refine (M.bind_ok (M.get_run s)).trans ?_
  cases huse : s.bankUse T ((v + imm).toNat / 4096) with
  | no => exact absurd huse hno
  | fixed =>
    simp only
    exact congrFun (if_neg fun h => hfixed h huse) s
  | _ => rfl

theorem bump_runM (core w n : Nat) (s : State) : bump core w n s = .ok ⟨⟩ (runM (bump core w n) s) ∧ Counted s (runM (bump core w n) s) := by
  obtain ⟨t, hrun, ht⟩ := bump_counted core w n s
  rw [runM, hrun]
  exact ⟨rfl, ht⟩

/-- The lanes' addresses pass their checks, and the conflicts of their banks are counted. -/
theorem basinPass_ok {f : LMem} {w acc mask : Nat} (h : Opens s o) (hlanes : ∀ l ∈ s.cur.lanesAt mask w,
      laneOffset s f l < 4096 * numBanks ∧ laneOffset s f l % (memBits f.fmt / 8) = 0)
    (huse : ∀ l ∈ s.cur.lanesAt mask w, s.bankUse s.cur (laneOffset s f l / 4096) ≠ .no
      ∧ (acc = 1 → s.bankUse s.cur (laneOffset s f l / 4096) ≠ .fixed)) :
    basinPass f o.cur w (s.cur.active mask w) acc o = .ok ((s.cur.lanesAt mask w).map fun l => (l, laneOffset s f l))
      (runM (bump s.cur.core 6 (basinConflicts ((s.cur.lanesAt mask w).map (laneOffset s f)))) o) := by
  have haddrs : eachLane (s.cur.lanesAt mask w) (fun l => do
      return (l, ← basinAddress o.cur (← readLane f.va.toNat l) f.imm32 (memBits f.fmt / 8) acc l)) o
      = .ok ((s.cur.lanesAt mask w).map fun l => (l, laneOffset s f l)) o := by
    refine eachLane_ok fun l hl => ?_
    have hread : readLane f.va.toNat l o = .ok (s.cur.regLane (s.core s.cur.core) f.va.toNat l).1 o :=
      congrArg (EStateM.Result.ok · o) (h.regLane _ l)
    have hcheck : basinAddress o.cur (s.cur.regLane (s.core s.cur.core) f.va.toNat l).1 f.imm32 (memBits f.fmt / 8) acc l o
        = .ok (laneOffset s f l) o :=
      basinAddress_ok (hlanes l hl).1 (hlanes l hl).2 (h.bankUse _ ▸ (huse l hl).1) fun ha => h.bankUse _ ▸ (huse l hl).2 ha
    rw [M.bind_ok hread, M.bind_ok hcheck]
    rfl
  rw [← h.cur_core]
  refine (M.bind_ok haddrs).trans ?_
  rw [List.map_map]
  exact M.bind_ok (bump_runM ..).1

/-- A bank that serves as a stash page is that of the page. -/
theorem stash_of_bankUse {T : Team} {q : PageBank} (h : s.bankUse T b = .stash q) : T.stashOf q.bank = some q := by
  unfold State.bankUse at h
  dsimp only at h
  split at h
  · cases h
  split at h
  case h_1 p hp =>
    obtain rfl : p = q := BankUse.stash.inj h
    have hbank : p.bank = b := by simpa using List.find?_some hp
    rw [Team.stashOf, hbank]
    exact hp
  case h_2 =>
    split at h
    · cases h
    · split at h <;> cases h

/-- The row of a stash page that an address names is filled, current, and no atomic of the task is on its way to the sector. -/
def RowReady (s : State) (a : Nat) : Prop := ∀ q, s.bankUse s.cur (a / 4096) = .stash q →
  bitAt q.filled.toNat (a % 4096 / 128) = true ∧ (s.cluster s.cur.cluster).rowBehind q (a % 4096 / 128) = false
    ∧ s.atomicInFlight s.cur.uid q.win ((q.la + a % 4096) / 32) = false

theorem rowReady_opens {a : Nat} (h : Opens s o) (hready : RowReady s a) : RowReady o a := by
  intro q hq
  rw [h.bankUse] at hq
  obtain ⟨pt, p, x, d, cores, rfl⟩ := h.eq
  exact hready q hq

theorem current_run (s : State) : current s.cur s = .ok s.cur s := by
  have hteam : s.team? s.cur.uid = some s.cur := if_pos rfl
  rw [current, M.bind_ok (M.get_run s), hteam]
  rfl

/-- A ready row is left as it is. -/
theorem fillRow_ready {q : PageBank} {row hint : Nat} (hq : s.cur.stashOf q.bank = some q) (hfilled : bitAt q.filled.toNat row = true)
    (hbehind : (s.cluster s.cur.cluster).rowBehind q row = false) : fillRow s.cur q row hint s = .ok ⟨⟩ s := by
  have hteam : s.team? s.cur.uid = some s.cur := if_pos rfl
  have hskip : (q.isFilled row && !(s.cluster s.cur.cluster).rowBehind q row) = true := by
    rw [hbehind, PageBank.isFilled, hfilled]
    rfl
  rw [fillRow, M.bind_ok (M.get_run s)]
  simp only [hteam, Option.getD_some, hq, hskip, if_true]
  rfl

theorem fillNamed_ok {a : Nat} (h : RowReady s a) : fillNamed s.cur a s = .ok ⟨⟩ s := by
  rw [fillNamed, M.bind_ok (M.get_run s), M.bind_ok (current_run s)]
  cases huse : s.bankUse s.cur (a / 4096) with
  | stash q =>
    obtain ⟨hfilled, hbehind, hatomic⟩ := h q huse
    simp only [M.bind_run, M.get_run, hatomic, Bool.false_eq_true, if_false]
    exact fillRow_ready (stash_of_bankUse huse) hfilled hbehind
  | _ => rfl

end

/-! ## `vldb` (06 R141) -/

/-- What a pass of `vldb` does once its reads are counted. -/
def loadBasin (f : LMem) (w : Nat) : M Unit := do
  let t ← getTeam
  let m ← soundLanes [f.va.toNat] w (t.active f.mask.toNat w)
  let size := memBits f.fmt / 8
  let addrs ← basinPass f t w m 0
  addrs.forM fun q => fillNamed t q.2
  let s ← get
  let vals ← killPoisoned (addrs.map fun q =>
    let pl := basinPlaces (q.2 / 4096) q.2 size
    let r := seenWords s s.cur pl
    (q.1, memExtend f.fmt r.1, r.2, placeAddr pl))
  writeValues f.fmt f.vd.toNat f.mask.toNat w vals
  (s.staleNamed (addrs.map (·.2))).forM fun q => countStale t q.1 1

theorem exec_vldb (f : LMem) (s : State) : exec (.vldb f) s = runLane (runPasses (.vldb f) [f.mask.toNat]
    (under f.mask.toNat (regsOf f.fmt f.vd)) 0 fun w => do countReads [f.va.toNat] w; loadBasin f w) s := rfl

theorem touch_vldb (f : LMem) (nf : List Word64) : (touch nf (.vldb f)).masks = [f.mask.toNat] ∧ (touch nf (.vldb f)).srcs = [f.va.toNat]
    ∧ (touch nf (.vldb f)).dsts = regsOf f.fmt f.vd := ⟨rfl, rfl, rfl⟩

/-- The places of the Basin address of a lane. -/
def lanePlaces (s : State) (f : LMem) (l : Nat) : List WordBytes :=
  basinPlaces (laneOffset s f l / 4096) (laneOffset s f l) (memBits f.fmt / 8)

/-- The value that a lane loads from the Basin. -/
def basinValue (s : State) (f : LMem) (l : Nat) : Nat := memExtend f.fmt (readWords (s.core s.cur.core) (lanePlaces s f l)).1

section
variable {f : LMem} {r : LaneRun} {w : Nat} {s o u : State}

/-- Counts do not change what a team sees. -/
theorem seenWords_counted (h : Counted o u) (T : Team) (l : List WordBytes) : seenWords u T l = seenWords o T l := by
  obtain ⟨⟨cores, rfl⟩, hcore⟩ := h
  obtain ⟨cnt, hcnt⟩ := hcore T.core
  have hrows (b row : Nat) : State.seenPoison { o with cores := cores } T b row = o.seenPoison T b row := by
    simp only [State.seenPoison, Core.rowPoison, hcnt]
    rfl
  simp only [seenWords, hrows]
  rw [hcnt]
  rfl

/-- Rows that are current deliver no stale sector. -/
theorem staleNamed_nil (h : Opens s u) {addrs : List Nat} (hstale : ∀ a ∈ addrs, ∀ q, s.bankUse s.cur (a / 4096) = .stash q →
    s.rowStale s.cur q (a % 4096 / 128) (a % 128 / 32) = false) : u.staleNamed addrs = [] := by
  have hnone : addrs.filterMap (fun b => match u.bankUse u.cur (b / 4096) with
      | .stash q => if u.rowStale u.cur q (b % 4096 / 128) (b % 128 / 32) then some (q.win, (q.la + b % 4096) / 32) else none
      | _ => none) = [] := by
    refine List.filterMap_eq_nil_iff.2 fun a ha => ?_
    cases huse : u.bankUse u.cur (a / 4096) with
    | stash q => exact if_neg (by rw [h.rowStale, hstale a ha q (h.bankUse _ ▸ huse)]; decide)
    | _ => rfl
  exact congrArg List.eraseDups hnone

/-- What a pass of `vldb` asks of the address of a lane. -/
structure Readable (s o : State) (f : LMem) (l : Nat) : Prop where
  range : laneOffset s f l < 4096 * numBanks ∧ laneOffset s f l % (memBits f.fmt / 8) = 0
  use : s.bankUse s.cur (laneOffset s f l / 4096) ≠ .no
  ready : RowReady s (laneOffset s f l)
  current : ∀ q, s.bankUse s.cur (laneOffset s f l / 4096) = .stash q →
    s.rowStale s.cur q (laneOffset s f l % 4096 / 128) (laneOffset s f l % 128 / 32) = false
  clean : (seenWords o o.cur (lanePlaces s f l)).2 = false

theorem loadBasin_run (hat : s.atPass (.vldb f) r w) (h : Opens s o) (hlanes : ∀ l ∈ s.cur.lanesAt f.mask.toNat w, Readable s o f l) :
    ∃ u, Counted o u ∧ ∀ t, writeValues f.fmt f.vd.toNat f.mask.toNat w ((s.cur.lanesAt f.mask.toNat w).map fun l => (l, basinValue s f l)) u
      = .ok ⟨⟩ t → loadBasin f w o = .ok ⟨⟩ t := by
  have hsound := soundLanes_opened hat h (List.Subset.refl [f.va.toNat]) f.mask.toNat
  have haddrs := basinPass_ok (acc := 0) h (fun l hl => (hlanes l hl).range) fun l hl => ⟨(hlanes l hl).use, nofun⟩
  obtain ⟨-, hcounts⟩ := bump_runM s.cur.core 6 (basinConflicts ((s.cur.lanesAt f.mask.toNat w).map (laneOffset s f))) o
  generalize runM (bump s.cur.core 6 (basinConflicts ((s.cur.lanesAt f.mask.toNat w).map (laneOffset s f)))) o = u at haddrs hcounts
  have hopens := h.trans hcounts.opens
  have hcur := hcounts.cur
  have hfill : ((s.cur.lanesAt f.mask.toNat w).map fun l => (l, laneOffset s f l)).forM (fun q => fillNamed u.cur q.2) u = .ok ⟨⟩ u :=
    (forM_map_run ..).trans (forM_ok fun l hl => fillNamed_ok (rowReady_opens hopens (hlanes l hl).ready))
  have hstale : u.staleNamed ((s.cur.lanesAt f.mask.toNat w).map (laneOffset s f)) = [] := staleNamed_nil hopens fun a ha => by
    obtain ⟨l, hl, rfl⟩ := List.mem_map.1 ha
    exact (hlanes l hl).current
  refine ⟨u, hcounts, fun t hwrite => ?_⟩
  rw [loadBasin, M.bind_ok (M.getTeam_run o), M.bind_ok hsound, M.bind_ok haddrs, ← hcur, M.bind_ok hfill, M.bind_ok (M.get_run u), List.map_map]
  refine (M.bind_ok (killPoisoned_sound (fun g hg => ?_) u)).trans ?_
  · obtain ⟨l, hl, rfl⟩ := List.mem_map.1 hg
    refine Eq.trans ?_ (hlanes l hl).clean
    rw [← seenWords_counted hcounts, ← hcur]
    rfl
  · have hvals : (s.cur.lanesAt f.mask.toNat w).map (fun l => (l, memExtend f.fmt (seenWords u u.cur (lanePlaces s f l)).1))
        = (s.cur.lanesAt f.mask.toNat w).map fun l => (l, basinValue s f l) := List.map_congr_left fun l _ => by
      rw [basinValue, seenWords, hopens.cur_core, readWords_basin (hopens.core _).basin]
    rw [List.map_map]
    refine (M.bind_ok ((congrArg (fun vals => writeValues f.fmt f.vd.toNat f.mask.toNat w vals u) hvals).trans hwrite)).trans ?_
    rw [List.map_map]
    exact congrArg (fun l : List (Nat × Nat) => l.forM (fun q => countStale u.cur q.1 1) t) hstale

theorem vldb_pass (hat : s.atPass (.vldb f) r w)
    (hlanes : ∀ l ∈ s.cur.lanesAt f.mask.toNat w, Readable s (s.opened (.vldb f) [f.va.toNat] w) f l)
    (hapart : s.cur.apart (regsOf f.fmt f.vd) w) :
    ∃ t, exec (.vldb f) s = .next t ∧ s.passEnded (.vldb f) (s.begun (.vldb f)) t
      ∧ Loads f w ((s.cur.lanesAt f.mask.toNat w).map fun l => (l, basinValue s f l)) s t := by
  obtain ⟨hmasks, -, hdsts⟩ := touch_vldb f s.cur.blk.nf
  obtain ⟨u, hcounts, hbody⟩ := loadBasin_run hat (opened_opens (laneSound_of_atPass hat) [f.va.toNat] w) hlanes
  obtain ⟨t, hrun, ht⟩ := loadPass_ends (body := loadBasin f) hat hmasks hdsts hapart hcounts hbody
  exact ⟨t, (exec_vldb f s).trans (runLane_ok hrun), ht⟩

end

/-! ## `vstb` (06 R141) -/

/-- What a pass of `vstb` does once its reads are counted. -/
def storeBasin (f : LMem) (w : Nat) : M Unit := do
  let t ← getTeam
  let m ← soundLanes (f.va.toNat :: regsOf f.fmt f.vb) w (t.active f.mask.toNat w)
  let addrs ← basinPass f t w m 1
  let vals ← addrs.mapM fun q => do return (q.1, q.2, ← storeBits f.fmt f.vb.toNat q.1)
  basinStores t (memBits f.fmt / 8) vals

theorem exec_vstb (f : LMem) (s : State) : exec (.vstb f) s = runLane (runPasses (.vstb f) [f.mask.toNat] [] 0 fun w => do
    countReads (f.va.toNat :: regsOf f.fmt f.vb) w; storeBasin f w) s := rfl

theorem touch_vstb (f : LMem) (nf : List Word64) : (touch nf (.vstb f)).masks = [f.mask.toNat]
    ∧ (touch nf (.vstb f)).srcs = f.va.toNat :: regsOf f.fmt f.vb ∧ (touch nf (.vstb f)).dsts = [] := ⟨rfl, rfl, rfl⟩

section
variable {f : LMem} {r : LaneRun} {w : Nat} {s o u : State}

/-- The stores of a pass: lane, address, value. -/
def laneStores (s : State) (f : LMem) (w : Nat) : List (Nat × Nat × Nat) :=
  (s.cur.lanesAt f.mask.toNat w).map fun l => (l, laneOffset s f l, storedBits s f.fmt f.vb.toNat l)

/-- The state in which the stores of a pass begin: the conflicts of their banks are counted. -/
def storesFrom (s : State) (f : LMem) (w : Nat) (o : State) : State :=
  runM (bump s.cur.core 6 (basinConflicts ((s.cur.lanesAt f.mask.toNat w).map (laneOffset s f)))) o

theorem storesFrom_counted (s : State) (f : LMem) (w : Nat) (o : State) : Counted o (storesFrom s f w o) := (bump_runM ..).2

/-- The checks of a pass go through, and its stores are done. -/
theorem storeBasin_run (hat : s.atPass (.vstb f) r w) (h : Opens s o)
    (hlanes : ∀ l ∈ s.cur.lanesAt f.mask.toNat w, laneOffset s f l < 4096 * numBanks ∧ laneOffset s f l % (memBits f.fmt / 8) = 0)
    (huse : ∀ l ∈ s.cur.lanesAt f.mask.toNat w, s.bankUse s.cur (laneOffset s f l / 4096) ≠ .no
      ∧ s.bankUse s.cur (laneOffset s f l / 4096) ≠ .fixed) :
    storeBasin f w o = basinStores o.cur (memBits f.fmt / 8) (laneStores s f w) (storesFrom s f w o) := by
  have hsound := soundLanes_opened hat h (List.Subset.refl (f.va.toNat :: regsOf f.fmt f.vb)) f.mask.toNat
  have haddrs := basinPass_ok (acc := 1) h hlanes fun l hl => ⟨(huse l hl).1, fun _ => (huse l hl).2⟩
  have hvals := mapM_storeBits (h.trans (storesFrom_counted s f w o).opens) (fun q v => (q.1, q.2, v)) f.fmt f.vb.toNat
    ((s.cur.lanesAt f.mask.toNat w).map fun l => (l, laneOffset s f l))
  rw [storeBasin, M.bind_ok (M.getTeam_run o), M.bind_ok hsound, M.bind_ok haddrs]
  refine (M.bind_ok hvals).trans ?_
  rw [List.map_map]
  rfl

/-- A store to a bank of the team's own goes there. -/
theorem storeBank_own {a : Nat} (h : s.bankUse s.cur (a / 4096) = .own) : storeBank s.cur a s = .ok (a / 4096) s := by
  rw [storeBank, M.bind_ok (M.get_run s), M.bind_ok (current_run s), h]
  rfl

theorem stashStores_nil (T : Team) : stashStores T [] s = .ok ⟨⟩ s := rfl

/-- Stores to banks of the team's own are writes of its core. -/
theorem basinStores_own (h : Opens s u) (hown : ∀ l ∈ s.cur.lanesAt f.mask.toNat w, s.bankUse s.cur (laneOffset s f l / 4096) = .own) :
    ∃ v, basinStores u.cur (memBits f.fmt / 8) (laneStores s f w) u = .ok ⟨⟩ v ∧ KeepsBanks u v
      ∧ v.core s.cur.core = putLanes (lanePlaces s f) (storedBits s f.fmt f.vb.toNat) (u.core s.cur.core) (s.cur.lanesAt f.mask.toNat w) := by
  have huse (l : Nat) (hl : l ∈ s.cur.lanesAt f.mask.toNat w) : u.bankUse u.cur (laneOffset s f l / 4096) = .own := (h.bankUse _).trans (hown l hl)
  have hfill : (laneStores s f w).forM (fun q => fillNamed u.cur q.2.1) u = .ok ⟨⟩ u :=
    (forM_map_run ..).trans (forM_ok fun l hl => fillNamed_ok fun q hq => by rw [huse l hl] at hq; cases hq)
  have hstash : (laneStores s f w).filterMap (fun q => match u.bankUse u.cur (q.2.1 / 4096) with
      | .stash b => some (b, stashPart u b q.1 q.2.1 (memBits f.fmt / 8) q.2.2)
      | _ => none) = [] := by
    refine List.filterMap_eq_nil_iff.2 fun q hq => ?_
    obtain ⟨l, hl, rfl⟩ := List.mem_map.1 hq
    simp only [huse l hl]
  obtain ⟨v, hrun, hkeeps, hcore⟩ := forM_putLanes (k := u.cur.core) (s := u) (lanes := s.cur.lanesAt f.mask.toNat w)
    (place := lanePlaces s f) (value := storedBits s f.fmt f.vb.toNat)
    (f := fun l => match u.bankUse u.cur (laneOffset s f l / 4096) with
      | .stash _ => pure ⟨⟩
      | _ => do
        let bank ← storeBank u.cur (laneOffset s f l)
        onCore u.cur.core fun c => putPlaces c (basinPlaces bank (laneOffset s f l) (memBits f.fmt / 8)) (storedBits s f.fmt f.vb.toNat l))
    (fun l hl v hv => by
      have hbank : storeBank u.cur (laneOffset s f l) v = .ok (laneOffset s f l / 4096) v := by
        have hcur : v.cur = u.cur := by
          obtain ⟨cores, rfl⟩ := hv.1
          rfl
        rw [← hcur]
        exact storeBank_own ((hv.bankUse _).trans (huse l hl))
      simp only [huse l hl]
      exact (M.bind_ok hbank).trans (M.onCore_run ..)) (KeepsBanks.refl u)
  rw [h.cur_core] at hcore
  refine ⟨v, ?_, hkeeps, hcore⟩
  rw [basinStores, M.bind_ok hfill, M.bind_ok (M.get_run u)]
  refine (M.bind_ok ((congrArg (fun l => stashStores u.cur l u) hstash).trans (stashStores_nil _))).trans ?_
  exact (forM_map_run ..).trans hrun

/-- A pass of `vstb` whose stores run to their end ends there. -/
theorem vstb_ends (hat : s.atPass (.vstb f) r w)
    (hlanes : ∀ l ∈ s.cur.lanesAt f.mask.toNat w, laneOffset s f l < 4096 * numBanks ∧ laneOffset s f l % (memBits f.fmt / 8) = 0)
    (huse : ∀ l ∈ s.cur.lanesAt f.mask.toNat w, s.bankUse s.cur (laneOffset s f l / 4096) ≠ .no
      ∧ s.bankUse s.cur (laneOffset s f l / 4096) ≠ .fixed)
    (ho : o = s.opened (.vstb f) (f.va.toNat :: regsOf f.fmt f.vb) w)
    (hstores : basinStores o.cur (memBits f.fmt / 8) (laneStores s f w) (storesFrom s f w o) = .ok ⟨⟩ u) :
    ∃ t, exec (.vstb f) s = .next t ∧ s.passEnded (.vstb f) u t ∧ u.basinBut t [] := by
  subst ho
  obtain ⟨hmasks, -, hdsts⟩ := touch_vstb f s.cur.blk.nf
  have hbody := (storeBasin_run hat (opened_opens (laneSound_of_atPass hat) _ w) hlanes huse).trans hstores
  obtain ⟨t, hrun, hend, hbasin⟩ := runPasses_opened (body := storeBasin f) hat hbody
  rw [hmasks, hdsts] at hrun
  refine ⟨t, (exec_vstb f s).trans (runLane_ok hrun), hend, fun k _ => ?_⟩
  rw [hbasin]
  rfl

/-- Lanes that store to banks of the team's own leave their values, the higher lane's where two name one address. -/
theorem vstb_own (hat : s.atPass (.vstb f) r w) (hbits : memBits f.fmt ∈ [8, 16, 32, 64])
    (hlanes : ∀ l ∈ s.cur.lanesAt f.mask.toNat w, laneOffset s f l < 4096 * numBanks ∧ laneOffset s f l % (memBits f.fmt / 8) = 0)
    (hown : ∀ l ∈ s.cur.lanesAt f.mask.toNat w, s.bankUse s.cur (laneOffset s f l / 4096) = .own) :
    ∃ t, exec (.vstb f) s = .next t ∧ s.passEnded (.vstb f) (s.begun (.vstb f)) t
      ∧ (∀ l ∈ s.cur.lanesAt f.mask.toNat w, (∀ k ∈ s.cur.lanesAt f.mask.toNat w, l < k → laneOffset s f k ≠ laneOffset s f l) →
          (readWords (t.core s.cur.core) (lanePlaces s f l)).1 = storedBits s f.fmt f.vb.toNat l)
      ∧ s.basinBut t ((s.cur.lanesAt f.mask.toNat w).map fun l => laneOffset s f l / 4096 * 32 + laneOffset s f l % 4096 / 128) := by
  have haligned (l : Nat) (hl : l ∈ s.cur.lanesAt f.mask.toNat w) : Aligned (laneOffset s f l) (memBits f.fmt / 8) :=
    ⟨(memSize hbits).1, (hlanes l hl).2⟩
  have hopens := opened_opens (laneSound_of_atPass hat) (f.va.toNat :: regsOf f.fmt f.vb) w
  have hcounts := storesFrom_counted s f w (s.opened (.vstb f) (f.va.toNat :: regsOf f.fmt f.vb) w)
  have hbody := storeBasin_run hat hopens hlanes fun l hl => by rw [hown l hl]; exact ⟨nofun, nofun⟩
  obtain ⟨v, hstores, hkeeps, hcore⟩ := basinStores_own (hopens.trans hcounts.opens) hown
  obtain ⟨hmasks, -, hdsts⟩ := touch_vstb f s.cur.blk.nf
  obtain ⟨t, hrun, hend, hbut, c, hread⟩ := storePass_ends (body := storeBasin f) hat hmasks hdsts hcounts
    (hbody.trans (hcounts.cur ▸ hstores)) hkeeps hcore
  refine ⟨t, (exec_vstb f s).trans (runLane_ok hrun), hend, fun l hl hhigher => ?_, fun k hk => hbut k fun hmem => hk ?_⟩
  · have hl' := haligned l hl
    rw [hread, readWords_putLanes (place := lanePlaces s f) lanesAt_sorted hl (byte_basinPlaces hl') (basinPlaces_apart hl')
      fun k hk hlt => basinPlaces_apart_ne hl' (haligned k hk) (hhigher k hk hlt), lanePlaces, sizes_basinPlaces, (memSize hbits).2]
    exact Nat.mod_eq_of_lt (storedBits_lt ..)
  · obtain ⟨l, hl, hplace⟩ := List.mem_flatMap.1 hmem
    obtain ⟨x, hx, rfl⟩ := List.mem_map.1 hplace
    exact List.mem_map.2 ⟨l, hl, (mem_basinPlaces (haligned l hl) hx).1.symm⟩

end

/-- Settles O48. A pass of either word is its checked addresses and then one read, or one write, of each lane's places; aligned accesses
at different addresses lie apart, so that only a higher lane at the same address stores over a lane. -/
theorem basinWords : Obligations.BasinWords := by
  rintro f r w s lanes addr c size srcs place value rfl haddr hbits hlanes
  obtain rfl : addr = laneOffset s f := funext haddr
  refine ⟨?_, fun hown hat => vstb_own hat hbits hlanes hown, ?_⟩
  · rintro o rfl hat hread hapart
    obtain ⟨t, hrun, hend, hput, hbut⟩ := vldb_pass hat (fun l hl => by
      obtain ⟨huse, hstash, hclean⟩ := hread l hl
      refine ⟨hlanes l hl, huse, fun q hq => ?_, fun q hq => ?_, hclean⟩ <;> obtain ⟨hfilled, hbehind, hcurrent, hatomic⟩ := hstash q hq
      · exact ⟨hfilled, hbehind, hatomic⟩
      · exact hcurrent) hapart
    refine ⟨t, hrun, hend, fun j hj => ?_, hbut⟩
    have hvals := hput j hj
    rw [List.map_map] at hvals
    exact hvals
  · rintro vals o u0 u hat ho huse rfl rfl hstores
    exact vstb_ends hat hlanes huse ho hstores

end Sys2Proof.BasinPasses

/-! # Translation invalidation (05 R124, R125) -/

namespace Sys2Proof.Invalidation
open Sys2Proof Sys2Proof.Machine

/-! ## Lists sieved in the entries of a table -/

section
variable {β γ : Type} {before after : List γ} {p : γ → Bool} {g : β → List γ} {d : β} {f : β → β}

/-- Nothing but what `p` keeps is left, and whatever it keeps stays. -/
structure Sieved (p : γ → Bool) (before after : List γ) : Prop where
  only : ∀ x ∈ after, p x = true
  stays : ∀ x ∈ before, p x = true → x ∈ after

theorem sieved_nil : Sieved p [] [] := ⟨nofun, nofun⟩

theorem sieved_filter : Sieved p before (before.filter p) :=
  ⟨fun _ hx => (List.mem_filter.1 hx).2, fun _ hx hp => List.mem_filter.2 ⟨hx, hp⟩⟩

theorem Sieved.eq_nil (h : Sieved p before after) (hp : ∀ x, p x = false) : after = [] :=
  List.eq_nil_iff_forall_not_mem.2 fun x hx => Bool.false_ne_true ((hp x).symm.trans (h.only x hx))

/-- A change of every entry that sieves a list of each sieves the list read at any key. An entry that becomes the default leaves the
table, and a table that is not canonical then shows a later entry of its key, which is sieved as well. -/
theorem sieved_get_mapVals [DecidableEq β] (t : Table β) (k : Nat) (hd : g d = []) (hg : ∀ v, g (f v) = (g v).filter p) :
    Sieved p (g (Table.get d t k)) (g (Table.get d (Table.mapVals d f t) k)) := by
  induction t with
  | nil =>
    rw [Table.mapVals, List.filterMap_nil, Table.get, hd]
    exact sieved_nil
  | cons e r ih =>
    obtain ⟨j, v⟩ := e
    by_cases hv : f v = d
    · have hrest : Table.mapVals d f ((j, v) :: r) = Table.mapVals d f r := by rw [Table.mapVals, List.filterMap_cons, if_pos hv]; rfl
      have hnone : (g v).filter p = [] := by rw [← hg, hv, hd]
      rw [hrest, Table.get]
      split
      · exact ⟨ih.only, fun x hx hp => absurd hp (List.filter_eq_nil_iff.1 hnone x hx)⟩
      · exact ih
    · have hfirst : Table.mapVals d f ((j, v) :: r) = (j, f v) :: Table.mapVals d f r := by
        rw [Table.mapVals, List.filterMap_cons, if_neg hv]; rfl
      rw [hfirst, Table.get, Table.get]
      split
      · exact hg v ▸ sieved_filter
      · exact ih

end

/-! ## What each kind of command keeps -/

section
variable {kind ctx wid vpn n c : Nat}

/-- The command keeps a leaf of a TLB. -/
def keepsLeaf (kind ctx wid vpn n : Nat) (l : TlbLeaf) : Bool :=
  match kind with
  | 0 => !decide (l.ctx = ctx ∧ l.vpn < vpn + n ∧ vpn < l.vpn + l.pages)
  | 1 => decide (l.ctx ≠ ctx)
  | 2 => decide (l.win ≠ wid)
  | _ => false

/-- The command keeps an entry of a walk cache. -/
def keepsWalk (kind ctx : Nat) (w : WalkEntry) : Bool :=
  match kind with
  | 0 => decide (w.ctx ≠ ctx)
  | 1 => decide (w.ctx ≠ ctx)
  | 2 => true
  | _ => false

/-- The command keeps an entry of a window-attribute cache. -/
def keepsAttr (kind ctx wid : Nat) (w : AttrEntry) : Bool :=
  match kind with
  | 0 => true
  | 1 => decide (w.ctx ≠ ctx)
  | 2 => decide (w.win ≠ wid)
  | _ => false

/-- A leaf stays under a range command exactly where it is another context's or lies beside the range. -/
theorem keepsLeaf_range {l : TlbLeaf} :
    keepsLeaf 0 ctx wid vpn n l = true ↔ l.ctx ≠ ctx ∨ vpn + n ≤ l.vpn ∨ l.vpn + l.pages ≤ vpn := by
  simp only [keepsLeaf, Bool.not_eq_true', decide_eq_false_iff_not, not_and_or, not_lt, ne_eq]

theorem keepsLeaf_context {l : TlbLeaf} : keepsLeaf 1 ctx wid vpn n l = true ↔ l.ctx ≠ ctx := decide_eq_true_iff
theorem keepsLeaf_window {l : TlbLeaf} : keepsLeaf 2 ctx wid vpn n l = true ↔ l.win ≠ wid := decide_eq_true_iff
theorem keepsWalk_range {w : WalkEntry} : keepsWalk 0 ctx w = true ↔ w.ctx ≠ ctx := decide_eq_true_iff
theorem keepsWalk_context {w : WalkEntry} : keepsWalk 1 ctx w = true ↔ w.ctx ≠ ctx := decide_eq_true_iff
theorem keepsAttr_context {w : AttrEntry} : keepsAttr 1 ctx wid w = true ↔ w.ctx ≠ ctx := decide_eq_true_iff
theorem keepsAttr_window {w : AttrEntry} : keepsAttr 2 ctx wid w = true ↔ w.win ≠ wid := decide_eq_true_iff

/-! ## The caches after a command -/

variable {s : State}

theorem core_dropTranslations : (s.dropTranslations kind ctx wid vpn n).core c = Table.get Core.init
    (Table.mapVals Core.init (fun k => { k with tlb := k.tlb.filter (keepsLeaf kind ctx wid vpn n) }) s.cores) c := rfl

theorem cluster_dropTranslations : (s.dropTranslations kind ctx wid vpn n).cluster c = Table.get Cluster.init
    (Table.mapVals Cluster.init (fun k => { k with
      tlb := k.tlb.filter (keepsLeaf kind ctx wid vpn n), walk := k.walk.filter (keepsWalk kind ctx)
      attrs := k.attrs.filter (keepsAttr kind ctx wid) }) s.clusters) c := rfl

theorem sieved_coreTlb :
    Sieved (keepsLeaf kind ctx wid vpn n) (s.core c).tlb ((s.dropTranslations kind ctx wid vpn n).core c).tlb := by
  rw [core_dropTranslations]
  exact sieved_get_mapVals (g := Core.tlb) s.cores c rfl fun _ => rfl

theorem sieved_clusterTlb :
    Sieved (keepsLeaf kind ctx wid vpn n) (s.cluster c).tlb ((s.dropTranslations kind ctx wid vpn n).cluster c).tlb := by
  rw [cluster_dropTranslations]
  exact sieved_get_mapVals (g := Cluster.tlb) s.clusters c rfl fun _ => rfl

theorem sieved_walk :
    Sieved (keepsWalk kind ctx) (s.cluster c).walk ((s.dropTranslations kind ctx wid vpn n).cluster c).walk := by
  rw [cluster_dropTranslations]
  exact sieved_get_mapVals (g := Cluster.walk) s.clusters c rfl fun _ => rfl

theorem sieved_attrs :
    Sieved (keepsAttr kind ctx wid) (s.cluster c).attrs ((s.dropTranslations kind ctx wid vpn n).cluster c).attrs := by
  rw [cluster_dropTranslations]
  exact sieved_get_mapVals (g := Cluster.attrs) s.clusters c rfl fun _ => rfl

/-- A leaf that the command does not name stays in a core's TLB and in a cluster's. -/
theorem leaf_stays {l : TlbLeaf} (h : keepsLeaf kind ctx wid vpn n l = true) :
    (l ∈ (s.core c).tlb → l ∈ ((s.dropTranslations kind ctx wid vpn n).core c).tlb)
      ∧ (l ∈ (s.cluster c).tlb → l ∈ ((s.dropTranslations kind ctx wid vpn n).cluster c).tlb) :=
  ⟨fun hl => sieved_coreTlb.stays l hl h, fun hl => sieved_clusterTlb.stays l hl h⟩

end

/-! ## The steps -/

section
variable {kind : Nat} {a b : Word64} {q : List (Word64 × Word64)} {ops : List Nat} {s : State}

theorem exec_invalidate (s : State) :
    ∀ p ∈ [(Instr.xlinvVaRange, 0), (Instr.xlinvContext, 1), (Instr.xlinvWindow, 2), (Instr.xlinvAll, 3)],
      exec p.1 s = runEventOf 0 (invalidate p.2) s := by
  simp only [List.forall_mem_cons]
  exact ⟨rfl, rfl, rfl, rfl, List.forall_mem_nil _⟩

/-- The command at the head of the queue starts: its matches leave, and what is in flight through them is noted. -/
theorem invalidate_run (hq : s.dev.xlQueue = (a, b) :: q) (hkind : bits a.toNat 62 2 = kind) (hidle : s.dev.xlBusy = none) :
    invalidate kind s = .ok ⟨⟩
      ((s.dropTranslations kind (bits a.toNat 56 6) (bits a.toNat 48 8) (bits b.toNat 12 45) (bits a.toNat 0 40)).onDev fun d =>
        { d with xlBusy := some (s.inFlight
            (s.xlNames kind (bits a.toNat 56 6) (bits a.toNat 48 8) (bits b.toNat 12 45) (bits a.toNat 0 40))) }) := by
  simp only [invalidate, M.bind_run, M.get_run, hq, hkind, hidle, decide_true, Option.isNone_none, Bool.and_self, M.enabled_true,
    M.modify_run, M.onDev_run]

/-- The command that has started completes once none of what it noted is in flight. -/
theorem invalidateDone_run (hbusy : s.dev.xlBusy = some ops) (hended : ∀ o ∈ ops, o ∉ s.inFlight fun _ _ _ => true) :
    invalidateDone s = .ok ⟨⟩ (s.onDev fun d =>
      { d with xlBusy := none, xlQueue := d.xlQueue.drop 1, xlDone := (d.xlDone + 1) % 2 ^ 32 }) := by
  have hnone : (ops.any fun o => (s.inFlight fun _ _ _ => true).contains o) = false :=
    List.any_eq_false.2 fun o ho hin => hended o ho (List.contains_iff_mem.1 hin)
  simp only [invalidateDone, M.bind_run, M.get_run, hbusy, hnone, Bool.not_false, M.enabled_true, M.onDev_run]

end

/-- Settles O39. Each cache is sieved by what the command's kind keeps, and the two steps run to their ends once their guards hold. -/
theorem invalidations : Obligations.Invalidations := by
  refine ⟨fun p hp a b q s hq hkind hidle => ?starts, fun ctx wid vpn n c s => ?drops, fun ctx wid vpn n c l s => ?keeps,
    fun ops s hbusy hended => runEventOf_ok (invalidateDone_run hbusy hended)⟩
  case starts =>
    exact ⟨_, (exec_invalidate s p hp).trans (runEventOf_ok (invalidate_run hq hkind hidle)), rfl, rfl, rfl, rfl, rfl, rfl⟩
  case drops =>
    exact ⟨fun l h => keepsLeaf_context.1 (sieved_coreTlb.only l h), fun l h => keepsLeaf_context.1 (sieved_clusterTlb.only l h),
      fun w h => keepsWalk_context.1 (sieved_walk.only w h), fun w h => keepsAttr_context.1 (sieved_attrs.only w h),
      fun l h => keepsLeaf_window.1 (sieved_coreTlb.only l h), fun l h => keepsLeaf_window.1 (sieved_clusterTlb.only l h),
      fun w h => keepsAttr_window.1 (sieved_attrs.only w h),
      sieved_coreTlb.eq_nil fun _ => rfl, sieved_clusterTlb.eq_nil fun _ => rfl, sieved_walk.eq_nil fun _ => rfl,
      sieved_attrs.eq_nil fun _ => rfl,
      fun l h => keepsLeaf_range.1 (sieved_coreTlb.only l h), fun l h => keepsLeaf_range.1 (sieved_clusterTlb.only l h),
      fun w h => keepsWalk_range.1 (sieved_walk.only w h)⟩
  case keeps =>
    refine ⟨?_, fun w hw hctx => ⟨sieved_walk.stays w hw (keepsWalk_range.2 hctx), sieved_walk.stays w hw (keepsWalk_context.2 hctx)⟩,
      fun w hw => sieved_walk.stays w hw rfl,
      fun w hw => ⟨sieved_attrs.stays w hw rfl, fun hctx => sieved_attrs.stays w hw (keepsAttr_context.2 hctx),
        fun hwin => sieved_attrs.stays w hw (keepsAttr_window.2 hwin)⟩⟩
    rintro k (⟨rfl, hrange⟩ | ⟨rfl, hctx⟩ | ⟨rfl, hwin⟩)
    · exact leaf_stays (keepsLeaf_range.2 hrange)
    · exact leaf_stays (keepsLeaf_context.2 hctx)
    · exact leaf_stays (keepsLeaf_window.2 hwin)

end Sys2Proof.Invalidation

/-! # The new values of atomics (06 R132) -/

namespace Sys2Proof.AtomicWords
open Sys2Proof Sys2Proof.Machine

/-- The signed value that a model's word stands for is that of its bit vector. -/
theorem sintOf_toNat {w : Nat} (hw : 0 < w) (v : BitVec w) : sintOf w v.toNat = v.toInt := by
  obtain ⟨k, rfl⟩ := Nat.exists_eq_succ_of_ne_zero hw.ne'
  have hv := v.isLt
  rw [sintOf, BitVec.toInt_eq_toNat_cond, Nat.mod_eq_of_lt hv]
  simp only [Nat.succ_eq_add_one, Nat.pow_succ, Nat.add_sub_cancel] at hv ⊢
  push_cast
  split <;> split <;> omega

/-- Settles O7: each operation is that of bit vectors, the signed comparisons by the signed values of the words. -/
theorem atomicValues : Obligations.AtomicValues := by
  intro w hw old b
  have hpos : 0 < w := by omega
  have hb : b.toNat % 2 ^ w = b.toNat := Nat.mod_eq_of_lt b.isLt
  refine ⟨?_, ?_, ?_, ?_, ?_, ?_, ?_, ?_, ?_⟩ <;> simp only [amoNew, hb, sintOf_toNat hpos]
  · exact (BitVec.toNat_add old b).symm
  · exact (BitVec.toNat_and old b).symm
  · exact (BitVec.toNat_or old b).symm
  · exact (BitVec.toNat_xor old b).symm
  all_goals exact (apply_ite BitVec.toNat ..).symm

end Sys2Proof.AtomicWords

/-! # The returns of values to scalar registers: LOAD_DATA_RETURN and ATOMIC_OLD_VALUE_RETURN (14 R293, 06 R134) -/

namespace Sys2Proof.ValueReturns
open Sys2Proof.Machine

/-- The register file after the value of one outstanding access is written: `x0` stays (14 R293). -/
def written (x : Table Word64) (rd : Nat) (v : Word64) : Table Word64 := if rd = 0 then x else Table.set 0 x rd v

theorem get_written (x : Table Word64) (rd : Nat) (v : Word64) (r : Nat) :
    Table.get 0 (written x rd v) r = if r = rd ∧ rd ≠ 0 then v else Table.get 0 x r := by
  unfold written
  by_cases h : rd = 0
  · simp [h]
  · simp [h, Table.get_set]

theorem deliverOut_eq {c : Scalar} {op : Nat} {o : Outstanding} {v : Word64} (h : (c.outs.find? fun x => x.op == op) = some o)
    (hv : o.val = some v) (h2 : o.val2 = none) :
    deliverOut c op = { c with x := written c.x o.rd v, outs := c.outs.filter fun x => x.op != op } := by
  simp [deliverOut, h, settleScalar, hv, h2, written]

theorem find_op_map_val (outs : List Outstanding) (op : Nat) (v : Word64) :
    ((outs.map fun x => if x.op = op then { x with val := some v } else x).find? fun x => x.op == op) =
      (outs.find? fun x => x.op == op).map fun o => { o with val := some v } := by
  induction outs with
  | nil => rfl
  | cons a r ih => by_cases h : a.op = op <;> simp [h, ih]

theorem find_op_filter_ne (outs : List Outstanding) (op : Nat) :
    ((outs.filter fun x => x.op != op).find? fun x => x.op == op) = none := by
  simp [List.find?_eq_none]

theorem loadDataReturn_next {uid op : Nat} {s : State} {t : Team} {o : Outstanding} {v : Word64} (ht : s.team? uid = some t)
    (ho : (t.s.outs.find? fun x => x.op == op) = some o) (hv : o.val = some v) :
    exec (.loadDataReturn uid op) s = .next (s.onTeamId uid fun t => { t with s := deliverOut t.s op }) := by
  have hany : (t.s.outs.any fun o => o.op == op && o.val.isSome) = true :=
    List.any_eq_true.2 ⟨o, List.mem_of_find?_eq_some ho, by simpa [hv] using List.find?_some ho⟩
  show runEvent (loadDataReturn uid op) s = _
  simp [runEvent, loadDataReturn, M.bind_run, ht, hany]

/-! ## Two teams of one number -/

/-- A load on its way to `x1`. -/
def flying : Outstanding := { op := 5, kind := .load, rd := 1, val := some 7, val2 := none }

/-- The first team of the number 1, whose load is on its way. -/
def loader : Team := { Team.vacant with uid := 1, s := { Scalar.init with outs := [flying] } }

/-- A state with a second team of the number 1, in another cluster. -/
def twins : State := { State.reset with teams := [loader, { loader with clAcq := 1 }] }

/-- Refutes O4: LOAD_DATA_RETURN works on every team of its number, and nothing in the statement says that a number has one team
only. Of two teams of one number that differ in a field each keeps its own, so the state is not that of one team put in the
place of both. -/
theorem not_loads : ¬ Obligations.Loads := by
  rintro ⟨-, hret⟩
  obtain ⟨s', t', hs', -, -, -, -, heq⟩ := hret 1 5 twins loader flying 7 rfl rfl rfl rfl
  rw [loadDataReturn_next (s := twins) (t := loader) (o := flying) (v := 7) rfl rfl rfl] at hs'
  obtain rfl : twins.onTeamId 1 (fun t => { t with s := deliverOut t.s 5 }) = s' := by simpa using hs'
  have hacq : ([0, 1] : List Nat) = [t'.clAcq, t'.clAcq] := congrArg (fun s => s.teams.map (·.clAcq)) heq
  simp only [List.cons.injEq, and_true] at hacq
  omega

/-! ## The old value of an atomic -/

/-- A scalar atomic performed on a sound sector is delivered. -/
theorem scalarReturn_delivers (uid op : Nat) (d : AtomDone) (s : State) (hm : s.mayReturn d = true)
    (hd : s.done.find? (fun d => decide (d.req.uid = uid) && (d.req.id == op || d.req.dest == .scalar op)) = some d)
    (hdest : d.req.dest = .scalar op) (hp : d.poison = false) (hrow : d.req.rows = [d.req.la]) :
    atomicReturn uid op s =
      .ok ⟨⟩ (((({ s with done := s.done.filter fun e => !(e.req.id == d.req.id && e.req.uid == d.req.uid) } : State).setCluster
        d.req.cluster { s.cluster d.req.cluster with
          ixb := (s.cluster d.req.cluster).ixb.filter fun e => !e.isFor d.req.win (d.req.la / 1024) }).onTeamId uid
        fun t => { t with h := { t.h with stash := t.h.stash.map fun b =>
          if b.win = d.req.win ∧ b.la / 4096 = d.req.la / 4096 then b.drop (d.req.la % 4096 / 128) else b } }).onTeamId uid
        fun t => { t with
          s := deliverOut { t.s with outs := t.s.outs.map fun x =>
            if x.op = op then { x with val := some (d.req.what.result d.old.toNat) } else x } op
          l := t.l.fillLate op (d.req.what.result d.old.toNat) }) := by
  simp only [atomicReturn, M.bind_run, M.get_run, hd, hm, M.enabled_true, M.modify_run, hrow, dropIxb,
    dropStashRow, M.onUid_run, hdest, hp, Bool.false_eq_true, if_false]
  rfl

theorem rows_of_not_row {r : AtomReq} (h : ∀ aop len lanes, r.what ≠ .row aop len lanes) : r.rows = [r.la] := by
  unfold AtomReq.rows
  split
  next hw => exact absurd hw (h _ _ _)
  next => rfl

theorem onTeamId_cluster (s : State) (uid : Nat) (f : Team → Team) (k : Nat) : (s.onTeamId uid f).cluster k = s.cluster k := by
  obtain ⟨cur, teams, h⟩ := ComputeRows.onTeamId_eq s uid f
  rw [h]; rfl

/-- Settles O9: the return is delivered, the team's copy under its number is the one the delivery makes, and the cluster's IXB keeps
no entry of the granule. -/
theorem atomicReturns : Obligations.AtomicReturns := by
  intro uid op s t d o ht hd hdest hp hm hw ho h2
  have hrun := scalarReturn_delivers uid op d s hm hd hdest hp (rows_of_not_row hw)
  refine ⟨_, _, runEventOf_ok hrun, State.team?_onTeamId (State.team?_onTeamId ht fun _ => rfl) fun _ => rfl, ?_, ?_, ?_, ?_⟩
  case refine_3 =>
    simp only [onTeamId_cluster, State.cluster_setCluster_same, List.mem_filter]
    exact fun e he => by simpa using he.2
  case refine_4 => simp [LogSteps.onTeamId_hbm]
  all_goals
    rw [deliverOut_eq (o := { o with val := some (d.req.what.result d.old.toNat) }) (v := d.req.what.result d.old.toNat)
      (by rw [find_op_map_val, ho]; rfl) rfl h2]
  · exact get_written _ _ _
  · exact find_op_filter_ne _ _

end Sys2Proof.ValueReturns


/-! # The bytes of a number in memory -/

namespace Sys2Proof.MemoryBytes
open Sys2Proof.Machine Sys2Proof.BasinPlaces

theorem testBit_readN (m : Memory) (n : Nat) : ∀ (a i : Nat),
    (m.readN a n).testBit i = (decide (i < 8 * n) && (m.read (a + i / 8)).toNat.testBit (i % 8)) := by
  induction n with
  | zero => intro a i; simp [Memory.readN]
  | succ n ih =>
    intro a i
    have hb : (m.read a).toNat < 2 ^ 8 := (m.read a).isLt
    rw [Memory.readN, Nat.add_comm, show (256 : Nat) = 2 ^ 8 from rfl, Nat.testBit_two_pow_mul_add _ hb]
    by_cases h : i < 8
    · rw [if_pos h, Nat.div_eq_of_lt h, Nat.mod_eq_of_lt h, decide_eq_true (by omega), Bool.true_and, Nat.add_zero]
    · rw [if_neg h, ih, show a + 1 + (i - 8) / 8 = a + i / 8 by omega, show (i - 8) % 8 = i % 8 by omega]
      congr 1
      exact decide_eq_decide.2 (by omega)

theorem readN_lt (m : Memory) (a n : Nat) : m.readN a n < 2 ^ (8 * n) :=
  Nat.lt_pow_two_of_testBit _ fun i hi => by rw [testBit_readN, decide_eq_false (by omega), Bool.false_and]

theorem readN_congr {m m' : Memory} {a n : Nat} (h : ∀ i < n, m'.read (a + i) = m.read (a + i)) : m'.readN a n = m.readN a n :=
  Nat.eq_of_testBit_eq fun i => by
    rw [testBit_readN, testBit_readN]
    by_cases hi : i < 8 * n
    · rw [h _ (by omega)]
    · rw [decide_eq_false hi, Bool.false_and, Bool.false_and]

/-- A field of whole bytes of a number read is the number at those bytes. -/
theorem bits_readN (m : Memory) {a k n size : Nat} (h : k + n ≤ size) : bits (m.readN a size) (8 * k) (8 * n) = m.readN (a + k) n :=
  Nat.eq_of_testBit_eq fun i => by
    rw [bits, Nat.testBit_mod_two_pow, Nat.testBit_div_two_pow, testBit_readN, testBit_readN,
      show a + (i + 8 * k) / 8 = a + k + i / 8 by omega, show (i + 8 * k) % 8 = i % 8 by omega]
    by_cases hi : i < 8 * n
    · rw [decide_eq_true (show i + 8 * k < 8 * size by omega)]
      simp
    · rw [decide_eq_false hi, Bool.false_and, Bool.false_and]

theorem read_writeN_inside (n : Nat) : ∀ (m : Memory) (a v i : Nat), i < n →
    (m.writeN a v n).read (a + i) = BitVec.ofNat 8 (v / 2 ^ (8 * i)) := by
  induction n with
  | zero => intro m a v i hi; omega
  | succ n ih =>
    intro m a v i hi
    obtain rfl | ⟨j, rfl⟩ : i = 0 ∨ ∃ j, i = j + 1 := by cases i <;> simp
    · simp [Memory.writeN, Memory.read_writeN_outside n _ (a + 1) _ a (by omega)]
    · rw [Memory.writeN, show a + (j + 1) = a + 1 + j by omega, ih _ _ _ j (by omega), Nat.div_div_eq_div_mul,
        show (256 : Nat) = 2 ^ 8 from rfl, ← Nat.pow_add, show 8 + 8 * j = 8 * (j + 1) by omega]

theorem testBit_read_writeN (m : Memory) (a v n x b : Nat) (hb : b < 8) :
    ((m.writeN a v n).read x).toNat.testBit b =
      if a ≤ x ∧ x < a + n then v.testBit (8 * (x - a) + b) else (m.read x).toNat.testBit b := by
  by_cases h : a ≤ x ∧ x < a + n
  · obtain ⟨i, rfl⟩ := Nat.exists_eq_add_of_le h.1
    rw [if_pos h, read_writeN_inside _ _ _ _ _ (by omega), BitVec.toNat_ofNat, Nat.testBit_mod_two_pow, decide_eq_true hb,
      Bool.true_and, Nat.testBit_div_two_pow, Nat.add_sub_cancel_left, Nat.add_comm]
  · rw [if_neg h, Memory.read_writeN_outside _ _ _ _ _ (by omega)]

/-- Writing back a number with a field of whole bytes replaced is writing that field. -/
theorem read_writeN_setBits (m : Memory) {a k n size : Nat} (h : k + n ≤ size) (v x : Nat) :
    (m.writeN a (setBits (m.readN a size) (8 * k) (8 * n) v) size).read x = (m.writeN (a + k) v n).read x := by
  refine BitVec.eq_of_toNat_eq (Nat.eq_of_testBit_eq fun b => ?_)
  by_cases hb : b < 8
  · rw [testBit_read_writeN _ _ _ _ _ _ hb, testBit_read_writeN _ _ _ _ _ _ hb, testBit_setBits, testBit_readN]
    by_cases hout : a ≤ x ∧ x < a + size
    · rw [if_pos hout]
      by_cases hin : a + k ≤ x ∧ x < a + k + n
      · rw [if_pos hin, if_pos (by omega)]
        congr 1
        omega
      · rw [if_neg hin, if_neg (by omega), decide_eq_true (by omega), Bool.true_and,
          show a + (8 * (x - a) + b) / 8 = x by omega, show (8 * (x - a) + b) % 8 = b by omega]
    · rw [if_neg hout, if_neg (by omega)]
  · have hge : ∀ y : Byte, y.toNat.testBit b = false := fun y =>
      Nat.testBit_lt_two_pow (Nat.lt_of_lt_of_le y.isLt (Nat.pow_le_pow_right (by omega) (by omega)))
    rw [hge, hge]

/-- The field of whole bytes written back is what is read there afterwards. -/
theorem readN_writeN_setBits (m : Memory) {a k n size v : Nat} (h : k + n ≤ size) (hv : v < 2 ^ (8 * n)) :
    (m.writeN a (setBits (m.readN a size) (8 * k) (8 * n) v) size).readN (a + k) n = v := by
  rw [readN_congr fun i _ => read_writeN_setBits m h v (a + k + i), Memory.readN_writeN_same,
    show (256 : Nat) = 2 ^ 8 from rfl, ← Nat.pow_mul, Nat.mod_eq_of_lt hv]

end Sys2Proof.MemoryBytes


/-! # The issue of scalar atomics (06 R132 to R135) -/

namespace Sys2Proof.AtomicIssue
open Sys2Proof.Machine Sys2Proof.MemoryBytes

theorem amoNew_lt (op : Nat) {n old : Nat} (b : Nat) (h : old < 2 ^ n) : amoNew op n old b < 2 ^ n := by
  have hb : b % 2 ^ n < 2 ^ n := Nat.mod_lt _ (Nat.two_pow_pos n)
  unfold amoNew
  split
  · exact Nat.mod_lt _ (Nat.two_pow_pos n)
  · exact Nat.and_lt_two_pow _ hb
  · exact Nat.or_lt_two_pow h hb
  · exact Nat.xor_lt_two_pow h hb
  case h_9 => exact hb
  all_goals
    dsimp only
    split <;> assumption

/-- The read-modify-write of a host word: an aligned word lies in one aligned 8-byte word, and the store of that word changes the
bytes of the smaller one alone (06 R135, log 105). -/
theorem hostRmw_run {addr n : Nat} (h : addr % 8 + n ≤ 8) (f : Nat → Nat) (hf : ∀ old < 2 ^ (8 * n), f old < 2 ^ (8 * n)) (s : State) :
    ∃ t, hostRmw addr n f s = .ok (s.host.readN addr n) t ∧ t = { s with host := t.host, hostBad := t.hostBad }
      ∧ t.host.readN addr n = f (s.host.readN addr n)
      ∧ ∀ x, x < addr ∨ addr + n ≤ x → t.host.read x = s.host.read x := by
  have haddr : addr / 8 * 8 + addr % 8 = addr := by omega
  have hold : bits (s.host.readN (addr / 8 * 8) 8) (8 * (addr % 8)) (8 * n) = s.host.readN addr n := by
    rw [bits_readN _ h, haddr]
  have hback := fun x => read_writeN_setBits s.host (a := addr / 8 * 8) h (f (s.host.readN addr n)) x
  have hnew := readN_writeN_setBits s.host (a := addr / 8 * 8) h (hf _ (readN_lt s.host addr n))
  rw [haddr] at hnew
  refine ⟨s.writeHost (addr / 8 * 8) 8 (setBits (s.host.readN (addr / 8 * 8) 8) (8 * (addr % 8)) (8 * n) (f (s.host.readN addr n)))
    false, ?_, rfl, hnew, fun x hx => ?_⟩
  · simp only [hostRmw, M.bind_run, M.get_run, M.set_run, M.pure_run, hold]
  · rw [State.writeHost, hback x, haddr, Memory.read_writeN_outside _ _ _ _ _ hx]

section
variable {s s1 : State} {p : Place64} {va : Word64} {n : Nat}

/-- An atomic of a logged window is sent to the home slice of its address, and its register waits. -/
theorem issueAtomic_logged (d : XReg) (sys : Bool) (what : AtomOp)
    (hp : locate { Access.atomic with priv := s.cur.s.priv, size := n } s.cur va n s = .ok p s1)
    (hk : s.cur.pageKind va = .memory) (hl : Win.logged p.desc = true) :
    ∃ t, runTeam (issueAtomic d va n sys what) s = .next t
      ∧ (t.slice (homeSlice p.la)).reqs = (s1.slice (homeSlice p.la)).reqs ++
          [{ uid := s.cur.uid, ctx := s.cur.id.ctx, cluster := s.cur.cluster, win := p.win, la := p.la, what := what
             dest := .scalar s1.stamp, sys := sys, va := va, pc := s.pc, id := s1.stamp + 1 }]
      ∧ t.cur.s.outs = s1.cur.s.outs ++ [{ op := s1.stamp, kind := .atomic, rd := d.toNat, val := none, val2 := none }]
      ∧ t.pc = s1.pc + 4 := by
  refine ⟨_, runTeam_ok (by
    simp only [issueAtomic, M.bind_run, M.getTeam_run, hp, hk, M.nextStamp_run, hl, if_true, sendAtomic, M.onSlice_run, M.pure_run,
      expect, M.onScalar_run, M.advance_run]; rfl), ?_, rfl, rfl⟩
  exact congrArg Slice.reqs (State.slice_setSlice_same { s1 with stamp := s1.stamp + 1 + 1 } _ _)

/-- An atomic of a host window reads and writes its word at once, and its register is given the old value. -/
theorem issueAtomic_host (d : XReg) (sys : Bool) (what : AtomOp)
    (hp : locate { Access.atomic with priv := s.cur.s.priv, size := n } s.cur va n s = .ok p s1)
    (hk : s.cur.pageKind va = .memory) (hl : Win.logged p.desc = false) (h8 : p.la % 2 ^ 45 % 8 + n ≤ 8)
    (hpost : s1.postedTo s.cur.uid .host (p.la % 2 ^ 45 / 8 * 8) 8 = false)
    (hbad : Table.get false s1.hostBad (p.la % 2 ^ 45 / 32) = false) (hf : ∀ old < 2 ^ (8 * n), what.apply old < 2 ^ (8 * n)) :
    ∃ t, runTeam (issueAtomic d va n sys what) s = .next t
      ∧ t.host.readN (p.la % 2 ^ 45) n = what.apply (s1.host.readN (p.la % 2 ^ 45) n)
      ∧ (∀ x, x < p.la % 2 ^ 45 ∨ p.la % 2 ^ 45 + n ≤ x → t.host.read x = s1.host.read x)
      ∧ t.hbm = s1.hbm ∧ t.crow = s1.crow
      ∧ t.cur.s.outs = s1.cur.s.outs ++
          [{ op := s1.stamp, kind := .atomic, rd := d.toNat, val := some (what.result (s1.host.readN (p.la % 2 ^ 45) n)), val2 := none }] := by
  obtain ⟨t, hrun, ht, hnew, hout⟩ := hostRmw_run h8 what.apply hf { s1 with stamp := s1.stamp + 1 }
  have hpost' : State.postedTo { s1 with stamp := s1.stamp + 1 } s.cur.uid .host (p.la % 2 ^ 45 / 8 * 8) 8 = false := hpost
  refine ⟨(t.withS fun c =>
    { c with
      outs := c.outs ++ [⟨s1.stamp, .atomic, d.toNat, some (what.result (s1.host.readN (p.la % 2 ^ 45) n)), none⟩] }).advance,
    runTeam_ok (by
    simp only [issueAtomic, M.bind_run, M.getTeam_run, hp, hk, M.nextStamp_run, hl, Bool.false_eq_true, if_false, M.get_run, hpost',
      hbad, hrun, expect, M.onScalar_run, M.advance_run]), hnew, hout, ?_⟩
  rw [ht]
  exact ⟨rfl, rfl, rfl⟩

end

/-- Settles O6: the two ways of an issued atomic, at the size that the word's field gives. -/
theorem atomicsIssue : Obligations.AtomicsIssue := by
  refine ⟨⟨?_, ?_⟩, ?_⟩
  · rintro d a b c z o s s1 p n rfl hp hk hl
    exact issueAtomic_logged d (c == 5) (.amo o.toNat (8 * atomBytes z) (s.getX b)) hp hk hl
  · rintro d a b c z s s1 p n rfl hp hk hl
    exact issueAtomic_logged d (c == 5) (.cas (8 * atomBytes z) (s.getX d) (s.getX b)) hp hk hl
  · rintro d a b c z o s s1 p n hn hp hk hl hal hpost hbad
    have h8 : p.la % 2 ^ 45 % 8 + n ≤ 8 := by split at hn <;> subst hn <;> omega
    subst hn
    exact issueAtomic_host d (c == 5) (.amo o.toNat (8 * atomBytes z) (s.getX b)) hp hk hl h8 hpost hbad
      fun old hold => amoNew_lt _ _ hold

end Sys2Proof.AtomicIssue


/-! # An atomic at its home slice (06 R134, 02 R65) -/

namespace Sys2Proof.SliceAtomic
open Sys2Proof.Machine

/-! ## What a read at the home slices leaves alone -/

/-- The atomic work of the slices: their requests, their open collections and the old values not yet returned. -/
structure SameWork (s t : State) : Prop where
  done : t.done = s.done
  reqs : ∀ h, (t.slice h).reqs = (s.slice h).reqs
  coll : ∀ h, (t.slice h).coll = (s.slice h).coll

theorem SameWork.refl (s : State) : SameWork s s := ⟨rfl, fun _ => rfl, fun _ => rfl⟩

theorem SameWork.trans {s t u : State} (h : SameWork s t) (g : SameWork t u) : SameWork s u :=
  ⟨g.done.trans h.done, fun k => (g.reqs k).trans (h.reqs k), fun k => (g.coll k).trans (h.coll k)⟩

/-- A step that leaves the slices as they are. -/
theorem sameWork_of_slices {s t : State} (hd : t.done = s.done) (hs : t.slices = s.slices) : SameWork s t :=
  ⟨hd, fun _ => by simp [State.slice, hs], fun _ => by simp [State.slice, hs]⟩

theorem put_reqs (c : Slice) (t i bad dirty own hint) : (c.put t i bad dirty own hint).reqs = c.reqs := by
  unfold Slice.put; dsimp only; repeat' split
  all_goals rfl

theorem put_coll (c : Slice) (t i bad dirty own hint) : (c.put t i bad dirty own hint).coll = c.coll := by
  unfold Slice.put; dsimp only; repeat' split
  all_goals rfl

/-- A change of one slice that leaves its work alone. -/
theorem sameWork_setSlice {s : State} {h : Nat} {c : Slice} (hr : c.reqs = (s.slice h).reqs) (hc : c.coll = (s.slice h).coll) :
    SameWork s (s.setSlice h c) := by
  refine ⟨rfl, fun k => ?_, fun k => ?_⟩ <;> by_cases hk : k = h
  · rw [hk, State.slice_setSlice_same, hr]
  · rw [State.slice_setSlice_ne _ _ hk]
  · rw [hk, State.slice_setSlice_same, hc]
  · rw [State.slice_setSlice_ne _ _ hk]

theorem sameWork_touchHbm (s : State) (sec) : SameWork s (s.touchHbm sec) := sameWork_of_slices rfl rfl

theorem sameWork_putLine (s : State) (h t i bad dirty own hint) : SameWork s (s.putLine h t i bad dirty own hint) := by
  have hback : SameWork s (if hint = 3 then s else s.writeBack ((s.slice h).victim t)) := by
    split
    · exact .refl s
    · exact sameWork_of_slices (by simp) (by simp)
  refine hback.trans (sameWork_setSlice ?_ ?_)
  · rw [put_reqs, hback.reqs]
  · rw [put_coll, hback.coll]

theorem sameWork_touchStructure (s : State) (b d) : SameWork s (s.touchStructure b d) := by
  unfold State.touchStructure
  dsimp only
  split
  · exact sameWork_putLine ..
  · exact (sameWork_touchHbm ..).trans (sameWork_putLine ..)

theorem sameWork_touchNode (s : State) (d g lvl f i b) : SameWork s (s.touchNode d g lvl f i b) := by
  unfold State.touchNode
  dsimp only
  split
  · exact sameWork_putLine ..
  · exact (sameWork_touchHbm ..).trans (sameWork_putLine ..)

theorem sameWork_touchPath (s : State) (d g) : SameWork s (s.touchPath d g) := by
  unfold State.touchPath
  dsimp only
  split
  · exact .refl s
  · exact List.foldlRecOn (motive := SameWork s) _ _ (.refl s) fun t ht p _ => ht.trans (sameWork_touchNode ..)

theorem sameWork_touchMap (s : State) (w g e i) : SameWork s (s.touchMap w g e i) := by
  have one (s : State) (c : Bool) (p h t i b d o n) : SameWork s ((if c then s else s.touchHbm p).putLine h t i b d o n) := by
    split
    · exact sameWork_putLine ..
    · exact (sameWork_touchHbm ..).trans (sameWork_putLine ..)
  unfold State.touchMap
  dsimp only
  split
  · exact .refl s
  · split
    · exact one ..
    · exact (one ..).trans (one ..)

theorem sameWork_homeRead {h t i sec bad own hint} {s s' : State} {b : Bool} (hrun : homeRead h t i sec bad own hint s = .ok b s') :
    SameWork s s' := by
  cases hhit : (s.slice h).hit t i <;>
    simp only [homeRead, M.bind_run, M.get_run, hhit, M.set_run, M.pure_run, EStateM.Result.ok.injEq] at hrun
  · exact hrun.2 ▸ (sameWork_touchHbm ..).trans (sameWork_putLine ..)
  · exact hrun.2 ▸ sameWork_putLine ..

theorem sameWork_findSector {win sec task e} {s s' : State} {p : Option Nat} (hrun : findSector win sec task e s = .ok p s') :
    SameWork s s' := by
  cases hres : (s.touchMap win (sec / 32) e (sec % 32)).resolve e (sec % 32) <;>
    simp only [findSector, M.bind_run, M.modify_run, M.get_run, hres, M.pure_run, M.throw_run, EStateM.Result.ok.injEq,
      reduceCtorEq] at hrun
  all_goals exact hrun.2 ▸ sameWork_touchMap ..

theorem sameWork_deliverSector {win sec task e} {s s' : State} {d : Delivered} (hrun : deliverSector win sec task e s = .ok d s') :
    SameWork s s' := by
  obtain ⟨p, s1, hp, hrun⟩ := M.bind_inv hrun
  refine (sameWork_findSector hp).trans ?_
  cases p with
  | none => simp only [M.pure_run, EStateM.Result.ok.injEq] at hrun; exact hrun.2 ▸ .refl _
  | some p =>
    simp only [homeSector, M.bind_run, M.get_run] at hrun
    split at hrun
    · rename_i hread
      simp only [M.pure_run, EStateM.Result.ok.injEq] at hrun
      exact hrun.2 ▸ sameWork_homeRead hread
    · cases hrun

theorem sameWork_atomicView {win sec task} {s s' : State} {d : Delivered} (hrun : atomicView win sec task s = .ok d s') :
    SameWork s s' := by
  have hpure {d' : Delivered} (h : (.ok d' s : EStateM.Result Stop State Delivered) = .ok d s') : SameWork s s' := by
    simp only [EStateM.Result.ok.injEq] at h; exact h.2 ▸ .refl _
  cases hcoll : (s.slice (sliceOfGran (sec / 32))).inColl win sec with
  | some c => exact hpure (by simpa only [atomicView, M.bind_run, M.get_run, hcoll, M.pure_run] using hrun)
  | none =>
    cases hpub : s.inAtomicPub win sec with
    | some c => exact hpure (by simpa only [atomicView, M.bind_run, M.get_run, hcoll, hpub, M.pure_run] using hrun)
    | none =>
      cases hent : s.granEntry (s.window win) (sec / 32) <;>
        simp only [atomicView, M.bind_run, M.get_run, hcoll, hpub, hent, M.set_run, M.throw_run, reduceCtorEq] at hrun
      exact (sameWork_touchPath ..).trans (sameWork_deliverSector hrun)

/-! ## The first request of a slice -/

theorem readyAtomics_head {s : State} {h : Nat} {held : AtomReq → Bool} {r : AtomReq} {rest : List AtomReq}
    (hreqs : (s.slice h).reqs = r :: rest) (hh : held r = false) (hb : s.behindOther h held r = false) :
    ∃ l, s.readyAtomics h held = r :: l := by
  have grows : ∀ (qs : List AtomReq) (acc : List AtomReq × List AtomReq), (∃ l, acc.1 = r :: l) →
      ∃ l, (qs.foldl (fun (acc : List AtomReq × List AtomReq) q =>
        (if held q || acc.2.any q.meets || s.behindOther h held q then acc.1 else acc.1 ++ [q], acc.2 ++ [q])) acc).1 = r :: l := by
    intro qs
    induction qs with
    | nil => exact fun _ hacc => hacc
    | cons q qs ih =>
      rintro acc ⟨l, hl⟩
      refine ih _ ?_
      dsimp only
      split
      · exact ⟨l, hl⟩
      · exact ⟨l ++ [q], by rw [hl, List.cons_append]⟩
  rw [State.readyAtomics, hreqs, List.foldl_cons]
  exact grows rest _ ⟨[], by simp [hh, hb]⟩

section
variable {s : State} {h : Nat} {r : AtomReq}

theorem grans_of_not_row (hw : ∀ aop len lanes, r.what ≠ .row aop len lanes) : r.grans = [r.la / 1024] := by
  unfold AtomReq.grans
  split
  next hrow => exact absurd hrow (hw _ _ _)
  next => rfl

theorem appends_of_not_row (hw : ∀ aop len lanes, r.what ≠ .row aop len lanes) : r.appends = false := by
  simp [AtomReq.appends, grans_of_not_row hw]

theorem loneReq_of_unpaired (hu : ∀ t, s.team? r.uid = some t → t.paired.role = 0) : s.loneReq h r = false := by
  unfold State.loneReq
  split
  next t ht => simp [hu t ht]
  next => rfl

theorem twinReq_of_unpaired (hu : ∀ t, s.team? r.uid = some t → t.paired.role = 0) : s.twinReq h r = none := by
  unfold State.twinReq
  split
  next => rfl
  next t ht => simp [State.twinOf, hu t ht]

/-- The slice's step is that of its first request, where nothing holds that back. -/
theorem homeSliceAtomic_first {rest : List AtomReq} (hp : (s.slice h).paused = false) (hreqs : (s.slice h).reqs = r :: rest)
    (hheld : s.heldBack r = false)
    (hb : s.behindOther h (fun q => s.heldBack q || s.loneReq h q || s.noRoom h q) r = false)
    (hw : ∀ aop len lanes, r.what ≠ .row aop len lanes) (hu : ∀ t, s.team? r.uid = some t → t.paired.role = 0) :
    homeSliceAtomic h s = performWord h r (s.setSlice h { s.slice h with reqs := rest.filter fun q => q.id != r.id }) := by
  have hfree : (s.heldBack r || s.loneReq h r || s.noRoom h r) = false := by
    simp [hheld, loneReq_of_unpaired hu, State.noRoom, appends_of_not_row hw]
  obtain ⟨l, hl⟩ := readyAtomics_head (held := fun q => s.heldBack q || s.loneReq h q || s.noRoom h q) hreqs hfree hb
  have hperform : performAtomic h r s = performWord h r (s.setSlice h { s.slice h with reqs := rest.filter fun q => q.id != r.id }) := by
    have hrest : (s.slice h).reqs.filter (fun q => q.id != r.id) = rest.filter fun q => q.id != r.id := by simp [hreqs]
    cases hwhat : r.what with
    | row aop len lanes => exact absurd hwhat (hw _ _ _)
    | _ => simp only [performAtomic, M.bind_run, M.onSlice_run, hwhat, hrest]
  rw [← hperform]
  simp only [homeSliceAtomic, M.bind_run, M.get_run, hp, Bool.not_false, M.enabled_true, hl, appends_of_not_row hw, Bool.false_and,
    Bool.false_eq_true, if_false, twinReq_of_unpaired hu]

end

/-! ## The performance of a word's atomic -/

/-- The new data of the sector of a request. -/
def newData (r : AtomReq) (d : Delivered) : BitVec 256 :=
  mergeBytes d.data (r.la % 32) (r.what.bits / 8) (r.what.apply (secBytes d.data (r.la % 32) (r.what.bits / 8)))

/-- A request changes its sector: a sound one, to other bytes. -/
def changes (r : AtomReq) (d : Delivered) : Bool := !d.poison && newData r d != d.data

/-- A performed request whose old value has not returned. -/
def doneOf (r : AtomReq) (d : Delivered) (joined : Bool) : AtomDone :=
  { req := r, old := BitVec.ofNat 64 (secBytes d.data (r.la % 32) (r.what.bits / 8)), poison := d.poison, inColl := joined, psn := none
    badLanes := [] }

/-- The open collection of a slice with a sector's new data. -/
def joined (coll : Option (List SectorData)) (d : SectorData) : List SectorData :=
  (match coll with | some l => l.filter fun e => !(e.win == d.win && e.sec == d.sec) | none => []) ++ [d]

/-- A slice after a result has joined its collection. -/
def collected (c : Slice) (d : SectorData) (own : Nat) : Slice :=
  { c.put (.result d.win (d.sec / 4)) (d.sec % 4) d.poison true (some own) 0 with coll := some (joined c.coll d) }

theorem collect_run (h : Nat) (d : SectorData) (s : State) :
    collect h d s = if (s.slice h).hasRoom (.result d.win (d.sec / 4)) then
        .ok ⟨⟩ (s.setSlice h (collected (s.slice h) d (Win.owner (s.window d.win)))) else .error (.wait .memory) s := by
  cases hroom : (s.slice h).hasRoom (.result d.win (d.sec / 4)) <;>
    simp only [collect, M.bind_run, M.get_run, hroom, M.waitUnless_true, M.waitUnless_false, M.onSlice_run, if_true,
      Bool.false_eq_true, if_false]
  rfl

theorem find_joined (coll : Option (List SectorData)) (d : SectorData) :
    (joined coll d).find? (fun e => e.win == d.win && e.sec == d.sec) = some d := by
  have hnone (l : List SectorData) :
      (l.filter fun e => !(e.win == d.win && e.sec == d.sec)).find? (fun e => e.win == d.win && e.sec == d.sec) = none := by
    rw [List.find?_eq_none]
    intro e he
    simpa only [Bool.not_eq_true', Bool.not_eq_true] using (List.mem_filter.1 he).2
  unfold joined
  split
  · rw [List.find?_append, hnone]; simp
  · simp

theorem performWord_run {h : Nat} {r : AtomReq} {s s1 : State} {d : Delivered}
    (hv : atomicView r.win (r.la / 32) ((s.team? r.uid).getD Team.vacant).taskNum s = .ok d s1) :
    performWord h r s =
      if changes r d then
        (if (s1.slice h).hasRoom (.result r.win (r.la / 32 / 4)) then
          .ok ⟨⟩ { s1.setSlice h (collected (s1.slice h) ⟨r.win, r.la / 32, newData r d, false⟩ (Win.owner (s1.window r.win))) with
            done := s1.done ++ [doneOf r d true] }
        else .error (.wait .memory) s1)
      else .ok ⟨⟩ { s1 with done := s1.done ++ [doneOf r d (s1.slice h).coll.isSome] } := by
  have hc : (!d.poison && mergeBytes d.data (r.la % 32) (r.what.bits / 8)
      (r.what.apply (secBytes d.data (r.la % 32) (r.what.bits / 8))) != d.data) = changes r d := rfl
  simp only [performWord, M.bind_run, M.get_run, hv, hc]
  cases changes r d with
  | false => rfl
  | true =>
    simp only [if_true, M.bind_run, collect_run]
    cases (s1.slice h).hasRoom (.result r.win (r.la / 32 / 4)) with
    | false => rfl
    | true =>
      simp only [if_true, M.modify_run, State.slice_setSlice_same]
      rfl

theorem changes_iff {r : AtomReq} {d : Delivered} : changes r d = true ↔ d.poison = false ∧ newData r d ≠ d.data := by
  simp [changes]

theorem collected_reqs (c : Slice) (d : SectorData) (own : Nat) : (collected c d own).reqs = c.reqs := put_reqs ..

theorem collected_inColl (c : Slice) (d : SectorData) (own : Nat) : (collected c d own).inColl d.win d.sec = some d :=
  find_joined ..

/-- Settles O8: the slice takes its first request; the read of the sector leaves the slices' work alone, and the performance waits
exactly where a changed sector finds no room. -/
theorem homeSliceAtomic : Obligations.HomeSliceAtomic := by
  intro h r rest s hp hreqs hheld hb hw hu left new performed
  have hfirst := homeSliceAtomic_first hp hreqs hheld hb hw hu
  have key (d : Delivered) (s1 u : State)
      (hv : atomicView r.win (r.la / 32) ((s.team? r.uid).getD Team.vacant).taskNum (s.setSlice h { s.slice h with reqs := left }) = .ok d u)
      (hroom : (u.slice h).hasRoom (.result r.win (r.la / 32 / 4)) = (s1.slice h).hasRoom (.result r.win (r.la / 32 / 4)))
      (hhbm : u.hbm = s1.hbm) (hcur : u.cur = s1.cur) (hteams : u.teams = s1.teams) : performed d s1 := by
    have hwork := sameWork_atomicView hv
    have hleft : (u.slice h).reqs = left := by rw [hwork.reqs, State.slice_setSlice_same]
    have hcoll : (u.slice h).coll = (s.slice h).coll := by rw [hwork.coll, State.slice_setSlice_same]
    have hdone : u.done = s.done := hwork.done
    have hrun := hfirst.trans (performWord_run hv)
    rw [hroom, hcoll, hdone] at hrun
    refine ⟨fun hsound hnew hfull => ?_, fun hok => ?_⟩
    · rw [if_pos (changes_iff.2 ⟨hsound, hnew⟩), hfull, if_neg Bool.false_ne_true] at hrun
      exact runEventOf_wait hrun
    · by_cases hc : changes r d = true
      · have hcc := changes_iff.1 hc
        have hr := hok.resolve_left (by simp [hcc.1]) |>.resolve_left hcc.2
        rw [if_pos hc, if_pos hr] at hrun
        refine ⟨_, runEventOf_ok hrun, ?_, ?_, fun hpo => ?_, fun _ _ => ?_, hhbm, hcur, hteams⟩
        · exact (congrArg Slice.reqs (State.slice_setSlice_same u h _)).trans ((collected_reqs ..).trans hleft)
        · show s.done ++ [doneOf r d true] = s.done ++ [doneOf r d (changes r d || (s.slice h).coll.isSome)]
          rw [hc, Bool.true_or]
        · exact absurd (hcc.1.symm.trans hpo) Bool.false_ne_true
        · exact (congrArg (Slice.inColl · r.win (r.la / 32)) (State.slice_setSlice_same u h _)).trans (collected_inColl ..)
      · rw [if_neg hc] at hrun
        refine ⟨_, runEventOf_ok hrun, hleft, ?_, fun _ => hcoll, fun hs hn => absurd (changes_iff.2 ⟨hs, hn⟩) hc, hhbm, hcur, hteams⟩
        show s.done ++ [doneOf r d (s.slice h).coll.isSome] = s.done ++ [doneOf r d (changes r d || (s.slice h).coll.isSome)]
        rw [Bool.eq_false_iff.2 hc, Bool.false_or]
  refine ⟨fun d s1 hv => key d s1 s1 hv rfl rfl rfl rfl, fun c hsl hin =>
    key _ s (s.setSlice h { s.slice h with reqs := left }) ?_ ?_ rfl rfl rfl⟩
  · have hhome : sliceOfGran (r.la / 32 / 32) = h := by rw [Nat.div_div_eq_div_mul]; exact hsl
    have hin' : ((s.setSlice h { s.slice h with reqs := left }).slice h).inColl r.win (r.la / 32) = some c := by
      rw [State.slice_setSlice_same]; exact hin
    simp only [atomicView, M.bind_run, M.get_run, hhome, hin', M.pure_run]
  · rw [State.slice_setSlice_same]; rfl

end Sys2Proof.SliceAtomic


/-! # The issuing team's view of a sector of logged memory (07 R163) -/

namespace Sys2Proof.LoggedView
open Sys2Proof.Machine

/-! ## Reads at the home slices -/

/-- A state after reads at home slices: lines of the slices and the record of the rows may have changed, nothing else. -/
def Touched (s t : State) : Prop := ∃ slices rows, t = { s with slices := slices, dev := { s.dev with rows := rows } }

theorem Touched.refl (s : State) : Touched s s := ⟨_, _, rfl⟩

theorem Touched.trans {s t u : State} : Touched s t → Touched t u → Touched s u := by
  rintro ⟨_, _, rfl⟩ ⟨_, _, rfl⟩
  exact ⟨_, _, rfl⟩

theorem touched_touchHbm (s : State) (sec) : Touched s (s.touchHbm sec) := ⟨_, _, rfl⟩

theorem touched_writeBack (s : State) (v) : Touched s (s.writeBack v) := by
  unfold State.writeBack
  cases v with
  | none => exact .refl s
  | some l =>
    dsimp only
    split
    · cases s.homeOf l.tag
      · exact .refl s
      · exact touched_touchHbm ..
    · exact .refl s

theorem touched_putLine (s : State) (h t i bad dirty own hint) : Touched s (s.putLine h t i bad dirty own hint) := by
  unfold State.putLine
  dsimp only
  split
  · exact ⟨_, _, rfl⟩
  · exact (touched_writeBack ..).trans ⟨_, _, rfl⟩

theorem touched_touchMap (s : State) (w g e i) : Touched s (s.touchMap w g e i) := by
  have one (s : State) (c : Bool) (p h t i b d o n) : Touched s ((if c then s else s.touchHbm p).putLine h t i b d o n) := by
    split
    · exact touched_putLine ..
    · exact (touched_touchHbm ..).trans (touched_putLine ..)
  unfold State.touchMap
  dsimp only
  split
  · exact .refl s
  · split
    · exact one ..
    · exact (one ..).trans (one ..)

/-! ## The lines of a cluster cache -/

/-- A dirty sector without its place in the order of replacement. -/
def bare (d : DirtySector) : DirtySector := { d with stamp := 0, prot := 0 }

/-- Two clusters that hold the same dirty sectors and as many lines, and differ in the order of replacement of the dirty ones. -/
structure SameLines (c c' : Cluster) : Prop where
  dirty : c'.dirty.map bare = c.dirty.map bare
  lines : c'.lines.length = c.lines.length
  quar : c'.quar = c.quar
  paused : c'.paused = c.paused

theorem SameLines.refl (c : Cluster) : SameLines c c := ⟨rfl, rfl, rfl, rfl⟩

theorem SameLines.trans {a b c : Cluster} (h : SameLines a b) (g : SameLines b c) : SameLines a c :=
  ⟨g.dirty.trans h.dirty, g.lines.trans h.lines, g.quar.trans h.quar, g.paused.trans h.paused⟩

theorem map_bare {l : List DirtySector} {f : DirtySector → DirtySector} (h : ∀ d, bare (f d) = bare d) :
    (l.map f).map bare = l.map bare := by
  rw [List.map_map]
  exact List.map_congr_left fun d _ => h d

theorem sameLines_setProt (c : Cluster) (w p) : SameLines c (c.setProt w p) := by
  unfold Cluster.setProt
  split
  · refine ⟨map_bare fun d => ?_, rfl, rfl, rfl⟩
    split <;> rfl
  · exact ⟨rfl, List.length_map _, rfl, rfl⟩

theorem sameLines_demoteFor (set n : Nat) : ∀ c : Cluster, SameLines c (c.demoteFor set n) := by
  induction n with
  | zero => exact .refl
  | succ n ih =>
    intro c
    rw [Cluster.demoteFor]
    split
    · exact .refl c
    · split
      · exact (sameLines_setProt ..).trans (ih _)
      · exact .refl c

theorem sameLines_demote (c : Cluster) (key) : SameLines c (c.demote key) := by
  unfold Cluster.demote
  split
  · exact .refl c
  · exact sameLines_demoteFor ..

/-- The use of a line that is there. -/
theorem sameLines_putClean {c : Cluster} {pos : Nat} {b : Bool} (hit : c.pubHit pos = some b) (bad prot raise pipe) :
    SameLines c (c.putClean pos bad prot raise pipe) := by
  unfold Cluster.pubHit at hit
  unfold Cluster.putClean
  dsimp only
  split at hit
  · refine SameLines.trans ?_ (sameLines_demote ..)
    exact ⟨rfl, List.length_map _, rfl, rfl⟩
  · cases hit

theorem find_map_bare {p : DirtySector → Bool} (hp : ∀ d, p (bare d) = p d) {l l' : List DirtySector} (h : l'.map bare = l.map bare) :
    (l'.find? p).map bare = (l.find? p).map bare := by
  have hcomp : p ∘ bare = p := funext hp
  simpa only [List.find?_map, hcomp] using congrArg (List.find? p) h

theorem any_map_bare {p : DirtySector → Bool} (hp : ∀ d, p (bare d) = p d) {l l' : List DirtySector} (h : l'.map bare = l.map bare) :
    l'.any p = l.any p := by
  have hcomp : p ∘ bare = p := funext hp
  simpa only [List.any_map, hcomp] using congrArg (List.any · p) h

theorem SameLines.dirtyOf {c c' : Cluster} (h : SameLines c c') (u w k) : (c'.dirtyOf u w k).map bare = (c.dirtyOf u w k).map bare :=
  find_map_bare (fun _ => rfl) h.dirty

theorem SameLines.inLine {c c' : Cluster} (h : SameLines c c') (k) : (c'.dirty.any fun d => d.inLine k) = c.dirty.any fun d => d.inLine k :=
  any_map_bare (fun _ => rfl) h.dirty

theorem SameLines.count {c c' : Cluster} (h : SameLines c c') : c'.dirty.length = c.dirty.length := by
  simpa using congrArg List.length h.dirty

/-! ## The view -/

/-- A state after a view: the issuing team, the other teams, the memories and the other clusters are as they were; the team's
cluster holds the same dirty sectors and as many lines. -/
structure Viewed (cl : Nat) (s t : State) : Prop where
  cur : t.cur = s.cur
  teams : t.teams = s.teams
  hbm : t.hbm = s.hbm
  crow : t.crow = s.crow
  host : t.host = s.host
  posted : t.posted = s.posted
  others : ∀ k, k ≠ cl → t.cluster k = s.cluster k
  own : SameLines (s.cluster cl) (t.cluster cl)

theorem Viewed.trans {cl : Nat} {s t u : State} (h : Viewed cl s t) (g : Viewed cl t u) : Viewed cl s u :=
  ⟨g.cur.trans h.cur, g.teams.trans h.teams, g.hbm.trans h.hbm, g.crow.trans h.crow, g.host.trans h.host, g.posted.trans h.posted,
    fun k hk => (g.others k hk).trans (h.others k hk), h.own.trans g.own⟩

theorem Touched.viewed {s t : State} (cl : Nat) : Touched s t → Viewed cl s t := by
  rintro ⟨_, _, rfl⟩
  exact ⟨rfl, rfl, rfl, rfl, rfl, rfl, fun _ _ => rfl, .refl _⟩

theorem viewed_setCluster {s : State} {cl : Nat} {c : Cluster} (h : SameLines (s.cluster cl) c) : Viewed cl s (s.setCluster cl c) :=
  ⟨rfl, rfl, rfl, rfl, rfl, rfl, fun _ hk => State.cluster_setCluster_ne _ _ hk, by rwa [State.cluster_setCluster_same]⟩

theorem useDirty_run (t : Team) (win sec hint : Nat) (s : State) :
    ∃ c, useDirty t win sec hint s = .ok ⟨⟩ (s.setCluster t.cluster c) ∧ SameLines (s.cluster t.cluster) c := by
  refine ⟨_, M.onCluster_run .., .trans ?_ (sameLines_demote ..)⟩
  refine ⟨map_bare fun d => ?_, rfl, rfl, rfl⟩
  split <;> rfl

/-- A task that holds a dirty sector sees that (07 R163). -/
theorem viewSector_own {t : Team} {win sec : Nat} {d : DirtySector} {s : State} (hpause : (s.cluster t.cluster).paused = false)
    (hatom : s.atomicInFlight t.uid win sec = false) (hd : (s.cluster t.cluster).dirtyOf t.uid win sec = some d) (hint : Nat) :
    ∃ c, viewSector t win sec hint s = .ok (⟨d.data, d.poison⟩, false) (s.setCluster t.cluster c)
      ∧ SameLines (s.cluster t.cluster) c := by
  obtain ⟨c, hrun, hc⟩ := useDirty_run t win sec hint s
  exact ⟨c, by simp only [viewSector, M.bind_run, M.get_run, hpause, hatom, Bool.or_self, Bool.false_eq_true, if_false, hd, hrun,
    M.pure_run], hc⟩

/-- A state after the use of an IXB entry of a cluster: its last use, the counters of a core and the order stamp have changed. -/
def IxbUsed (cl : Nat) (s t : State) : Prop :=
  ∃ ixb cores, t = ({ s with cores := cores, stamp := s.stamp + 1 } : State).setCluster cl { s.cluster cl with ixb := ixb }

theorem IxbUsed.viewed {cl : Nat} {s t : State} : IxbUsed cl s t → Viewed cl s t := by
  rintro ⟨_, _, rfl⟩
  exact ⟨rfl, rfl, rfl, rfl, rfl, rfl, fun _ hk => State.cluster_setCluster_ne _ _ hk, by
    rw [State.cluster_setCluster_same]; exact ⟨rfl, rfl, rfl, rfl⟩⟩

theorem IxbUsed.pubHit {cl : Nat} {s t : State} (h : IxbUsed cl s t) (pos : Nat) :
    (t.cluster cl).pubHit pos = (s.cluster cl).pubHit pos := by
  obtain ⟨_, _, rfl⟩ := h
  rw [State.cluster_setCluster_same]
  rfl

theorem IxbUsed.resolve {cl : Nat} {s t : State} (h : IxbUsed cl s t) (e i) : t.resolve e i = s.resolve e i := by
  obtain ⟨_, _, rfl⟩ := h; rfl

theorem IxbUsed.sectorHeld {cl : Nat} {s t : State} (h : IxbUsed cl s t) (pos sec b) : t.sectorHeld pos sec b = s.sectorHeld pos sec b := by
  obtain ⟨_, _, rfl⟩ := h; rfl

/-- A valid entry of the IXB is used; a fill that it joins counts as a miss (17 R341). -/
theorem ixbLookup_hit {t : Team} {win gran : Nat} {e : IxbEntry} {s : State}
    (he : ((s.cluster t.cluster).ixb.find? fun e => e.isFor win gran) = some e) (hheld : e.heldBy = [])
    (hown : ownNewer t e = false) (hraised : (s.cluster t.cluster).raisedNewer t e = false) :
    ∃ u, ixbLookup t win gran s = .ok e u ∧ IxbUsed t.cluster s u := by
  cases hfill : s.filling e <;>
    refine ⟨_, by
      simp only [ixbLookup, M.bind_run, M.get_run, he, hheld, hown, hraised, hfill, ne_eq, not_true_eq_false, if_false, Bool.or_self,
        Bool.false_eq_true, if_true, bump, M.nextStamp_run, M.onCluster_run, M.pure_run]; rfl, _, _, rfl⟩

theorem Touched.pubHit {s t : State} (h : Touched s t) (cl pos) : (t.cluster cl).pubHit pos = (s.cluster cl).pubHit pos := by
  obtain ⟨_, _, rfl⟩ := h; rfl

theorem Touched.sectorHeld {s t : State} (h : Touched s t) (pos sec b) : t.sectorHeld pos sec b = s.sectorHeld pos sec b := by
  obtain ⟨_, _, rfl⟩ := h; rfl

theorem Touched.resolve {s t : State} (h : Touched s t) (e i) : t.resolve e i = s.resolve e i := by
  obtain ⟨_, _, rfl⟩ := h; rfl

theorem findSector_none {win sec task : Nat} {e : BitVec 128} {s : State} (h : s.resolve e (sec % 32) = .none) :
    ∃ t, findSector win sec task e s = .ok none t ∧ Touched s t :=
  have ht := touched_touchMap s win (sec / 32) e (sec % 32)
  ⟨_, by simp only [findSector, M.bind_run, M.modify_run, M.get_run, ht.resolve, h, M.pure_run], ht⟩

theorem findSector_at {win sec task p : Nat} {e : BitVec 128} {s : State} (h : s.resolve e (sec % 32) = .at_ p) :
    ∃ t, findSector win sec task e s = .ok (some p) t ∧ Touched s t :=
  have ht := touched_touchMap s win (sec / 32) e (sec % 32)
  ⟨_, by simp only [findSector, M.bind_run, M.modify_run, M.get_run, ht.resolve, h, M.pure_run], ht⟩

theorem readThrough_hit {t : Team} {pos : Nat} {b : Bool} {s : State} (h : (s.cluster t.cluster).pubHit pos = some b)
    (win sec hint : Nat) (mates : List Nat) :
    ∃ s1, readThrough t win sec pos hint mates s = .ok (s.sectorHeld pos sec b) s1 ∧ Viewed t.cluster s s1 :=
  ⟨s.setCluster t.cluster ((s.cluster t.cluster).putClean pos b 0 (fun p => hintRaise p hint) false),
    by simp only [readThrough, M.bind_run, M.get_run, h, M.onCluster_run, M.pure_run], viewed_setCluster (sameLines_putClean h ..)⟩

/-- A view of data in the sectors at hand gives them, and leaves the task's dirty sectors and the memories. -/
theorem viewSector_sees {s : State} {win sec : Nat} {data : BitVec 256} (h : s.sees win sec data) (hint : Nat) :
    ∃ b s1, viewSector s.cur win sec hint s = .ok (⟨data, false⟩, b) s1 ∧ Viewed s.cur.cluster s s1 := by
  obtain ⟨hpause, hatom, hsees⟩ := h
  cases hd : (s.cluster s.cur.cluster).dirtyOf s.cur.uid win sec with
  | some d =>
    rw [hd] at hsees
    obtain ⟨hpo, rfl⟩ := hsees
    obtain ⟨c, hrun, hc⟩ := viewSector_own hpause hatom hd hint
    exact ⟨false, _, by rw [hrun, hpo], viewed_setCluster hc⟩
  | none =>
    rw [hd] at hsees
    obtain ⟨hown, hcl, e, he, hheld, hnewer, hraised, hres⟩ := hsees
    obtain ⟨u, hix, hu⟩ := ixbLookup_hit he hheld hnewer hraised
    cases hp : s.resolve e.entry (sec % 32) with
    | bad => rw [hp] at hres; exact hres.elim
    | none =>
      rw [hp] at hres
      obtain ⟨s1, hfind, ht⟩ := findSector_none (win := win) (task := s.cur.taskNum) ((hu.resolve ..).trans hp)
      exact ⟨_, s1, by simp only [viewSector, M.bind_run, M.get_run, hpause, hatom, Bool.or_self, Bool.false_eq_true, if_false, hd,
        hown, hcl, hix, hfind, M.pure_run, hres]; rfl, hu.viewed.trans (ht.viewed _)⟩
    | at_ p =>
      rw [hp] at hres
      obtain ⟨hhit, hdata⟩ := hres
      obtain ⟨s1, hfind, ht⟩ := findSector_at (win := win) (task := s.cur.taskNum) ((hu.resolve ..).trans hp)
      have hhit1 : (s1.cluster s.cur.cluster).pubHit p = some false := (ht.pubHit ..).trans ((hu.pubHit p).trans hhit)
      have hdata1 : s1.sectorHeld p sec false = ⟨data, false⟩ := (ht.sectorHeld ..).trans ((hu.sectorHeld ..).trans hdata)
      obtain ⟨s2, hread, hv⟩ := readThrough_hit hhit1 win sec hint (s1.entryMates e.entry p)
      exact ⟨_, s2, by simp only [viewSector, M.bind_run, M.get_run, hpause, hatom, Bool.or_self, Bool.false_eq_true, if_false, hd,
        hown, hcl, hix, hfind, hread, hdata1, M.pure_run]; rfl, hu.viewed.trans ((ht.viewed _).trans hv)⟩

end Sys2Proof.LoggedView


/-! # Accesses whose translation is at hand (05 R108, R115 to R118, 06 R126) -/

namespace Sys2Proof.ReachedPlace
open Sys2Proof.Machine

/-- The place that a leaf gives for an address it covers. -/
def placeOf (l : TlbLeaf) (va : Word64) : Place64 := { la := l.place va, win := l.win, desc := l.desc }

theorem checkWindow_fits {s : State} {a : Access} {va : Word64} {l : TlbLeaf} (h : s.windowFits a va l) :
    checkWindow a s.cur va l (l.place va) s = .ok ⟨⟩ s := by
  obtain ⟨hwf, henc, hvalid, howner, htenant, hbit, hlo, hhi, hpriv, hr, hw, hx, hsys, hpair, hrmw⟩ := h
  have hform : (!Win.wellFormed l.desc l.win || (Win.host l.desc && Win.enc l.desc)) = false := by grind
  have hvalid' : (!Win.valid l.desc) = false := by simp [hvalid]
  have hown : ¬(Win.owner l.desc ≠ s.cur.id.ctx ∨ Win.tenant l.desc ≠ s.cur.id.tenant) := by simp [howner, htenant]
  have hrange : ¬(bitAt (l.place va) 45 = Win.logged l.desc
      ∨ ¬(Win.lbase l.desc ≤ l.place va ∧ l.place va + a.size ≤ Win.lbase l.desc + Win.lsize l.desc * 1024)) := by
    simp [hbit, hlo, hhi]
  have hperm : ((bitAt l.entry.toNat 7 && !a.priv) || (a.r && !bitAt l.entry.toNat 3) || (a.w && !bitAt l.entry.toNat 4)
      || (a.x && !bitAt l.entry.toNat 5) || (a.w && s.isReplica l.win)) = false := by grind
  have hkind : (Win.sys l.desc && !a.sysOk) = false := by grind
  have hpaired : (a.w && s.cur.ctl.paired && s.cur.ctl.level == 0 && (Win.host l.desc || Win.crow l.desc)) = false := by grind
  have hcrow : (Win.crow l.desc && a.rmw) = false := by grind
  have hhost : (Win.host l.desc && a.rmw && !Win.ncatom l.desc) = false := by grind
  simp only [checkWindow, M.bind_run, M.get_run, hform, hvalid', hown, hrange, hperm, hkind, hpaired, hcrow, hhost, if_false,
    Bool.false_eq_true, M.pure_run]

/-- An access whose translation stands in the core TLB and whose window admits it changes nothing. -/
theorem locate_reaches {s : State} {a : Access} {va : Word64} {n : Nat} {l : TlbLeaf} (h : s.reaches a va n l) (hacc : a.acc ≠ 5) :
    locate { a with size := n } s.cur va n s = .ok (placeOf l va) s := by
  obtain ⟨hva, halign, htlb, hfits⟩ := h
  have hva' : va.toNat / 2 ^ 57 = 0 := Nat.div_eq_of_lt hva
  have hwin := checkWindow_fits hfits
  rw [TlbLeaf.place] at hwin
  simp only [locate, checkVa, checkAlign, Machine.translate, findLeaf, placeIn, hva', halign, hacc, htlb, hwin, M.bind_run, M.get_run, M.pure_run,
    if_true, if_false]
  rfl

end Sys2Proof.ReachedPlace

/-! # Scalar stores (06 R131) -/

namespace Sys2Proof.ScalarStore
open Sys2Proof.Machine Sys2Proof.LoggedView Sys2Proof.ReachedPlace

/-! ## The dirty sector of a task -/

/-- The cluster cache takes a dirty line of a task without giving up another. -/
def RoomIn (c : Cluster) (uid win sec : Nat) : Prop :=
  (c.dirty.any fun d => d.inLine (uid, win, sec / 4)) = true ∨ c.dirty.length < 12 ∧ c.lines.length + c.dirty.length + c.quar.length < 15

theorem RoomIn.of_sameLines {c c' : Cluster} {uid win sec : Nat} (h : RoomIn c uid win sec) (hs : SameLines c c') :
    RoomIn c' uid win sec := by
  rwa [RoomIn, hs.inLine, hs.count, hs.lines, hs.quar]

theorem makeRoom_run {t : Team} {win sec : Nat} {s : State} (h : RoomIn (s.cluster t.cluster) t.uid win sec) :
    makeRoom t win sec s = .ok ⟨⟩ s := by
  cases hany : (s.cluster t.cluster).dirty.any fun d => d.inLine (t.uid, win, sec / 4) with
  | true => simp only [makeRoom, M.bind_run, M.get_run, hany, if_true, M.pure_run]
  | false =>
    obtain ⟨hfew, hfree⟩ := h.resolve_left (by simp [hany])
    have hfull (key : Nat) (pipe : Bool) : (s.cluster t.cluster).fullSet key pipe = none := if_pos hfree
    simp only [makeRoom, M.bind_run, M.get_run, hany, Nat.not_le.2 hfew, if_false, Bool.false_eq_true, makeWay, makeWays, hfull,
      M.pure_run]

/-- A cluster after a task's sector has taken a value and a colour, without a hint (02 R59, R47). -/
def dirtied (c : Cluster) (uid win sec colour : Nat) (data : BitVec 256) (poison : Bool) : Cluster :=
  let prot := match (c.dirty.filter fun d => d.inLine (uid, win, sec / 4)).head? with | some d => hintRaise d.prot 0 | none => hintProt 0
  ({ c with
    dirty := { uid := uid, win := win, sec := sec, colour := colour, data := data, poison := poison, stamp := c.clock, prot := prot } ::
      (c.dirty.filter fun o => !decide (o.uid = uid ∧ o.win = win ∧ o.sec = sec)).map fun o =>
        if o.inLine (uid, win, sec / 4) then { o with prot := prot } else o
    weir := recolour uid win sec colour c.weir
    clock := c.clock + 1 } : Cluster).demote (dirtyKey uid win (sec / 4))

theorem putDirty_run {t : Team} {win sec : Nat} {s : State} (h : RoomIn (s.cluster t.cluster) t.uid win sec) (colour data poison) :
    putDirty t win sec colour 0 data poison s =
      .ok ⟨⟩ (s.setCluster t.cluster (dirtied (s.cluster t.cluster) t.uid win sec colour data poison)) := by
  simp only [putDirty, M.bind_run, makeRoom_run h, M.onCluster_run, show ¬((0 : Nat) = 3) by decide, if_false, M.pure_run]
  rfl

section
variable (c : Cluster) (uid win sec colour : Nat) (data : BitVec 256) (poison : Bool)

theorem dirtied_paused : (dirtied c uid win sec colour data poison).paused = c.paused := (sameLines_demote ..).paused

theorem dirtied_own : ((dirtied c uid win sec colour data poison).dirtyOf uid win sec).map bare =
    some { uid := uid, win := win, sec := sec, colour := colour, data := data, poison := poison, stamp := 0, prot := 0 } := by
  rw [dirtied, (sameLines_demote ..).dirtyOf]
  simp [Cluster.dirtyOf, bare]

theorem dirtied_other {u w k : Nat} (h : ¬(u = uid ∧ w = win ∧ k = sec)) :
    ((dirtied c uid win sec colour data poison).dirtyOf u w k).map bare = (c.dirtyOf u w k).map bare := by
  rw [dirtied, (sameLines_demote ..).dirtyOf]
  have hkeeps (prot : Nat) (d : DirtySector) : bare (if d.inLine (uid, win, sec / 4) then { d with prot := prot } else d) = bare d := by
    split <;> rfl
  have hnew (x : DirtySector) (hx : x.uid = uid ∧ x.win = win ∧ x.sec = sec) (l : List DirtySector) :
      ((x :: l).find? fun d => decide (d.uid = u ∧ d.win = w ∧ d.sec = k)) = l.find? fun d => decide (d.uid = u ∧ d.win = w ∧ d.sec = k) := by
    obtain ⟨rfl, rfl, rfl⟩ := hx
    refine List.find?_cons_of_neg ?_
    rw [decide_eq_true_eq]
    rintro ⟨rfl, rfl, rfl⟩
    exact h ⟨rfl, rfl, rfl⟩
  have hrest : ((c.dirty.filter fun o => !decide (o.uid = uid ∧ o.win = win ∧ o.sec = sec)).find?
      fun d => decide (d.uid = u ∧ d.win = w ∧ d.sec = k)) = c.dirty.find? fun d => decide (d.uid = u ∧ d.win = w ∧ d.sec = k) := by
    rw [List.find?_filter]
    congr 1
    funext d
    by_cases hd : d.uid = u ∧ d.win = w ∧ d.sec = k
    · obtain ⟨rfl, rfl, rfl⟩ := hd
      simp [h]
    · simp [hd]
  unfold Cluster.dirtyOf
  dsimp only
  rw [hnew _ ⟨rfl, rfl, rfl⟩, find_map_bare (fun _ => rfl) (map_bare (hkeeps _)), hrest]

end

/-! ## A store to logged memory -/

theorem storeSector_run {t : Team} {win sec off n v colour : Nat} {base : Delivered} {b : Bool} {s s1 : State}
    (hp : (s.cluster t.cluster).paused = false)
    (hview : n ≠ 32 → viewSector t win sec 0 s = .ok (base, b) s1) (hfull : n = 32 → base = unwritten ∧ s1 = s)
    (hroom : RoomIn (s1.cluster t.cluster) t.uid win sec) :
    storeSector t win sec off n v colour 0 false s = .ok ⟨⟩ (s1.setCluster t.cluster
      (dirtied (s1.cluster t.cluster) t.uid win sec colour (mergeBytes base.data off n v) base.poison)) := by
  by_cases hn : n = 32
  · obtain ⟨rfl, rfl⟩ := hfull hn
    simp only [storeSector, M.bind_run, M.get_run, hp, Bool.not_false, M.waitUnless_true, hn, if_true, M.pure_run, putDirty_run hroom,
      Bool.or_false]
  · simp only [storeSector, M.bind_run, M.get_run, hp, Bool.not_false, M.waitUnless_true, hn, if_false, hview hn, M.pure_run,
      putDirty_run hroom, Bool.or_false]

/-- A team whose stash pages hold another page keeps them as they are. -/
theorem dropOwnRow_run {s : State} {win la : Nat} (h : ∀ b ∈ s.cur.h.stash, ¬(b.win = win ∧ b.la / 4096 = la / 4096)) :
    dropOwnRow s.cur win la none s = .ok ⟨⟩ s := by
  have hstash : (s.cur.h.stash.map fun b =>
      if b.win = win ∧ b.la / 4096 = la / 4096 ∧ some b.bank ≠ none then b.drop (la / 128 % 32) else b) = s.cur.h.stash :=
    (List.map_congr_left fun b hb => if_neg fun hm => h b hb ⟨hm.1, hm.2.1⟩).trans (List.map_id _)
  have hteam : s.team? s.cur.uid = some s.cur := if_pos rfl
  cases hany : s.cur.h.stash != [] <;>
    simp only [dropOwnRow, M.bind_run, M.get_run, hteam, Option.any_some, hany, if_true, if_false, Bool.false_eq_true, M.pure_run,
      M.onUid_run, onTeamId_cur, hstash]

/-- A store whose translation is at hand is that of its place (06 R131). -/
theorem storeVa_atHand {s : State} {a : Access} {va : Word64} {n v colour : Nat} {l : TlbLeaf} (h : s.atHand a va n l) (hacc : a.acc ≠ 5) :
    storeVa a s.cur va n v colour 0 s = writePlace a s.cur va (placeOf l va) n v colour 0 false none s := by
  simp only [storeVa, M.bind_ok (locate_reaches h.1 hacc), writeAt, h.2]

/-- A store of the issuing team is its word's work, and then its word moves on. -/
theorem issueStore_run {s s1 : State} {v ea : Word64} {n : Nat}
    (h : storeVa { Access.store with priv := s.cur.s.priv, sysOk := n == 8 } s.cur ea n (v.toNat % 2 ^ (8 * n)) s.cur.ctl.dcol 0 s =
      .ok ⟨⟩ s1) : runTeam (issueStore v ea n) s = .next s1.advance :=
  runTeam_ok (by simp only [issueStore, M.bind_run, M.getTeam_run, h, M.advance_run])

/-- The word has moved on where the issuing team and the others are as they were before it did. -/
theorem movedOn_advance {s s1 : State} (hcur : s1.cur = s.cur) (hteams : s1.teams = s.teams) :
    s.movedOn s1.advance ∧ s1.advance.cur.s.x = s.cur.s.x ∧ s1.advance.cur.s.outs = s.cur.s.outs := by
  refine ⟨⟨?_, hteams⟩, ?_, ?_⟩ <;> simp [State.advance, State.withS, hcur, State.pc]

theorem inStream_ok {α : Type} {a : Access} {m : M α} {s t : State} {r : α} (h : m s = .ok r t) : inStream a m s = .ok r t := by
  show EStateM.tryCatch m _ s = _
  simp only [EStateM.tryCatch, h]

/-- A store to logged memory whose sector the team sees merges into its dirty sector. -/
theorem writePlace_logged {s : State} {a : Access} {va : Word64} {l : TlbLeaf} {n value : Nat} {data : BitVec 256}
    (hl : Win.logged l.desc = true) (hn : n ≠ 32) (hsees : s.sees l.win (l.place va / 32) data)
    (hroom : s.roomForSector l.win (l.place va / 32))
    (hstash : ∀ b ∈ s.cur.h.stash, ¬(b.win = l.win ∧ b.la / 4096 = l.place va / 4096)) (colour : Nat) :
    ∃ u, Viewed s.cur.cluster s u ∧ writePlace a s.cur va (placeOf l va) n value colour 0 false none s =
      .ok ⟨⟩ (u.setCluster s.cur.cluster (dirtied (u.cluster s.cur.cluster) s.cur.uid l.win (l.place va / 32) colour
        (mergeBytes data (l.place va % 32) n value) false)) := by
  obtain ⟨b, u, hview, hu⟩ := viewSector_sees hsees 0
  have hstore := storeSector_run (t := s.cur) (off := l.place va % 32) (v := value) (colour := colour) hsees.1 (fun _ => hview)
    (fun h => absurd h hn) (RoomIn.of_sameLines hroom hu.own)
  refine ⟨u, hu, ?_⟩
  have hdrop := dropOwnRow_run (s := u.setCluster s.cur.cluster (dirtied (u.cluster s.cur.cluster) s.cur.uid l.win (l.place va / 32) colour
    (mergeBytes data (l.place va % 32) n value) false)) (win := l.win) (la := l.place va) (by rwa [State.setCluster_cur, hu.cur])
  rw [State.setCluster_cur, hu.cur] at hdrop
  simp only [writePlace, placeOf, hl, if_true, M.bind_run, inStream_ok hstore, hdrop]

/-- A store to another window is posted (03 R82, 05 R117). -/
theorem writePlace_posted {s : State} {a : Access} {va : Word64} {l : TlbLeaf} {n value : Nat} (hl : Win.logged l.desc = false)
    (hcra : Win.host l.desc = false → Win.crow l.desc = true → craOf (l.place va) / 2 ^ 28 ≤ 11) (colour : Nat) :
    writePlace a s.cur va (placeOf l va) n value colour 0 false none s = .ok ⟨⟩ { s with
      stamp := s.stamp + 1
      posted := s.posted ++
        [{ id := s.stamp, uid := s.cur.uid, colour := colour, target := (PostedTo.of l.desc (l.place va)).1
           addr := (PostedTo.of l.desc (l.place va)).2, size := n, data := value % 2 ^ (8 * n), poison := false
           ctx := s.cur.id.ctx, only := none, via := (va.toNat / 4096, l.win) }] } := by
  cases hhost : Win.host l.desc with
  | true =>
    simp only [writePlace, placeOf, hl, hhost, PostedTo.of, Bool.false_eq_true, if_true, if_false, postStore, M.bind_run,
      M.nextStamp_run, M.modify_run]
  | false =>
    cases hcrow : Win.crow l.desc with
    | true =>
      simp only [writePlace, placeOf, hl, hhost, hcrow, PostedTo.of, Bool.false_eq_true, if_true, if_false, checkCra, hcra hhost hcrow,
        postStore, M.bind_run, M.pure_run, M.nextStamp_run, M.modify_run]
    | false =>
      simp only [writePlace, placeOf, hl, hhost, hcrow, PostedTo.of, sysOffset, Bool.false_eq_true, if_false, postStore, M.bind_run,
        M.nextStamp_run, M.modify_run]

theorem inLine_of_dirtyOf {c : Cluster} {uid win sec : Nat} {d : DirtySector} (h : c.dirtyOf uid win sec = some d) :
    (c.dirty.any fun d => d.inLine (uid, win, sec / 4)) = true := by
  unfold Cluster.dirtyOf at h
  obtain ⟨rfl, rfl, rfl⟩ : d.uid = uid ∧ d.win = win ∧ d.sec = sec := by simpa using List.find?_some h
  exact List.any_eq_true.2 ⟨d, List.mem_of_find?_eq_some h, decide_eq_true rfl⟩

/-- After a store the task sees the sector's new value, in the store's colour. -/
theorem viewSector_dirtied {t : Team} {win sec : Nat} {u : State} (hp : (u.cluster t.cluster).paused = false)
    (ha : u.atomicInFlight t.uid win sec = false) (colour : Nat) (data : BitVec 256) (poison : Bool) :
    ∃ s2, viewSector t win sec 0 (u.setCluster t.cluster (dirtied (u.cluster t.cluster) t.uid win sec colour data poison)) =
        .ok (⟨data, poison⟩, false) s2
      ∧ (((u.setCluster t.cluster (dirtied (u.cluster t.cluster) t.uid win sec colour data poison)).cluster t.cluster).dirtyOf
          t.uid win sec).map (·.colour) = some colour := by
  obtain ⟨d, hd, hbare⟩ := Option.map_eq_some_iff.1 (dirtied_own (u.cluster t.cluster) t.uid win sec colour data poison)
  have hdata : d.data = data := congrArg DirtySector.data hbare
  have hpoison : d.poison = poison := congrArg DirtySector.poison hbare
  have hcolour : d.colour = colour := congrArg DirtySector.colour hbare
  rw [← State.cluster_setCluster_same u t.cluster (dirtied (u.cluster t.cluster) t.uid win sec colour data poison)] at hd
  obtain ⟨c, hview, -⟩ := viewSector_own
    (s := u.setCluster t.cluster (dirtied (u.cluster t.cluster) t.uid win sec colour data poison))
    (by rw [State.cluster_setCluster_same, dirtied_paused, hp]) ha hd 0
  exact ⟨_, by rw [hview, hdata, hpoison], by rw [hd, Option.map_some, hcolour]⟩

theorem map_bare_data (x : Option DirtySector) : (x.map bare).map (·.data) = x.map (·.data) := by cases x <;> rfl

/-- Settles O5: a store at hand merges into the dirty sector that the task then sees, or is posted; the part of a sector that a store
leaves is the one the task saw. -/
theorem stores : Obligations.Stores := by
  refine ⟨fun p hp v a i s => ?_, fun t win sec off n v colour d s hpause hatom hd => ?_⟩
  · intro va n value cl
    have hsize : n ≠ 32 := by
      simp only [List.mem_cons, List.not_mem_nil, or_false] at hp
      rcases hp with rfl | rfl | rfl | rfl <;> decide
    have hexec : exec (p.1 v a i) s = runTeam (issueStore (s.getX v) va n) s := by
      simp only [List.mem_cons, List.not_mem_nil, or_false] at hp
      rcases hp with rfl | rfl | rfl | rfl <;> rfl
    have hacc : (Access.store).acc ≠ 5 := by decide
    rw [hexec]
    refine ⟨fun l data hat hl hsees hroom hstash => ?_, fun l hat hl hcra => ?_, fun s1 h => issueStore_run h⟩
    · obtain ⟨u, hu, hrun⟩ := writePlace_logged (value := value) (a := { Access.store with priv := s.cur.s.priv, sysOk := n == 8 }) (va := va)
        hl hsize hsees hroom hstash s.cur.ctl.dcol
      obtain ⟨hmoved, hx, houts⟩ := movedOn_advance (s := s) (s1 := u.setCluster cl (dirtied (u.cluster cl) s.cur.uid l.win
        (l.place va / 32) s.cur.ctl.dcol (mergeBytes data (l.place va % 32) n value) false)) hu.cur hu.teams
      obtain ⟨d, hd, hbare⟩ := Option.map_eq_some_iff.1 (dirtied_own (u.cluster cl) s.cur.uid l.win (l.place va / 32) s.cur.ctl.dcol
        (mergeBytes data (l.place va % 32) n value) false)
      refine ⟨_, d, issueStore_run ((storeVa_atHand hat hacc).trans hrun), hmoved, hx, houts, ?_, congrArg DirtySector.colour hbare,
        congrArg DirtySector.poison hbare, congrArg DirtySector.data hbare, fun u' w k hk => ?_, fun k hk => ?_, hu.hbm, hu.crow, hu.host,
        hu.posted⟩
      · exact (congrArg (Cluster.dirtyOf · _ _ _) (State.cluster_setCluster_same ..)).trans hd
      · have hsame := (dirtied_other (u.cluster cl) _ _ _ s.cur.ctl.dcol (mergeBytes data (l.place va % 32) n value) false hk).trans
          (hu.own.dirtyOf u' w k)
        rw [← map_bare_data, ← map_bare_data (Cluster.dirtyOf _ _ _ _), ← hsame]
        exact congrArg (fun c : Cluster => ((c.dirtyOf u' w k).map bare).map (·.data)) (State.cluster_setCluster_same ..)
      · exact (State.cluster_setCluster_ne _ _ hk).trans (hu.others k hk)
    · have hrun := writePlace_posted (s := s) (a := { Access.store with priv := s.cur.s.priv, sysOk := n == 8 }) (va := va) (n := n)
        (value := value) hl hcra s.cur.ctl.dcol
      rw [show value % 2 ^ (8 * n) = value from Nat.mod_mod ..] at hrun
      exact ⟨_, issueStore_run ((storeVa_atHand hat hacc).trans hrun), (movedOn_advance rfl rfl).1, rfl, rfl, rfl, rfl, rfl, rfl, rfl⟩
  · have hroom : RoomIn (s.cluster t.cluster) t.uid win sec := .inl (inLine_of_dirtyOf hd)
    by_cases hn : n = 32
    · subst hn
      have hstore := storeSector_run (t := t) (off := off) (v := v) (colour := colour) (b := false) hpause (fun h => absurd rfl h)
        (fun _ => ⟨rfl, rfl⟩) hroom
      obtain ⟨s2, hview, hcolour⟩ := viewSector_dirtied hpause hatom colour (mergeBytes unwritten.data off 32 v) unwritten.poison
      exact ⟨_, s2, hstore, rfl, hview, hcolour⟩
    · obtain ⟨c, hown, hc⟩ := viewSector_own hpause hatom hd 0
      have hstore := storeSector_run (t := t) (off := off) (v := v) (colour := colour) hpause (fun _ => hown) (fun h => absurd h hn)
        (by rw [State.cluster_setCluster_same]; exact hroom.of_sameLines hc)
      obtain ⟨s2, hview, hcolour⟩ := viewSector_dirtied (t := t) (win := win) (sec := sec) (u := s.setCluster t.cluster c)
        (by rw [State.cluster_setCluster_same, hc.paused, hpause]) hatom colour (mergeBytes d.data off n v) d.poison
      exact ⟨_, s2, hstore, rfl, by simpa [hn] using hview, hcolour⟩

end Sys2Proof.ScalarStore


/-! # A prefetch that ends its task (06 R143, 02 R56) -/

namespace Sys2Proof.PrefetchEnds
open Sys2Proof.Machine Sys2Proof.Tests

/-- A `vpref` of one lane, at the address in `v10`. -/
def prefetch : LMem := tMem 0 10 0 0 2 0

/-- A team whose lane 0 has its own dirty sector at that address, in a cluster without an entry of the granule, on a device whose index
pool holds no frames: the root of the window's index lies outside it. -/
def lostIndex : State :=
  let s := masks [(2, 1)] tLm
  { s.setCluster 0 { s.cluster 0 with ixb := [] } with dev := { s.dev with ixFrames := 0 } }

/-- The hypotheses of the statement hold of that state, with one lane, which sees its sector. -/
theorem prefetch_atHand :
    lostIndex.cur.lanesAt prefetch.mask.toNat 0 = [0] ∧ atB lostIndex (.vpref prefetch) 0 = true ∧ prefetch.fmt = 0
      ∧ handB lostIndex (lostIndex.asLane Access.load 0) (tVa lostIndex prefetch 0) (memBits prefetch.fmt / 8) = true
      ∧ seesB lostIndex (leafAt lostIndex (tVa lostIndex prefetch 0)).win
          ((leafAt lostIndex (tVa lostIndex prefetch 0)).place (tVa lostIndex prefetch 0) / 32) (0xFFFFFF85 ||| 0x1234 <<< 64) = true := by
  decide +kernel

/-- The fill of the entry that the prefetch begins meets no index and ends the team: its scalar stream does not stay as it was. -/
theorem prefetch_ends : nextB (exec (.vpref prefetch) lostIndex)
    (fun t => decide (t.cur.s = (lostIndex.begun (.vpref prefetch)).cur.s)) = false := by
  decide +kernel

/-- Refutes O46: a lane of `vpref` that sees its own dirty sector still asks for the IXB entry of the granule, and where the window's index
gives none the fault of that lookup ends the task; the pass does not end as one whose scalar stream is left alone. -/
theorem not_gathersAndScatters : ¬ Obligations.GathersAndScatters := by
  rintro ⟨hathand, -⟩
  have hfacts := prefetch_atHand
  have hends := prefetch_ends
  generalize lostIndex = s, prefetch = f at hfacts hends
  obtain ⟨hlanes, hat, hfmt, hhand, hsees⟩ := hfacts
  obtain ⟨-, hpref⟩ := hathand f (s.cur.l.run.getD tRun) 0 s [0] (tVa s f) (fun l => leafAt s (tVa s f l)) (fun _ => 0) hlanes.symm
    (fun _ => rfl) (by simp)
  obtain ⟨t, hnext, ⟨-, hscalar, -⟩, -⟩ := hpref (atB_spec hat) hfmt fun l hl => by
    obtain rfl := List.mem_singleton.1 hl
    exact .inr ⟨handB_spec hhand, .inr ⟨_, seesB_spec hsees⟩⟩
  rw [hnext] at hends
  exact absurd hscalar (of_decide_eq_false hends)

end Sys2Proof.PrefetchEnds


/-! # The issuing team through the accesses of a lane word (05 R121, 06 R147)

Translations, fills, appends and reads of a lane word's accesses leave the issuing team as it stands, whether they run to their end or
stop. -/

namespace Sys2Proof.TeamThroughReads
open Std.Do
open Sys2Proof Sys2Proof.Machine Sys2Proof.TeamKept
set_option mvcgen.warning false
set_option Elab.async false

section
variable {α β γ : Type} {T : Team}

/-! ## Ways to build a computation -/

theorem keepsTeam_forM {l : List α} {f : α → M PUnit} (h : ∀ a, KeepsTeam T (f a)) : KeepsTeam T (l.forM f) := by
  induction l with
  | nil => exact keepsTeam_pure _
  | cons a r ih => exact keepsTeam_bind (h a) fun _ => ih

theorem keepsTeam_foldlM {l : List α} {f : β → α → M β} (h : ∀ b a, KeepsTeam T (f b a)) (b : β) : KeepsTeam T (l.foldlM f b) := by
  induction l generalizing b with
  | nil => rw [List.foldlM_nil]; mvcgen
  | cons a r ih => rw [List.foldlM_cons]; exact keepsTeam_bind (h b a) ih

theorem keepsTeam_filterM {l : List α} {f : α → M Bool} (h : ∀ a, KeepsTeam T (f a)) : KeepsTeam T (l.filterM f) := by
  have loop : ∀ acc, KeepsTeam T (List.filterAuxM f l acc) := by
    induction l with
    | nil => intro acc; mvcgen [List.filterAuxM]
    | cons a r ih => intro acc; mvcgen [List.filterAuxM, h, ih]
  unfold List.filterM
  mvcgen [loop]

theorem keepsTeam_caught {m : M α} (h : KeepsTeam T m) : KeepsTeam T (caught m) := by
  mvcgen [caught, h]

theorem keepsTeam_reportAt (va) {m : M α} (h : KeepsTeam T m) : KeepsTeam T (reportAt va m) := by
  mvcgen [reportAt, h]; simp_all

theorem keepsTeam_eachLane (lanes : List Nat) {f : Nat → M α} (h : ∀ l, KeepsTeam T (f l)) : KeepsTeam T (eachLane lanes f) := by
  mvcgen [eachLane, keepsTeam_caught, keepsTeam_mapM, h] <;> simp_all

/-! ## Addresses and translations of a pass -/

theorem keepsTeam_checkAlign (a va n) : KeepsTeam T (checkAlign a va n) := by
  mvcgen [checkAlign, keepsTeam_xlateFault]

theorem keepsTeam_checkCra (a va cra) : KeepsTeam T (checkCra a va cra) := by
  mvcgen [checkCra]

theorem keepsTeam_placeIn (a t va l) : KeepsTeam T (placeIn a t va l) := by
  mvcgen [placeIn, keepsTeam_checkWindow] <;> simp_all

theorem keepsTeam_checkLaneVa (a fmt v imm32) : KeepsTeam T (checkLaneVa a fmt v imm32) := by
  mvcgen [checkLaneVa, keepsTeam_reportAt, keepsTeam_checkVa, keepsTeam_checkAlign, keepsTeam_forM] <;> simp_all

theorem keepsTeam_passPages (a t fmt imm32 vs) : KeepsTeam T (passPages a t fmt imm32 vs) := by
  refine keepsTeam_bind (keepsTeam_filterM fun q => ?_) fun sound => keepsTeam_foldlM (fun memo q => ?_) _
  · mvcgen [keepsTeam_caught, keepsTeam_checkLaneVa] <;> simp_all
  · mvcgen [keepsTeam_caught, keepsTeam_findLeaf, keepsTeam_onCore] <;> simp_all [restore_eq]

theorem keepsTeam_placePart (a t pages p) : KeepsTeam T (placePart a t pages p) := by
  mvcgen [placePart, keepsTeam_placeIn, keepsTeam_translate, keepsTeam_checkCra] <;> simp_all

theorem keepsTeam_laneAccess (a t pages fmt v imm32 lane) : KeepsTeam T (laneAccess a t pages fmt v imm32 lane) := by
  mvcgen [laneAccess, keepsTeam_checkLaneVa, keepsTeam_reportAt, keepsTeam_placePart, keepsTeam_mapM] <;> simp_all

theorem keepsTeam_readLane64 (r lane) : KeepsTeam T (readLane64 r lane) := by
  mvcgen [readLane64, readLane]

theorem keepsTeam_passAccesses (a fmt va imm32 w m) {check : Team → LaneAcc → M Unit} (h : ∀ t x, KeepsTeam T (check t x)) :
    KeepsTeam T (passAccesses a fmt va imm32 w m check) := by
  mvcgen [passAccesses, getTeam, laneVas, keepsTeam_readLane64, keepsTeam_mapM, keepsTeam_passPages, keepsTeam_eachLane,
    keepsTeam_laneAccess, h] <;> simp_all

theorem keepsTeam_checkNoTemplate (t x) : KeepsTeam T (checkNoTemplate t x) := by
  mvcgen [checkNoTemplate, keepsTeam_tmplAcc]

theorem keepsTeam_locateRow (a t va n) : KeepsTeam T (locateRow a t va n) := by
  mvcgen [locateRow, keepsTeam_checkVa, keepsTeam_translate, keepsTeam_tmplAcc, keepsTeam_xlateFault] <;> simp_all

/-! ## Appends and fills of the cluster cache -/

@[simp] theorem sealLog_cur (s : State) (l) : (s.sealLog l).cur = s.cur := by
  unfold State.sealLog; split <;> simp

@[simp] theorem openSeg_cur (s : State) (l) : (s.openSeg l).cur = s.cur := by
  simp [State.openSeg]

@[simp] theorem roomFor_cur (s : State) (l n) : (s.roomFor l n).cur = s.cur := by
  unfold State.roomFor; repeat' split
  all_goals simp

@[simp] theorem appendOne_cur (s : State) (l sec d) : (s.appendOne l sec d).cur = s.cur := by
  unfold State.appendOne; split
  · rfl
  · dsimp only; split <;> simp [State.putSector]

theorem appendAll_cur (l : Nat) (secs : List (Nat × Delivered)) (s : State) :
    (secs.foldl (fun s p => s.appendOne l p.1 p.2) s).cur = s.cur :=
  List.foldlRecOn (motive := fun u : State => u.cur = s.cur) secs _ rfl fun u hu p _ => (appendOne_cur u l p.1 p.2).trans hu

theorem keepsTeam_appendRun (l secs) : KeepsTeam T (appendRun l secs) := by
  mvcgen [appendRun]; simp_all +zetaDelta [appendAll_cur]

theorem keepsTeam_writeSpill (cl slot) : KeepsTeam T (writeSpill cl slot) := by
  mvcgen [writeSpill, drawFree]

theorem keepsTeam_stallAppend : KeepsTeam T stallAppend := by
  mvcgen [stallAppend, keepsTeam_waitFor]

theorem keepsTeam_appendGroup (cl how grp) : KeepsTeam T (appendGroup cl how grp) := by
  mvcgen [appendGroup, keepsTeam_appendRun, keepsTeam_onCluster, keepsTeam_writeSpill, keepsTeam_stallAppend] <;> simp_all

theorem keepsTeam_appendWhere (cl how p) : KeepsTeam T (appendWhere cl how p) := by
  mvcgen [appendWhere, keepsTeam_appendGroup, keepsTeam_forM]

theorem keepsTeam_makeWays (cl key must n) : KeepsTeam T (makeWays cl key must n) := by
  induction n with
  | zero => mvcgen [makeWays]
  | succ n ih => mvcgen [makeWays, keepsTeam_appendWhere, keepsTeam_onCluster, ih] <;> simp_all

theorem keepsTeam_fillSector (t h win pos hint) : KeepsTeam T (fillSector t h win pos hint) := by
  mvcgen [fillSector, makeWay, keepsTeam_homeRead, keepsTeam_onCluster, keepsTeam_makeWays] <;> simp_all

theorem keepsTeam_readThrough (t win sec pos hint mates) : KeepsTeam T (readThrough t win sec pos hint mates) := by
  mvcgen [readThrough, keepsTeam_onCluster, keepsTeam_fillSector, keepsTeam_forM] <;> simp_all

theorem keepsTeam_useDirty (t win sec hint) : KeepsTeam T (useDirty t win sec hint) := by
  mvcgen [useDirty, keepsTeam_onCluster]

theorem keepsTeam_ixbFill (t win gran) : KeepsTeam T (ixbFill t win gran) := by
  mvcgen [ixbFill, nextStamp, keepsTeam_lookupGranule, keepsTeam_onCluster] <;> simp_all +zetaDelta

theorem keepsTeam_ixbLookup (t win gran) : KeepsTeam T (ixbLookup t win gran) := by
  mvcgen [ixbLookup, nextStamp, keepsTeam_ixbFill, keepsTeam_onCluster, keepsTeam_bump, keepsTeam_waitFor] <;> simp_all +zetaDelta

theorem keepsTeam_viewSector (t win sec hint) : KeepsTeam T (viewSector t win sec hint) := by
  mvcgen [viewSector, keepsTeam_useDirty, keepsTeam_readThrough, keepsTeam_ixbLookup, keepsTeam_findSector, keepsTeam_waitFor] <;> simp_all

/-! ## Rows -/

@[simp] theorem servedRow_cur (s : State) (chan stamp) : (s.servedRow chan stamp).cur = s.cur := by
  unfold State.servedRow; split <;> rfl

theorem keepsTeam_rowRead (who chan rows cmd) : KeepsTeam T (rowRead who chan rows cmd) := by
  mvcgen [rowRead, keepsTeam_waitFor]; simp_all +zetaDelta

theorem keepsTeam_readCrow (who win la n hint) : KeepsTeam T (readCrow who win la n hint) := by
  mvcgen [readCrow, keepsTeam_rowRead] <;> simp_all +zetaDelta

theorem keepsTeam_readPlace (a t va p n hint sysRead) : KeepsTeam T (readPlace a t va p n hint sysRead) := by
  mvcgen [readPlace, readLogged, drawFree, keepsTeam_viewSector, keepsTeam_waitFor, keepsTeam_checkCra, keepsTeam_readCrow] <;> simp_all +zetaDelta

theorem keepsTeam_rowEntry (t win gran refill) : KeepsTeam T (rowEntry t win gran refill) := by
  mvcgen [rowEntry, keepsTeam_ixbFill, keepsTeam_waitFor, keepsTeam_bump] <;> simp_all

theorem keepsTeam_rowEntries (t win grans) : KeepsTeam T (rowEntries t win grans) := by
  mvcgen [rowEntries, keepsTeam_rowEntry, keepsTeam_mapM] <;> simp_all

theorem keepsTeam_rowSector (t es win sec hint) : KeepsTeam T (rowSector t es win sec hint) := by
  mvcgen [rowSector, keepsTeam_useDirty, keepsTeam_readThrough, keepsTeam_findSector, keepsTeam_waitFor] <;> simp_all

theorem keepsTeam_rowSectorsOf (a t va p n hint) : KeepsTeam T (rowSectorsOf a t va p n hint) := by
  mvcgen [rowSectorsOf, keepsTeam_rowEntries, keepsTeam_rowSector, keepsTeam_readPlace, keepsTeam_mapM] <;> simp_all

end

end Sys2Proof.TeamThroughReads


/-! # One turn of a lane word (11 R227, 09 R196, 14 R303)

A turn runs a pass, or the whole of a word that commits at once. The body of a pass starts from the opened state; where it stops, the
turn leaves what the body left, but for the counts that do not stand. -/

namespace Sys2Proof.LaneTurn
open Sys2Proof Sys2Proof.Machine Sys2Proof.LanePass Sys2Proof.OpenedPass

section
variable {s v t : State} {i : Instr} {r : LaneRun} {w : Nat} {e : Stop}

/-! ## Counts -/

/-- A computation that stops gives back its counts, and the rows are as it left them. -/
theorem countedOnce_error {m : M Unit} (h : m s = .error e v) : ∃ cores, countedOnce m s = .error e { v with cores := cores }
    ∧ ∀ k, (State.core { v with cores := cores } k).basin = (v.core k).basin := by
  refine ⟨_, by rw [countedOnce, h]; rfl, ?_⟩
  obtain ⟨-, hbasin, -⟩ := sameRows_setCore (s := v) (k := s.cur.core) (c := { v.core s.cur.core with
    cnt := [6, 7].foldl (fun t w => Table.set 0 t w (Table.get 0 (s.core s.cur.core).cnt w)) (v.core s.cur.core).cnt }) rfl
  exact hbasin

/-- A wait for memory stalls the lane stream and changes nothing else. -/
theorem runLane_waits {m : M Unit} (h : m s = .error (.wait .memory) v) :
    runLane m s = .next { v with cur := { v.cur with l := { v.cur.l with stall := some .memory } } } := by
  rw [runLane, h]
  rfl

/-! ## Passes -/

/-- What ends pass `x` of `n` of a word. -/
def passEnd (dsts : List (Nat × Nat)) (core n x tiles : Nat) : M Unit := do
  bump core 3 1
  if x + 1 = n then
    reformDsts dsts
    retire tiles false
  else onLane fun l => { l with pix := x + 1, stall := none, watched := false }

theorem passEnd_flight {dsts : List (Nat × Nat)} {core n x tiles : Nat} (hrun : passEnd dsts core n x tiles v = .ok ⟨⟩ t)
    (hv : v.cur.l.flight = none) : t.cur.l.flight = none := by
  obtain ⟨v1, hbump, ⟨⟨pt, cores, rfl⟩, -⟩⟩ := keepsRows_bump core 3 1 v
  have hrest := (M.bind_ok hbump).symm.trans hrun
  split at hrest
  · obtain ⟨v2, hreform, -⟩ := keepsRows_reformDsts dsts { v with cur := { v.cur with l := { v.cur.l with pt := pt } }, cores := cores }
    rw [M.bind_ok hreform] at hrest
    obtain ⟨-, rfl⟩ := EStateM.Result.ok.inj hrest
    rfl
  · obtain ⟨-, rfl⟩ := EStateM.Result.ok.inj hrest
    exact hv

/-- The end of the pass at which a lane word stands. -/
abbrev endOfPass (s : State) (i : Instr) (dsts : List (Nat × Nat)) : M Unit :=
  passEnd dsts (s.begun i).cur.core (passList (passSetOf s i)).length (s.begun i).cur.l.pix 0

theorem endOfPass_ok (hat : s.atPass i r w) (dsts : List (Nat × Nat)) (v : State) : ∃ t, endOfPass s i dsts v = .ok ⟨⟩ t
    ∧ s.passEnded i v t ∧ (v.cur.l.flight = none → t.cur.l.flight = none) ∧ ∀ k, (t.core k).basin = (v.core k).basin := by
  obtain ⟨hlane, -, -, hpix, -⟩ := hat
  obtain ⟨t, hrun, hend, -, hbasin⟩ := passEnd_ok (i := i) (dsts := dsts) (begun_passes hlane) (s.begun i).cur.core 0 v
  exact ⟨t, hrun, passEnded_of_begun hlane hpix hend, passEnd_flight hrun, hbasin⟩

/-- The turn of a word at a pass: what it does in the state `o` in which its destinations have been opened. -/
theorem runPasses_eq (hat : s.atPass i r w) (regs : List Nat) : ∃ o, SameRows (s.begun i) o
    ∧ countReads regs w o = .ok ⟨⟩ (s.opened i regs w)
    ∧ openDsts (under ((touch s.cur.blk.nf i).masks.headD 0) (touch s.cur.blk.nf i).dsts)
        ((passList (passSetOf s i)).drop (s.begun i).cur.l.pix) (s.begun i) = .ok ⟨⟩ o
    ∧ ∀ body, runPasses i (touch s.cur.blk.nf i).masks (under ((touch s.cur.blk.nf i).masks.headD 0) (touch s.cur.blk.nf i).dsts) 0 body s
      = (do
          countedOnce do
            openDsts (under ((touch s.cur.blk.nf i).masks.headD 0) (touch s.cur.blk.nf i).dsts)
              ((passList (passSetOf s i)).drop (s.begun i).cur.l.pix)
            body w
          endOfPass s i (under ((touch s.cur.blk.nf i).masks.headD 0) (touch s.cur.blk.nf i).dsts) : M Unit) (s.begun i) := by
  have hw := passList_begun_get hat
  obtain ⟨hlane, hfit, -, hpix, -⟩ := hat
  obtain ⟨o, hopen, hsame, hcount, -⟩ := opened_ok s i regs w
  rw [begun_passes hlane, Option.getD_some] at hopen
  rw [← begun_pix (i := i) hpix] at hw
  refine ⟨o, hsame, hcount, hopen, fun body => ?_⟩
  rw [runPasses, M.bind_ok (beginPasses_ok hlane hfit), M.bind_ok (M.getTeam_run _)]
  simp only [hw]
  rfl

section
variable {masks : List Nat} {dsts : List (Nat × Nat)} {body : Nat → M Unit}

/-- A pass whose body runs to its end. -/
theorem runPasses_turn (hat : s.atPass i r w) (hmasks : (touch s.cur.blk.nf i).masks = masks)
    (hdsts : under (masks.headD 0) (touch s.cur.blk.nf i).dsts = dsts) (regs : List Nat)
    (hbody : ∀ o, SameRows (s.begun i) o → countReads regs w o = .ok ⟨⟩ (s.opened i regs w) → body w o = .ok ⟨⟩ v) :
    ∃ t, runPasses i masks dsts 0 body s = .ok ⟨⟩ t
      ∧ s.passEnded i v t ∧ (v.cur.l.flight = none → t.cur.l.flight = none) ∧ ∀ k, (t.core k).basin = (v.core k).basin := by
  subst hmasks hdsts
  obtain ⟨o, hsame, hcount, hopen, hrun⟩ := runPasses_eq hat regs
  obtain ⟨t, hend, ht⟩ := endOfPass_ok hat (under ((touch s.cur.blk.nf i).masks.headD 0) (touch s.cur.blk.nf i).dsts) v
  exact ⟨t, (hrun body).trans ((M.bind_ok (countedOnce_ok ((M.bind_ok hopen).trans (hbody o hsame hcount)))).trans hend), ht⟩

/-- A pass whose body stops. -/
theorem runPasses_stop (hat : s.atPass i r w) (hmasks : (touch s.cur.blk.nf i).masks = masks)
    (hdsts : under (masks.headD 0) (touch s.cur.blk.nf i).dsts = dsts) (regs : List Nat)
    (hbody : ∀ o, SameRows (s.begun i) o → countReads regs w o = .ok ⟨⟩ (s.opened i regs w) → body w o = .error e v) :
    ∃ cores, runPasses i masks dsts 0 body s = .error e { v with cores := cores }
      ∧ ∀ k, (State.core { v with cores := cores } k).basin = (v.core k).basin := by
  subst hmasks hdsts
  obtain ⟨o, hsame, hcount, hopen, hrun⟩ := runPasses_eq hat regs
  obtain ⟨cores, hstop, hbasin⟩ := countedOnce_error ((M.bind_ok (f := fun _ => body w) hopen).trans (hbody o hsame hcount))
  exact ⟨cores, (hrun body).trans (M.bind_error hstop), hbasin⟩

end

/-! ## Words that commit at once -/

/-- A word without destinations of its own runs its body and retires. -/
theorem runWhole_ok {body : List Nat → M Unit} (hat : s.laneAt i r) (hfit : s.laneFit i)
    (hrun : v.cur.l.run = some r) (hbody : body (passList (passSetOf s i)) (s.begun i) = .ok ⟨⟩ v) :
    ∃ t, runWhole i (touch s.cur.blk.nf i).masks [] 0 body s = .ok ⟨⟩ t ∧ v.retired t r false
      ∧ ∀ k, (t.core k).basin = (v.core k).basin := by
  obtain ⟨v1, hbump, ⟨⟨pt, cores, rfl⟩, hbasin, -⟩⟩ := keepsRows_bump (s.begun i).cur.core 3 (passList (passSetOf s i)).length v
  have hword : runWhole i (touch s.cur.blk.nf i).masks [] 0 body s = retire 0 false
      { v with cur := { v.cur with l := { v.cur.l with pt := pt } }, cores := cores } := by
    rw [runWhole, M.bind_ok (beginPasses_ok hat hfit), M.bind_ok (M.getTeam_run _)]
    refine (M.bind_ok (countedOnce_ok (t := v) hbody)).trans ((M.bind_ok hbump).trans ?_)
    rw [ite_self]
    split <;> rfl
  refine ⟨_, hword.trans (M.onLane_run _ _), ⟨?_, rfl, rfl, rfl, rfl, rfl, rfl, rfl, rfl, rfl, rfl, rfl, rfl, rfl⟩, hbasin⟩
  exact congrArg (Option.bind · fun q => q.next false) hrun

/-- A word without destinations of its own whose body stops. -/
theorem runWhole_stop {body : List Nat → M Unit} (hat : s.laneAt i r) (hfit : s.laneFit i)
    (hbody : body (passList (passSetOf s i)) (s.begun i) = .error e v) :
    ∃ cores, runWhole i (touch s.cur.blk.nf i).masks [] 0 body s = .error e { v with cores := cores }
      ∧ ∀ k, (State.core { v with cores := cores } k).basin = (v.core k).basin := by
  obtain ⟨cores, hstop, hbasin⟩ := countedOnce_error hbody
  refine ⟨cores, ?_, hbasin⟩
  rw [runWhole, M.bind_ok (beginPasses_ok hat hfit), M.bind_ok (M.getTeam_run _)]
  exact M.bind_error hstop

end

end Sys2Proof.LaneTurn


/-! # Lane atomics (06 R144 to R146) -/

namespace Sys2Proof.LaneAtomics
open Sys2Proof Sys2Proof.Machine Sys2Proof.LanePass Sys2Proof.OpenedPass Sys2Proof.LaneTurn Sys2Proof.TeamKept
  Sys2Proof.TeamThroughReads Sys2Proof.BasinPasses

/-! ## Requests -/

section
variable {s : State}

/-- `s` after a request has gone to home slice `h`. -/
def sentTo (s : State) (h : Nat) (q : AtomReq) : State :=
  { s with stamp := s.stamp + 1 }.setSlice h { s.slice h with reqs := (s.slice h).reqs ++ [q] }

theorem reqs_sentTo (h k : Nat) (q : AtomReq) :
    ((sentTo s h q).slice k).reqs = (s.slice k).reqs ++ if h = k then [q] else [] := by
  by_cases hk : h = k
  · subst hk
    rw [sentTo, State.slice_setSlice_same, if_pos rfl]
  · rw [sentTo, State.slice_setSlice_ne _ _ (Ne.symm hk), if_neg hk, List.append_nil]
    rfl

/-- The request of an atomic. -/
def request (T : Team) (p : Place64) (what : AtomOp) (dest : AtomDest) (sys : Bool) (va : Word64) (id : Nat) : AtomReq :=
  { uid := T.uid, ctx := T.id.ctx, cluster := T.cluster, win := p.win, la := p.la, what := what, dest := dest, sys := sys
    va := va, pc := T.s.pc, id := id }

theorem sendAtomic_run (T : Team) (p : Place64) (what : AtomOp) (dest : AtomDest) (sys : Bool) (va : Word64) :
    sendAtomic T p what dest sys va s = .ok s.stamp (sentTo s (homeSlice p.la) (request T p what dest sys va s.stamp)) := rfl

end

/-! ## Operands -/

/-- The operand that a lane atomic reads. -/
def operand (s : State) (f : LMem) (v : BitVec 7) (l : Nat) : Word64 :=
  if f.fmt = 0x1C then
    BitVec.ofNat 64 ((s.cur.regLane (s.core s.cur.core) v.toNat l).1.toNat
      + (s.cur.regLane (s.core s.cur.core) (v.toNat + 1) l).1.toNat * 2 ^ 32)
  else (s.cur.regLane (s.core s.cur.core) v.toNat l).1.setWidth 64

theorem atomOperand_run (f : LMem) (v : BitVec 7) (l : Nat) (s : State) : atomOperand f v l s = .ok (operand s f v l) s := by
  unfold atomOperand operand
  split <;> rfl

theorem operand_congr {s u : State} (hcur : s.cur = u.cur) (hcores : s.cores = u.cores) (f : LMem) (v : BitVec 7) (l : Nat) :
    operand s f v l = operand u f v l := by
  simp only [operand, State.core, hcur, hcores]

/-- `what` answers `op` wherever the issuing team and the cores are those of `u`. -/
def Answers (u : State) (what : Nat → M AtomOp) (op : Nat → AtomOp) : Prop :=
  ∀ s l, s.cur = u.cur → s.cores = u.cores → what l s = .ok (op l) s

/-! ## Words -/

/-- An instruction whose passes send the atomics that `what` says. -/
structure AtomicForm (i : Instr) (f : LMem) (what : Nat → M AtomOp) : Prop where
  run : ∀ s, exec i s = runLane (atomicWord i f what) s
  masks : ∀ nf, (touch nf i).masks = [f.mask.toNat]
  dsts : ∀ nf, (touch nf i).dsts = regsOf f.fmt f.vd

theorem AtomicForm.opened {i : Instr} {f : LMem} {what : Nat → M AtomOp} (h : AtomicForm i f what) (nf : List Word64) :
    under ([f.mask.toNat].headD 0) (touch nf i).dsts = under f.mask.toNat (regsOf f.fmt f.vd) := by
  rw [h.dsts]
  rfl

/-- The operation of `vatom`. -/
def atomOp (f : LMem) (l : Nat) : M AtomOp := do return .lane f.aop.toNat f.fmt.toNat (← atomOperand f f.vb l)

/-- The operation of `vcas`. -/
def casOp (f : LMem) (l : Nat) : M AtomOp := do
  return .laneCas (memBits f.fmt) (← atomOperand f f.vc l) (← atomOperand f f.vb l)

theorem atomicForm_vatom (f : LMem) : AtomicForm (.vatom f) f (atomOp f) := ⟨fun _ => rfl, fun _ => rfl, fun _ => rfl⟩

theorem atomicForm_vcas (f : LMem) : AtomicForm (.vcas f) f (casOp f) := ⟨fun _ => rfl, fun _ => rfl, fun _ => rfl⟩

theorem atomOp_answers (f : LMem) (u : State) : Answers u (atomOp f) fun l => .lane f.aop.toNat f.fmt.toNat (operand u f f.vb l) :=
  fun s l hcur hcores => by
    rw [atomOp, M.bind_ok (atomOperand_run ..), operand_congr hcur hcores]
    rfl

theorem casOp_answers (f : LMem) (u : State) :
    Answers u (casOp f) fun l => .laneCas (memBits f.fmt) (operand u f f.vc l) (operand u f f.vb l) :=
  fun s l hcur hcores => by
    rw [casOp, M.bind_ok (atomOperand_run ..), M.bind_ok (atomOperand_run ..), operand_congr hcur hcores, operand_congr hcur hcores]
    rfl

/-! ## Lanes -/

section
variable {f : LMem} {what : Nat → M AtomOp} {op : Nat → AtomOp} {T : Team} {w : Nat} {s u : State} {xs : List LaneAcc} {x : LaneAcc}
  {p : Piece}

/-- The atomic of one lane, after `n` that have been sent. -/
def laneStep (f : LMem) (what : Nat → M AtomOp) (T : Team) (w n : Nat) (x : LaneAcc) : M Nat := do
  match x.pieces with
  | p :: _ =>
    let op ← what x.lane
    if Win.logged p.place.desc then
      let _ ← sendAtomic T p.place op (.lane f.vd.toNat x.lane (f.fmt == 0x1C)) (f.scope == 5) x.va
      return n + 1
    else
      if (← get).hostPoison p.place then killLane x.lane p.place.la
      else
        let old ← hostRmw (p.place.la % 2 ^ 45) (memBits f.fmt / 8) op.apply
        writeValues f.fmt f.vd.toNat f.mask.toNat w [(x.lane, old)]
      return n
  | [] => return n

/-- The atomics of a pass whose accesses are at hand. -/
def issueLanes (f : LMem) (what : Nat → M AtomOp) (T : Team) (w : Nat) (xs : List LaneAcc) : M Unit := do
  ownDsts (under f.mask.toNat (regsOf f.fmt f.vd)) (xs != [])
  let sent ← xs.foldlM (laneStep f what T w) 0
  onLane fun l => { l with flight := if sent = 0 then none else some { pass := w, left := sent } }
  waitUnless (decide (sent = 0)) .memory
  onLane fun l => { l with flight := none }

/-- The request of a lane to home slice `h`, as its slice keeps it. -/
def laneRequest (f : LMem) (op : Nat → AtomOp) (h : Nat) (x : LaneAcc) : Option (Nat × Nat × AtomOp × AtomDest) :=
  match x.pieces with
  | p :: _ =>
    if homeSlice p.place.la = h then some (p.place.win, p.place.la, op x.lane, .lane f.vd.toNat x.lane (f.fmt == 0x1C)) else none
  | [] => none

/-- What a request asks, and where its old value goes. -/
def askOf (q : AtomReq) : Nat × Nat × AtomOp × AtomDest := (q.win, q.la, q.what, q.dest)

/-- The request that a lane's atomic sends. -/
abbrev laneReq (f : LMem) (T : Team) (x : LaneAcc) (p : Piece) (op : AtomOp) (id : Nat) : AtomReq :=
  request T p.place op (.lane f.vd.toNat x.lane (f.fmt == 0x1C)) (f.scope == 5) x.va id

theorem laneStep_logged {ps : List Piece} (hp : x.pieces = p :: ps) (hwhat : what x.lane s = .ok (op x.lane) s)
    (hlog : Win.logged p.place.desc = true) (n : Nat) : laneStep f what T w n x s = .ok (n + 1)
      (sentTo s (homeSlice p.place.la) (laneReq f T x p (op x.lane) s.stamp)) := by
  rw [laneStep, hp]
  refine (M.bind_ok hwhat).trans ?_
  rw [if_pos hlog, M.bind_ok (sendAtomic_run ..)]
  rfl

/-- Atomics of logged windows are sent in the order of their lanes; nothing else changes. -/
theorem laneSteps_logged (hans : Answers u what op)
    (hlog : ∀ x ∈ xs, x.pieces ≠ [] ∧ ∀ p ∈ x.pieces, Win.logged p.place.desc = true) (n : Nat) (hcur : s.cur = u.cur)
    (hcores : s.cores = u.cores) : ∃ stamp slices, xs.foldlM (laneStep f what T w) n s
        = .ok (n + xs.length) { s with stamp := stamp, slices := slices }
      ∧ ∀ h, (State.slice { s with stamp := stamp, slices := slices } h).reqs.map askOf
        = (s.slice h).reqs.map askOf ++ xs.filterMap (laneRequest f op h) := by
  induction xs generalizing n s with
  | nil => exact ⟨s.stamp, s.slices, rfl, fun h => (List.append_nil _).symm⟩
  | cons x xs ih =>
    obtain ⟨hx, hall⟩ := hlog x (List.mem_cons_self ..)
    obtain ⟨p, ps, hp⟩ := List.exists_cons_of_ne_nil hx
    have hplace := hall p (hp ▸ List.mem_cons_self ..)
    have hstep := laneStep_logged (f := f) (T := T) (w := w) hp (hans s x.lane hcur hcores) hplace n
    obtain ⟨stamp, slices, hrun, hreqs⟩ := ih (n := n + 1)
      (s := sentTo s (homeSlice p.place.la) (laneReq f T x p (op x.lane) s.stamp))
      (fun y hy => hlog y (List.mem_cons_of_mem _ hy)) hcur hcores
    refine ⟨stamp, slices, ?_, fun h => (hreqs h).trans ?_⟩
    · rw [List.foldlM_cons, M.bind_ok hstep, hrun, List.length_cons, Nat.add_right_comm, Nat.add_assoc]
      rfl
    · have hone : List.filterMap (laneRequest f op h) [x] = (if homeSlice p.place.la = h then
          [(p.place.win, p.place.la, op x.lane, AtomDest.lane f.vd.toNat x.lane (f.fmt == 0x1C))] else []) := by
        by_cases hh : homeSlice p.place.la = h <;> simp [laneRequest, hp, hh]
      rw [reqs_sentTo, ← List.singleton_append (l := xs), List.filterMap_append, hone, List.map_append, List.append_assoc]
      split <;> rfl

theorem issueLanes_logged (hown : ∀ q ∈ regsOf f.fmt f.vd, Pte.shr (u.cur.pte q) = false) (hans : Answers u what op) (hxs : xs ≠ [])
    (hlog : ∀ x ∈ xs, x.pieces ≠ [] ∧ ∀ p ∈ x.pieces, Win.logged p.place.desc = true) : ∃ stamp slices,
    issueLanes f what T w xs u = .error (.wait .memory) { u with
        cur := { u.cur with l := { u.cur.l with flight := some { pass := w, left := xs.length } } }, stamp := stamp, slices := slices }
      ∧ ∀ h, (State.slice { u with stamp := stamp, slices := slices } h).reqs.map askOf
        = (u.slice h).reqs.map askOf ++ xs.filterMap (laneRequest f op h) := by
  obtain ⟨stamp, slices, hrun, hreqs⟩ := laneSteps_logged (f := f) (T := T) (w := w) hans hlog 0 rfl rfl
  have hsent : ¬0 + xs.length = 0 := by
    rw [Nat.zero_add]
    exact fun h => hxs (List.length_eq_zero_iff.1 h)
  have howns := ownDsts_own (dsts := under f.mask.toNat (regsOf f.fmt f.vd)) (s := u)
    (fun d hd => by obtain ⟨q, hq, rfl⟩ := List.mem_map.1 hd; exact hown q hq) (xs != [])
  refine ⟨stamp, slices, ?_, hreqs⟩
  rw [issueLanes, M.bind_ok howns, M.bind_ok hrun, M.bind_ok (M.onLane_run ..), decide_eq_false hsent, if_neg hsent]
  rw [Nat.zero_add]
  rfl

/-- The bits that an access of `n` bytes at `a` finds in its word of host memory. -/
abbrev hostBits (u : State) (a n : Nat) : Nat := bits (u.host.readN (a / 8 * 8) 8) (8 * (a % 8)) (8 * n)

/-- `u` with `new` at that place of the word. -/
abbrev hostWith (u : State) (a n new : Nat) : State :=
  u.writeHost (a / 8 * 8) 8 (setBits (u.host.readN (a / 8 * 8) 8) (8 * (a % 8)) (8 * n) new) false

/-- The atomic of a host window is done at once, and its old value is written. -/
theorem laneStep_host {t : State} (hp : x.pieces = [p]) (hlog : Win.logged p.place.desc = false) (hpoison : u.hostPoison p.place = false)
    (hwhat : what x.lane u = .ok (op x.lane) u)
    (hwrite : writeValues f.fmt f.vd.toNat f.mask.toNat w [(x.lane, hostBits u (p.place.la % 2 ^ 45) (memBits f.fmt / 8))]
      (hostWith u (p.place.la % 2 ^ 45) (memBits f.fmt / 8) ((op x.lane).apply (hostBits u (p.place.la % 2 ^ 45) (memBits f.fmt / 8))))
        = .ok ⟨⟩ t) (n : Nat) : laneStep f what T w n x u = .ok n t := by
  rw [laneStep, hp]
  refine (M.bind_ok hwhat).trans ?_
  simp only [hlog, Bool.false_eq_true, if_false, M.bind_run, M.get_run, hpoison, hostRmw, M.set_run, M.pure_run, hwrite]

theorem issueLanes_host (hown : ∀ q ∈ regsOf f.fmt f.vd, Pte.shr (u.cur.pte q) = false) (hapart : u.cur.apart (regsOf f.fmt f.vd) w)
    (hans : Answers u what op) (hp : x.pieces = [p]) (hlog : Win.logged p.place.desc = false) (hpoison : u.hostPoison p.place = false) :
    let a := p.place.la % 2 ^ 45
    let n := memBits f.fmt / 8
    let v := hostWith u a n ((op x.lane).apply (hostBits u a n))
    ∃ cores, issueLanes f what T w [x] u = .ok ⟨⟩ { v with cur := { v.cur with l := { v.cur.l with flight := none } }, cores := cores }
      ∧ (∀ j < (regsOf f.fmt f.vd).length,
          u.putAt { v with cores := cores } (f.vd.toNat + j) w [(x.lane % 32, BitVec.ofNat 32 (hostBits u a n / 2 ^ (32 * j)))])
      ∧ u.basinBut { v with cores := cores } ((regsOf f.fmt f.vd).map fun q => u.cur.rowAt q w) := by
  intro a n v
  have howns := ownDsts_own (dsts := under f.mask.toNat (regsOf f.fmt f.vd)) (s := u)
    (fun d hd => by obtain ⟨q, hq, rfl⟩ := List.mem_map.1 hd; exact hown q hq) ([x] != [])
  obtain ⟨cores, hwrite, hput, hbut⟩ := writeValues_ok (s := v) f.mask.toNat hown hapart [(x.lane, hostBits u a n)]
  have hstep := laneStep_host (T := T) hp hlog hpoison (hans u x.lane rfl rfl) hwrite 0
  refine ⟨cores, ?_, hput, hbut⟩
  rw [issueLanes, M.bind_ok howns, List.foldlM_cons]
  refine (M.bind_ok (M.bind_ok hstep)).trans ?_
  rfl

end

/-! ## Turns -/

section
variable {i : Instr} {f : LMem} {what : Nat → M AtomOp} {op : Nat → AtomOp} {r : LaneRun} {w : Nat} {s o u v : State} {xs : List LaneAcc}

/-- What the opening of destinations leaves of the lane stream. -/
theorem stream_of_sameRows (h : SameRows (s.begun i) o) : o.cur.blk = s.cur.blk ∧ o.cur.l.flight = s.cur.l.flight
    ∧ ∀ m w, o.cur.active m w = s.cur.active m w := by
  obtain ⟨p, x, d, hbegun⟩ := begun_eq s i
  obtain ⟨⟨pt, cores, rfl⟩, -⟩ := h
  rw [hbegun]
  exact ⟨rfl, rfl, fun _ _ => rfl⟩

/-- A pass whose last old value has come ends. -/
theorem returned_pass (hform : AtomicForm i f what) (hat : s.atPass i r w) {fl : PassFlight} (hfl : s.cur.l.flight = some fl)
    (hleft : fl.left = 0) :
    ∃ t, exec i s = .next t ∧ s.passEnded i (s.begun i) t ∧ t.cur.l.flight = none ∧ s.basinBut t [] := by
  have hopens := opened_opens (laneSound_of_atPass hat) (touch s.cur.blk.nf i).srcs w
  generalize ho : s.opened i (touch s.cur.blk.nf i).srcs w = o at hopens
  have hturn : ∃ t, atomicWord i f what s = .ok ⟨⟩ t
      ∧ s.passEnded i { o with cur := { o.cur with l := { o.cur.l with flight := none } } } t
      ∧ ((none : Option PassFlight) = none → t.cur.l.flight = none) ∧ ∀ k, (t.core k).basin = (o.core k).basin := by
    refine runPasses_turn hat (hform.masks _) (hform.opened _) (touch s.cur.blk.nf i).srcs fun o' hsame hcount => ?_
    obtain ⟨hblk, hflight, -⟩ := stream_of_sameRows hsame
    rw [M.bind_ok (M.getTeam_run o'), hblk, M.bind_ok hcount, ho]
    simp only [hflight, hfl, hleft, decide_true]
    rfl
  obtain ⟨t, hrun, hend, hnone, hbasin⟩ := hturn
  refine ⟨t, (hform.run s).trans (runLane_ok hrun), hopens.passEnded (cores := o.cores) hend, hnone rfl, hopens.basinBut fun k _ => ?_⟩
  rw [hbasin]
  rfl

/-- A pass whose accesses are at hand issues its atomics. -/
theorem pass_issues (hat : s.atPass i r w) (hfl : s.cur.l.flight = none) (ho : o = s.opened i (touch s.cur.blk.nf i).srcs w)
    (hxs : passAccesses laneAtomic f.fmt f.va.toNat f.imm32 w (s.cur.active f.mask.toNat w) checkNoTemplate o = .ok xs u)
    (hpend : ∀ x ∈ xs, ∀ p ∈ x.pieces, u.hostPending o.cur p.place = false) :
    ∃ body, atomicWord i f what = runPasses i [f.mask.toNat] (under f.mask.toNat (regsOf f.fmt f.vd)) 0 body
      ∧ ∀ o', SameRows (s.begun i) o' → countReads (touch s.cur.blk.nf i).srcs w o' = .ok ⟨⟩ o
        → body w o' = issueLanes f what o.cur w xs u := by
  refine ⟨_, rfl, fun o' hsame hcount => ?_⟩
  have hopens := opened_opens (laneSound_of_atPass hat) (touch s.cur.blk.nf i).srcs w
  rw [← ho] at hopens
  have hlanes := soundLanes_opened hat hopens (List.Subset.refl _) f.mask.toNat
  obtain ⟨hblk, hflight, hactive⟩ := stream_of_sameRows hsame
  have hcur : o.cur = o'.cur := by
    obtain ⟨o1, hcount', ⟨cores, rfl⟩, -⟩ := countReads_counts (touch s.cur.blk.nf i).srcs w o'
    obtain rfl := (EStateM.Result.ok.inj (hcount.symm.trans hcount')).2
    rfl
  have hnone : ¬(xs.any fun x => x.pieces.any fun p => u.hostPending o.cur p.place) = true := by
    rw [Bool.not_eq_true, List.any_eq_false]
    intro x hx
    rw [Bool.not_eq_true, List.any_eq_false]
    intro p hp
    rw [hpend x hx p hp]
    decide
  rw [M.bind_ok (M.getTeam_run o'), hblk, M.bind_ok hcount]
  simp only [hflight, hfl]
  rw [← hcur, M.bind_ok hlanes, M.bind_ok hxs, M.bind_ok (M.get_run u), if_neg hnone]
  rfl

/-- The destinations of a word stand on pages of the team's own while its accesses are made. -/
theorem accesses_own (hform : AtomicForm i f what) (hat : s.atPass i r w) (ho : o = s.opened i (touch s.cur.blk.nf i).srcs w)
    (hxs : passAccesses laneAtomic f.fmt f.va.toNat f.imm32 w (s.cur.active f.mask.toNat w) checkNoTemplate o = .ok xs u) :
    ∀ q ∈ regsOf f.fmt f.vd, Pte.shr (u.cur.pte q) = false := by
  intro q hq
  have hopens := opened_opens (laneSound_of_atPass hat) (touch s.cur.blk.nf i).srcs w
  obtain ⟨-, hdsts⟩ := laneSound_of_atPass hat
  obtain ⟨hshr, -⟩ := hdsts q (hform.dsts _ ▸ hq)
  rw [cur_of_keepsTeam (keepsTeam_passAccesses _ _ _ _ _ _ keepsTeam_checkNoTemplate) hxs, ho, hopens.shr, hshr]

/-- The atomics of logged windows go to their home slices, and the lane stream waits for their old values. -/
theorem sent_pass (hform : AtomicForm i f what) (hat : s.atPass i r w) (hfl : s.cur.l.flight = none)
    (ho : o = s.opened i (touch s.cur.blk.nf i).srcs w)
    (hxs : passAccesses laneAtomic f.fmt f.va.toNat f.imm32 w (s.cur.active f.mask.toNat w) checkNoTemplate o = .ok xs u)
    (hpieces : ∀ x ∈ xs, x.pieces ≠ [] ∧ ∀ p ∈ x.pieces, u.hostPending o.cur p.place = false) (hans : Answers u what op) (hne : xs ≠ [])
    (hlog : ∀ x ∈ xs, ∀ p ∈ x.pieces, Win.logged p.place.desc = true) :
    ∃ t, exec i s = .next t ∧ t.cur.l.stall = some .memory ∧ t.cur.l.flight = some { pass := w, left := xs.length }
      ∧ t.hbm = u.hbm ∧ t.host = u.host ∧ u.basinBut t []
      ∧ ∀ h, (t.slice h).reqs.map askOf = (u.slice h).reqs.map askOf ++ xs.filterMap (laneRequest f op h) := by
  obtain ⟨body, hword, hbody⟩ := pass_issues (what := what) hat hfl ho hxs fun x hx => (hpieces x hx).2
  obtain ⟨stamp, slices, hissue, hreqs⟩ := issueLanes_logged (f := f) (w := w) (T := o.cur) (accesses_own hform hat ho hxs) hans hne
    fun x hx => ⟨(hpieces x hx).1, hlog x hx⟩
  obtain ⟨cores, hrun, hbasin⟩ := runPasses_stop hat (hform.masks _) (hform.opened _) (touch s.cur.blk.nf i).srcs
    fun o' hsame hcount => (hbody o' hsame (ho ▸ hcount)).trans hissue
  rw [← hword] at hrun
  exact ⟨_, (hform.run s).trans (runLane_waits hrun), rfl, rfl, rfl, rfl,
    basinBut_of_basin (v := u) (fun _ _ => rfl) hbasin, hreqs⟩

/-- The atomic of a host window is done in its pass. -/
theorem host_pass {x : LaneAcc} {p : Piece} (hform : AtomicForm i f what) (hat : s.atPass i r w) (hfl : s.cur.l.flight = none)
    (ho : o = s.opened i (touch s.cur.blk.nf i).srcs w)
    (hxs : passAccesses laneAtomic f.fmt f.va.toNat f.imm32 w (s.cur.active f.mask.toNat w) checkNoTemplate o = .ok [x] u)
    (hp : x.pieces = [p]) (hpend : u.hostPending o.cur p.place = false) (hans : Answers u what op)
    (hlog : Win.logged p.place.desc = false) (hpoison : u.hostPoison p.place = false) (hapart : u.cur.apart (regsOf f.fmt f.vd) w) :
    let a := p.place.la % 2 ^ 45
    let n := memBits f.fmt / 8
    ∃ t, exec i s = .next t ∧ s.passEnded i (hostWith u a n ((op x.lane).apply (hostBits u a n))) t
      ∧ (∀ j < (regsOf f.fmt f.vd).length,
          u.putAt t (f.vd.toNat + j) w [(x.lane % 32, BitVec.ofNat 32 (hostBits u a n / 2 ^ (32 * j)))])
      ∧ u.basinBut t ((regsOf f.fmt f.vd).map fun q => u.cur.rowAt q w) := by
  intro a n
  have hpieces : ∀ y ∈ [x], ∀ q ∈ y.pieces, u.hostPending o.cur q.place = false := by
    intro y hy q hq
    rw [List.mem_singleton.1 hy, hp, List.mem_singleton] at hq
    rwa [hq]
  obtain ⟨body, hword, hbody⟩ := pass_issues (what := what) hat hfl ho hxs hpieces
  obtain ⟨cores, hissue, hput, hbut⟩ := issueLanes_host (T := o.cur) (accesses_own hform hat ho hxs) hapart hans hp hlog hpoison
  obtain ⟨t, hrun, hend, -, hbasin⟩ := runPasses_turn hat (hform.masks _) (hform.opened _) (touch s.cur.blk.nf i).srcs
    fun o' hsame hcount => (hbody o' hsame (ho ▸ hcount)).trans hissue
  rw [← hword] at hrun
  exact ⟨t, (hform.run s).trans (runLane_ok hrun), hend, fun j hj => putAt_of_basin (hput j hj) hbasin,
    basinBut_of_basin hbut hbasin⟩

end
end Sys2Proof.LaneAtomics


/-! # Row updates (06 R148) -/

namespace Sys2Proof.RowUpdates
open Sys2Proof Sys2Proof.Machine Sys2Proof.LanePass Sys2Proof.OpenedPass Sys2Proof.LaneTurn Sys2Proof.TeamKept Sys2Proof.TeamThroughReads
  Sys2Proof.LaneAtomics

section
variable {i : Instr} {f : LMem} {r : LaneRun} {ps : List Nat} {va : Word64} {p : Place64} {s o u0 u t : State}

/-! ## Words over rows -/

theorem retired_of_begun {ends : Bool} (h : (s.begun i).retired t r ends) : s.retired t r ends := by
  obtain ⟨p, x, d, hbegun⟩ := begun_eq s i
  rw [hbegun] at h
  exact h

theorem begun_run (hat : s.laneAt i r) : (s.begun i).cur.l.run = some r := by
  obtain ⟨p, x, d, hbegun⟩ := begun_eq s i
  rw [hbegun]
  exact hat.1

theorem begun_flight : (s.begun i).cur.l.flight = s.cur.l.flight := by
  obtain ⟨p, x, d, hbegun⟩ := begun_eq s i
  rw [hbegun]

theorem begun_active (m w : Nat) : (s.begun i).cur.active m w = s.cur.active m w := by
  obtain ⟨p, x, d, hbegun⟩ := begun_eq s i
  rw [hbegun]
  rfl

/-- A lane is active in some pass. -/
theorem anyActive (m : Nat) (h : ∃ w ∈ ps, s.cur.active m w ≠ 0) : (ps.any fun w => (s.begun i).cur.active m w != 0) = true := by
  obtain ⟨w, hw, hne⟩ := h
  exact List.any_eq_true.2 ⟨w, hw, by rw [begun_active]; exact bne_iff_ne.2 hne⟩

/-- The sampled value of a scalar register that no atomic has still to give. -/
theorem sampled_run (hrun : s.cur.l.run = some r) (va : BitVec 7) (hlate : ∀ q ∈ r.blk.late, q.1 ≠ va.toNat) :
    sampled va.toNat s = .ok (if va = 0 then 0 else Table.get 0 r.blk.xs va.toNat) s := by
  have hblk : s.cur.blk = r.blk := by rw [Team.blk, hrun]
  have hnone : ¬(r.blk.late.any fun q => q.1 == va.toNat) = true := by
    rw [Bool.not_eq_true, List.any_eq_false]
    intro q hq
    rw [beq_iff_eq]
    exact hlate q hq
  rw [sampled, M.bind_ok (M.getTeam_run s), hblk]
  by_cases hva : va = 0
  · subst hva
    rfl
  · have hne : ¬va.toNat = 0 := fun h => hva (BitVec.eq_of_toNat_eq h)
    rw [if_neg hne, if_neg hva, if_neg hnone]
    rfl

/-! ## `vrowatom` -/

theorem exec_vrowatom (f : LMem) (s : State) : exec (.vrowatom f) s = runLane (runWhole (.vrowatom f) [f.mask.toNat] [] 0 (rowAtomic f)) s := rfl

/-- A row update that has nothing to send, or whose update is done, retires. -/
theorem rowAtomic_retires (hat : s.laneAt (.vrowatom f) r) (hfit : s.laneFit (.vrowatom f))
    (hbody : rowAtomic f (passList (passSetOf s (.vrowatom f))) (s.begun (.vrowatom f)) = .ok ⟨⟩ (s.begun (.vrowatom f))) :
    ∃ t, exec (.vrowatom f) s = .next t ∧ s.retired t r false := by
  obtain ⟨t, hrun, hend, -⟩ := runWhole_ok hat hfit (begun_run hat) hbody
  exact ⟨t, (exec_vrowatom f s).trans (runLane_ok hrun), retired_of_begun hend⟩

theorem rowAtomic_done {fl : PassFlight} (hfl : o.cur.l.flight = some fl) (hleft : fl.left = 0) (ps : List Nat) :
    rowAtomic f ps o = .ok ⟨⟩ o := by
  rw [rowAtomic, M.bind_ok (M.getTeam_run o)]
  simp only [hfl, hleft, decide_true, M.waitUnless_true]

theorem rowAtomic_idle (hfl : o.cur.l.flight = none) (hidle : ∀ w ∈ ps, o.cur.active f.mask.toNat w = 0) :
    rowAtomic f ps o = .ok ⟨⟩ o := by
  have hnone : (ps.any fun w => o.cur.active f.mask.toNat w != 0) = false :=
    List.any_eq_false.2 fun w hw => by rw [hidle w hw]; decide
  rw [rowAtomic, M.bind_ok (M.getTeam_run o)]
  simp only [hfl, hnone, Bool.false_eq_true, if_false, M.pure_run]

/-- The update of a row, as its home slice keeps it. -/
def rowAsk (f : LMem) (u : State) (ps : List Nat) : AtomOp :=
  .row f.aop.toNat f.vc.toNat ((u.cur.rowLanes f.mask.toNat f.vc.toNat ps).map fun l =>
    (l, (u.cur.regLane (u.core u.cur.core) f.vb.toNat l).1))

theorem keepsTeam_countReads {T : Team} (regs : List Nat) (w : Nat) : KeepsTeam T (countReads regs w) :=
  keepsTeam_bind (keepsTeam_iff.2 fun _ => id) fun _ => keepsTeam_bump _ _ _

/-- The words of a register at some lanes. -/
theorem readLanes_run (q : Nat) (lanes : List Nat) (s : State) :
    (lanes.mapM fun l => do return (l, ← readLane q l) : M (List (Nat × Word32))) s
      = .ok (lanes.map fun l => (l, (s.cur.regLane (s.core s.cur.core) q l).1)) s :=
  mapM_ok fun _ => rfl

/-- A row update of a logged window is sent, and the lane stream waits. -/
theorem rowAtomic_sends (hrun : o.cur.l.run = some r) (hfl : o.cur.l.flight = none)
    (hactive : (ps.any fun w => o.cur.active f.mask.toNat w != 0) = true) (hlate : ∀ q ∈ r.blk.late, q.1 ≠ f.va.toNat)
    (hva : va = (if f.va = 0 then 0 else Table.get 0 r.blk.xs f.va.toNat) + f.imm32.signExtend 64)
    (hcount : ps.forM (fun w => countReads [f.vb.toNat] w) o = .ok () u0) (hrow : locateRow laneAtomic o.cur va f.vc.toNat u0 = .ok p u)
    (hsound : ∀ w ∈ ps, (u.cur.regRow (u.core u.cur.core) f.vb.toNat w).2 = 0) (hlog : Win.logged p.desc = true) :
    ∃ q : AtomReq, q.win = p.win ∧ q.la = p.la ∧ q.dest = .none ∧ q.what = rowAsk f u ps
      ∧ rowAtomic f ps o = .error (.wait .memory) { sentTo u (homeSlice p.la) q with
          cur := { u.cur with l := { u.cur.l with flight := some { pass := 0, left := 1 } } } } := by
  have hcur0 : u0.cur = o.cur := cur_of_keepsTeam (keepsTeam_forM fun w => keepsTeam_countReads _ w) hcount
  have hsampled := sampled_run (s := u0) (hcur0 ▸ hrun) f.va hlate
  have hlanes : (ps.forM fun w => if w < f.vc.toNat then do
        let _ ← soundLanes [f.vb.toNat] w (o.cur.active f.mask.toNat w)
      else pure () : M PUnit) u
      = .ok ⟨⟩ u := forM_ok fun w hw => by
    split
    · rw [M.bind_ok (soundLanes_one (hsound w hw) _)]
      rfl
    · rfl
  have hread := readLanes_run f.vb.toNat (u.cur.rowLanes f.mask.toNat f.vc.toNat ps) u
  refine ⟨request u.cur p (rowAsk f u ps) .none false va u.stamp, rfl, rfl, rfl, rfl, ?_⟩
  rw [rowAtomic, M.bind_ok (M.getTeam_run o)]
  simp only [hfl, hactive, if_true]
  rw [M.bind_ok hcount, M.bind_ok hsampled]
  subst hva
  refine (M.bind_ok hrow).trans ?_
  rw [M.bind_ok hlanes, M.bind_ok (M.getTeam_run u), M.bind_ok hread, if_pos hlog, M.bind_ok (sendAtomic_run ..)]
  rfl

/-- A turn of `vrowatom` that sends its update. -/
theorem vrowatom_sends (hat : s.laneAt (.vrowatom f) r) (hfit : s.laneFit (.vrowatom f)) (ho : o = s.begun (.vrowatom f))
    (hps : ps = passList (s.cur.passSet [f.mask.toNat])) (hfl : s.cur.l.flight = none)
    (hactive : ∃ w ∈ ps, s.cur.active f.mask.toNat w ≠ 0) (hlate : ∀ q ∈ r.blk.late, q.1 ≠ f.va.toNat)
    (hva : va = (if f.va = 0 then 0 else Table.get 0 r.blk.xs f.va.toNat) + f.imm32.signExtend 64)
    (hcount : ps.forM (fun w => countReads [f.vb.toNat] w) o = .ok () u0) (hrow : locateRow laneAtomic o.cur va f.vc.toNat u0 = .ok p u)
    (hsound : ∀ w ∈ ps, (u.cur.regRow (u.core u.cur.core) f.vb.toNat w).2 = 0) (hlog : Win.logged p.desc = true) :
    ∃ t, exec (.vrowatom f) s = .next t ∧ t.cur.l.stall = some .memory ∧ t.cur.l.flight = some { pass := 0, left := 1 }
      ∧ (∃ q, (t.slice (homeSlice p.la)).reqs = (u.slice (homeSlice p.la)).reqs ++ [q] ∧ q.win = p.win ∧ q.la = p.la ∧ q.dest = .none
          ∧ q.what = rowAsk f u ps)
      ∧ t.hbm = u.hbm ∧ u.basinBut t [] := by
  subst ho hps
  obtain ⟨q, hwin, hla, hdest, hwhat, hbody⟩ :=
    rowAtomic_sends (begun_run hat) (begun_flight.trans hfl) (anyActive _ hactive) hlate hva hcount hrow hsound hlog
  obtain ⟨cores, hrun, hbasin⟩ := runWhole_stop hat hfit hbody
  have hreqs := reqs_sentTo (s := u) (homeSlice p.la) (homeSlice p.la) q
  rw [if_pos rfl] at hreqs
  exact ⟨_, (exec_vrowatom f s).trans (runLane_waits hrun), rfl, rfl, ⟨q, hreqs, hwin, hla, hdest, hwhat⟩, rfl,
    basinBut_of_basin (v := u) (fun _ _ => rfl) hbasin⟩

end
end Sys2Proof.RowUpdates


/-! # Row loads (06 R147) -/

namespace Sys2Proof.RowLoads
open Sys2Proof Sys2Proof.Machine Sys2Proof.LanePass Sys2Proof.OpenedPass Sys2Proof.LaneTurn Sys2Proof.TeamKept Sys2Proof.TeamThroughReads
  Sys2Proof.RowUpdates

section
variable {s u v : State}

/-! ## Opening without a look at poison -/

/-- A computation that always runs to its end and leaves each lane word of each register in its Basin row. -/
def KeepsPlaces (m : M Unit) : Prop := ∀ s, ∃ t, m s = .ok ⟨⟩ t ∧ ∀ q w, t.cur.rowAt q w = s.cur.rowAt q w

theorem keepsPlaces_pure : KeepsPlaces (pure ⟨⟩) := fun s => ⟨s, rfl, fun _ _ => rfl⟩

theorem keepsPlaces_bind {m : M Unit} {f : Unit → M Unit} (hm : KeepsPlaces m) (hf : KeepsPlaces (f ⟨⟩)) : KeepsPlaces (m >>= f) := fun s => by
  obtain ⟨t, hrun, ht⟩ := hm s
  obtain ⟨u, hrun', hu⟩ := hf t
  exact ⟨u, (M.bind_ok hrun).trans hrun', fun q w => (hu q w).trans (ht q w)⟩

theorem keepsPlaces_forM {α : Type} {l : List α} {f : α → M PUnit} (h : ∀ a, KeepsPlaces (f a)) : KeepsPlaces (l.forM f) := by
  induction l with
  | nil => exact keepsPlaces_pure
  | cons a r ih => exact keepsPlaces_bind (h a) ih

theorem rowAt_reentered (s : State) (r : Nat) (c : Core) (q w : Nat) :
    (reentered s r (fullPte (s.cur.pte r)) c).cur.rowAt q w = s.cur.rowAt q w := by
  rw [Team.rowAt, Team.rowAt, reentered, pte_setPte]
  split
  case isTrue h => rw [bank_fullPte, rowBase_fullPte, h]
  case isFalse => rfl

theorem keepsPlaces_expandReg (r k : Nat) : KeepsPlaces (expandReg r k) := fun s => by
  rw [expandReg, M.bind_ok (M.get_run s)]
  by_cases hform : Pte.form (s.cur.pte r) = Form.full
  · exact ⟨s, congrFun (if_neg (not_not.2 hform)) s, fun _ _ => rfl⟩
  · obtain ⟨t, hrun, ⟨cores, rfl⟩, -⟩ := bump_counts s.cur.core 8 k (reentered s r (fullPte (s.cur.pte r)) (expandedCore s r))
    exact ⟨_, (congrFun (if_pos hform) s).trans ((M.bind_ok (setForm_full_run hform)).trans hrun), rowAt_reentered s r (expandedCore s r)⟩

theorem keepsPlaces_getTeam {f : Team → M Unit} (h : ∀ t, KeepsPlaces (f t)) : KeepsPlaces (getTeam >>= f) := fun s => h s.cur s

theorem keepsPlaces_openDsts (dsts : List (Nat × Nat)) (ps : List Nat) : KeepsPlaces (openDsts dsts ps) :=
  keepsPlaces_getTeam fun T => keepsPlaces_forM fun d => by
    split
    · exact keepsPlaces_pure
    · exact keepsPlaces_expandReg _ _

/-- Destinations open, each in the rows in which it stood. -/
theorem openDsts_rows (dsts : List (Nat × Nat)) (ps : List Nat) (s : State) : ∃ t, openDsts dsts ps s = .ok ⟨⟩ t ∧ SameRows s t
    ∧ ∀ q w, t.cur.rowAt q w = s.cur.rowAt q w := by
  obtain ⟨t, hrun, ht⟩ := keepsRows_openDsts dsts ps s
  obtain ⟨t', hrun', ht'⟩ := keepsPlaces_openDsts dsts ps s
  obtain rfl := (EStateM.Result.ok.inj (hrun.symm.trans hrun')).2
  exact ⟨t, hrun, ht, ht'⟩

theorem takeDsts_own {dsts : List (Nat × Nat)} (h : ∀ d ∈ dsts, Pte.shr (s.cur.pte d.1) = false) (ps : List Nat) :
    takeDsts dsts ps s = .ok ⟨⟩ s := by
  have hshared : dsts.filter (fun d => Pte.shr (s.cur.pte d.1)) = [] :=
    List.filter_eq_nil_iff.2 fun d hd => by rw [h d hd]; decide
  rw [takeDsts, M.bind_run, M.getTeam_run]
  simp only [hshared]
  rfl

/-! ## Rows of a register -/

section
variable {t : State} (hcore : t.cur.core = s.cur.core) (hbasin : ∀ k, (t.core k).basin = (s.core k).basin)
include hcore hbasin

theorem putAt_of_rows {q w : Nat} {vals : List (Nat × Word32)} (hrow : ∀ q w, t.cur.rowAt q w = s.cur.rowAt q w) (h : t.putAt v q w vals) :
    s.putAt v q w vals := by
  simpa only [State.putAt, State.basinRow, hcore, hbasin, hrow] using h

theorem basinBut_of_rows {rows : List Nat} (h : t.basinBut v rows) : s.basinBut v rows := by
  simpa only [State.basinBut, State.basinRow, hcore, hbasin] using h

end

theorem rowAt_inj {T : Team} {q w x : Nat} (h : T.rowAt q w = T.rowAt q x) : w = x := by
  rw [Team.rowAt, Team.rowAt] at h
  omega

/-- The values of lane word `w` among those of a row. -/
def valuesAt (vals : List (Nat × Nat)) (w : Nat) : List (Nat × Word32) :=
  (vals.filter fun x => x.1 / 32 == w).map fun x => (x.1 % 32, BitVec.ofNat 32 x.2)

/-- One lane word of a register takes its values. -/
theorem writeValues_row {fmt : BitVec 5} {vd : BitVec 7} (hfmt : fmt ≠ 0x1C) (hown : Pte.shr (s.cur.pte vd.toNat) = false) (mask w : Nat)
    (vals : List (Nat × Nat)) : ∃ cores, writeValues fmt vd.toNat mask w vals s = .ok ⟨⟩ { s with cores := cores }
      ∧ s.putAt { s with cores := cores } vd.toNat w (vals.map fun x => (x.1 % 32, BitVec.ofNat 32 x.2))
      ∧ s.basinBut { s with cores := cores } [s.cur.rowAt vd.toNat w] := by
  have hregs : regsOf fmt vd = [vd.toNat] := if_neg hfmt
  obtain ⟨cores, hrun, hput, hbut⟩ := writeValues_ok (fmt := fmt) (vd := vd) (w := w) (s := s) mask
    (by rw [hregs]; simpa using hown) (by rw [hregs]; exact List.nodup_singleton _) vals
  rw [hregs] at hput hbut
  refine ⟨cores, hrun, ?_, hbut⟩
  simpa using hput 0 Nat.one_pos

/-- The lane words of a list take their values one after another. -/
theorem writeRows_ok {fmt : BitVec 5} {vd : BitVec 7} {ws : List Nat} (hfmt : fmt ≠ 0x1C) (hown : Pte.shr (s.cur.pte vd.toNat) = false)
    (hws : ws.Nodup) (mask : Nat) (vals : List (Nat × Nat)) : ∃ cores,
    ws.forM (fun w => writeValues fmt vd.toNat mask w (vals.filter fun x => x.1 / 32 == w)) s = .ok ⟨⟩ { s with cores := cores }
      ∧ (∀ w ∈ ws, s.putAt { s with cores := cores } vd.toNat w (valuesAt vals w))
      ∧ s.basinBut { s with cores := cores } (ws.map fun w => s.cur.rowAt vd.toNat w) := by
  induction ws generalizing s with
  | nil => exact ⟨s.cores, rfl, fun w hw => absurd hw List.not_mem_nil, fun _ _ => rfl⟩
  | cons w ws ih =>
    obtain ⟨hnot, hrest⟩ := List.nodup_cons.1 hws
    obtain ⟨cores1, hrun1, hput1, hbut1⟩ := writeValues_row hfmt hown mask w (vals.filter fun x => x.1 / 32 == w)
    obtain ⟨cores, hrun, hput, hbut⟩ := ih (s := { s with cores := cores1 }) hown hrest
    have hother {x : Nat} (hx : x ∈ ws) : s.cur.rowAt vd.toNat x ≠ s.cur.rowAt vd.toNat w := fun heq =>
      hnot (rowAt_inj heq ▸ hx)
    refine ⟨cores, (M.bind_ok hrun1).trans hrun, fun x hx k hk => ?_, fun k hk => ?_⟩
    · rcases List.mem_cons.1 hx with rfl | hx
      · refine (congrArg (rowWord · k) (hbut _ fun hmem => ?_)).trans (hput1 k hk)
        obtain ⟨y, hy, heq⟩ := List.mem_map.1 hmem
        exact hother hy heq
      · refine (hput x hx k hk).trans (congrArg (fun row => Option.getD _ (rowWord row k)) ?_)
        exact hbut1 _ fun hmem => hother hx (List.mem_singleton.1 hmem)
    · rw [List.map_cons, List.mem_cons, not_or] at hk
      exact (hbut k hk.2).trans (hbut1 k fun hmem => hk.1 (List.mem_singleton.1 hmem))

/-- The values of a row are written to a register on a page of the team's own. -/
theorem writeRow_ok {fmt : BitVec 5} {vd : BitVec 7} {ws : List Nat} (hfmt : fmt ≠ 0x1C) (hown : Pte.shr (u.cur.pte vd.toNat) = false)
    (hws : ws.Nodup) (mask : Nat) (vals : List (Nat × Nat)) : ∃ v,
    (if vals ≠ [] then do
        takeDsts (under mask (regsOf fmt vd)) ws
        openDsts (under mask (regsOf fmt vd)) ws
        ws.forM fun w => writeValues fmt vd.toNat mask w (vals.filter fun x => x.1 / 32 == w)
        reformDsts (under mask (regsOf fmt vd))
      else pure () : M Unit) u = .ok ⟨⟩ v
      ∧ (∃ pt cores, v = { u with cur := { u.cur with l := { u.cur.l with pt := pt } }, cores := cores })
      ∧ (∀ w ∈ ws, u.putAt v vd.toNat w (valuesAt vals w)) ∧ u.basinBut v (ws.map fun w => u.cur.rowAt vd.toNat w) := by
  by_cases hvals : vals = []
  · subst hvals
    exact ⟨u, rfl, ⟨u.cur.l.pt, u.cores, rfl⟩, fun _ _ _ _ => rfl, fun _ _ => rfl⟩
  · have hregs : regsOf fmt vd = [vd.toNat] := if_neg hfmt
    rw [if_pos hvals, hregs]
    have htake := takeDsts_own (s := u) (dsts := under mask [vd.toNat]) (fun d hd => by rw [List.mem_singleton.1 hd]; exact hown) ws
    obtain ⟨u1, hopen, ⟨heq, hbasin1, hshr⟩, hrow⟩ := openDsts_rows (under mask [vd.toNat]) ws u
    obtain ⟨cores2, hwrite, hput, hbut⟩ := writeRows_ok hfmt ((hshr _).trans hown) hws mask vals
    obtain ⟨v, hreform, heq3, hbasin3, -⟩ := keepsRows_reformDsts (under mask [vd.toNat]) { u1 with cores := cores2 }
    have hcore : u1.cur.core = u.cur.core := by
      obtain ⟨pt1, cores1, rfl⟩ := heq
      rfl
    refine ⟨v, (M.bind_ok htake).trans ((M.bind_ok hopen).trans ((M.bind_ok hwrite).trans hreform)), ?_, fun w hw => ?_, ?_⟩
    · obtain ⟨pt1, cores1, rfl⟩ := heq
      obtain ⟨pt3, cores3, rfl⟩ := heq3
      exact ⟨pt3, cores3, rfl⟩
    · exact putAt_of_rows hcore hbasin1 hrow (putAt_of_basin (hput w hw) hbasin3)
    · simpa only [hrow] using basinBut_of_rows hcore hbasin1 (basinBut_of_basin hbut hbasin3)

end
/-! ## `vldrow` -/

section
variable {f : LMem} {r : LaneRun} {va : Word64} {p : Place64} {ds : List Delivered} {ps : List Nat} {s o u0 u : State}

theorem nodup_passList (p : BitVec 32) : (passList p).Nodup := List.nodup_range.filter _

/-- The words of a row, each with the lane that takes it. -/
def rowValues (f : LMem) (T : Team) (ds : List Delivered) (ps : List Nat) : List (Nat × Nat) :=
  (T.rowLanes f.mask.toNat f.vc.toNat ps).map fun l => (l, secBytes (ds.getD (l / 8) unwritten).data (4 * (l % 8)) 4)

theorem getD_sound (h : ∀ d ∈ ds, d.poison = false) (k : Nat) : (ds.getD k unwritten).poison = false := by
  rw [List.getD_eq_getElem?_getD]
  cases hk : ds[k]? with
  | none => rfl
  | some d => exact h d (List.mem_of_getElem? hk)

/-- Sectors without poison give every lane of the row its word. -/
theorem rowValues_sound (h : ∀ d ∈ ds, d.poison = false) (T : Team) (la : Nat) (s : State) :
    killPoisoned ((T.rowLanes f.mask.toNat f.vc.toNat ps).map fun l =>
      (l, secBytes (ds.getD (l / 8) unwritten).data (4 * (l % 8)) 4, (ds.getD (l / 8) unwritten).poison, la + 4 * l)) s
        = .ok (rowValues f T ds ps) s := by
  refine (killPoisoned_sound (fun g hg => ?_) s).trans (congrArg (EStateM.Result.ok · s) (List.map_map ..))
  obtain ⟨l, -, rfl⟩ := List.mem_map.1 hg
  exact getD_sound h _

/-- A lane word at or above the row's length takes nothing. -/
theorem valuesAt_above {T : Team} {w : Nat} (h : ¬w < f.vc.toNat) : valuesAt (rowValues f T ds ps) w = [] := by
  have hnone : (rowValues f T ds ps).filter (fun x => x.1 / 32 == w) = [] := by
    refine List.filter_eq_nil_iff.2 fun x hx => ?_
    obtain ⟨l, hl, rfl⟩ := List.mem_map.1 hx
    obtain ⟨v, hv, hl⟩ := List.mem_flatMap.1 hl
    obtain ⟨k, hk, rfl⟩ := List.mem_map.1 hl
    have hv := of_decide_eq_true (List.mem_filter.1 hv).2
    have hk := lt_of_mem_lanesOf hk
    rw [beq_iff_eq]
    omega
  rw [valuesAt, hnone]
  rfl

/-- A turn of a word that commits at once. -/
theorem runLane_whole {i : Instr} {v : State} {body : List Nat → M Unit} (hat : s.laneAt i r) (hfit : s.laneFit i)
    (hrun : v.cur.l.run = some r) (hbody : body (passList (passSetOf s i)) (s.begun i) = .ok ⟨⟩ v) :
    ∃ t, runLane (runWhole i (touch s.cur.blk.nf i).masks [] 0 body) s = .next t ∧ v.retired t r false
      ∧ ∀ k, (t.core k).basin = (v.core k).basin := by
  obtain ⟨t, hword, ht⟩ := runWhole_ok hat hfit hrun hbody
  exact ⟨t, runLane_ok hword, ht⟩

theorem vldrow_loads (hat : s.laneAt (.vldrow f) r) (hfit : s.laneFit (.vldrow f)) (hsound : s.laneSound (.vldrow f))
    (hfmt : f.fmt ≠ 0x1C) (hps : ps = passList (s.cur.passSet [f.mask.toNat])) (ho : o = s.begun (.vldrow f))
    (hactive : ∃ w ∈ ps, s.cur.active f.mask.toNat w ≠ 0) (hlate : ∀ q ∈ r.blk.late, q.1 ≠ f.va.toNat)
    (hva : va = (if f.va = 0 then 0 else Table.get 0 r.blk.xs f.va.toNat) + f.imm32.signExtend 64)
    (hrow : locateRow laneLoad o.cur va f.vc.toNat o = .ok p u0)
    (hds : rowSectorsOf laneLoad o.cur va p f.vc.toNat f.hint.toNat u0 = .ok ds u) (hgood : ∀ d ∈ ds, d.poison = false) :
    u.cur.l.run = some r ∧ ∃ t, exec (.vldrow f) s = .next t ∧ u.retired t r false
      ∧ (∀ w ∈ ps, u.putAt t f.vd.toNat w (valuesAt (rowValues f o.cur ds ps) w))
      ∧ u.basinBut t (ps.map fun w => u.cur.rowAt f.vd.toNat w) := by
  have hcur0 : u0.cur = o.cur := cur_of_keepsTeam (keepsTeam_locateRow _ _ _ _) hrow
  have hcur : u.cur = o.cur := (cur_of_keepsTeam (keepsTeam_rowSectorsOf _ _ _ _ _ _) hds).trans hcur0
  have horun : o.cur.l.run = some r := ho ▸ begun_run hat
  have hown : Pte.shr (u.cur.pte f.vd.toNat) = false := by
    obtain ⟨-, hdsts⟩ := hsound
    obtain ⟨hshr, -⟩ := hdsts f.vd.toNat (by show f.vd.toNat ∈ regsOf f.fmt f.vd; rw [regsOf, if_neg hfmt]; exact List.mem_singleton_self _)
    rw [hcur, ho, begun_pte, hshr]
  obtain ⟨v, hwrite, heq, hput, hbut⟩ := writeRow_ok hfmt hown ((hps ▸ nodup_passList _ : ps.Nodup).filter fun w => decide (w < f.vc.toNat))
    f.mask.toNat (rowValues f o.cur ds ps)
  have hurun : u.cur.l.run = some r := (congrArg (fun T : Team => T.l.run) hcur).trans horun
  have hvrun : v.cur.l.run = some r := by
    obtain ⟨pt, cores, rfl⟩ := heq
    exact hurun
  have hturn : ∃ t, exec (.vldrow f) s = .next t ∧ v.retired t r false ∧ ∀ k, (t.core k).basin = (v.core k).basin := by
    show ∃ t, execVldrow f s = .next t ∧ _
    unfold execVldrow
    refine runLane_whole hat hfit hvrun ?_
    have hany := anyActive (i := .vldrow f) f.mask.toNat hactive
    rw [← ho] at hany ⊢
    rw [show passList (passSetOf s (.vldrow f)) = ps from hps.symm, M.bind_ok (M.getTeam_run o), if_pos hany,
      M.bind_ok (sampled_run horun f.va hlate)]
    subst hva
    exact (M.bind_ok hrow).trans ((M.bind_ok hds).trans ((M.bind_ok (rowValues_sound hgood o.cur p.la u)).trans hwrite))
  obtain ⟨t, hrun, hend, hbasin⟩ := hturn
  refine ⟨hurun, t, hrun, ?_, fun w hw => ?_, ?_⟩
  · obtain ⟨pt, cores, rfl⟩ := heq
    exact hend
  · by_cases hlt : w < f.vc.toNat
    · exact putAt_of_basin (hput w (List.mem_filter.2 ⟨hw, decide_eq_true hlt⟩)) hbasin
    · rw [valuesAt_above hlt]
      intro k _
      refine congrArg (rowWord · k) (basinBut_of_basin hbut hbasin _ fun hmem => ?_)
      obtain ⟨y, hy, heq⟩ := List.mem_map.1 hmem
      have hy := of_decide_eq_true (List.mem_filter.1 hy).2
      rw [rowAt_inj heq] at hy
      exact hlt hy
  · intro k hk
    refine basinBut_of_basin hbut hbasin k fun hmem => hk ?_
    obtain ⟨y, hy, heq⟩ := List.mem_map.1 hmem
    exact List.mem_map.2 ⟨y, (List.mem_filter.1 hy).1, heq⟩

end
end Sys2Proof.RowLoads


/-! # Rows of host windows (06 R147) -/

namespace Sys2Proof.HostRows
open Sys2Proof Sys2Proof.Machine Sys2Proof.LanePass Sys2Proof.OpenedPass Sys2Proof.MemoryBytes Sys2Proof.ReachedPlace Sys2Proof.RowUpdates
  Sys2Proof.RowLoads

section
variable {s : State} {va : Word64} {leaf : TlbLeaf} {n : Nat}

theorem translate_reaches {a : Access} (h : s.reaches a va n leaf) (hacc : a.acc ≠ 5) :
    Machine.translate { a with size := n } s.cur va s = .ok (placeOf leaf va) s := by
  obtain ⟨-, -, htlb, hfits⟩ := h
  have hleaf : findLeaf { a with size := n } s.cur va s = .ok leaf s := by
    simp only [findLeaf, hacc, htlb, M.bind_run, M.get_run, M.pure_run, if_false]
  exact (M.bind_ok hleaf).trans (M.bind_ok (checkWindow_fits hfits))

/-- A row whose translation is at hand is found without any change. -/
theorem locateRow_atHand (h : s.atHand (s.asLane Access.load 0) va (128 * n) leaf) (hn : n ≤ s.cur.n) :
    locateRow laneLoad s.cur va n s = .ok (placeOf leaf va) s := by
  obtain ⟨hreach, hkind⟩ := h
  have htrans := translate_reaches hreach (show Access.load.acc ≠ 5 by decide)
  obtain ⟨hva, halign, -⟩ := hreach
  have hva : va.toNat / 2 ^ 57 = 0 := Nat.div_eq_of_lt hva
  have hform : ¬(va.toNat % (128 * n) ≠ 0 ∨ s.cur.n < n) := not_or.2 ⟨not_not.2 halign, Nat.not_lt.2 hn⟩
  simp only [locateRow, checkVa, hva, hform, hkind, M.bind_run, M.pure_run, if_true, if_false]
  exact htrans

/-- The bytes of a host window are read at once. -/
theorem readPlace_host {a : Access} {T : Team} {p : Place64} {hint : Nat} (hlog : Win.logged p.desc = false) (hhost : Win.host p.desc = true)
    (hpost : s.postedTo T.uid .host (p.la % 2 ^ 45) n = false) : readPlace a T va p n hint sysRead s
      = .ok { value := s.host.readN (p.la % 2 ^ 45) n, poison := Table.get false s.hostBad (p.la % 2 ^ 45 / 32), stale := [] } s := by
  simp only [readPlace, M.bind_run, M.get_run, hlog, hhost, hpost, Bool.false_eq_true, if_false, if_true, M.pure_run]

/-- The sectors of a row of host memory. -/
def hostSectors (s : State) (la n : Nat) : List Delivered :=
  (List.range (4 * n)).map fun i => { data := BitVec.ofNat 256 (s.host.readN ((la + 32 * i) % 2 ^ 45) 32), poison := false }

theorem rowSectorsOf_host {a : Access} {T : Team} {p : Place64} {hint : Nat} (hlog : Win.logged p.desc = false) (hhost : Win.host p.desc = true)
    (hgood : ∀ i < 4 * n, s.postedTo T.uid .host ((p.la + 32 * i) % 2 ^ 45) 32 = false
      ∧ Table.get false s.hostBad ((p.la + 32 * i) % 2 ^ 45 / 32) = false) :
    rowSectorsOf a T va p n hint s = .ok (hostSectors s p.la n) s := by
  rw [rowSectorsOf, if_neg (by simp [hlog])]
  refine mapM_ok_of_mem fun i hi => ?_
  obtain ⟨hpost, hbad⟩ := hgood i (List.mem_range.1 hi)
  rw [M.bind_ok (readPlace_host (p := { p with la := p.la + 32 * i }) hlog hhost hpost), hbad]
  rfl

/-- A lane's word of a row of host memory. -/
theorem word_hostSectors {la l : Nat} (hl : l < 32 * n) : secBytes ((hostSectors s la n).getD (l / 8) unwritten).data (4 * (l % 8)) 4
    = s.host.readN ((la + 32 * (l / 8)) % 2 ^ 45 + 4 * (l % 8)) 4 := by
  have hlt : l / 8 < (hostSectors s la n).length := by
    rw [hostSectors, List.length_map, List.length_range]
    omega
  have hread := readN_lt s.host ((la + 32 * (l / 8)) % 2 ^ 45) 32
  rw [List.getD_eq_getElem _ _ hlt]
  simp only [hostSectors, List.getElem_map, List.getElem_range, secBytes, BitVec.toNat_ofNat]
  rw [Nat.mod_eq_of_lt hread, bits_readN _ (by omega)]

end

section
variable {f : LMem} {r : LaneRun} {va : Word64} {leaf : TlbLeaf} {ps : List Nat} {s : State} {ds : List Delivered} {T : Team} {w : Nat}

theorem valuesAt_rowValues : valuesAt (rowValues f T ds ps) w
    = ((T.rowLanes f.mask.toNat f.vc.toNat ps).filter fun l => l / 32 == w).map fun l =>
        (l % 32, BitVec.ofNat 32 (secBytes (ds.getD (l / 8) unwritten).data (4 * (l % 8)) 4)) := by
  rw [valuesAt, rowValues, List.filter_map, List.map_map]
  rfl

theorem lt_of_mem_rowLanes {l m n : Nat} (h : l ∈ T.rowLanes m n ps) : l < 32 * n := by
  obtain ⟨v, hv, hl⟩ := List.mem_flatMap.1 h
  obtain ⟨k, hk, rfl⟩ := List.mem_map.1 hl
  have hv := of_decide_eq_true (List.mem_filter.1 hv).2
  have hk := lt_of_mem_lanesOf hk
  omega

theorem valuesAt_hostSectors (s : State) (la : Nat) : valuesAt (rowValues f T (hostSectors s la f.vc.toNat) ps) w
    = ((T.rowLanes f.mask.toNat f.vc.toNat ps).filter fun l => l / 32 == w).map fun l =>
        (l % 32, BitVec.ofNat 32 (s.host.readN ((la + 32 * (l / 8)) % 2 ^ 45 + 4 * (l % 8)) 4)) := by
  rw [valuesAt_rowValues]
  refine List.map_congr_left fun l hl => ?_
  rw [word_hostSectors (lt_of_mem_rowLanes (List.mem_filter.1 hl).1)]

theorem vldrow_host (hat : s.laneAt (.vldrow f) r) (hfit : s.laneFit (.vldrow f)) (hsound : s.laneSound (.vldrow f))
    (hfmt : f.fmt ≠ 0x1C) (hps : ps = passList (s.cur.passSet [f.mask.toNat])) (hactive : ∃ w ∈ ps, s.cur.active f.mask.toNat w ≠ 0)
    (hlate : ∀ q ∈ r.blk.late, q.1 ≠ f.va.toNat)
    (hva : va = (if f.va = 0 then 0 else Table.get 0 r.blk.xs f.va.toNat) + f.imm32.signExtend 64) (hn : f.vc.toNat ≤ s.cur.n)
    (hhand : s.atHand (s.asLane Access.load 0) va (128 * f.vc.toNat) leaf) (hlog : Win.logged leaf.desc = false)
    (hhost : Win.host leaf.desc = true)
    (hgood : ∀ i < 4 * f.vc.toNat, s.postedTo s.cur.uid .host ((leaf.place va + 32 * i) % 2 ^ 45) 32 = false
      ∧ Table.get false s.hostBad ((leaf.place va + 32 * i) % 2 ^ 45 / 32) = false) :
    ∃ t, exec (.vldrow f) s = .next t ∧ s.retired t r false
      ∧ (∀ w ∈ ps, s.putAt t f.vd.toNat w (((s.cur.rowLanes f.mask.toNat f.vc.toNat ps).filter fun l => l / 32 == w).map fun l =>
          (l % 32, BitVec.ofNat 32 (s.host.readN ((leaf.place va + 32 * (l / 8)) % 2 ^ 45 + 4 * (l % 8)) 4))))
      ∧ s.basinBut t (ps.map fun w => s.cur.rowAt f.vd.toNat w) := by
  obtain ⟨p, x, d, hbegun⟩ := begun_eq s (.vldrow f)
  have hhand' : (s.begun (.vldrow f)).atHand ((s.begun (.vldrow f)).asLane Access.load 0) va (128 * f.vc.toNat) leaf := by
    rw [hbegun]
    exact hhand
  have hrow := locateRow_atHand hhand' (by rw [hbegun]; exact hn)
  have hds := rowSectorsOf_host (a := laneLoad) (T := (s.begun (.vldrow f)).cur) (va := va) (p := placeOf leaf va) (hint := f.hint.toNat)
    (n := f.vc.toNat) (s := s.begun (.vldrow f)) hlog hhost (by rw [hbegun]; exact hgood)
  obtain ⟨-, t, hrun, hend, hput, hbut⟩ := vldrow_loads hat hfit hsound hfmt hps rfl hactive hlate hva hrow hds fun d hd => by
    obtain ⟨i, -, rfl⟩ := List.mem_map.1 hd
    rfl
  refine ⟨t, hrun, retired_of_begun hend, fun w hw => ?_, ?_⟩
  · have hw := hput w hw
    rw [valuesAt_hostSectors, hbegun] at hw
    exact hw
  · rw [hbegun] at hbut
    exact hbut

end
end Sys2Proof.HostRows


/-! # Lane atomics and rows (06 R144 to R148) -/

namespace Sys2Proof.AtomicsAndRows
open Sys2Proof Sys2Proof.Machine Sys2Proof.LanePass Sys2Proof.LaneAtomics Sys2Proof.RowUpdates Sys2Proof.RowLoads Sys2Proof.HostRows

/-- The two lane atomics, with the operations that their operands give in the state `u`. -/
theorem atomicForm_of {g : LMem → Instr} {f : LMem} {op : Nat → AtomOp} {opd : BitVec 7 → Nat → Word64} {u : State}
    (hopd : ∀ v l, opd v l = operand u f v l)
    (hg : g = .vatom ∧ op = (fun l => .lane f.aop.toNat f.fmt.toNat (opd f.vb l))
      ∨ g = .vcas ∧ op = (fun l => .laneCas (memBits f.fmt) (opd f.vc l) (opd f.vb l))) :
    ∃ what, AtomicForm (g f) f what ∧ Answers u what op := by
  rcases hg with ⟨rfl, rfl⟩ | ⟨rfl, rfl⟩
  · simp only [hopd]
    exact ⟨_, atomicForm_vatom f, atomOp_answers f u⟩
  · simp only [hopd]
    exact ⟨_, atomicForm_vcas f, casOp_answers f u⟩

/-- Settles O49: the passes of lane atomics and the row words, each by the run of its body from the state in which it is opened. -/
theorem laneAtomicsAndRows : Obligations.LaneAtomicsAndRows := by
  unfold Obligations.LaneAtomicsAndRows
  refine ⟨?returned, ?atomics, ?rows, ?hostRows, ?updates⟩
  case returned =>
    intro g hg f r w fl s hat hfl hleft
    rcases List.mem_pair.1 hg with rfl | rfl
    · exact returned_pass (atomicForm_vatom f) hat hfl hleft
    · exact returned_pass (atomicForm_vcas f) hat hfl hleft
  case atomics =>
    intro g f r w op opd xs s o u hopd hg hat hfl ho hxs hpieces
    obtain ⟨what, hform, hans⟩ := atomicForm_of hopd hg
    have hsrcs : o = s.opened (g f) (touch s.cur.blk.nf (g f)).srcs w := ho
    refine ⟨fun hne hlog => sent_pass hform hat hfl hsrcs hxs hpieces hans hne hlog, ?_⟩
    intro x p a old hone hp hlog ha hpoison hold hapart
    subst hone ha hold
    exact host_pass hform hat hfl hsrcs hxs hp
      ((hpieces x (List.mem_singleton_self x)).2 p (hp ▸ List.mem_singleton_self p)) hans hlog hpoison hapart
  case rows =>
    intro f r va p ds ps s o u0 u hat hfit hsound hfmt hps ho hactive hlate hva hrow hds hgood _
    obtain ⟨hurun, t, hrun, hend, hput, hbut⟩ := vldrow_loads hat hfit hsound hfmt hps ho hactive hlate hva hrow hds hgood
    obtain ⟨hnext, hpasses, -, hstall, -, -, -, -, hhbm, -, -, hclusters, hslices, -⟩ := hend
    refine ⟨t, hrun, ?_, hpasses, hstall, hhbm, hclusters, hslices, fun w hw => ?_, hbut⟩
    · rw [hurun]
      exact hnext
    · rw [← valuesAt_rowValues]
      exact hput w hw
  case hostRows =>
    intro f r va leaf ps s n la hat hfit hsound hfmt hps hactive hlate hva _ hn hhand hlog hhost hgood
    exact vldrow_host hat hfit hsound hfmt hps hactive hlate hva hn hhand hlog hhost hgood
  case updates =>
    intro f r ps s o hat hfit _ ho hps
    subst ho hps
    refine ⟨fun fl hfl hleft => rowAtomic_retires hat hfit (rowAtomic_done (begun_flight.trans hfl) hleft _),
      fun hfl hidle => rowAtomic_retires hat hfit (rowAtomic_idle (begun_flight.trans hfl) fun w hw => (begun_active ..).trans (hidle w hw)),
      ?_⟩
    intro va p u0 u hfl hactive hlate hva hcount hrow hsound hlog
    obtain ⟨t, hrun, hstall, hflight, ⟨q, hq⟩, hhbm, hbut⟩ :=
      vrowatom_sends hat hfit rfl rfl hfl hactive hlate hva hcount hrow hsound hlog
    exact ⟨t, hrun, hstall, hflight, ⟨q, hq⟩, hhbm, hbut⟩

end Sys2Proof.AtomicsAndRows


/-! # Releases, acquires, fences and timelines (07 R158 to R162)

A drained team has nothing to wait for in the drain, and a mask whose colours no dirty sector of the task has leaves nothing to append.
A release is then its start and the wait for its publication; an acquire changes the team's stash rows and stamps, and its cluster. -/

namespace Sys2Proof.Ordering
open Sys2Proof Sys2Proof.Machine Sys2Proof.LogSteps

/-! ## The drain, and the append of dirty sectors (07 R158, R159) -/

/-- No dirty sector of a team in its cluster has a colour of a mask: its updates in them stand appended. -/
def Appended (s : State) (t : Team) (mask : Nat) : Prop :=
  ∀ d ∈ (s.cluster t.cluster).dirty, d.uid = t.uid → bitAt mask d.colour = false

theorem settleScalar_of_outs_nil {c : Scalar} (h : c.outs = []) : settleScalar c = c := by
  obtain ⟨x, pc, srpc, priv, hook, outs, phase, counted⟩ := c
  subst h
  rfl

theorem drain_run {s : State} (h : s.cur.drained) : drain s = .ok ⟨⟩ s := by
  obtain ⟨hqueue, hrun, houts⟩ := h
  have hsettled : s.withS settleScalar = s := by rw [State.withS, settleScalar_of_outs_nil houts]
  simp [drain, M.bind_run, Lane.outstanding, hqueue, hrun, houts, hsettled]

theorem appendDirty_run {s : State} {t : Team} {mask : Nat} (h : Appended s t mask) : appendDirty t mask s = .ok ⟨⟩ s := by
  have hnone : ((s.cluster t.cluster).dirty.filter fun d => d.uid == t.uid && bitAt mask d.colour) = [] := by
    rw [List.filter_eq_nil_iff]
    intro d hd
    simpa using h d hd
  rw [appendDirty, appendWhere, M.bind_run, M.get_run]
  dsimp only
  rw [hnone]
  rfl

theorem setPhase_cur (s : State) (p : Phase) : setPhase s.cur.uid p s = .ok ⟨⟩ (s.withS fun c => { c with phase := p }) := by
  rw [setPhase, M.onUid_run, onTeamId_cur]
  rfl

theorem wentTo_advance (s : State) : s.wentTo s.advance (s.pc + 4) := rfl

/-- The end of a word leaves nothing of the phase it stood in. -/
theorem wentTo_advance_phase (s : State) (p : Phase) : s.wentTo (s.withS fun c => { c with phase := p }).advance (s.pc + 4) := rfl

/-! ## The start of a release (07 R159, 02 R63) -/

/-- What a team that is no paired copy has behind it when it starts a release: its drain and its waits. -/
structure MayRelease (s : State) (scope mask : Nat) : Prop where
  drained : s.cur.drained
  fresh : s.cur.s.phase = .none
  single : s.cur.paired.role = 0
  engines : enginesDone s s.cur mask = true
  rows : postsDone s s.cur mask .computeRow = true
  posts : scope = Scope.system → (postsDone s s.cur mask .host && postsDone s s.cur mask .sysReg) = true

/-- The end of a release: where it has numbered a publication, it waits for the commit (07 R159). -/
def awaitCommit : M Unit := do
  match (← getTeam).s.phase with
  | .published psn => waitUnless (decide (psn ≤ (← get).commitPoint)) (.commit psn)
  | _ => pure ()

/-- A release whose waits are over is its start and its end. -/
theorem releaseAll_start {s u : State} {scope mask : Nat} {n : Option Nat} (h : MayRelease s scope mask)
    (hu : startRelease s.cur scope mask s = .ok n u) (hcur : u.cur = s.cur) :
    releaseAll scope mask 0 0 s = awaitCommit (u.withS fun c => { c with phase := phaseOf n }) := by
  obtain ⟨hdrained, hfresh, hsingle, hengines, hrows, hposts⟩ := h
  have hphase := setPhase_cur u (phaseOf n)
  rw [hcur] at hphase
  have hrest : (startRelease s.cur scope mask >>= fun n => setPhase s.cur.uid (phaseOf n) >>= fun _ => awaitCommit) s
      = awaitCommit (u.withS fun c => { c with phase := phaseOf n }) := by
    rw [M.bind_ok hu, M.bind_ok hphase]
  simp only [releaseAll, M.bind_run, M.getTeam_run, M.get_run, hfresh, drain_run hdrained, hengines, hrows, M.waitUnless_true,
    hsingle, ne_eq, not_true_eq_false, false_and, if_false]
  by_cases hsys : scope = Scope.system
  · rw [if_pos hsys, M.bind_run, hposts hsys, M.waitUnless_true]
    exact hrest
  · rw [if_neg hsys]
    exact hrest

/-- A release that found nothing to publish has ended. -/
theorem awaitCommit_released {s : State} (h : s.cur.s.phase = .released) : awaitCommit s = .ok ⟨⟩ s := by
  simp [awaitCommit, M.bind_run, h]

theorem awaitCommit_committed {s : State} {n : Nat} (h : s.cur.s.phase = .published n) (hn : n ≤ s.commitPoint) :
    awaitCommit s = .ok ⟨⟩ s := by
  rw [awaitCommit, M.bind_run, M.getTeam_run]
  simp only [h, M.bind_run, M.get_run, decide_eq_true hn, M.waitUnless_true]

theorem awaitCommit_waits {s : State} {n : Nat} (h : s.cur.s.phase = .published n) (hn : s.commitPoint < n) :
    awaitCommit s = .error (.wait (.commit n)) s := by
  rw [awaitCommit, M.bind_run, M.getTeam_run]
  simp only [h, M.bind_run, M.get_run, decide_eq_false (Nat.not_le.2 hn), M.waitUnless_false]

/-- A release word that goes on to its end. -/
theorem exec_rel_ok {s u : State} {c : BitVec 3} {m : BitVec 8} (h : releaseAll c.toNat m.toNat 0 0 s = .ok ⟨⟩ u) :
    exec (.rel c m) s = .next u.advance :=
  runTeam_ok (M.bind_ok h)

/-- A release word that waits. -/
theorem exec_rel_wait {s u : State} {c : BitVec 3} {m : BitVec 8} {w : WaitFor}
    (h : releaseAll c.toNat m.toNat 0 0 s = .error (.wait w) u) (huid : u.cur.uid = s.cur.uid) :
    exec (.rel c m) s = .next (u.parkCur w) := by
  rw [← parkTeam_cur, huid]
  exact runTeam_wait (M.bind_error h)

/-- A release that starts with nothing to publish goes on. -/
theorem exec_rel_of_none {s u : State} {c : BitVec 3} {m : BitVec 8} (h : MayRelease s c.toNat m.toNat)
    (hu : startRelease s.cur c.toNat m.toNat s = .ok none u) (hcur : u.cur = s.cur) :
    exec (.rel c m) s = .next (u.withS fun x => { x with phase := .released }).advance :=
  exec_rel_ok ((releaseAll_start h hu hcur).trans (awaitCommit_released rfl))

/-- A release of scope team starts with nothing (07 R159). -/
theorem startRelease_team (t : Team) (mask : Nat) (s : State) : startRelease t Scope.team mask s = .ok none s := by
  rw [startRelease, if_pos rfl, M.pure_run]

/-- An update of the task that is at task level and in the colours of a mask is raised to cluster level, at an order stamp (02 R60). -/
def raisedAt (t : Team) (mask st : Nat) (p : Pending) : Pending :=
  if p.uid = t.uid ∧ bitAt mask p.colour = true ∧ p.level = .task ∧ p.pub = none then { p with level := .cluster st } else p

/-- A release of scope core or cluster raises the task's updates (02 R60, 07 R159). -/
theorem startRelease_cluster {t : Team} {scope mask : Nat} {s : State} (hscope : scope = Scope.core ∨ scope = Scope.cluster)
    (happ : Appended s t mask) :
    startRelease t scope mask s = .ok none ({ s with stamp := s.stamp + 1 }.setCluster t.cluster
      { s.cluster t.cluster with weir := (s.cluster t.cluster).weir.map (raisedAt t mask s.stamp) }) := by
  have hteam : scope ≠ Scope.team := by rcases hscope with rfl | rfl <;> decide
  have hle : scope ≤ Scope.cluster := by rcases hscope with rfl | rfl <;> decide
  rw [startRelease, if_neg hteam, M.bind_ok (appendDirty_run happ), if_pos hle]
  rfl

/-- Settles O13: what starts such a release numbers no publication, so the word goes on. -/
theorem localReleases : Obligations.LocalReleases := by
  intro c m s hdrained hfresh hsingle hengines hrows
  have hmay (hc : c.toNat ≠ Scope.system) : MayRelease s c.toNat m.toNat :=
    ⟨hdrained, hfresh, hsingle, hengines, hrows, fun h => absurd h hc⟩
  constructor
  case left =>
    rintro rfl
    exact ⟨_, exec_rel_of_none (hmay (by decide)) (startRelease_team ..) rfl, wentTo_advance_phase ..⟩
  case right =>
    intro hscope happ
    have hc : c.toNat = Scope.core ∨ c.toNat = Scope.cluster := by
      rcases hscope with rfl | rfl
      · exact .inl rfl
      · exact .inr rfl
    have hnot : c.toNat ≠ Scope.system := by rcases hc with h | h <;> rw [h] <;> decide
    exact ⟨_, exec_rel_of_none (hmay hnot) (startRelease_cluster hc happ) rfl, rfl,
      congrArg Cluster.weir (State.cluster_setCluster_same ..), rfl, rfl⟩

/-! ## Publications of a release (02 R63) -/

/-- A run of a granule of a window, as a list of granule updates shows it. -/
def Shows (acc : List GranUpdate) (x : Nat × Nat × PubRun) : Prop := ∃ u ∈ acc, u.win = x.1 ∧ u.gran = x.2.1 ∧ x.2.2 ∈ u.runs

/-- The step of `groupRuns`: a run joins the update of its granule, or begins one. -/
def addRun (acc : List GranUpdate) (r : Nat × Nat × PubRun) : List GranUpdate :=
  if acc.any fun u => u.win == r.1 && u.gran == r.2.1 then
    acc.map fun u => if u.win = r.1 ∧ u.gran = r.2.1 then { u with runs := u.runs ++ [r.2.2] } else u
  else acc ++ [{ win := r.1, gran := r.2.1, runs := [r.2.2] }]

theorem groupRuns_eq (l : List (Nat × Nat × PubRun)) : groupRuns l = l.foldl addRun [] := rfl

theorem shows_addRun (acc : List GranUpdate) (r x : Nat × Nat × PubRun) : Shows (addRun acc r) x ↔ Shows acc x ∨ x = r := by
  obtain ⟨w, g, run⟩ := r
  obtain ⟨xw, xg, xrun⟩ := x
  unfold addRun Shows
  by_cases hany : (acc.any fun u => u.win == w && u.gran == g) = true
  · -- the update `v` of the granule takes the run
    rw [if_pos hany]
    obtain ⟨v, hv, hplace⟩ := List.any_eq_true.1 hany
    simp only [Bool.and_eq_true, beq_iff_eq] at hplace
    constructor
    · rintro ⟨u', hu', hwin, hgran, hrun⟩
      obtain ⟨u, hu, rfl⟩ := List.mem_map.1 hu'
      grind
    · rintro (⟨u, hu, hwin, hgran, hrun⟩ | hnew)
      · exact ⟨_, List.mem_map_of_mem hu, by grind⟩
      · exact ⟨_, List.mem_map_of_mem hv, by grind⟩
  · -- the run begins an update
    rw [if_neg hany]
    simp only [List.mem_append, List.mem_singleton, or_and_right, exists_or, exists_eq_left, Prod.mk.injEq, eq_comm (a := w),
      eq_comm (a := g)]

theorem shows_foldl_addRun (l : List (Nat × Nat × PubRun)) (acc : List GranUpdate) (x : Nat × Nat × PubRun) :
    Shows (l.foldl addRun acc) x ↔ Shows acc x ∨ x ∈ l := by
  induction l generalizing acc with
  | nil => simp
  | cons r l ih => rw [List.foldl_cons, ih, shows_addRun, List.mem_cons, or_assoc]

/-- Grouping by granule neither loses a run nor adds one. -/
theorem shows_groupRuns (l : List (Nat × Nat × PubRun)) (x : Nat × Nat × PubRun) : Shows (groupRuns l) x ↔ x ∈ l := by
  rw [groupRuns_eq, shows_foldl_addRun]
  simp [Shows]

/-- A pending update as `publishWhere` lists it for the share. -/
def runOf (p : Pending) : Nat × Nat × PubRun := (p.win, p.gran, ⟨p.set, p.live, p.pos⟩)

theorem mem_pendingOf {c : Cluster} {uid mask : Nat} {p : Pending} :
    p ∈ pendingOf c uid mask ↔ p ∈ c.weir ∧ p.uid = uid ∧ bitAt mask p.colour = true ∧ p.pub = none := by
  simp [pendingOf, and_assoc]

/-- The publication of a task's pending updates in the colours of a mask (02 R63 steps 1 and 2). -/
def releasePub (s : State) (t : Team) (mask : Nat) : Publication :=
  { psn := s.psnNext, who := .task t.uid, share := groupRuns ((pendingOf (s.cluster t.cluster) t.uid mask).map runOf), data := []
    prepared := 0, heldSent := 0, committed := false, noticed := 0 }

/-- A run of its share is a pending update of the task, and each of those has its run there. -/
theorem releasePub_share (s : State) (t : Team) (mask win gran : Nat) (r : PubRun) :
    (∃ u ∈ (releasePub s t mask).share, u.win = win ∧ u.gran = gran ∧ r ∈ u.runs)
      ↔ ∃ p ∈ (s.cluster t.cluster).weir, (p.uid = t.uid ∧ bitAt mask p.colour = true ∧ p.pub = none)
          ∧ p.win = win ∧ p.gran = gran ∧ r = ⟨p.set, p.live, p.pos⟩ := by
  have hshows := shows_groupRuns ((pendingOf (s.cluster t.cluster) t.uid mask).map runOf) (win, gran, r)
  refine hshows.trans ?_
  simp only [List.mem_map, mem_pendingOf, runOf, Prod.mk.injEq, and_assoc, eq_comm (a := r)]

/-- An update of the task in the colours of a mask is sealed into a publication. -/
def sealedInto (t : Team) (mask n : Nat) (p : Pending) : Pending :=
  if p.uid = t.uid ∧ bitAt mask p.colour = true ∧ p.pub = none then { p with pub := some n } else p

/-- The state after a task's updates have been sealed and numbered (02 R63 steps 1 to 3). -/
def numbered (s : State) (t : Team) (mask : Nat) : State :=
  { s with psnNext := s.psnNext + 1, pubs := s.pubs ++ [releasePub s t mask] }.setCluster t.cluster
    { s.cluster t.cluster with weir := (s.cluster t.cluster).weir.map (sealedInto t mask s.psnNext) }

theorem publishWhere_task (t : Team) (mask : Nat) (s : State) :
    publishWhere t.cluster (.task t.uid) (fun p => p.uid == t.uid && bitAt mask p.colour) s
      = if pendingOf (s.cluster t.cluster) t.uid mask = [] then .ok none s else .ok (some s.psnNext) (numbered s t mask) := by
  have hpending : ((s.cluster t.cluster).weir.filter fun q => q.pub == none && (q.uid == t.uid && bitAt mask q.colour))
      = pendingOf (s.cluster t.cluster) t.uid mask :=
    List.filter_congr fun q _ => Bool.and_comm ..
  have hseal : (fun q : Pending => if q.pub = none ∧ (q.uid == t.uid && bitAt mask q.colour) = true
      then { q with pub := some s.psnNext } else q) = sealedInto t mask s.psnNext := by
    funext q
    simp only [sealedInto, Bool.and_eq_true, beq_iff_eq, and_comm, and_left_comm]
  rw [publishWhere, M.bind_run, M.get_run]
  dsimp only
  rw [hpending]
  by_cases hnone : pendingOf (s.cluster t.cluster) t.uid mask = []
  · rw [if_pos hnone, hnone]
    rfl
  · rw [if_neg hnone, if_neg (by simpa using hnone), numbered, ← hseal]
    rfl

/-- A release of scope device or system publishes the task's updates (07 R159). -/
theorem startRelease_device {t : Team} {scope mask : Nat} {s : State} (hscope : scope = Scope.device ∨ scope = Scope.system)
    (happ : Appended s t mask) :
    startRelease t scope mask s
      = if pendingOf (s.cluster t.cluster) t.uid mask = [] then .ok none s else .ok (some s.psnNext) (numbered s t mask) := by
  have hteam : scope ≠ Scope.team := by rcases hscope with rfl | rfl <;> decide
  have hwide : ¬ scope ≤ Scope.cluster := by rcases hscope with rfl | rfl <;> decide
  rw [startRelease, if_neg hteam, M.bind_ok (appendDirty_run happ), if_neg hwide, publishWhere_task]

theorem releaseAll_published {s : State} {scope mask kind status n : Nat} (h : s.cur.s.phase = .published n) :
    releaseAll scope mask kind status s = awaitCommit s := by
  simp only [releaseAll, awaitCommit, M.bind_run, M.getTeam_run, h]

/-- A system release waits for the posted stores to the host and to registers (07 R159). -/
theorem releaseAll_system_waits {s : State} {mask : Nat} (hdrained : s.cur.drained) (hfresh : s.cur.s.phase = .none)
    (hengines : enginesDone s s.cur mask = true) (hrows : postsDone s s.cur mask .computeRow = true)
    (hposts : (postsDone s s.cur mask .host && postsDone s s.cur mask .sysReg) = false) :
    releaseAll Scope.system mask 0 0 s = .error (.wait .drain) s := by
  simp only [releaseAll, M.bind_run, M.getTeam_run, M.get_run, hfresh, drain_run hdrained, hengines, hrows, M.waitUnless_true, if_true,
    hposts, M.waitUnless_false]

/-- Settles O14: the start of the release seals and numbers what is pending, and its end waits for the commit. -/
theorem deviceReleases : Obligations.DeviceReleases := by
  intro c m s hc hsingle
  have hscope : c.toNat = Scope.device ∨ c.toNat = Scope.system := by
    rcases hc with rfl | rfl
    · exact .inl rfl
    · exact .inr rfl
  refine ⟨?start, ?posts, ?committed⟩
  case start =>
    intro hdrained hfresh hengines hrows hposts happ
    have hmay : MayRelease s c.toNat m.toNat := by
      refine ⟨hdrained, hfresh, hsingle, hengines, hrows, fun hsys => ?_⟩
      obtain ⟨hhost, hreg⟩ := hposts (BitVec.eq_of_toNat_eq hsys)
      rw [hhost, hreg, Bool.and_self]
    have hstart := startRelease_device hscope happ
    constructor
    case left =>
      rintro ⟨p, hp, hmine⟩ hbelow
      rw [if_neg (List.ne_nil_of_mem (mem_pendingOf.2 ⟨hp, hmine⟩))] at hstart
      have hwait := exec_rel_wait ((releaseAll_start hmay hstart rfl).trans (awaitCommit_waits rfl hbelow)) rfl
      exact ⟨_, releasePub s s.cur m.toNat, hwait, rfl, rfl, rfl, rfl, rfl, rfl, rfl, rfl, rfl, rfl, releasePub_share s s.cur m.toNat,
        congrArg Cluster.weir (State.cluster_setCluster_same ..), rfl, rfl⟩
    case right =>
      intro hnone
      rw [if_pos (List.eq_nil_iff_forall_not_mem.2 fun p hp => hnone p (mem_pendingOf.1 hp).1 (mem_pendingOf.1 hp).2)] at hstart
      exact ⟨_, exec_rel_of_none hmay hstart rfl, wentTo_advance_phase ..⟩
  case posts =>
    rintro rfl hdrained hfresh hengines hrows hposts
    exact exec_rel_wait (c := 5) (releaseAll_system_waits hdrained hfresh hengines hrows hposts) rfl
  case committed =>
    intro n hphase hn
    exact ⟨_, exec_rel_ok ((releaseAll_published hphase).trans (awaitCommit_committed hphase hn)), wentTo_advance s⟩

/-! ## Acquires (07 R160, 02 R69, R70) -/

theorem exec_acq_ok {s u : State} {c : BitVec 3} (hdrained : s.cur.drained) (h : acquire c.toNat s = .ok ⟨⟩ u) :
    exec (.acq c) s = .next u.advance :=
  runTeam_ok ((M.bind_ok (drain_run hdrained)).trans (M.bind_ok h))

theorem acquire_wide {scope : Nat} (hscope : scope = Scope.device ∨ scope = Scope.system) (s : State) :
    acquire scope s = acquireDevice s.cur s := by
  rcases hscope with rfl | rfl <;> rfl

/-- The state with these stash pages of the issuing team. -/
def withStash (s : State) (stash : List PageBank) : State := { s with cur := { s.cur with h := { s.cur.h with stash := stash } } }

/-- An acquire may drop stash rows of its team; it drops nothing else there (07 R163). -/
theorem dropCovered_run {s : State} {t : Team} (upTo : Nat) (huid : s.cur.uid = t.uid) :
    ∃ stash, dropCovered t upTo s = .ok ⟨⟩ (withStash s stash) := by
  rw [dropCovered, M.bind_run, M.get_run]
  dsimp only
  rw [M.onUid_run, ← huid, onTeamId_cur]
  exact ⟨_, rfl⟩

/-- A cluster-scope acquire takes the order stamp (07 R160). -/
theorem acquireCluster_run (s : State) : ∃ stash, acquireCluster s.cur s
    = .ok ⟨⟩ { withStash { s with stamp := s.stamp + 1 } stash with cur := { (withStash s stash).cur with clAcq := s.stamp } } := by
  obtain ⟨stash, hdrop⟩ := dropCovered_run (s := { s with stamp := s.stamp + 1 }) (t := s.cur) s.stamp rfl
  refine ⟨stash, ?_⟩
  rw [acquireCluster, M.bind_run, M.nextStamp_run]
  dsimp only
  rw [M.bind_ok hdrop, M.onUid_run]
  exact congrArg _ (onTeamId_cur ..)

theorem forM_modify {α : Type} (l : List α) (f : State → α → State) (s : State) :
    l.forM (fun a => (modify fun s => f s a : M PUnit)) s = .ok ⟨⟩ (l.foldl f s) := by
  induction l generalizing s with
  | nil => rfl
  | cons a l ih => exact (M.bind_ok (M.modify_run ..)).trans (ih _)

/-- Counting stale reads touches the window table and its lines alone: the team, the clusters and HBM stand. -/
theorem withStale_frame (s : State) (w n : Nat) :
    (withStale s w n).cur = s.cur ∧ (withStale s w n).clusters = s.clusters ∧ (withStale s w n).hbm = s.hbm := by
  rw [withStale, touchStructure_cur, touchStructure_clusters, touchStructure_hbm]
  exact ⟨State.setWindow_cur .., State.setWindow_clusters .., State.setWindow_hbm ..⟩

/-- The counts of a list of windows join their STALECNT. -/
def flushed (s : State) (l : List (Nat × Nat)) : State := l.foldl (fun u p => withStale u p.1 p.2) s

theorem flushed_frame (l : List (Nat × Nat)) (s : State) :
    (flushed s l).cur = s.cur ∧ (flushed s l).clusters = s.clusters ∧ (flushed s l).hbm = s.hbm := by
  induction l generalizing s with
  | nil => exact ⟨rfl, rfl, rfl⟩
  | cons p l ih =>
    obtain ⟨hcur, hclusters, hhbm⟩ := ih (withStale s p.1 p.2)
    obtain ⟨hcur', hclusters', hhbm'⟩ := withStale_frame s p.1 p.2
    exact ⟨hcur.trans hcur', hclusters.trans hclusters', hhbm.trans hhbm'⟩

/-- Adding a cluster's counts to STALECNT leaves its index as it is (02 R70). -/
theorem flushStale_run (cl : Nat) (s : State) : ∃ u, flushStale cl s = .ok ⟨⟩ u ∧ u.cur = s.cur ∧ u.hbm = s.hbm
    ∧ (u.cluster cl).ixb = (s.cluster cl).ixb := by
  obtain ⟨hcur, hclusters, hhbm⟩ := flushed_frame (s.cluster cl).stale s
  have hloop := forM_modify (s.cluster cl).stale (fun u p => withStale u p.1 p.2) s
  refine ⟨_, (M.bind_ok (M.get_run s)).trans ((M.bind_ok hloop).trans (M.onCluster_run ..)), hcur, hhbm, ?_⟩
  rw [State.cluster_setCluster_same]
  exact congrArg (fun t : Table Cluster => (Table.get Cluster.init t cl).ixb) hclusters

/-- The stash rows of the teams of a cluster after a device-scope acquire (04 R104). -/
def rowsKept (cl : Nat) (c : Cluster) (u : Team) : Team :=
  if u.cluster ≠ cl then u
  else { u with h := { u.h with stash := u.h.stash.map fun b => b.dropRows (c.rowOld b) } }

theorem rowsKept_s (cl : Nat) (c : Cluster) (u : Team) : (rowsKept cl c u).s = u.s := by
  unfold rowsKept
  split <;> rfl

theorem rowsKept_uid (cl : Nat) (c : Cluster) (u : Team) : (rowsKept cl c u).uid = u.uid := by
  unfold rowsKept
  split <;> rfl

/-- A cluster after a device-scope acquire of it (02 R69). -/
def indexKept (c : Cluster) (psn : Nat) : Cluster :=
  { c with ixb := c.ixb.filter fun e => !e.superseded, acqPsn := psn, raised := c.raised.filter fun r => decide (psn < r.psn) }

/-- The index of a cluster and the rows of its teams after a device-scope acquire; `c` is the cluster as the acquire found it. -/
def dropOld (s : State) (cl psn : Nat) (c : Cluster) : State :=
  { s.setCluster cl (indexKept (s.cluster cl) psn) with cur := rowsKept cl c s.cur, teams := s.teams.map (rowsKept cl c) }

theorem dropOld_cluster (s : State) (cl psn : Nat) (c : Cluster) : (dropOld s cl psn c).cluster cl = indexKept (s.cluster cl) psn :=
  State.cluster_setCluster_same ..

/-- A team after its device-scope acquire (07 R160, R163). -/
def stampAcquire (stamp psn : Nat) (u : Team) : Team := { u with clAcq := stamp, own := u.own.filter fun p => decide (psn < p.psn) }

/-- A device-scope acquire whose commit notices have come drops the superseded entries and notes the PSN (02 R69, 07 R160). -/
theorem acquireDevice_run {s : State} (hnoticed : s.commitPoint ≤ (s.cluster s.cur.cluster).noticed) :
    ∃ u, acquireDevice s.cur s = .ok ⟨⟩ u ∧ u.cur.s = s.cur.s ∧ u.hbm = s.hbm
      ∧ (u.cluster s.cur.cluster).ixb = (s.cluster s.cur.cluster).ixb.filter (fun e => !e.superseded)
      ∧ (u.cluster s.cur.cluster).acqPsn = s.commitPoint := by
  have hwait : waitUnless (decide (s.commitPoint ≤ (s.cluster s.cur.cluster).noticed)) .commitNotices s = .ok ⟨⟩ s := by
    rw [decide_eq_true hnoticed, M.waitUnless_true]
  obtain ⟨s1, hflush, hcur, hhbm, hixb⟩ := flushStale_run s.cur.cluster { s with stamp := s.stamp + 1 }
  have hscalar : s1.cur.s = s.cur.s := congrArg Team.s hcur
  have huid : s1.cur.uid = s.cur.uid := congrArg Team.uid hcur
  obtain ⟨stash, hdrop⟩ := dropCovered_run s.stamp huid
  have hindex := dropOld_cluster (withStash s1 stash) s.cur.cluster s.commitPoint (s.cluster s.cur.cluster)
  have hrun : acquireDevice s.cur s = .ok ⟨⟩
      ((dropOld (withStash s1 stash) s.cur.cluster s.commitPoint (s.cluster s.cur.cluster)).onTeamId s.cur.uid
        (stampAcquire s.stamp s.commitPoint)) :=
    (M.bind_ok (M.get_run s)).trans <| (M.bind_ok hwait).trans <| (M.bind_ok (M.nextStamp_run s)).trans <| (M.bind_ok hflush).trans <|
      (M.bind_ok hdrop).trans <| (M.bind_ok (M.onCluster_run ..)).trans <| (M.bind_ok (M.modify_run ..)).trans (M.onUid_run ..)
  have hown : (dropOld (withStash s1 stash) s.cur.cluster s.commitPoint (s.cluster s.cur.cluster)).cur.uid = s.cur.uid :=
    (rowsKept_uid ..).trans huid
  rw [← hown, onTeamId_cur] at hrun
  exact ⟨_, hrun, (rowsKept_s ..).trans hscalar, hhbm,
    (congrArg Cluster.ixb hindex).trans (congrArg (List.filter fun e : IxbEntry => !e.superseded) hixb), congrArg Cluster.acqPsn hindex⟩

theorem acquireDevice_waits {s : State} (hnoticed : (s.cluster s.cur.cluster).noticed < s.commitPoint) :
    acquireDevice s.cur s = .error (.wait .commitNotices) s := by
  rw [acquireDevice, M.bind_run, M.get_run]
  simp only [decide_eq_false (Nat.not_le.2 hnoticed)]
  exact M.bind_error (M.waitUnless_false ..)

/-- Settles O15: the acquire of each scope after the drain, which leaves a drained team as it is. -/
theorem acquires : Obligations.Acquires := by
  intro c s hdrained
  have hwide (hc : c = 4 ∨ c = 5) : acquire c.toNat s = acquireDevice s.cur s :=
    acquire_wide (by rcases hc with rfl | rfl; exacts [.inl rfl, .inr rfl]) s
  refine ⟨?team, ?cluster, ?device, ?waits⟩
  case team =>
    rintro rfl
    exact ⟨_, exec_acq_ok hdrained rfl, wentTo_advance s⟩
  case cluster =>
    intro hc
    obtain ⟨stash, hrun⟩ := acquireCluster_run s
    have hacquire : acquire c.toNat s = acquireCluster s.cur s := by rcases hc with rfl | rfl <;> rfl
    exact ⟨_, exec_acq_ok hdrained (hacquire.trans hrun), rfl, rfl, rfl, rfl⟩
  case device =>
    intro hc hnoticed
    obtain ⟨u, hrun, hpc, hhbm, hixb, hpsn⟩ := acquireDevice_run hnoticed
    exact ⟨_, exec_acq_ok hdrained ((hwide hc).trans hrun), congrArg (fun c : Scalar => c.pc + 4) hpc, hixb, hpsn, hhbm⟩
  case waits =>
    intro hc hlate
    have hrun := (hwide hc).trans (acquireDevice_waits hlate)
    rw [← parkTeam_cur]
    exact runTeam_wait ((M.bind_ok (drain_run hdrained)).trans (M.bind_error hrun))

/-! ## Fences and timelines (07 R161, R162) -/

/-- A fence of a drained team whose stores ask for no wait. -/
theorem fenceAll_run {s : State} {kind mask : Nat} (hdrained : s.cur.drained)
    (h : kind = 2 ∨ Appended s s.cur mask ∧ ∀ p ∈ s.posted, p.uid = s.cur.uid → bitAt mask p.colour = false) :
    fenceAll kind mask s = .ok ⟨⟩ s := by
  rw [fenceAll, M.bind_ok (drain_run hdrained), M.bind_ok (M.getTeam_run s)]
  by_cases hload : kind = 2
  · rw [if_neg (not_not.2 hload)]
    rfl
  · obtain ⟨happ, hposted⟩ := h.resolve_left hload
    have hdone (target : PostedTo) : postsDone s s.cur mask target = true := by
      rw [postsDone, List.all_eq_true]
      intro p hp
      by_cases huid : p.uid = s.cur.uid
      · simp [hposted p hp huid]
      · simp [huid]
    rw [if_pos hload, M.bind_ok (appendDirty_run happ), M.bind_run, M.get_run]
    dsimp only
    rw [hdone, hdone, hdone]
    rfl

/-- A wait on an issued operation number goes on at the counter, or waits for it (07 R162). -/
theorem exec_tlwait {s : State} {a : XReg} {n : BitVec 3} (hissued : (s.getX a).toNat ≤ s.cur.h.tlIssued.getD n.toNat 0) :
    exec (.tlwait a n) s = if (s.getX a).toNat ≤ s.cur.h.tl.getD n.toNat 0 then .next s.advance
      else .next (s.parkCur (.timeline n.toNat (s.getX a).toNat)) := by
  show runTeam _ s = _
  by_cases hreached : (s.getX a).toNat ≤ s.cur.h.tl.getD n.toNat 0
  · rw [if_pos hreached]
    refine runTeam_ok ?_
    simp only [M.bind_run, M.getTeam_run, if_neg (Nat.not_lt.2 hissued), decide_eq_true hreached, M.waitUnless_true, M.advance_run]
  · rw [if_neg hreached, ← parkTeam_cur]
    refine runTeam_wait ?_
    simp only [M.bind_run, M.getTeam_run, if_neg (Nat.not_lt.2 hissued), decide_eq_false hreached, M.waitUnless_false]

/-- Settles O16: the fence finds nothing to append or to wait for; the counter decides the wait. -/
theorem fencesAndTimelines : Obligations.FencesAndTimelines := by
  refine ⟨fun k m s hdrained h => ?fence, fun d a n s => ⟨fun hissued => ⟨fun hreached => ?goes, fun hbelow => ?waits⟩, ?read⟩⟩
  case fence =>
    have hkind : k.toNat = 2 ∨ _ := h.imp (congrArg BitVec.toNat) id
    exact ⟨_, runTeam_ok (M.bind_ok (fenceAll_run hdrained hkind)), wentTo_advance s⟩
  case goes => exact ⟨_, (exec_tlwait hissued).trans (if_pos hreached), wentTo_advance s⟩
  case waits => exact (exec_tlwait hissued).trans (if_neg (Nat.not_le.2 hbelow))
  case read => exact ⟨_, rfl, fun r => State.getX_result .., State.result_pc .., rfl⟩

end Sys2Proof.Ordering
